-- ==== Sys2Proof/Syntax.lean ====
section
/-! DEFINITION. The instructions of the Salsoris S4: one constructor per row of spec/opcode_table.json, the program
instructions first. A program instruction carries its operand fields (10_encoding_assembly.md R180); its guard (R182), which
every guarded format has at bits 2:0, is latched in the state when it issues. A switch instruction (16_switch_image.md R298)
and a frame of an image (R303) name their operation here and take their fields from the latched word. An event of the device,
the host or an engine carries the data that come from outside; the place it happens at is the state's. -/

namespace Sys2Proof

/-- One constructor per row of the table; the rule that defines each row stands beside it. -/
inductive Instr where
  | add (d a b : BitVec 5)  -- R208
  | sub (d a b : BitVec 5)  -- R208
  | and (d a b : BitVec 5)  -- R208
  | or (d a b : BitVec 5)  -- R208
  | xor (d a b : BitVec 5)  -- R208
  | andn (d a b : BitVec 5)  -- R208
  | shl (d a b : BitVec 5)  -- R208
  | shr (d a b : BitVec 5)  -- R208
  | sar (d a b : BitVec 5)  -- R208
  | rol (d a b : BitVec 5)  -- R208
  | ror (d a b : BitVec 5)  -- R208
  | min (d a b : BitVec 5)  -- R208
  | max (d a b : BitVec 5)  -- R208
  | minu (d a b : BitVec 5)  -- R208
  | maxu (d a b : BitVec 5)  -- R208
  | adds (d a b : BitVec 5)  -- R208
  | subs (d a b : BitVec 5)  -- R208
  | addus (d a b : BitVec 5)  -- R208
  | subus (d a b : BitVec 5)  -- R208
  | mov (d a : BitVec 5)  -- R208
  | sxb (d a : BitVec 5)  -- R208
  | sxh (d a : BitVec 5)  -- R208
  | sxw (d a : BitVec 5)  -- R208
  | zxb (d a : BitVec 5)  -- R208
  | zxh (d a : BitVec 5)  -- R208
  | zxw (d a : BitVec 5)  -- R208
  | clz (d a : BitVec 5)  -- R208
  | ctz (d a : BitVec 5)  -- R208
  | pcnt (d a : BitVec 5)  -- R208
  | mul (d a b : BitVec 5)  -- R212
  | mulh (d a b : BitVec 5)  -- R212
  | mulhu (d a b : BitVec 5)  -- R212
  | mulhsu (d a b : BitVec 5)  -- R212
  | div (d a b : BitVec 5)  -- R212
  | divu (d a b : BitVec 5)  -- R212
  | rem (d a b : BitVec 5)  -- R212
  | remu (d a b : BitVec 5)  -- R212
  | addi (d a : BitVec 5) (i : BitVec 13)  -- R209
  | andi (d a : BitVec 5) (i : BitVec 13)  -- R209
  | ori (d a : BitVec 5) (i : BitVec 13)  -- R209
  | xori (d a : BitVec 5) (i : BitVec 13)  -- R209
  | shli (d a : BitVec 5) (n : BitVec 6)  -- R210
  | shri (d a : BitVec 5) (n : BitVec 6)  -- R210
  | sari (d a : BitVec 5) (n : BitVec 6)  -- R210
  | roli (d a : BitVec 5) (n : BitVec 6)  -- R210
  | rori (d a : BitVec 5) (n : BitVec 6)  -- R210
  | lhi (d : BitVec 5) (h : BitVec 2) (c : BitVec 16)  -- R211
  | cmp (d : BitVec 3) (a b : BitVec 5) (m : BitVec 2) (c : BitVec 4)  -- R213
  | cmpi (d : BitVec 3) (a : BitVec 5) (c : BitVec 3) (i : BitVec 10)  -- R214
  | pand (d a b : BitVec 3)  -- R215
  | por (d a b : BitVec 3)  -- R215
  | pxor (d a b : BitVec 3)  -- R215
  | pandn (d a b : BitVec 3)  -- R215
  | pnot (d a : BitVec 3)  -- R215
  | prds (d : BitVec 5) (a : BitVec 3)  -- R215
  | pwrs (d : BitVec 3) (a : BitVec 5)  -- R215
  | prdall (d : BitVec 5)  -- R215
  | pwrall (a : BitVec 5)  -- R215
  | sel (d a b : BitVec 5) (n : BitVec 3)  -- R216
  | ipa (d : BitVec 5) (i : BitVec 18)  -- R217
  | bt (p : BitVec 3) (o : BitVec 19)  -- R218
  | bf (p : BitVec 3) (o : BitVec 19)  -- R218
  | jmp (o : BitVec 25)  -- R219
  | call (o : BitVec 25)  -- R219
  | jr (a : BitVec 5)  -- R220
  | jalr (d a : BitVec 5)  -- R220
  | ld (d a : BitVec 5) (i : BitVec 11) (z : BitVec 2)  -- R225
  | st (d a : BitVec 5) (i : BitVec 11) (z : BitVec 2)  -- R226
  | vld (d a : BitVec 5) (i : BitVec 11)  -- R227
  | vldLo (d a : BitVec 5) (i : BitVec 11)  -- R227
  | vst (d a : BitVec 5) (i : BitVec 11)  -- R227
  | vstLo (d a : BitVec 5) (i : BitVec 11)  -- R227
  | vgat (d a b : BitVec 5) (s : BitVec 2) (k : BitVec 3) (t : BitVec 2)  -- R228
  | vsct (d a b : BitVec 5) (s : BitVec 2) (k : BitVec 3) (t : BitVec 2)  -- R228
  | aswap (d a b : BitVec 5) (o : BitVec 2) (s : BitVec 3)  -- R230
  | aadd (d a b : BitVec 5) (o : BitVec 2) (s : BitVec 3)  -- R230
  | aand (d a b : BitVec 5) (o : BitVec 2) (s : BitVec 3)  -- R230
  | aor (d a b : BitVec 5) (o : BitVec 2) (s : BitVec 3)  -- R230
  | axor (d a b : BitVec 5) (o : BitVec 2) (s : BitVec 3)  -- R230
  | amax (d a b : BitVec 5) (o : BitVec 2) (s : BitVec 3)  -- R230
  | amin (d a b : BitVec 5) (o : BitVec 2) (s : BitVec 3)  -- R230
  | amaxu (d a b : BitVec 5) (o : BitVec 2) (s : BitVec 3)  -- R230
  | cas (d a b : BitVec 5) (o : BitVec 2) (s : BitVec 3) (w : BitVec 1)  -- R231
  | gtest (d a : BitVec 5)  -- R233
  | gcast (d a : BitVec 5) (w : BitVec 3)  -- R233
  | cinv (a b : BitVec 5)  -- R234
  | cflush (a b : BitVec 5)  -- R234
  | cpref (a b : BitVec 5)  -- R234
  | fence (s : BitVec 3)  -- R100
  | stdone (d a : BitVec 5) (s : BitVec 3)  -- R103
  | stdoneq (q : BitVec 3) (a : BitVec 5) (s : BitVec 3)  -- R103
  | stm (d a : BitVec 5) (k : BitVec 3)  -- R229
  | stq (d a b : BitVec 5) (w : BitVec 1) (n : BitVec 7) (r : BitVec 16) (v : BitVec 8) (q : BitVec 3) (x : BitVec 1)  -- R236
  | qpush (q : BitVec 3) (a : BitVec 5)  -- R240
  | qpushv (q : BitVec 3) (a : BitVec 5)  -- R240
  | qpop (d : BitVec 5) (q : BitVec 3)  -- R240
  | qpopv (d : BitVec 5) (q : BitVec 3)  -- R240
  | qcount (d : BitVec 5) (q : BitVec 3)  -- R240
  | qtag (d : BitVec 5) (q : BitVec 3)  -- R240
  | qdrop (q : BitVec 3)  -- R240
  | bset (n : BitVec 3) (a : BitVec 5)  -- R241
  | bspill (n : BitVec 3) (a b : BitVec 5)  -- R241
  | bget (d : BitVec 5) (n : BitVec 3)  -- R241
  | vadd (d a b : BitVec 5) (k : BitVec 3) (t : BitVec 2)  -- R248
  | vsub (d a b : BitVec 5) (k : BitVec 3) (t : BitVec 2)  -- R248
  | vmul (d a b : BitVec 5) (k : BitVec 3) (t : BitVec 2)  -- R248
  | vmulh (d a b : BitVec 5) (k : BitVec 3) (t : BitVec 2)  -- R248
  | vmin (d a b : BitVec 5) (k : BitVec 3) (t : BitVec 2)  -- R248
  | vmax (d a b : BitVec 5) (k : BitVec 3) (t : BitVec 2)  -- R248
  | vadds (d a b : BitVec 5) (k : BitVec 3) (t : BitVec 2)  -- R248
  | vsubs (d a b : BitVec 5) (k : BitVec 3) (t : BitVec 2)  -- R248
  | vavg (d a b : BitVec 5) (k : BitVec 3) (t : BitVec 2)  -- R248
  | vabsd (d a b : BitVec 5) (k : BitVec 3) (t : BitVec 2)  -- R248
  | vand (d a b : BitVec 5) (k : BitVec 3) (t : BitVec 2)  -- R248
  | vor (d a b : BitVec 5) (k : BitVec 3) (t : BitVec 2)  -- R248
  | vxor (d a b : BitVec 5) (k : BitVec 3) (t : BitVec 2)  -- R248
  | vandn (d a b : BitVec 5) (k : BitVec 3) (t : BitVec 2)  -- R248
  | vshl (d a b : BitVec 5) (k : BitVec 3) (t : BitVec 2)  -- R248
  | vshr (d a b : BitVec 5) (k : BitVec 3) (t : BitVec 2)  -- R248
  | vdiv (d a b : BitVec 5) (k : BitVec 3) (t : BitVec 2)  -- R248
  | vrem (d a b : BitVec 5) (k : BitVec 3) (t : BitVec 2)  -- R248
  | vneg (d a : BitVec 5) (k : BitVec 3) (t : BitVec 2)  -- R248
  | vabs (d a : BitVec 5) (k : BitVec 3) (t : BitVec 2)  -- R248
  | vmuls (d a b : BitVec 5) (k : BitVec 3) (t : BitVec 2)  -- R248
  | valusVadd (d a b : BitVec 5) (x : BitVec 1) (k : BitVec 3) (t : BitVec 2)  -- R249
  | valusVsub (d a b : BitVec 5) (x : BitVec 1) (k : BitVec 3) (t : BitVec 2)  -- R249
  | valusVmul (d a b : BitVec 5) (x : BitVec 1) (k : BitVec 3) (t : BitVec 2)  -- R249
  | valusVmulh (d a b : BitVec 5) (x : BitVec 1) (k : BitVec 3) (t : BitVec 2)  -- R249
  | valusVmin (d a b : BitVec 5) (x : BitVec 1) (k : BitVec 3) (t : BitVec 2)  -- R249
  | valusVmax (d a b : BitVec 5) (x : BitVec 1) (k : BitVec 3) (t : BitVec 2)  -- R249
  | valusVadds (d a b : BitVec 5) (x : BitVec 1) (k : BitVec 3) (t : BitVec 2)  -- R249
  | valusVsubs (d a b : BitVec 5) (x : BitVec 1) (k : BitVec 3) (t : BitVec 2)  -- R249
  | valusVavg (d a b : BitVec 5) (x : BitVec 1) (k : BitVec 3) (t : BitVec 2)  -- R249
  | valusVabsd (d a b : BitVec 5) (x : BitVec 1) (k : BitVec 3) (t : BitVec 2)  -- R249
  | valusVand (d a b : BitVec 5) (x : BitVec 1) (k : BitVec 3) (t : BitVec 2)  -- R249
  | valusVor (d a b : BitVec 5) (x : BitVec 1) (k : BitVec 3) (t : BitVec 2)  -- R249
  | valusVxor (d a b : BitVec 5) (x : BitVec 1) (k : BitVec 3) (t : BitVec 2)  -- R249
  | valusVandn (d a b : BitVec 5) (x : BitVec 1) (k : BitVec 3) (t : BitVec 2)  -- R249
  | valusVshl (d a b : BitVec 5) (x : BitVec 1) (k : BitVec 3) (t : BitVec 2)  -- R249
  | valusVshr (d a b : BitVec 5) (x : BitVec 1) (k : BitVec 3) (t : BitVec 2)  -- R249
  | valusVdiv (d a b : BitVec 5) (x : BitVec 1) (k : BitVec 3) (t : BitVec 2)  -- R249
  | valusVrem (d a b : BitVec 5) (x : BitVec 1) (k : BitVec 3) (t : BitVec 2)  -- R249
  | valusVmuls (d a b : BitVec 5) (x : BitVec 1) (k : BitVec 3) (t : BitVec 2)  -- R249
  | vfadd (d a b : BitVec 5) (k : BitVec 3) (t : BitVec 2)  -- R250
  | vfsub (d a b : BitVec 5) (k : BitVec 3) (t : BitVec 2)  -- R250
  | vfmul (d a b : BitVec 5) (k : BitVec 3) (t : BitVec 2)  -- R250
  | vfdiv (d a b : BitVec 5) (k : BitVec 3) (t : BitVec 2)  -- R250
  | vfmin (d a b : BitVec 5) (k : BitVec 3) (t : BitVec 2)  -- R250
  | vfmax (d a b : BitVec 5) (k : BitVec 3) (t : BitVec 2)  -- R250
  | vfsqrt (d a : BitVec 5) (k : BitVec 3) (t : BitVec 2)  -- R250
  | vfrcp (d a : BitVec 5) (k : BitVec 3) (t : BitVec 2)  -- R250
  | vfrsqrt (d a : BitVec 5) (k : BitVec 3) (t : BitVec 2)  -- R250
  | vfexp2 (d a : BitVec 5) (k : BitVec 3) (t : BitVec 2)  -- R250
  | vflog2 (d a : BitVec 5) (k : BitVec 3) (t : BitVec 2)  -- R250
  | vfabs (d a : BitVec 5) (k : BitVec 3) (t : BitVec 2)  -- R250
  | vfneg (d a : BitVec 5) (k : BitVec 3) (t : BitVec 2)  -- R250
  | vfsgnj (d a b : BitVec 5) (k : BitVec 3) (t : BitVec 2)  -- R250
  | vfma (d a b c : BitVec 5) (k : BitVec 3) (t : BitVec 2)  -- R251
  | vfms (d a b c : BitVec 5) (k : BitVec 3) (t : BitVec 2)  -- R251
  | vmac (d a b c : BitVec 5) (k : BitVec 3) (t : BitVec 2)  -- R252
  | vdot (d a b c : BitVec 5) (k : BitVec 3) (t : BitVec 2)  -- R252
  | vcvt (d a : BitVec 5) (x : BitVec 2) (k : BitVec 3) (t : BitVec 2)  -- R253
  | vcvtn (d a : BitVec 5) (x : BitVec 2) (h : BitVec 1) (k : BitVec 3) (t : BitVec 2)  -- R253
  | vcvtw (d a : BitVec 5) (x : BitVec 2) (h : BitVec 1) (k : BitVec 3) (t : BitVec 2)  -- R253
  | vperm (d a b : BitVec 5) (k : BitVec 3)  -- R254
  | vslup (d a b : BitVec 5) (k : BitVec 3)  -- R254
  | vsldn (d a b : BitVec 5) (k : BitVec 3)  -- R254
  | vslupIm (d a i : BitVec 5) (k : BitVec 3)  -- R254
  | vsldnIm (d a i : BitVec 5) (k : BitVec 3)  -- R254
  | vzipl (d a b : BitVec 5) (k : BitVec 3)  -- R254
  | vziph (d a b : BitVec 5) (k : BitVec 3)  -- R254
  | vunzpe (d a b : BitVec 5) (k : BitVec 3)  -- R254
  | vunzpo (d a b : BitVec 5) (k : BitVec 3)  -- R254
  | vrsum (d a : BitVec 5) (k : BitVec 3) (t : BitVec 2)  -- R255
  | vrmin (d a : BitVec 5) (k : BitVec 3) (t : BitVec 2)  -- R255
  | vrmax (d a : BitVec 5) (k : BitVec 3) (t : BitVec 2)  -- R255
  | vrand (d a : BitVec 5) (k : BitVec 3) (t : BitVec 2)  -- R255
  | vror (d a : BitVec 5) (k : BitVec 3) (t : BitVec 2)  -- R255
  | vrxor (d a : BitVec 5) (k : BitVec 3) (t : BitVec 2)  -- R255
  | vrfsum (d a : BitVec 5) (k : BitVec 3) (t : BitVec 2)  -- R255
  | vrsumw (d a : BitVec 5) (k : BitVec 3) (t : BitVec 2)  -- R255
  | kand (d a b : BitVec 3)  -- R256
  | kor (d a b : BitVec 3)  -- R256
  | kxor (d a b : BitVec 3)  -- R256
  | kandn (d a b : BitVec 3)  -- R256
  | knot (d a : BitVec 3)  -- R256
  | kset (d : BitVec 3) (a : BitVec 5)  -- R256
  | kget (d : BitVec 5) (a : BitVec 3)  -- R256
  | kcnt (d : BitVec 5) (a : BitVec 3)  -- R256
  | vcomp (d a b : BitVec 5) (k : BitVec 3)  -- R257
  | vexp (d a : BitVec 5) (k : BitVec 3)  -- R257
  | vmov (d a : BitVec 5) (k : BitVec 3)  -- R258
  | vsplat (d a : BitVec 5) (k : BitVec 3)  -- R258
  | vsplati (d : BitVec 5) (i : BitVec 10) (k : BitVec 3)  -- R258
  | vins (d a x : BitVec 5)  -- R258
  | vext (d a x : BitVec 5) (t : BitVec 2)  -- R258
  | vcfg (z : BitVec 1) (w : BitVec 2)  -- R258
  | vcmp (d : BitVec 3) (a b : BitVec 5) (c : BitVec 3) (m : BitVec 2) (k : BitVec 3) (t : BitVec 2)  -- R259
  | tkpeek (d a : BitVec 5)  -- R263
  | tkpeekQ (d : BitVec 5) (q : BitVec 3)  -- R263
  | tkpop (d a : BitVec 5)  -- R263
  | tkpopQ (d : BitVec 5) (q : BitVec 3)  -- R263
  | tkpopv (d a : BitVec 5)  -- R263
  | tkpopvQ (d : BitVec 5) (q : BitVec 3)  -- R263
  | tksend (d a : BitVec 5) (t : BitVec 4)  -- R263
  | tksendQ (q : BitVec 3) (a : BitVec 5) (t : BitVec 4)  -- R263
  | tksendv (d a : BitVec 5) (t : BitVec 4)  -- R263
  | tksendvQ (q : BitVec 3) (a : BitVec 5) (t : BitVec 4)  -- R263
  | steer (d a b e : BitVec 4) (l : BitVec 3)  -- R173
  | tee (d a e : BitVec 4) (l : BitVec 3)  -- R175
  | merge (d a b e : BitVec 4) (l : BitVec 3)  -- R174
  | fscan (l : BitVec 3) (i o : BitVec 4) (x y z : BitVec 5)  -- R270
  | fisect (l : BitVec 3) (i j o : BitVec 4)  -- R271
  | funion (l : BitVec 3) (i j o : BitVec 4)  -- R271
  | frep (l : BitVec 3) (i j o : BitVec 4)  -- R272
  | fzip (l : BitVec 3) (i j o : BitVec 4) (t p : BitVec 2)  -- R273
  | fload (l : BitVec 3) (i o : BitVec 4) (r : BitVec 1) (x z : BitVec 5)  -- R274
  | fred (l : BitVec 3) (i o : BitVec 4) (t p : BitVec 2)  -- R275
  | fwrite (l : BitVec 3) (i o : BitVec 4) (r : BitVec 1) (x z : BitVec 5)  -- R274
  | btag (d a : BitVec 5) (c : BitVec 4)  -- R265
  | btagQ (d : BitVec 5) (q : BitVec 3) (c : BitVec 4)  -- R265
  | wload (a b c : BitVec 5) (f : BitVec 2) (v : BitVec 1) (s : BitVec 3)  -- R280
  | wexport (a : BitVec 5) (s : BitVec 3)  -- R281
  | wexportRv (s : BitVec 3)  -- R281
  | mmq (a b c d : BitVec 5) (h f v : BitVec 1) (k : BitVec 28)  -- R283
  | accrd (a : BitVec 5) (f : BitVec 2) (s : BitVec 3) (w : BitVec 4) (c : BitVec 3)  -- R284
  | accclr (s : BitVec 3) (w c : BitVec 4)  -- R285
  | carm (a : BitVec 5) (n : BitVec 4)  -- R155
  | cfire (n : BitVec 4)  -- R156
  | cdis (n : BitVec 4)  -- R157
  | cstat (a : BitVec 5) (n : BitVec 4)  -- R158
  | binit (a b : BitVec 5)  -- R287
  | barr (d a : BitVec 5)  -- R287
  | bwait (d a b : BitVec 5)  -- R287
  | btest (d a : BitVec 5)  -- R287
  | spawn (d a b : BitVec 5)  -- R288
  | send (d a b : BitVec 5)  -- R289
  | stake (d : BitVec 5)  -- R291
  | crd (d c : BitVec 5)  -- R292
  | cwr (c a : BitVec 5)  -- R292
  | trap (n : BitVec 5)  -- R293
  | sensorSample (vals : List (BitVec 32))  -- R387
  | positionFence (obj : BitVec 64)  -- R402
  | channelRetrainComplete (lane : BitVec 7) (tm vm : BitVec 8)  -- R365
  | hostRegisterWrite (off : BitVec 21) (size : BitVec 4) (v : BitVec 64)  -- R339
  | doorbell (q : BitVec 4) (v : BitVec 32)  -- R341
  | injectionSubmit (w v : BitVec 4)  -- R350
  | hostMemWrite (pa : BitVec 41) (mask : BitVec 32) (data : BitVec 256)  -- R107
  | ret  -- R220
  | cinvAll  -- R234
  | tdone  -- R290
  | potinit  -- R41
  | wquiet  -- R45
  | commit  -- R48
  | eret  -- R295
  | wfi  -- R293
  | brk  -- R293
  | halt  -- R293
  | deviceReset  -- R383
  | launchQueueEnable (q : BitVec 4) (v : BitVec 32)  -- R340
  | launchQueueDisable (q : BitVec 4) (v : BitVec 32)  -- R353
  | eventQueueEnable (e : BitVec 4) (v : BitVec 32)  -- R348
  | eventQueueDisable (e : BitVec 4) (v : BitVec 32)  -- R348
  | consumedWrite (e : BitVec 4) (v : BitVec 32)  -- R348
  | devnumWrite (v : BitVec 8)  -- R352
  | routeWrite (dev v : BitVec 8)  -- R352
  | hostMemRead (pa : BitVec 41)  -- R107
  | hostSnoop (addr : BitVec 64)  -- R338
  | launch  -- R345
  | shadowLoad  -- R347
  | stop  -- R347
  | schedulerPlacement  -- R345
  | candidateOverdue  -- R345
  | preemptDiscard  -- R346
  | header  -- R304
  | code  -- R305
  | switch  -- R304
  | bankClaim  -- R304
  | bankData  -- R304
  | template  -- R154
  | link  -- R304
  | matrix  -- R131
  | start  -- R304
  | loadComplete  -- R306
  | residencyEnd  -- R51
  | watchdogExpiry  -- R50
  | commitRequest  -- R48
  | commitReply  -- R48
  | discard  -- R49
  | discardArrival  -- R376
  | discardStepDone  -- R376
  | faultReport  -- R377
  | asyncFaultArrival  -- R239
  | asyncFaultDelivery  -- R239
  | spillFault  -- R378
  | eventRecordPost  -- R348
  | tlbinv  -- R359
  | regload  -- R362
  | spillresume  -- R378
  | rowthresh  -- R369
  | eyecfg  -- R365
  | powercap  -- R389
  | sensorread  -- R387
  | logread  -- R387
  | replaycfg  -- R390
  | replayload  -- R391
  | almanacread  -- R395
  | firmwareUpdate (comp : BitVec 2) (sec : BitVec 64) (body : List (BitVec 8)) (sig : BitVec 64)  -- R384
  | getVersion  -- R385
  | getCapabilities  -- R385
  | negotiateAlgorithms (algs : BitVec 32)  -- R385
  | getDigests  -- R385
  | getCertificate (slot : BitVec 8) (off len : BitVec 16)  -- R385
  | challenge (slot : BitVec 8) (nonce : BitVec 256)  -- R385
  | getMeasurements (op : BitVec 8) (nonce : BitVec 256)  -- R385
  | throttleUpdate  -- R389
  | patrolScrub  -- R368
  | periodicRefresh  -- R408
  | rowPrecharge  -- R370
  | eyeMarginLow (lane : BitVec 7) (tm vm : BitVec 8)  -- R365
  | memoryPortAdmit  -- R162
  | tlbWalkComplete  -- R358
  | loadResponse  -- R224
  | writeAcknowledgement  -- R99
  | fabricRequest  -- R57
  | fabricNack  -- R57
  | routerPacket  -- R91
  | peerPacketArrival (hdr : BitVec 256) (payload : List (BitVec 256))  -- R352
  | staticWordArrival  -- R72
  | creditReturn  -- R72
  | flipAtStreamPort  -- R85
  | streamStep  -- R169
  | fifoSpillRefill  -- R69
  | bankModeChangeEffect  -- R63
  | triggerPop  -- R156
  | copyStart  -- R156
  | copyElementIssue  -- R156
  | copyReadReturn  -- R152
  | copyComplete  -- R159
  | barrierEngineArrival  -- R163
  | bwaitWake  -- R287
  | matrixRequestToken  -- R145
  | remoteMatrixRequest  -- R140
  | aFetchComplete  -- R146
  | groupHoldExpiry  -- R147
  | groupOverdue  -- R148
  | groupIssue  -- R148
  | rowLeaveLane  -- R134
  | wloadWrite  -- R132
  | accumulatorApply  -- R142
  | psumPacket  -- R141
  | remoteCompletion  -- R140
  | borrowRequest  -- R43
  | borrowReply  -- R42
  | returnMessage  -- R43
  | aggregatorSend  -- R44
  | wquietWake  -- R45
  | stealRequest  -- R39
  | stealResponse  -- R39
  | stealPassWait  -- R39
  | activeMessageArrival  -- R40
  | stqPacket  -- R237
  | stqNotify  -- R237
  | stqAnswer  -- R238
  | wfiWake  -- R293
  | snext  -- R300
  | sjump  -- R300
  | sloop  -- R300
  | sdbr  -- R300
  | sbtag  -- R300
  | swait  -- R300
  | sflip  -- R301
  | shalt  -- R300
  | powerLoss (torn : Option (BitVec 256))  -- R395
  | illegalInstruction  -- R188
  | fetchFault  -- R179
  deriving DecidableEq, Repr

end Sys2Proof
end

