-- ==== Sys2Proof/WellFormed.lean ====
section
/-! DEFINITION. What makes an instruction one the S4 has: the reserved codes and fields of each entry (R181, R184, R188), the
reserved codes of switch instructions (R298, R300) and of frames (R303, R304). -/

namespace Sys2Proof

/-- A register field that names a register and no port (R184). -/
abbrev isReg (f : BitVec 5) : Prop := f < 27#5

/-- A register field that names a port (R77). -/
abbrev isPort (f : BitVec 5) : Prop := 27#5 ≤ f

/-- An endpoint code that names a queue or a port (R261). -/
abbrev epOk (e : BitVec 4) : Prop := e < 13#4

/-- No queue named twice, no port twice among the inputs or twice among the outputs (R261). The code 15 names nothing. -/
abbrev epDistinct (ins outs : List (BitVec 4)) : Prop :=
  ins.Nodup ∧ outs.Nodup ∧ ∀ e ∈ ins, e < 8#4 → e ∉ outs

/-- The control registers that `cwr` may name (R292): all but IP, CTXID, COREID, TILEID, RESID, STAKE, CYCLE and INSTRET. -/
abbrev crWritable (c : BitVec 5) : Prop := (5#5 ≤ c ∧ c ≤ 12#5) ∨ c = 16#5 ∨ c = 17#5

/-- The fields of `mmq` (R278, R282, R283): H = 0 names a slot, an A source of 1 leaves field b zero and one of 2 names a queue,
a RETURN to a queue names it in field c, a RETURN to memory a register, any other mode neither; without a barrier field d
is zero; the modes 5 to 7, the A source 3 and the RETURN format 3 are reserved. -/
abbrev mmqOk (a b c d : BitVec 5) (h f v : BitVec 1) (k : BitVec 28) : Prop :=
  (h = 0#1 → a < 8#5) ∧ (h = 1#1 → isReg a) ∧
  k.extractLsb' 25 3 < 5#3 ∧ k.extractLsb' 2 2 ≠ 3#2 ∧ k.extractLsb' 0 2 ≠ 3#2 ∧
  (k.extractLsb' 2 2 = 0#2 → isReg b) ∧ (k.extractLsb' 2 2 = 1#2 → b = 0#5) ∧ (k.extractLsb' 2 2 = 2#2 → b < 8#5) ∧
  (f = 1#1 → k.extractLsb' 25 3 = 3#3 ∧ c < 8#5) ∧
  (f = 0#1 → (k.extractLsb' 25 3 = 3#3 → isReg c) ∧ (k.extractLsb' 25 3 ≠ 3#3 → c = 0#5)) ∧
  (v = 0#1 → d = 0#5) ∧ (v = 1#1 → isReg d)

/-- A head test of a switch instruction: source 1 to 12 and condition 0x0 to 0xD (R300). -/
abbrev testOk (x c : BitVec 4) : Prop := 1#4 ≤ x ∧ x < 13#4 ∧ c < 14#4

/-- Every one of the twelve route fields of a switch instruction holds a source code from 0 to 12 (R298). -/
abbrev routesOk (r : BitVec 48) : Prop := ∀ j ∈ List.range 12, r.extractLsb' (4 * j) 4 < 13#4

/-- The eight entries of a LINK frame: owner 0, 1 or 4 + q (R304). -/
abbrev linkOk (ents : BitVec 32) : Prop :=
  ∀ j ∈ List.range 8, ents.extractLsb' (4 * j) 3 ≠ 2#3 ∧ ents.extractLsb' (4 * j) 3 ≠ 3#3

/-- The instruction is one the S4 has. -/
def wellFormed : Instr → Bool
  | .add _ _ _ => true
  | .sub _ _ _ => true
  | .and _ _ _ => true
  | .or _ _ _ => true
  | .xor _ _ _ => true
  | .andn _ _ _ => true
  | .shl _ _ _ => true
  | .shr _ _ _ => true
  | .sar _ _ _ => true
  | .rol _ _ _ => true
  | .ror _ _ _ => true
  | .min _ _ _ => true
  | .max _ _ _ => true
  | .minu _ _ _ => true
  | .maxu _ _ _ => true
  | .adds _ _ _ => true
  | .subs _ _ _ => true
  | .addus _ _ _ => true
  | .subus _ _ _ => true
  | .mov _ _ => true
  | .sxb _ _ => true
  | .sxh _ _ => true
  | .sxw _ _ => true
  | .zxb _ _ => true
  | .zxh _ _ => true
  | .zxw _ _ => true
  | .clz _ _ => true
  | .ctz _ _ => true
  | .pcnt _ _ => true
  | .mul _ _ _ => true
  | .mulh _ _ _ => true
  | .mulhu _ _ _ => true
  | .mulhsu _ _ _ => true
  | .div _ _ _ => true
  | .divu _ _ _ => true
  | .rem _ _ _ => true
  | .remu _ _ _ => true
  | .addi _ _ _ => true
  | .andi _ _ _ => true
  | .ori _ _ _ => true
  | .xori _ _ _ => true
  | .shli _ _ _ => true
  | .shri _ _ _ => true
  | .sari _ _ _ => true
  | .roli _ _ _ => true
  | .rori _ _ _ => true
  | .lhi d h _ => decide (h = 0#2 ∨ isReg d)
  | .cmp _ _ _ m c => decide (m ≠ 3#2 ∧ c < 8#4)
  | .cmpi _ _ _ _ => true
  | .pand _ _ _ => true
  | .por _ _ _ => true
  | .pxor _ _ _ => true
  | .pandn _ _ _ => true
  | .pnot _ _ => true
  | .prds _ _ => true
  | .pwrs _ _ => true
  | .prdall _ => true
  | .pwrall _ => true
  | .sel _ _ _ _ => true
  | .ipa _ _ => true
  | .bt _ _ => true
  | .bf _ _ => true
  | .jmp _ => true
  | .call _ => true
  | .jr _ => true
  | .jalr _ _ => true
  | .ld _ _ _ _ => true
  | .st _ _ _ _ => true
  | .vld _ _ _ => true
  | .vldLo _ _ _ => true
  | .vst _ _ _ => true
  | .vstLo _ _ _ => true
  | .vgat _ _ _ _ _ t => decide (t < 2#2)
  | .vsct _ _ _ _ _ t => decide (t < 2#2)
  | .aswap _ _ _ _ s => decide (s < 6#3)
  | .aadd _ _ _ _ s => decide (s < 6#3)
  | .aand _ _ _ _ s => decide (s < 6#3)
  | .aor _ _ _ _ s => decide (s < 6#3)
  | .axor _ _ _ _ s => decide (s < 6#3)
  | .amax _ _ _ _ s => decide (s < 6#3)
  | .amin _ _ _ _ s => decide (s < 6#3)
  | .amaxu _ _ _ _ s => decide (s < 6#3)
  | .cas _ _ _ _ s _ => decide (s < 6#3)
  | .gtest _ _ => true
  | .gcast _ _ w => decide (w < 5#3)
  | .cinv _ _ => true
  | .cflush _ _ => true
  | .cpref _ _ => true
  | .fence s => decide (s < 6#3)
  | .stdone d _ s => decide (s < 6#3 ∧ isPort d)
  | .stdoneq _ _ s => decide (s < 6#3)
  | .stm _ _ _ => true
  | .stq d _ _ _ n _ _ q x => decide (n < 64#7 ∧ (x = 0#1 → d = 0#5 ∧ q = 0#3))
  | .qpush _ _ => true
  | .qpushv _ _ => true
  | .qpop _ _ => true
  | .qpopv _ _ => true
  | .qcount _ _ => true
  | .qtag _ _ => true
  | .qdrop _ => true
  | .bset _ _ => true
  | .bspill _ _ _ => true
  | .bget _ _ => true
  | .vadd _ _ _ _ t => decide (t < 2#2)
  | .vsub _ _ _ _ t => decide (t < 2#2)
  | .vmul _ _ _ _ t => decide (t < 2#2)
  | .vmulh _ _ _ _ t => decide (t < 2#2)
  | .vmin _ _ _ _ t => decide (t < 2#2)
  | .vmax _ _ _ _ t => decide (t < 2#2)
  | .vadds _ _ _ _ t => decide (t < 2#2)
  | .vsubs _ _ _ _ t => decide (t < 2#2)
  | .vavg _ _ _ _ t => decide (t < 2#2)
  | .vabsd _ _ _ _ t => decide (t < 2#2)
  | .vand _ _ _ _ t => decide (t < 2#2)
  | .vor _ _ _ _ t => decide (t < 2#2)
  | .vxor _ _ _ _ t => decide (t < 2#2)
  | .vandn _ _ _ _ t => decide (t < 2#2)
  | .vshl _ _ _ _ t => decide (t < 2#2)
  | .vshr _ _ _ _ t => decide (t < 2#2)
  | .vdiv _ _ _ _ t => decide (t < 2#2)
  | .vrem _ _ _ _ t => decide (t < 2#2)
  | .vneg _ _ _ t => decide (t < 2#2)
  | .vabs _ _ _ t => decide (t < 2#2)
  | .vmuls _ _ _ _ t => decide (t < 2#2)
  | .valusVadd _ _ _ _ _ t => decide (t < 2#2)
  | .valusVsub _ _ _ _ _ t => decide (t < 2#2)
  | .valusVmul _ _ _ _ _ t => decide (t < 2#2)
  | .valusVmulh _ _ _ _ _ t => decide (t < 2#2)
  | .valusVmin _ _ _ _ _ t => decide (t < 2#2)
  | .valusVmax _ _ _ _ _ t => decide (t < 2#2)
  | .valusVadds _ _ _ _ _ t => decide (t < 2#2)
  | .valusVsubs _ _ _ _ _ t => decide (t < 2#2)
  | .valusVavg _ _ _ _ _ t => decide (t < 2#2)
  | .valusVabsd _ _ _ _ _ t => decide (t < 2#2)
  | .valusVand _ _ _ _ _ t => decide (t < 2#2)
  | .valusVor _ _ _ _ _ t => decide (t < 2#2)
  | .valusVxor _ _ _ _ _ t => decide (t < 2#2)
  | .valusVandn _ _ _ _ _ t => decide (t < 2#2)
  | .valusVshl _ _ _ _ _ t => decide (t < 2#2)
  | .valusVshr _ _ _ _ _ t => decide (t < 2#2)
  | .valusVdiv _ _ _ _ _ t => decide (t < 2#2)
  | .valusVrem _ _ _ _ _ t => decide (t < 2#2)
  | .valusVmuls _ _ _ _ _ t => decide (t < 2#2)
  | .vfadd _ _ _ _ t => decide (2#2 ≤ t)
  | .vfsub _ _ _ _ t => decide (2#2 ≤ t)
  | .vfmul _ _ _ _ t => decide (2#2 ≤ t)
  | .vfdiv _ _ _ _ t => decide (2#2 ≤ t)
  | .vfmin _ _ _ _ t => decide (2#2 ≤ t)
  | .vfmax _ _ _ _ t => decide (2#2 ≤ t)
  | .vfsqrt _ _ _ t => decide (2#2 ≤ t)
  | .vfrcp _ _ _ t => decide (2#2 ≤ t)
  | .vfrsqrt _ _ _ t => decide (2#2 ≤ t)
  | .vfexp2 _ _ _ t => decide (2#2 ≤ t)
  | .vflog2 _ _ _ t => decide (2#2 ≤ t)
  | .vfabs _ _ _ t => decide (2#2 ≤ t)
  | .vfneg _ _ _ t => decide (2#2 ≤ t)
  | .vfsgnj _ _ _ _ t => decide (2#2 ≤ t)
  | .vfma _ _ _ _ _ t => decide (2#2 ≤ t)
  | .vfms _ _ _ _ _ t => decide (2#2 ≤ t)
  | .vmac _ _ _ _ _ t => decide (t < 2#2)
  | .vdot _ _ _ _ _ t => decide (t < 2#2)
  | .vcvt _ _ _ _ _ => true
  | .vcvtn _ _ _ _ _ _ => true
  | .vcvtw _ _ _ _ _ _ => true
  | .vperm _ _ _ _ => true
  | .vslup _ _ _ _ => true
  | .vsldn _ _ _ _ => true
  | .vslupIm _ _ _ _ => true
  | .vsldnIm _ _ _ _ => true
  | .vzipl _ _ _ _ => true
  | .vziph _ _ _ _ => true
  | .vunzpe _ _ _ _ => true
  | .vunzpo _ _ _ _ => true
  | .vrsum _ _ _ t => decide (t < 2#2)
  | .vrmin _ _ _ _ => true
  | .vrmax _ _ _ _ => true
  | .vrand _ _ _ t => decide (t < 2#2)
  | .vror _ _ _ t => decide (t < 2#2)
  | .vrxor _ _ _ t => decide (t < 2#2)
  | .vrfsum _ _ _ t => decide (2#2 ≤ t)
  | .vrsumw _ _ _ t => decide (t < 2#2)
  | .kand _ _ _ => true
  | .kor _ _ _ => true
  | .kxor _ _ _ => true
  | .kandn _ _ _ => true
  | .knot _ _ => true
  | .kset _ _ => true
  | .kget _ _ => true
  | .kcnt _ _ => true
  | .vcomp _ _ _ _ => true
  | .vexp _ _ _ => true
  | .vmov _ _ _ => true
  | .vsplat _ _ _ => true
  | .vsplati _ _ _ => true
  | .vins d _ _ => decide (isReg d)
  | .vext _ _ _ _ => true
  | .vcfg _ _ => true
  | .vcmp _ _ _ c m _ t => decide (c < 7#3 ∧ m ≠ 3#2 ∧ (c = 6#3 → 2#2 ≤ t))
  | .tkpeek _ a => decide (isPort a)
  | .tkpeekQ _ _ => true
  | .tkpop _ a => decide (isPort a)
  | .tkpopQ _ _ => true
  | .tkpopv _ a => decide (isPort a)
  | .tkpopvQ _ _ => true
  | .tksend d _ t => decide (isPort d ∧ t < 11#4)
  | .tksendQ _ _ t => decide (t < 11#4)
  | .tksendv d _ t => decide (isPort d ∧ t < 11#4)
  | .tksendvQ _ _ t => decide (t < 11#4)
  | .steer d a b e l => decide (l < 5#3 ∧ epOk d ∧ epOk a ∧ epOk b ∧ epOk e ∧ epDistinct [a, b] [d, e])
  | .tee d a e l => decide (l < 5#3 ∧ epOk d ∧ epOk a ∧ epOk e ∧ epDistinct [a] [d, e])
  | .merge d a b e l => decide (l < 5#3 ∧ epOk d ∧ epOk a ∧ epOk b ∧ epOk e ∧ epDistinct [a, b, e] [d])
  | .fscan l i o x y z => decide (l < 5#3 ∧ epOk i ∧ epOk o ∧ epDistinct [i] [o] ∧ isReg x ∧ isReg y ∧ isReg z)
  | .fisect l i j o => decide (l < 5#3 ∧ epOk i ∧ epOk j ∧ epOk o ∧ epDistinct [i, j] [o])
  | .funion l i j o => decide (l < 5#3 ∧ epOk i ∧ epOk j ∧ epOk o ∧ epDistinct [i, j] [o])
  | .frep l i j o => decide (l < 5#3 ∧ epOk i ∧ epOk j ∧ epOk o ∧ epDistinct [i, j] [o])
  | .fzip l i j o t _ => decide (l < 5#3 ∧ epOk i ∧ epOk j ∧ epOk o ∧ epDistinct [i, j] [o] ∧ t ≠ 3#2)
  | .fload l i o _ x z => decide (l < 5#3 ∧ epOk i ∧ epOk o ∧ epDistinct [i] [o] ∧ isReg x ∧ isReg z)
  | .fred l i o t _ => decide (l < 5#3 ∧ epOk i ∧ epOk o ∧ epDistinct [i] [o] ∧ t ≠ 3#2)
  | .fwrite l i o _ x z => decide (l < 5#3 ∧ epOk i ∧ (o = 15#4 ∨ epOk o) ∧ epDistinct [i] [o] ∧ isReg x ∧ isReg z)
  | .btag d a c => decide (isReg d ∧ isPort a ∧ c ≠ 14#4)
  | .btagQ d _ c => decide (isReg d ∧ c ≠ 14#4)
  | .wload a b c f v _ => decide (isReg a ∧ isReg b ∧ f ≠ 3#2 ∧ (v = 0#1 → c = 0#5) ∧ (v = 1#1 → isReg c))
  | .wexport a _ => decide (isReg a)
  | .wexportRv _ => true
  | .mmq a b c d h f v k => decide (mmqOk a b c d h f v k)
  | .accrd _ f _ _ c => decide (f ≠ 3#2 ∧ (f = 1#2 → c < 4#3))
  | .accclr _ _ _ => true
  | .carm a _ => decide (isReg a)
  | .cfire _ => true
  | .cdis _ => true
  | .cstat a _ => decide (isReg a)
  | .binit _ _ => true
  | .barr _ _ => true
  | .bwait _ _ _ => true
  | .btest _ _ => true
  | .spawn _ _ _ => true
  | .send _ _ _ => true
  | .stake _ => true
  | .crd _ c => decide (c < 18#5)
  | .cwr c _ => decide (c < 18#5 ∧ crWritable c)
  | .trap _ => true
  | .hostRegisterWrite _ size _ => decide (size ≤ 8#4)
  | .doorbell _ _ => true
  | .injectionSubmit _ _ => true
  | .hostMemWrite _ _ _ => true
  | .ret => true
  | .cinvAll => true
  | .tdone => true
  | .potinit => true
  | .wquiet => true
  | .commit => true
  | .eret => true
  | .wfi => true
  | .brk => true
  | .halt => true
  | .deviceReset => true
  | .launchQueueEnable _ _ => true
  | .launchQueueDisable _ _ => true
  | .eventQueueEnable _ _ => true
  | .eventQueueDisable _ _ => true
  | .consumedWrite _ _ => true
  | .devnumWrite _ => true
  | .routeWrite _ _ => true
  | .hostMemRead _ => true
  | .hostSnoop _ => true
  | .launch => true
  | .shadowLoad => true
  | .stop => true
  | .schedulerPlacement => true
  | .candidateOverdue => true
  | .preemptDiscard => true
  | .header => true
  | .code => true
  | .switch => true
  | .bankClaim => true
  | .bankData => true
  | .template => true
  | .link => true
  | .matrix => true
  | .start => true
  | .loadComplete => true
  | .residencyEnd => true
  | .watchdogExpiry => true
  | .commitRequest => true
  | .commitReply => true
  | .discard => true
  | .discardArrival => true
  | .discardStepDone => true
  | .faultReport => true
  | .asyncFaultArrival => true
  | .asyncFaultDelivery => true
  | .spillFault => true
  | .eventRecordPost => true
  | .tlbinv => true
  | .regload => true
  | .spillresume => true
  | .rowthresh => true
  | .eyecfg => true
  | .powercap => true
  | .sensorread => true
  | .logread => true
  | .replaycfg => true
  | .replayload => true
  | .almanacread => true
  | .firmwareUpdate _ _ _ _ => true
  | .getVersion => true
  | .getCapabilities => true
  | .negotiateAlgorithms _ => true
  | .getDigests => true
  | .getCertificate _ _ _ => true
  | .challenge _ _ => true
  | .getMeasurements _ _ => true
  | .sensorSample _ => true
  | .throttleUpdate => true
  | .positionFence _ => true
  | .patrolScrub => true
  | .periodicRefresh => true
  | .rowPrecharge => true
  | .eyeMarginLow _ _ _ => true
  | .channelRetrainComplete _ _ _ => true
  | .memoryPortAdmit => true
  | .tlbWalkComplete => true
  | .loadResponse => true
  | .writeAcknowledgement => true
  | .fabricRequest => true
  | .fabricNack => true
  | .routerPacket => true
  | .peerPacketArrival _ _ => true
  | .staticWordArrival => true
  | .creditReturn => true
  | .flipAtStreamPort => true
  | .streamStep => true
  | .fifoSpillRefill => true
  | .bankModeChangeEffect => true
  | .triggerPop => true
  | .copyStart => true
  | .copyElementIssue => true
  | .copyReadReturn => true
  | .copyComplete => true
  | .barrierEngineArrival => true
  | .bwaitWake => true
  | .matrixRequestToken => true
  | .remoteMatrixRequest => true
  | .aFetchComplete => true
  | .groupHoldExpiry => true
  | .groupOverdue => true
  | .groupIssue => true
  | .rowLeaveLane => true
  | .wloadWrite => true
  | .accumulatorApply => true
  | .psumPacket => true
  | .remoteCompletion => true
  | .borrowRequest => true
  | .borrowReply => true
  | .returnMessage => true
  | .aggregatorSend => true
  | .wquietWake => true
  | .stealRequest => true
  | .stealResponse => true
  | .stealPassWait => true
  | .activeMessageArrival => true
  | .stqPacket => true
  | .stqNotify => true
  | .stqAnswer => true
  | .wfiWake => true
  | .snext => true
  | .sjump => true
  | .sloop => true
  | .sdbr => true
  | .sbtag => true
  | .swait => true
  | .sflip => true
  | .shalt => true
  | .powerLoss _ => true
  | .illegalInstruction => true
  | .fetchFault => true

end Sys2Proof
end

