-- ==== Sys2Proof/Decode.lean ====
section
/-! DEFINITION. The decoders and encoders of program instructions (10_encoding_assembly.md R178 to R188), switch instructions
(16_switch_image.md R298) and image frames (R303, R304). Each decoder is total and refuses what it does not list. -/

namespace Sys2Proof

/-- Major 0x00 (R187). -/
def decodeMajor00 (w : BitVec 32) : Option Instr :=
  if w.extractLsb' 3 8 = 0#8 then
    some (.add (w.extractLsb' 21 5) (w.extractLsb' 16 5) (w.extractLsb' 11 5))
  else if w.extractLsb' 3 8 = 1#8 then
    some (.sub (w.extractLsb' 21 5) (w.extractLsb' 16 5) (w.extractLsb' 11 5))
  else if w.extractLsb' 3 8 = 2#8 then
    some (.and (w.extractLsb' 21 5) (w.extractLsb' 16 5) (w.extractLsb' 11 5))
  else if w.extractLsb' 3 8 = 3#8 then
    some (.or (w.extractLsb' 21 5) (w.extractLsb' 16 5) (w.extractLsb' 11 5))
  else if w.extractLsb' 3 8 = 4#8 then
    some (.xor (w.extractLsb' 21 5) (w.extractLsb' 16 5) (w.extractLsb' 11 5))
  else if w.extractLsb' 3 8 = 5#8 then
    some (.andn (w.extractLsb' 21 5) (w.extractLsb' 16 5) (w.extractLsb' 11 5))
  else if w.extractLsb' 3 8 = 6#8 then
    some (.shl (w.extractLsb' 21 5) (w.extractLsb' 16 5) (w.extractLsb' 11 5))
  else if w.extractLsb' 3 8 = 7#8 then
    some (.shr (w.extractLsb' 21 5) (w.extractLsb' 16 5) (w.extractLsb' 11 5))
  else if w.extractLsb' 3 8 = 8#8 then
    some (.sar (w.extractLsb' 21 5) (w.extractLsb' 16 5) (w.extractLsb' 11 5))
  else if w.extractLsb' 3 8 = 9#8 then
    some (.rol (w.extractLsb' 21 5) (w.extractLsb' 16 5) (w.extractLsb' 11 5))
  else if w.extractLsb' 3 8 = 10#8 then
    some (.ror (w.extractLsb' 21 5) (w.extractLsb' 16 5) (w.extractLsb' 11 5))
  else if w.extractLsb' 3 8 = 11#8 then
    some (.min (w.extractLsb' 21 5) (w.extractLsb' 16 5) (w.extractLsb' 11 5))
  else if w.extractLsb' 3 8 = 12#8 then
    some (.max (w.extractLsb' 21 5) (w.extractLsb' 16 5) (w.extractLsb' 11 5))
  else if w.extractLsb' 3 8 = 13#8 then
    some (.minu (w.extractLsb' 21 5) (w.extractLsb' 16 5) (w.extractLsb' 11 5))
  else if w.extractLsb' 3 8 = 14#8 then
    some (.maxu (w.extractLsb' 21 5) (w.extractLsb' 16 5) (w.extractLsb' 11 5))
  else if w.extractLsb' 3 8 = 15#8 then
    some (.adds (w.extractLsb' 21 5) (w.extractLsb' 16 5) (w.extractLsb' 11 5))
  else if w.extractLsb' 3 8 = 16#8 then
    some (.subs (w.extractLsb' 21 5) (w.extractLsb' 16 5) (w.extractLsb' 11 5))
  else if w.extractLsb' 3 8 = 17#8 then
    some (.addus (w.extractLsb' 21 5) (w.extractLsb' 16 5) (w.extractLsb' 11 5))
  else if w.extractLsb' 3 8 = 18#8 then
    some (.subus (w.extractLsb' 21 5) (w.extractLsb' 16 5) (w.extractLsb' 11 5))
  else if w.extractLsb' 3 8 = 32#8 then
    if w.extractLsb' 11 5 = 0#5 then some (.mov (w.extractLsb' 21 5) (w.extractLsb' 16 5)) else none
  else if w.extractLsb' 3 8 = 33#8 then
    if w.extractLsb' 11 5 = 0#5 then some (.sxb (w.extractLsb' 21 5) (w.extractLsb' 16 5)) else none
  else if w.extractLsb' 3 8 = 34#8 then
    if w.extractLsb' 11 5 = 0#5 then some (.sxh (w.extractLsb' 21 5) (w.extractLsb' 16 5)) else none
  else if w.extractLsb' 3 8 = 35#8 then
    if w.extractLsb' 11 5 = 0#5 then some (.sxw (w.extractLsb' 21 5) (w.extractLsb' 16 5)) else none
  else if w.extractLsb' 3 8 = 36#8 then
    if w.extractLsb' 11 5 = 0#5 then some (.zxb (w.extractLsb' 21 5) (w.extractLsb' 16 5)) else none
  else if w.extractLsb' 3 8 = 37#8 then
    if w.extractLsb' 11 5 = 0#5 then some (.zxh (w.extractLsb' 21 5) (w.extractLsb' 16 5)) else none
  else if w.extractLsb' 3 8 = 38#8 then
    if w.extractLsb' 11 5 = 0#5 then some (.zxw (w.extractLsb' 21 5) (w.extractLsb' 16 5)) else none
  else if w.extractLsb' 3 8 = 39#8 then
    if w.extractLsb' 11 5 = 0#5 then some (.clz (w.extractLsb' 21 5) (w.extractLsb' 16 5)) else none
  else if w.extractLsb' 3 8 = 40#8 then
    if w.extractLsb' 11 5 = 0#5 then some (.ctz (w.extractLsb' 21 5) (w.extractLsb' 16 5)) else none
  else if w.extractLsb' 3 8 = 41#8 then
    if w.extractLsb' 11 5 = 0#5 then some (.pcnt (w.extractLsb' 21 5) (w.extractLsb' 16 5)) else none
  else none

/-- Major 0x01 (R187). -/
def decodeMajor01 (w : BitVec 32) : Option Instr :=
  if w.extractLsb' 3 8 = 0#8 then
    some (.mul (w.extractLsb' 21 5) (w.extractLsb' 16 5) (w.extractLsb' 11 5))
  else if w.extractLsb' 3 8 = 1#8 then
    some (.mulh (w.extractLsb' 21 5) (w.extractLsb' 16 5) (w.extractLsb' 11 5))
  else if w.extractLsb' 3 8 = 2#8 then
    some (.mulhu (w.extractLsb' 21 5) (w.extractLsb' 16 5) (w.extractLsb' 11 5))
  else if w.extractLsb' 3 8 = 3#8 then
    some (.mulhsu (w.extractLsb' 21 5) (w.extractLsb' 16 5) (w.extractLsb' 11 5))
  else if w.extractLsb' 3 8 = 4#8 then
    some (.div (w.extractLsb' 21 5) (w.extractLsb' 16 5) (w.extractLsb' 11 5))
  else if w.extractLsb' 3 8 = 5#8 then
    some (.divu (w.extractLsb' 21 5) (w.extractLsb' 16 5) (w.extractLsb' 11 5))
  else if w.extractLsb' 3 8 = 6#8 then
    some (.rem (w.extractLsb' 21 5) (w.extractLsb' 16 5) (w.extractLsb' 11 5))
  else if w.extractLsb' 3 8 = 7#8 then
    some (.remu (w.extractLsb' 21 5) (w.extractLsb' 16 5) (w.extractLsb' 11 5))
  else none

/-- Major 0x02 (R187). -/
def decodeMajor02 (w : BitVec 32) : Option Instr :=
  some (.addi (w.extractLsb' 21 5) (w.extractLsb' 16 5) (w.extractLsb' 3 13))

/-- Major 0x03 (R187). -/
def decodeMajor03 (w : BitVec 32) : Option Instr :=
  some (.andi (w.extractLsb' 21 5) (w.extractLsb' 16 5) (w.extractLsb' 3 13))

/-- Major 0x04 (R187). -/
def decodeMajor04 (w : BitVec 32) : Option Instr :=
  some (.ori (w.extractLsb' 21 5) (w.extractLsb' 16 5) (w.extractLsb' 3 13))

/-- Major 0x05 (R187). -/
def decodeMajor05 (w : BitVec 32) : Option Instr :=
  some (.xori (w.extractLsb' 21 5) (w.extractLsb' 16 5) (w.extractLsb' 3 13))

/-- Major 0x06 (R187). -/
def decodeMajor06 (w : BitVec 32) : Option Instr :=
  if w.extractLsb' 9 7 = 0#7 then
    some (.shli (w.extractLsb' 21 5) (w.extractLsb' 16 5) (w.extractLsb' 3 6))
  else if w.extractLsb' 9 7 = 16#7 then
    some (.shri (w.extractLsb' 21 5) (w.extractLsb' 16 5) (w.extractLsb' 3 6))
  else if w.extractLsb' 9 7 = 32#7 then
    some (.sari (w.extractLsb' 21 5) (w.extractLsb' 16 5) (w.extractLsb' 3 6))
  else if w.extractLsb' 9 7 = 48#7 then
    some (.roli (w.extractLsb' 21 5) (w.extractLsb' 16 5) (w.extractLsb' 3 6))
  else if w.extractLsb' 9 7 = 64#7 then
    some (.rori (w.extractLsb' 21 5) (w.extractLsb' 16 5) (w.extractLsb' 3 6))
  else none

/-- Major 0x07 (R187). -/
def decodeMajor07 (w : BitVec 32) : Option Instr :=
  some (.lhi (w.extractLsb' 21 5) (w.extractLsb' 19 2) (w.extractLsb' 3 16))

/-- Major 0x08 (R187). -/
def decodeMajor08 (w : BitVec 32) : Option Instr :=
  if w.extractLsb' 24 2 = 0#2 ∧ w.extractLsb' 9 2 = 0#2 then some (.cmp (w.extractLsb' 21 3) (w.extractLsb' 16 5) (w.extractLsb' 11 5) (w.extractLsb' 7 2) (w.extractLsb' 3 4)) else none

/-- Major 0x09 (R187). -/
def decodeMajor09 (w : BitVec 32) : Option Instr :=
  if w.extractLsb' 24 2 = 0#2 then some (.cmpi (w.extractLsb' 21 3) (w.extractLsb' 16 5) (w.extractLsb' 13 3) (w.extractLsb' 3 10)) else none

/-- Major 0x0A (R187). -/
def decodeMajor0A (w : BitVec 32) : Option Instr :=
  if w.extractLsb' 6 5 = 0#5 then
    if w.extractLsb' 3 3 = 0#3 then
      if w.extractLsb' 24 2 = 0#2 ∧ w.extractLsb' 19 2 = 0#2 ∧ w.extractLsb' 14 2 = 0#2 then some (.pand (w.extractLsb' 21 3) (w.extractLsb' 16 3) (w.extractLsb' 11 3)) else none
    else if w.extractLsb' 3 3 = 1#3 then
      if w.extractLsb' 24 2 = 0#2 ∧ w.extractLsb' 19 2 = 0#2 ∧ w.extractLsb' 14 2 = 0#2 then some (.por (w.extractLsb' 21 3) (w.extractLsb' 16 3) (w.extractLsb' 11 3)) else none
    else if w.extractLsb' 3 3 = 2#3 then
      if w.extractLsb' 24 2 = 0#2 ∧ w.extractLsb' 19 2 = 0#2 ∧ w.extractLsb' 14 2 = 0#2 then some (.pxor (w.extractLsb' 21 3) (w.extractLsb' 16 3) (w.extractLsb' 11 3)) else none
    else if w.extractLsb' 3 3 = 3#3 then
      if w.extractLsb' 24 2 = 0#2 ∧ w.extractLsb' 19 2 = 0#2 ∧ w.extractLsb' 14 2 = 0#2 then some (.pandn (w.extractLsb' 21 3) (w.extractLsb' 16 3) (w.extractLsb' 11 3)) else none
    else if w.extractLsb' 3 3 = 4#3 then
      if w.extractLsb' 24 2 = 0#2 ∧ w.extractLsb' 19 2 = 0#2 ∧ w.extractLsb' 11 5 = 0#5 then some (.pnot (w.extractLsb' 21 3) (w.extractLsb' 16 3)) else none
    else if w.extractLsb' 3 3 = 5#3 then
      if w.extractLsb' 19 2 = 0#2 ∧ w.extractLsb' 11 5 = 0#5 then some (.prds (w.extractLsb' 21 5) (w.extractLsb' 16 3)) else none
    else if w.extractLsb' 3 3 = 6#3 then
      if w.extractLsb' 24 2 = 0#2 ∧ w.extractLsb' 11 5 = 0#5 then some (.pwrs (w.extractLsb' 21 3) (w.extractLsb' 16 5)) else none
    else if w.extractLsb' 3 3 = 7#3 then
      if w.extractLsb' 11 10 = 0#10 then some (.prdall (w.extractLsb' 21 5)) else none
    else none
  else if w.extractLsb' 6 5 = 1#5 then
    if w.extractLsb' 21 5 = 0#5 ∧ w.extractLsb' 11 5 = 0#5 ∧ w.extractLsb' 3 3 = 0#3 then some (.pwrall (w.extractLsb' 16 5)) else none
  else if w.extractLsb' 6 5 = 2#5 then
    some (.sel (w.extractLsb' 21 5) (w.extractLsb' 16 5) (w.extractLsb' 11 5) (w.extractLsb' 3 3))
  else none

/-- Major 0x0B (R187). -/
def decodeMajor0B (w : BitVec 32) : Option Instr :=
  some (.ipa (w.extractLsb' 21 5) (w.extractLsb' 3 18))

/-- Major 0x0C (R187). -/
def decodeMajor0C (w : BitVec 32) : Option Instr :=
  if w.extractLsb' 22 1 = 1#1 then
    some (.bt (w.extractLsb' 23 3) (w.extractLsb' 3 19))
  else if w.extractLsb' 22 1 = 0#1 then
    some (.bf (w.extractLsb' 23 3) (w.extractLsb' 3 19))
  else none

/-- Major 0x0D (R187). -/
def decodeMajor0D (w : BitVec 32) : Option Instr :=
  if w.extractLsb' 25 1 = 0#1 then
    some (.jmp (w.extractLsb' 0 25))
  else if w.extractLsb' 25 1 = 1#1 then
    some (.call (w.extractLsb' 0 25))
  else none

/-- Major 0x0E (R187). -/
def decodeMajor0E (w : BitVec 32) : Option Instr :=
  if w.extractLsb' 3 13 = 0#13 then
    if w.extractLsb' 21 5 = 0#5 then some (.jr (w.extractLsb' 16 5)) else none
  else if w.extractLsb' 3 13 = 1#13 then
    some (.jalr (w.extractLsb' 21 5) (w.extractLsb' 16 5))
  else if w.extractLsb' 3 13 = 2#13 then
    if w.extractLsb' 16 10 = 0#10 then some .ret else none
  else none

/-- Major 0x10 (R187). -/
def decodeMajor10 (w : BitVec 32) : Option Instr :=
  some (.ld (w.extractLsb' 21 5) (w.extractLsb' 16 5) (w.extractLsb' 5 11) (w.extractLsb' 3 2))

/-- Major 0x11 (R187). -/
def decodeMajor11 (w : BitVec 32) : Option Instr :=
  some (.st (w.extractLsb' 21 5) (w.extractLsb' 16 5) (w.extractLsb' 5 11) (w.extractLsb' 3 2))

/-- Major 0x12 (R187). -/
def decodeMajor12 (w : BitVec 32) : Option Instr :=
  if w.extractLsb' 3 2 = 0#2 then
    some (.vld (w.extractLsb' 21 5) (w.extractLsb' 16 5) (w.extractLsb' 5 11))
  else if w.extractLsb' 3 2 = 1#2 then
    some (.vldLo (w.extractLsb' 21 5) (w.extractLsb' 16 5) (w.extractLsb' 5 11))
  else none

/-- Major 0x13 (R187). -/
def decodeMajor13 (w : BitVec 32) : Option Instr :=
  if w.extractLsb' 3 2 = 0#2 then
    some (.vst (w.extractLsb' 21 5) (w.extractLsb' 16 5) (w.extractLsb' 5 11))
  else if w.extractLsb' 3 2 = 1#2 then
    some (.vstLo (w.extractLsb' 21 5) (w.extractLsb' 16 5) (w.extractLsb' 5 11))
  else none

/-- Major 0x14 (R187). -/
def decodeMajor14 (w : BitVec 32) : Option Instr :=
  if w.extractLsb' 10 1 = 0#1 then
    if w.extractLsb' 5 3 = 0#3 then some (.vgat (w.extractLsb' 21 5) (w.extractLsb' 16 5) (w.extractLsb' 11 5) (w.extractLsb' 8 2) (w.extractLsb' 2 3) (w.extractLsb' 0 2)) else none
  else if w.extractLsb' 10 1 = 1#1 then
    if w.extractLsb' 5 3 = 0#3 then some (.vsct (w.extractLsb' 21 5) (w.extractLsb' 16 5) (w.extractLsb' 11 5) (w.extractLsb' 8 2) (w.extractLsb' 2 3) (w.extractLsb' 0 2)) else none
  else none

/-- Major 0x15 (R187). -/
def decodeMajor15 (w : BitVec 32) : Option Instr :=
  if w.extractLsb' 3 3 = 0#3 then
    some (.aswap (w.extractLsb' 21 5) (w.extractLsb' 16 5) (w.extractLsb' 11 5) (w.extractLsb' 9 2) (w.extractLsb' 6 3))
  else if w.extractLsb' 3 3 = 1#3 then
    some (.aadd (w.extractLsb' 21 5) (w.extractLsb' 16 5) (w.extractLsb' 11 5) (w.extractLsb' 9 2) (w.extractLsb' 6 3))
  else if w.extractLsb' 3 3 = 2#3 then
    some (.aand (w.extractLsb' 21 5) (w.extractLsb' 16 5) (w.extractLsb' 11 5) (w.extractLsb' 9 2) (w.extractLsb' 6 3))
  else if w.extractLsb' 3 3 = 3#3 then
    some (.aor (w.extractLsb' 21 5) (w.extractLsb' 16 5) (w.extractLsb' 11 5) (w.extractLsb' 9 2) (w.extractLsb' 6 3))
  else if w.extractLsb' 3 3 = 4#3 then
    some (.axor (w.extractLsb' 21 5) (w.extractLsb' 16 5) (w.extractLsb' 11 5) (w.extractLsb' 9 2) (w.extractLsb' 6 3))
  else if w.extractLsb' 3 3 = 5#3 then
    some (.amax (w.extractLsb' 21 5) (w.extractLsb' 16 5) (w.extractLsb' 11 5) (w.extractLsb' 9 2) (w.extractLsb' 6 3))
  else if w.extractLsb' 3 3 = 6#3 then
    some (.amin (w.extractLsb' 21 5) (w.extractLsb' 16 5) (w.extractLsb' 11 5) (w.extractLsb' 9 2) (w.extractLsb' 6 3))
  else if w.extractLsb' 3 3 = 7#3 then
    some (.amaxu (w.extractLsb' 21 5) (w.extractLsb' 16 5) (w.extractLsb' 11 5) (w.extractLsb' 9 2) (w.extractLsb' 6 3))
  else none

/-- Major 0x16 (R187). -/
def decodeMajor16 (w : BitVec 32) : Option Instr :=
  if w.extractLsb' 3 2 = 0#2 then some (.cas (w.extractLsb' 21 5) (w.extractLsb' 16 5) (w.extractLsb' 11 5) (w.extractLsb' 9 2) (w.extractLsb' 6 3) (w.extractLsb' 5 1)) else none

/-- Major 0x17 (R187). -/
def decodeMajor17 (w : BitVec 32) : Option Instr :=
  if w.extractLsb' 6 10 = 0#10 then
    if w.extractLsb' 3 3 = 0#3 then some (.gtest (w.extractLsb' 21 5) (w.extractLsb' 16 5)) else none
  else if w.extractLsb' 6 10 = 2#10 then
    some (.gcast (w.extractLsb' 21 5) (w.extractLsb' 16 5) (w.extractLsb' 3 3))
  else none

/-- Major 0x18 (R187). -/
def decodeMajor18 (w : BitVec 32) : Option Instr :=
  if w.extractLsb' 3 8 = 0#8 then
    if w.extractLsb' 21 5 = 0#5 then some (.cinv (w.extractLsb' 16 5) (w.extractLsb' 11 5)) else none
  else if w.extractLsb' 3 8 = 1#8 then
    if w.extractLsb' 21 5 = 0#5 then some (.cflush (w.extractLsb' 16 5) (w.extractLsb' 11 5)) else none
  else if w.extractLsb' 3 8 = 2#8 then
    if w.extractLsb' 21 5 = 0#5 then some (.cpref (w.extractLsb' 16 5) (w.extractLsb' 11 5)) else none
  else if w.extractLsb' 3 8 = 3#8 then
    if w.extractLsb' 11 15 = 0#15 then some .cinvAll else none
  else none

/-- Major 0x19 (R187). -/
def decodeMajor19 (w : BitVec 32) : Option Instr :=
  if w.extractLsb' 7 9 = 0#9 then
    if w.extractLsb' 16 10 = 0#10 ∧ w.extractLsb' 3 1 = 0#1 then some (.fence (w.extractLsb' 4 3)) else none
  else if w.extractLsb' 7 9 = 1#9 then
    if w.extractLsb' 3 1 = 0#1 then some (.stdone (w.extractLsb' 21 5) (w.extractLsb' 16 5) (w.extractLsb' 4 3)) else none
  else if w.extractLsb' 7 9 = 2#9 then
    if w.extractLsb' 24 2 = 0#2 ∧ w.extractLsb' 3 1 = 0#1 then some (.stdoneq (w.extractLsb' 21 3) (w.extractLsb' 16 5) (w.extractLsb' 4 3)) else none
  else none

/-- Major 0x1A (R187). -/
def decodeMajor1A (w : BitVec 32) : Option Instr :=
  if w.extractLsb' 5 11 = 0#11 ∧ w.extractLsb' 0 2 = 0#2 then some (.stm (w.extractLsb' 21 5) (w.extractLsb' 16 5) (w.extractLsb' 2 3)) else none

/-- Major 0x1B (R187). -/
def decodeMajor1B (w v : BitVec 32) : Option Instr :=
  if v.extractLsb' 0 4 = 0#4 then some (.stq (w.extractLsb' 21 5) (w.extractLsb' 16 5) (w.extractLsb' 11 5) (w.extractLsb' 10 1) (w.extractLsb' 3 7) (v.extractLsb' 16 16) (v.extractLsb' 8 8) (v.extractLsb' 5 3) (v.extractLsb' 4 1)) else none

/-- Major 0x1C (R187). -/
def decodeMajor1C (w : BitVec 32) : Option Instr :=
  if w.extractLsb' 3 13 = 0#13 then
    if w.extractLsb' 24 2 = 0#2 then some (.qpush (w.extractLsb' 21 3) (w.extractLsb' 16 5)) else none
  else if w.extractLsb' 3 13 = 1#13 then
    if w.extractLsb' 24 2 = 0#2 then some (.qpushv (w.extractLsb' 21 3) (w.extractLsb' 16 5)) else none
  else if w.extractLsb' 3 13 = 2#13 then
    if w.extractLsb' 19 2 = 0#2 then some (.qpop (w.extractLsb' 21 5) (w.extractLsb' 16 3)) else none
  else if w.extractLsb' 3 13 = 3#13 then
    if w.extractLsb' 19 2 = 0#2 then some (.qpopv (w.extractLsb' 21 5) (w.extractLsb' 16 3)) else none
  else if w.extractLsb' 3 13 = 4#13 then
    if w.extractLsb' 19 2 = 0#2 then some (.qcount (w.extractLsb' 21 5) (w.extractLsb' 16 3)) else none
  else if w.extractLsb' 3 13 = 5#13 then
    if w.extractLsb' 19 2 = 0#2 then some (.qtag (w.extractLsb' 21 5) (w.extractLsb' 16 3)) else none
  else if w.extractLsb' 3 13 = 6#13 then
    if w.extractLsb' 19 7 = 0#7 then some (.qdrop (w.extractLsb' 16 3)) else none
  else none

/-- Major 0x1D (R187). -/
def decodeMajor1D (w : BitVec 32) : Option Instr :=
  if w.extractLsb' 3 8 = 0#8 then
    if w.extractLsb' 24 2 = 0#2 ∧ w.extractLsb' 11 5 = 0#5 then some (.bset (w.extractLsb' 21 3) (w.extractLsb' 16 5)) else none
  else if w.extractLsb' 3 8 = 1#8 then
    if w.extractLsb' 24 2 = 0#2 then some (.bspill (w.extractLsb' 21 3) (w.extractLsb' 16 5) (w.extractLsb' 11 5)) else none
  else if w.extractLsb' 3 8 = 2#8 then
    if w.extractLsb' 14 7 = 0#7 then some (.bget (w.extractLsb' 21 5) (w.extractLsb' 11 3)) else none
  else none

/-- Major 0x20 (R187). -/
def decodeMajor20 (w : BitVec 32) : Option Instr :=
  if w.extractLsb' 5 6 = 0#6 then
    some (.vadd (w.extractLsb' 21 5) (w.extractLsb' 16 5) (w.extractLsb' 11 5) (w.extractLsb' 2 3) (w.extractLsb' 0 2))
  else if w.extractLsb' 5 6 = 1#6 then
    some (.vsub (w.extractLsb' 21 5) (w.extractLsb' 16 5) (w.extractLsb' 11 5) (w.extractLsb' 2 3) (w.extractLsb' 0 2))
  else if w.extractLsb' 5 6 = 2#6 then
    some (.vmul (w.extractLsb' 21 5) (w.extractLsb' 16 5) (w.extractLsb' 11 5) (w.extractLsb' 2 3) (w.extractLsb' 0 2))
  else if w.extractLsb' 5 6 = 3#6 then
    some (.vmulh (w.extractLsb' 21 5) (w.extractLsb' 16 5) (w.extractLsb' 11 5) (w.extractLsb' 2 3) (w.extractLsb' 0 2))
  else if w.extractLsb' 5 6 = 4#6 then
    some (.vmin (w.extractLsb' 21 5) (w.extractLsb' 16 5) (w.extractLsb' 11 5) (w.extractLsb' 2 3) (w.extractLsb' 0 2))
  else if w.extractLsb' 5 6 = 5#6 then
    some (.vmax (w.extractLsb' 21 5) (w.extractLsb' 16 5) (w.extractLsb' 11 5) (w.extractLsb' 2 3) (w.extractLsb' 0 2))
  else if w.extractLsb' 5 6 = 6#6 then
    some (.vadds (w.extractLsb' 21 5) (w.extractLsb' 16 5) (w.extractLsb' 11 5) (w.extractLsb' 2 3) (w.extractLsb' 0 2))
  else if w.extractLsb' 5 6 = 7#6 then
    some (.vsubs (w.extractLsb' 21 5) (w.extractLsb' 16 5) (w.extractLsb' 11 5) (w.extractLsb' 2 3) (w.extractLsb' 0 2))
  else if w.extractLsb' 5 6 = 8#6 then
    some (.vavg (w.extractLsb' 21 5) (w.extractLsb' 16 5) (w.extractLsb' 11 5) (w.extractLsb' 2 3) (w.extractLsb' 0 2))
  else if w.extractLsb' 5 6 = 9#6 then
    some (.vabsd (w.extractLsb' 21 5) (w.extractLsb' 16 5) (w.extractLsb' 11 5) (w.extractLsb' 2 3) (w.extractLsb' 0 2))
  else if w.extractLsb' 5 6 = 10#6 then
    some (.vand (w.extractLsb' 21 5) (w.extractLsb' 16 5) (w.extractLsb' 11 5) (w.extractLsb' 2 3) (w.extractLsb' 0 2))
  else if w.extractLsb' 5 6 = 11#6 then
    some (.vor (w.extractLsb' 21 5) (w.extractLsb' 16 5) (w.extractLsb' 11 5) (w.extractLsb' 2 3) (w.extractLsb' 0 2))
  else if w.extractLsb' 5 6 = 12#6 then
    some (.vxor (w.extractLsb' 21 5) (w.extractLsb' 16 5) (w.extractLsb' 11 5) (w.extractLsb' 2 3) (w.extractLsb' 0 2))
  else if w.extractLsb' 5 6 = 13#6 then
    some (.vandn (w.extractLsb' 21 5) (w.extractLsb' 16 5) (w.extractLsb' 11 5) (w.extractLsb' 2 3) (w.extractLsb' 0 2))
  else if w.extractLsb' 5 6 = 14#6 then
    some (.vshl (w.extractLsb' 21 5) (w.extractLsb' 16 5) (w.extractLsb' 11 5) (w.extractLsb' 2 3) (w.extractLsb' 0 2))
  else if w.extractLsb' 5 6 = 15#6 then
    some (.vshr (w.extractLsb' 21 5) (w.extractLsb' 16 5) (w.extractLsb' 11 5) (w.extractLsb' 2 3) (w.extractLsb' 0 2))
  else if w.extractLsb' 5 6 = 16#6 then
    some (.vdiv (w.extractLsb' 21 5) (w.extractLsb' 16 5) (w.extractLsb' 11 5) (w.extractLsb' 2 3) (w.extractLsb' 0 2))
  else if w.extractLsb' 5 6 = 17#6 then
    some (.vrem (w.extractLsb' 21 5) (w.extractLsb' 16 5) (w.extractLsb' 11 5) (w.extractLsb' 2 3) (w.extractLsb' 0 2))
  else if w.extractLsb' 5 6 = 18#6 then
    if w.extractLsb' 11 5 = 0#5 then some (.vneg (w.extractLsb' 21 5) (w.extractLsb' 16 5) (w.extractLsb' 2 3) (w.extractLsb' 0 2)) else none
  else if w.extractLsb' 5 6 = 19#6 then
    if w.extractLsb' 11 5 = 0#5 then some (.vabs (w.extractLsb' 21 5) (w.extractLsb' 16 5) (w.extractLsb' 2 3) (w.extractLsb' 0 2)) else none
  else if w.extractLsb' 5 6 = 20#6 then
    some (.vmuls (w.extractLsb' 21 5) (w.extractLsb' 16 5) (w.extractLsb' 11 5) (w.extractLsb' 2 3) (w.extractLsb' 0 2))
  else none

/-- Major 0x21 (R187). -/
def decodeMajor21 (w : BitVec 32) : Option Instr :=
  if w.extractLsb' 5 5 = 0#5 then
    some (.valusVadd (w.extractLsb' 21 5) (w.extractLsb' 16 5) (w.extractLsb' 11 5) (w.extractLsb' 10 1) (w.extractLsb' 2 3) (w.extractLsb' 0 2))
  else if w.extractLsb' 5 5 = 1#5 then
    some (.valusVsub (w.extractLsb' 21 5) (w.extractLsb' 16 5) (w.extractLsb' 11 5) (w.extractLsb' 10 1) (w.extractLsb' 2 3) (w.extractLsb' 0 2))
  else if w.extractLsb' 5 5 = 2#5 then
    some (.valusVmul (w.extractLsb' 21 5) (w.extractLsb' 16 5) (w.extractLsb' 11 5) (w.extractLsb' 10 1) (w.extractLsb' 2 3) (w.extractLsb' 0 2))
  else if w.extractLsb' 5 5 = 3#5 then
    some (.valusVmulh (w.extractLsb' 21 5) (w.extractLsb' 16 5) (w.extractLsb' 11 5) (w.extractLsb' 10 1) (w.extractLsb' 2 3) (w.extractLsb' 0 2))
  else if w.extractLsb' 5 5 = 4#5 then
    some (.valusVmin (w.extractLsb' 21 5) (w.extractLsb' 16 5) (w.extractLsb' 11 5) (w.extractLsb' 10 1) (w.extractLsb' 2 3) (w.extractLsb' 0 2))
  else if w.extractLsb' 5 5 = 5#5 then
    some (.valusVmax (w.extractLsb' 21 5) (w.extractLsb' 16 5) (w.extractLsb' 11 5) (w.extractLsb' 10 1) (w.extractLsb' 2 3) (w.extractLsb' 0 2))
  else if w.extractLsb' 5 5 = 6#5 then
    some (.valusVadds (w.extractLsb' 21 5) (w.extractLsb' 16 5) (w.extractLsb' 11 5) (w.extractLsb' 10 1) (w.extractLsb' 2 3) (w.extractLsb' 0 2))
  else if w.extractLsb' 5 5 = 7#5 then
    some (.valusVsubs (w.extractLsb' 21 5) (w.extractLsb' 16 5) (w.extractLsb' 11 5) (w.extractLsb' 10 1) (w.extractLsb' 2 3) (w.extractLsb' 0 2))
  else if w.extractLsb' 5 5 = 8#5 then
    some (.valusVavg (w.extractLsb' 21 5) (w.extractLsb' 16 5) (w.extractLsb' 11 5) (w.extractLsb' 10 1) (w.extractLsb' 2 3) (w.extractLsb' 0 2))
  else if w.extractLsb' 5 5 = 9#5 then
    some (.valusVabsd (w.extractLsb' 21 5) (w.extractLsb' 16 5) (w.extractLsb' 11 5) (w.extractLsb' 10 1) (w.extractLsb' 2 3) (w.extractLsb' 0 2))
  else if w.extractLsb' 5 5 = 10#5 then
    some (.valusVand (w.extractLsb' 21 5) (w.extractLsb' 16 5) (w.extractLsb' 11 5) (w.extractLsb' 10 1) (w.extractLsb' 2 3) (w.extractLsb' 0 2))
  else if w.extractLsb' 5 5 = 11#5 then
    some (.valusVor (w.extractLsb' 21 5) (w.extractLsb' 16 5) (w.extractLsb' 11 5) (w.extractLsb' 10 1) (w.extractLsb' 2 3) (w.extractLsb' 0 2))
  else if w.extractLsb' 5 5 = 12#5 then
    some (.valusVxor (w.extractLsb' 21 5) (w.extractLsb' 16 5) (w.extractLsb' 11 5) (w.extractLsb' 10 1) (w.extractLsb' 2 3) (w.extractLsb' 0 2))
  else if w.extractLsb' 5 5 = 13#5 then
    some (.valusVandn (w.extractLsb' 21 5) (w.extractLsb' 16 5) (w.extractLsb' 11 5) (w.extractLsb' 10 1) (w.extractLsb' 2 3) (w.extractLsb' 0 2))
  else if w.extractLsb' 5 5 = 14#5 then
    some (.valusVshl (w.extractLsb' 21 5) (w.extractLsb' 16 5) (w.extractLsb' 11 5) (w.extractLsb' 10 1) (w.extractLsb' 2 3) (w.extractLsb' 0 2))
  else if w.extractLsb' 5 5 = 15#5 then
    some (.valusVshr (w.extractLsb' 21 5) (w.extractLsb' 16 5) (w.extractLsb' 11 5) (w.extractLsb' 10 1) (w.extractLsb' 2 3) (w.extractLsb' 0 2))
  else if w.extractLsb' 5 5 = 16#5 then
    some (.valusVdiv (w.extractLsb' 21 5) (w.extractLsb' 16 5) (w.extractLsb' 11 5) (w.extractLsb' 10 1) (w.extractLsb' 2 3) (w.extractLsb' 0 2))
  else if w.extractLsb' 5 5 = 17#5 then
    some (.valusVrem (w.extractLsb' 21 5) (w.extractLsb' 16 5) (w.extractLsb' 11 5) (w.extractLsb' 10 1) (w.extractLsb' 2 3) (w.extractLsb' 0 2))
  else if w.extractLsb' 5 5 = 20#5 then
    some (.valusVmuls (w.extractLsb' 21 5) (w.extractLsb' 16 5) (w.extractLsb' 11 5) (w.extractLsb' 10 1) (w.extractLsb' 2 3) (w.extractLsb' 0 2))
  else none

/-- Major 0x22 (R187). -/
def decodeMajor22 (w : BitVec 32) : Option Instr :=
  if w.extractLsb' 5 6 = 0#6 then
    some (.vfadd (w.extractLsb' 21 5) (w.extractLsb' 16 5) (w.extractLsb' 11 5) (w.extractLsb' 2 3) (w.extractLsb' 0 2))
  else if w.extractLsb' 5 6 = 1#6 then
    some (.vfsub (w.extractLsb' 21 5) (w.extractLsb' 16 5) (w.extractLsb' 11 5) (w.extractLsb' 2 3) (w.extractLsb' 0 2))
  else if w.extractLsb' 5 6 = 2#6 then
    some (.vfmul (w.extractLsb' 21 5) (w.extractLsb' 16 5) (w.extractLsb' 11 5) (w.extractLsb' 2 3) (w.extractLsb' 0 2))
  else if w.extractLsb' 5 6 = 3#6 then
    some (.vfdiv (w.extractLsb' 21 5) (w.extractLsb' 16 5) (w.extractLsb' 11 5) (w.extractLsb' 2 3) (w.extractLsb' 0 2))
  else if w.extractLsb' 5 6 = 4#6 then
    some (.vfmin (w.extractLsb' 21 5) (w.extractLsb' 16 5) (w.extractLsb' 11 5) (w.extractLsb' 2 3) (w.extractLsb' 0 2))
  else if w.extractLsb' 5 6 = 5#6 then
    some (.vfmax (w.extractLsb' 21 5) (w.extractLsb' 16 5) (w.extractLsb' 11 5) (w.extractLsb' 2 3) (w.extractLsb' 0 2))
  else if w.extractLsb' 5 6 = 6#6 then
    if w.extractLsb' 11 5 = 0#5 then some (.vfsqrt (w.extractLsb' 21 5) (w.extractLsb' 16 5) (w.extractLsb' 2 3) (w.extractLsb' 0 2)) else none
  else if w.extractLsb' 5 6 = 7#6 then
    if w.extractLsb' 11 5 = 0#5 then some (.vfrcp (w.extractLsb' 21 5) (w.extractLsb' 16 5) (w.extractLsb' 2 3) (w.extractLsb' 0 2)) else none
  else if w.extractLsb' 5 6 = 8#6 then
    if w.extractLsb' 11 5 = 0#5 then some (.vfrsqrt (w.extractLsb' 21 5) (w.extractLsb' 16 5) (w.extractLsb' 2 3) (w.extractLsb' 0 2)) else none
  else if w.extractLsb' 5 6 = 9#6 then
    if w.extractLsb' 11 5 = 0#5 then some (.vfexp2 (w.extractLsb' 21 5) (w.extractLsb' 16 5) (w.extractLsb' 2 3) (w.extractLsb' 0 2)) else none
  else if w.extractLsb' 5 6 = 10#6 then
    if w.extractLsb' 11 5 = 0#5 then some (.vflog2 (w.extractLsb' 21 5) (w.extractLsb' 16 5) (w.extractLsb' 2 3) (w.extractLsb' 0 2)) else none
  else if w.extractLsb' 5 6 = 11#6 then
    if w.extractLsb' 11 5 = 0#5 then some (.vfabs (w.extractLsb' 21 5) (w.extractLsb' 16 5) (w.extractLsb' 2 3) (w.extractLsb' 0 2)) else none
  else if w.extractLsb' 5 6 = 12#6 then
    if w.extractLsb' 11 5 = 0#5 then some (.vfneg (w.extractLsb' 21 5) (w.extractLsb' 16 5) (w.extractLsb' 2 3) (w.extractLsb' 0 2)) else none
  else if w.extractLsb' 5 6 = 13#6 then
    some (.vfsgnj (w.extractLsb' 21 5) (w.extractLsb' 16 5) (w.extractLsb' 11 5) (w.extractLsb' 2 3) (w.extractLsb' 0 2))
  else none

/-- Major 0x23 (R187). -/
def decodeMajor23 (w : BitVec 32) : Option Instr :=
  if w.extractLsb' 5 1 = 0#1 then
    some (.vfma (w.extractLsb' 21 5) (w.extractLsb' 16 5) (w.extractLsb' 11 5) (w.extractLsb' 6 5) (w.extractLsb' 2 3) (w.extractLsb' 0 2))
  else if w.extractLsb' 5 1 = 1#1 then
    some (.vfms (w.extractLsb' 21 5) (w.extractLsb' 16 5) (w.extractLsb' 11 5) (w.extractLsb' 6 5) (w.extractLsb' 2 3) (w.extractLsb' 0 2))
  else none

/-- Major 0x24 (R187). -/
def decodeMajor24 (w : BitVec 32) : Option Instr :=
  if w.extractLsb' 5 1 = 0#1 then
    some (.vmac (w.extractLsb' 21 5) (w.extractLsb' 16 5) (w.extractLsb' 11 5) (w.extractLsb' 6 5) (w.extractLsb' 2 3) (w.extractLsb' 0 2))
  else if w.extractLsb' 5 1 = 1#1 then
    some (.vdot (w.extractLsb' 21 5) (w.extractLsb' 16 5) (w.extractLsb' 11 5) (w.extractLsb' 6 5) (w.extractLsb' 2 3) (w.extractLsb' 0 2))
  else none

/-- Major 0x25 (R187). -/
def decodeMajor25 (w : BitVec 32) : Option Instr :=
  if w.extractLsb' 9 7 = 0#7 then
    if w.extractLsb' 5 2 = 0#2 then some (.vcvt (w.extractLsb' 21 5) (w.extractLsb' 16 5) (w.extractLsb' 7 2) (w.extractLsb' 2 3) (w.extractLsb' 0 2)) else none
  else if w.extractLsb' 9 7 = 1#7 then
    if w.extractLsb' 5 1 = 0#1 then some (.vcvtn (w.extractLsb' 21 5) (w.extractLsb' 16 5) (w.extractLsb' 7 2) (w.extractLsb' 6 1) (w.extractLsb' 2 3) (w.extractLsb' 0 2)) else none
  else if w.extractLsb' 9 7 = 2#7 then
    if w.extractLsb' 5 1 = 0#1 then some (.vcvtw (w.extractLsb' 21 5) (w.extractLsb' 16 5) (w.extractLsb' 7 2) (w.extractLsb' 6 1) (w.extractLsb' 2 3) (w.extractLsb' 0 2)) else none
  else none

/-- Major 0x26 (R187). -/
def decodeMajor26 (w : BitVec 32) : Option Instr :=
  if w.extractLsb' 5 6 = 0#6 then
    if w.extractLsb' 0 2 = 0#2 then some (.vperm (w.extractLsb' 21 5) (w.extractLsb' 16 5) (w.extractLsb' 11 5) (w.extractLsb' 2 3)) else none
  else if w.extractLsb' 5 6 = 2#6 then
    if w.extractLsb' 0 2 = 0#2 then some (.vslup (w.extractLsb' 21 5) (w.extractLsb' 16 5) (w.extractLsb' 11 5) (w.extractLsb' 2 3)) else none
  else if w.extractLsb' 5 6 = 3#6 then
    if w.extractLsb' 0 2 = 0#2 then some (.vsldn (w.extractLsb' 21 5) (w.extractLsb' 16 5) (w.extractLsb' 11 5) (w.extractLsb' 2 3)) else none
  else if w.extractLsb' 5 6 = 4#6 then
    if w.extractLsb' 0 2 = 0#2 then some (.vslupIm (w.extractLsb' 21 5) (w.extractLsb' 16 5) (w.extractLsb' 11 5) (w.extractLsb' 2 3)) else none
  else if w.extractLsb' 5 6 = 5#6 then
    if w.extractLsb' 0 2 = 0#2 then some (.vsldnIm (w.extractLsb' 21 5) (w.extractLsb' 16 5) (w.extractLsb' 11 5) (w.extractLsb' 2 3)) else none
  else if w.extractLsb' 5 6 = 6#6 then
    if w.extractLsb' 0 2 = 0#2 then some (.vzipl (w.extractLsb' 21 5) (w.extractLsb' 16 5) (w.extractLsb' 11 5) (w.extractLsb' 2 3)) else none
  else if w.extractLsb' 5 6 = 7#6 then
    if w.extractLsb' 0 2 = 0#2 then some (.vziph (w.extractLsb' 21 5) (w.extractLsb' 16 5) (w.extractLsb' 11 5) (w.extractLsb' 2 3)) else none
  else if w.extractLsb' 5 6 = 8#6 then
    if w.extractLsb' 0 2 = 0#2 then some (.vunzpe (w.extractLsb' 21 5) (w.extractLsb' 16 5) (w.extractLsb' 11 5) (w.extractLsb' 2 3)) else none
  else if w.extractLsb' 5 6 = 9#6 then
    if w.extractLsb' 0 2 = 0#2 then some (.vunzpo (w.extractLsb' 21 5) (w.extractLsb' 16 5) (w.extractLsb' 11 5) (w.extractLsb' 2 3)) else none
  else none

/-- Major 0x27 (R187). -/
def decodeMajor27 (w : BitVec 32) : Option Instr :=
  if w.extractLsb' 5 11 = 0#11 then
    some (.vrsum (w.extractLsb' 21 5) (w.extractLsb' 16 5) (w.extractLsb' 2 3) (w.extractLsb' 0 2))
  else if w.extractLsb' 5 11 = 1#11 then
    some (.vrmin (w.extractLsb' 21 5) (w.extractLsb' 16 5) (w.extractLsb' 2 3) (w.extractLsb' 0 2))
  else if w.extractLsb' 5 11 = 2#11 then
    some (.vrmax (w.extractLsb' 21 5) (w.extractLsb' 16 5) (w.extractLsb' 2 3) (w.extractLsb' 0 2))
  else if w.extractLsb' 5 11 = 3#11 then
    some (.vrand (w.extractLsb' 21 5) (w.extractLsb' 16 5) (w.extractLsb' 2 3) (w.extractLsb' 0 2))
  else if w.extractLsb' 5 11 = 4#11 then
    some (.vror (w.extractLsb' 21 5) (w.extractLsb' 16 5) (w.extractLsb' 2 3) (w.extractLsb' 0 2))
  else if w.extractLsb' 5 11 = 5#11 then
    some (.vrxor (w.extractLsb' 21 5) (w.extractLsb' 16 5) (w.extractLsb' 2 3) (w.extractLsb' 0 2))
  else if w.extractLsb' 5 11 = 6#11 then
    some (.vrfsum (w.extractLsb' 21 5) (w.extractLsb' 16 5) (w.extractLsb' 2 3) (w.extractLsb' 0 2))
  else if w.extractLsb' 5 11 = 7#11 then
    some (.vrsumw (w.extractLsb' 21 5) (w.extractLsb' 16 5) (w.extractLsb' 2 3) (w.extractLsb' 0 2))
  else none

/-- Major 0x28 (R187). -/
def decodeMajor28 (w : BitVec 32) : Option Instr :=
  if w.extractLsb' 5 6 = 0#6 then
    if w.extractLsb' 24 2 = 0#2 ∧ w.extractLsb' 19 2 = 0#2 ∧ w.extractLsb' 14 2 = 0#2 ∧ w.extractLsb' 0 5 = 0#5 then some (.kand (w.extractLsb' 21 3) (w.extractLsb' 16 3) (w.extractLsb' 11 3)) else none
  else if w.extractLsb' 5 6 = 1#6 then
    if w.extractLsb' 24 2 = 0#2 ∧ w.extractLsb' 19 2 = 0#2 ∧ w.extractLsb' 14 2 = 0#2 ∧ w.extractLsb' 0 5 = 0#5 then some (.kor (w.extractLsb' 21 3) (w.extractLsb' 16 3) (w.extractLsb' 11 3)) else none
  else if w.extractLsb' 5 6 = 2#6 then
    if w.extractLsb' 24 2 = 0#2 ∧ w.extractLsb' 19 2 = 0#2 ∧ w.extractLsb' 14 2 = 0#2 ∧ w.extractLsb' 0 5 = 0#5 then some (.kxor (w.extractLsb' 21 3) (w.extractLsb' 16 3) (w.extractLsb' 11 3)) else none
  else if w.extractLsb' 5 6 = 3#6 then
    if w.extractLsb' 24 2 = 0#2 ∧ w.extractLsb' 19 2 = 0#2 ∧ w.extractLsb' 14 2 = 0#2 ∧ w.extractLsb' 0 5 = 0#5 then some (.kandn (w.extractLsb' 21 3) (w.extractLsb' 16 3) (w.extractLsb' 11 3)) else none
  else if w.extractLsb' 5 6 = 4#6 then
    if w.extractLsb' 24 2 = 0#2 ∧ w.extractLsb' 19 2 = 0#2 ∧ w.extractLsb' 11 5 = 0#5 ∧ w.extractLsb' 0 5 = 0#5 then some (.knot (w.extractLsb' 21 3) (w.extractLsb' 16 3)) else none
  else if w.extractLsb' 5 6 = 5#6 then
    if w.extractLsb' 24 2 = 0#2 ∧ w.extractLsb' 11 5 = 0#5 ∧ w.extractLsb' 0 5 = 0#5 then some (.kset (w.extractLsb' 21 3) (w.extractLsb' 16 5)) else none
  else if w.extractLsb' 5 6 = 6#6 then
    if w.extractLsb' 19 2 = 0#2 ∧ w.extractLsb' 11 5 = 0#5 ∧ w.extractLsb' 0 5 = 0#5 then some (.kget (w.extractLsb' 21 5) (w.extractLsb' 16 3)) else none
  else if w.extractLsb' 5 6 = 7#6 then
    if w.extractLsb' 19 2 = 0#2 ∧ w.extractLsb' 11 5 = 0#5 ∧ w.extractLsb' 0 5 = 0#5 then some (.kcnt (w.extractLsb' 21 5) (w.extractLsb' 16 3)) else none
  else if w.extractLsb' 5 6 = 8#6 then
    if w.extractLsb' 0 2 = 0#2 then some (.vcomp (w.extractLsb' 21 5) (w.extractLsb' 16 5) (w.extractLsb' 11 5) (w.extractLsb' 2 3)) else none
  else if w.extractLsb' 5 6 = 9#6 then
    if w.extractLsb' 11 5 = 0#5 ∧ w.extractLsb' 0 2 = 0#2 then some (.vexp (w.extractLsb' 21 5) (w.extractLsb' 16 5) (w.extractLsb' 2 3)) else none
  else none

/-- Major 0x29 (R187). -/
def decodeMajor29 (w : BitVec 32) : Option Instr :=
  if w.extractLsb' 5 6 = 0#6 then
    if w.extractLsb' 11 5 = 0#5 ∧ w.extractLsb' 0 2 = 0#2 then some (.vmov (w.extractLsb' 21 5) (w.extractLsb' 16 5) (w.extractLsb' 2 3)) else none
  else if w.extractLsb' 5 6 = 1#6 then
    if w.extractLsb' 11 5 = 0#5 ∧ w.extractLsb' 0 2 = 0#2 then some (.vsplat (w.extractLsb' 21 5) (w.extractLsb' 16 5) (w.extractLsb' 2 3)) else none
  else if w.extractLsb' 5 6 = 2#6 then
    if w.extractLsb' 0 2 = 0#2 then some (.vsplati (w.extractLsb' 21 5) (w.extractLsb' 11 10) (w.extractLsb' 2 3)) else none
  else if w.extractLsb' 5 6 = 3#6 then
    if w.extractLsb' 0 5 = 0#5 then some (.vins (w.extractLsb' 21 5) (w.extractLsb' 16 5) (w.extractLsb' 11 5)) else none
  else if w.extractLsb' 5 6 = 4#6 then
    if w.extractLsb' 2 3 = 0#3 then some (.vext (w.extractLsb' 21 5) (w.extractLsb' 16 5) (w.extractLsb' 11 5) (w.extractLsb' 0 2)) else none
  else if w.extractLsb' 5 6 = 6#6 then
    if w.extractLsb' 19 7 = 0#7 ∧ w.extractLsb' 11 5 = 0#5 ∧ w.extractLsb' 0 5 = 0#5 then some (.vcfg (w.extractLsb' 18 1) (w.extractLsb' 16 2)) else none
  else none

/-- Major 0x2A (R187). -/
def decodeMajor2A (w : BitVec 32) : Option Instr :=
  if w.extractLsb' 24 2 = 0#2 ∧ w.extractLsb' 5 1 = 0#1 then some (.vcmp (w.extractLsb' 21 3) (w.extractLsb' 16 5) (w.extractLsb' 11 5) (w.extractLsb' 8 3) (w.extractLsb' 6 2) (w.extractLsb' 2 3) (w.extractLsb' 0 2)) else none

/-- Major 0x2C (R187). -/
def decodeMajor2C (w : BitVec 32) : Option Instr :=
  if w.extractLsb' 7 9 = 0#9 then
    if w.extractLsb' 3 4 = 0#4 then some (.tkpeek (w.extractLsb' 21 5) (w.extractLsb' 16 5)) else none
  else if w.extractLsb' 7 9 = 8#9 then
    if w.extractLsb' 19 2 = 0#2 ∧ w.extractLsb' 3 4 = 0#4 then some (.tkpeekQ (w.extractLsb' 21 5) (w.extractLsb' 16 3)) else none
  else if w.extractLsb' 7 9 = 1#9 then
    if w.extractLsb' 3 4 = 0#4 then some (.tkpop (w.extractLsb' 21 5) (w.extractLsb' 16 5)) else none
  else if w.extractLsb' 7 9 = 9#9 then
    if w.extractLsb' 19 2 = 0#2 ∧ w.extractLsb' 3 4 = 0#4 then some (.tkpopQ (w.extractLsb' 21 5) (w.extractLsb' 16 3)) else none
  else if w.extractLsb' 7 9 = 2#9 then
    if w.extractLsb' 3 4 = 0#4 then some (.tkpopv (w.extractLsb' 21 5) (w.extractLsb' 16 5)) else none
  else if w.extractLsb' 7 9 = 10#9 then
    if w.extractLsb' 19 2 = 0#2 ∧ w.extractLsb' 3 4 = 0#4 then some (.tkpopvQ (w.extractLsb' 21 5) (w.extractLsb' 16 3)) else none
  else if w.extractLsb' 7 9 = 3#9 then
    some (.tksend (w.extractLsb' 21 5) (w.extractLsb' 16 5) (w.extractLsb' 3 4))
  else if w.extractLsb' 7 9 = 11#9 then
    if w.extractLsb' 24 2 = 0#2 then some (.tksendQ (w.extractLsb' 21 3) (w.extractLsb' 16 5) (w.extractLsb' 3 4)) else none
  else if w.extractLsb' 7 9 = 4#9 then
    some (.tksendv (w.extractLsb' 21 5) (w.extractLsb' 16 5) (w.extractLsb' 3 4))
  else if w.extractLsb' 7 9 = 12#9 then
    if w.extractLsb' 24 2 = 0#2 then some (.tksendvQ (w.extractLsb' 21 3) (w.extractLsb' 16 5) (w.extractLsb' 3 4)) else none
  else none

/-- Major 0x2D (R187). -/
def decodeMajor2D (w : BitVec 32) : Option Instr :=
  if w.extractLsb' 3 1 = 1#1 then
    if w.extractLsb' 25 1 = 0#1 ∧ w.extractLsb' 20 1 = 0#1 ∧ w.extractLsb' 15 1 = 0#1 then some (.merge (w.extractLsb' 21 4) (w.extractLsb' 16 4) (w.extractLsb' 11 4) (w.extractLsb' 7 4) (w.extractLsb' 4 3)) else none
  else if w.extractLsb' 11 4 = 15#4 then
    if w.extractLsb' 25 1 = 0#1 ∧ w.extractLsb' 20 1 = 0#1 ∧ w.extractLsb' 15 1 = 0#1 then some (.tee (w.extractLsb' 21 4) (w.extractLsb' 16 4) (w.extractLsb' 7 4) (w.extractLsb' 4 3)) else none
  else
    if w.extractLsb' 25 1 = 0#1 ∧ w.extractLsb' 20 1 = 0#1 ∧ w.extractLsb' 15 1 = 0#1 then some (.steer (w.extractLsb' 21 4) (w.extractLsb' 16 4) (w.extractLsb' 11 4) (w.extractLsb' 7 4) (w.extractLsb' 4 3)) else none

/-- Major 0x2E (R187). -/
def decodeMajor2E (w v : BitVec 32) : Option Instr :=
  if w.extractLsb' 23 3 = 0#3 then
    if w.extractLsb' 12 4 = 0#4 ∧ w.extractLsb' 3 5 = 0#5 ∧ v.extractLsb' 0 17 = 0#17 then some (.fscan (w.extractLsb' 20 3) (w.extractLsb' 16 4) (w.extractLsb' 8 4) (v.extractLsb' 27 5) (v.extractLsb' 22 5) (v.extractLsb' 17 5)) else none
  else if w.extractLsb' 23 3 = 1#3 then
    if w.extractLsb' 3 5 = 0#5 ∧ v.extractLsb' 0 32 = 0#32 then some (.fisect (w.extractLsb' 20 3) (w.extractLsb' 16 4) (w.extractLsb' 12 4) (w.extractLsb' 8 4)) else none
  else if w.extractLsb' 23 3 = 2#3 then
    if w.extractLsb' 3 5 = 0#5 ∧ v.extractLsb' 0 32 = 0#32 then some (.funion (w.extractLsb' 20 3) (w.extractLsb' 16 4) (w.extractLsb' 12 4) (w.extractLsb' 8 4)) else none
  else if w.extractLsb' 23 3 = 3#3 then
    if w.extractLsb' 3 5 = 0#5 ∧ v.extractLsb' 0 32 = 0#32 then some (.frep (w.extractLsb' 20 3) (w.extractLsb' 16 4) (w.extractLsb' 12 4) (w.extractLsb' 8 4)) else none
  else if w.extractLsb' 23 3 = 4#3 then
    if w.extractLsb' 5 1 = 0#1 ∧ v.extractLsb' 0 32 = 0#32 then some (.fzip (w.extractLsb' 20 3) (w.extractLsb' 16 4) (w.extractLsb' 12 4) (w.extractLsb' 8 4) (w.extractLsb' 6 2) (w.extractLsb' 3 2)) else none
  else if w.extractLsb' 23 3 = 5#3 then
    if w.extractLsb' 12 4 = 0#4 ∧ w.extractLsb' 4 4 = 0#4 ∧ v.extractLsb' 22 5 = 0#5 ∧ v.extractLsb' 0 17 = 0#17 then some (.fload (w.extractLsb' 20 3) (w.extractLsb' 16 4) (w.extractLsb' 8 4) (w.extractLsb' 3 1) (v.extractLsb' 27 5) (v.extractLsb' 17 5)) else none
  else if w.extractLsb' 23 3 = 6#3 then
    if w.extractLsb' 12 4 = 0#4 ∧ w.extractLsb' 5 1 = 0#1 ∧ v.extractLsb' 0 32 = 0#32 then some (.fred (w.extractLsb' 20 3) (w.extractLsb' 16 4) (w.extractLsb' 8 4) (w.extractLsb' 6 2) (w.extractLsb' 3 2)) else none
  else if w.extractLsb' 23 3 = 7#3 then
    if w.extractLsb' 12 4 = 0#4 ∧ w.extractLsb' 4 4 = 0#4 ∧ v.extractLsb' 22 5 = 0#5 ∧ v.extractLsb' 0 17 = 0#17 then some (.fwrite (w.extractLsb' 20 3) (w.extractLsb' 16 4) (w.extractLsb' 8 4) (w.extractLsb' 3 1) (v.extractLsb' 27 5) (v.extractLsb' 17 5)) else none
  else none

/-- Major 0x2F (R187). -/
def decodeMajor2F (w : BitVec 32) : Option Instr :=
  if w.extractLsb' 3 9 = 0#9 then
    some (.btag (w.extractLsb' 21 5) (w.extractLsb' 16 5) (w.extractLsb' 12 4))
  else if w.extractLsb' 3 9 = 256#9 then
    if w.extractLsb' 19 2 = 0#2 then some (.btagQ (w.extractLsb' 21 5) (w.extractLsb' 16 3) (w.extractLsb' 12 4)) else none
  else none

/-- Major 0x30 (R187). -/
def decodeMajor30 (w v : BitVec 32) : Option Instr :=
  if w.extractLsb' 3 3 = 0#3 then
    if w.extractLsb' 6 5 = 0#5 ∧ v.extractLsb' 3 26 = 0#26 then some (.wload (w.extractLsb' 21 5) (w.extractLsb' 16 5) (w.extractLsb' 11 5) (v.extractLsb' 30 2) (v.extractLsb' 29 1) (v.extractLsb' 0 3)) else none
  else if w.extractLsb' 3 3 = 1#3 then
    if v.extractLsb' 3 29 = 0#29 then
      if w.extractLsb' 6 15 = 0#15 then some (.wexport (w.extractLsb' 21 5) (v.extractLsb' 0 3)) else none
    else if v.extractLsb' 3 29 = 268435456#29 then
      if w.extractLsb' 6 20 = 0#20 then some (.wexportRv (v.extractLsb' 0 3)) else none
    else none
  else if w.extractLsb' 3 3 = 2#3 then
    if v.extractLsb' 28 1 = 0#1 then some (.mmq (w.extractLsb' 21 5) (w.extractLsb' 16 5) (w.extractLsb' 11 5) (w.extractLsb' 6 5) (v.extractLsb' 31 1) (v.extractLsb' 30 1) (v.extractLsb' 29 1) (v.extractLsb' 0 28)) else none
  else if w.extractLsb' 3 3 = 3#3 then
    if w.extractLsb' 6 15 = 0#15 ∧ v.extractLsb' 0 20 = 0#20 then some (.accrd (w.extractLsb' 21 5) (v.extractLsb' 30 2) (v.extractLsb' 27 3) (v.extractLsb' 23 4) (v.extractLsb' 20 3)) else none
  else if w.extractLsb' 3 3 = 4#3 then
    if w.extractLsb' 6 20 = 0#20 ∧ v.extractLsb' 30 2 = 0#2 ∧ v.extractLsb' 0 19 = 0#19 then some (.accclr (v.extractLsb' 27 3) (v.extractLsb' 23 4) (v.extractLsb' 19 4)) else none
  else none

/-- Major 0x31 (R187). -/
def decodeMajor31 (w v : BitVec 32) : Option Instr :=
  if w.extractLsb' 3 18 = 0#18 then
    if v.extractLsb' 4 28 = 0#28 then some (.carm (w.extractLsb' 21 5) (v.extractLsb' 0 4)) else none
  else if w.extractLsb' 3 18 = 1#18 then
    if w.extractLsb' 21 5 = 0#5 ∧ v.extractLsb' 4 28 = 0#28 then some (.cfire (v.extractLsb' 0 4)) else none
  else if w.extractLsb' 3 18 = 2#18 then
    if w.extractLsb' 21 5 = 0#5 ∧ v.extractLsb' 4 28 = 0#28 then some (.cdis (v.extractLsb' 0 4)) else none
  else if w.extractLsb' 3 18 = 3#18 then
    if v.extractLsb' 4 28 = 0#28 then some (.cstat (w.extractLsb' 21 5) (v.extractLsb' 0 4)) else none
  else none

/-- Major 0x32 (R187). -/
def decodeMajor32 (w : BitVec 32) : Option Instr :=
  if w.extractLsb' 3 8 = 0#8 then
    if w.extractLsb' 21 5 = 0#5 then some (.binit (w.extractLsb' 16 5) (w.extractLsb' 11 5)) else none
  else if w.extractLsb' 3 8 = 1#8 then
    if w.extractLsb' 11 5 = 0#5 then some (.barr (w.extractLsb' 21 5) (w.extractLsb' 16 5)) else none
  else if w.extractLsb' 3 8 = 2#8 then
    some (.bwait (w.extractLsb' 21 5) (w.extractLsb' 16 5) (w.extractLsb' 11 5))
  else if w.extractLsb' 3 8 = 3#8 then
    if w.extractLsb' 11 5 = 0#5 then some (.btest (w.extractLsb' 21 5) (w.extractLsb' 16 5)) else none
  else none

/-- Major 0x33 (R187). -/
def decodeMajor33 (w : BitVec 32) : Option Instr :=
  if w.extractLsb' 3 8 = 0#8 then
    some (.spawn (w.extractLsb' 21 5) (w.extractLsb' 16 5) (w.extractLsb' 11 5))
  else if w.extractLsb' 3 8 = 2#8 then
    some (.send (w.extractLsb' 21 5) (w.extractLsb' 16 5) (w.extractLsb' 11 5))
  else if w.extractLsb' 3 8 = 1#8 then
    if w.extractLsb' 11 15 = 0#15 then some .tdone else none
  else none

/-- Major 0x34 (R187). -/
def decodeMajor34 (w : BitVec 32) : Option Instr :=
  if w.extractLsb' 3 18 = 2#18 then
    some (.stake (w.extractLsb' 21 5))
  else if w.extractLsb' 3 18 = 0#18 then
    if w.extractLsb' 21 5 = 0#5 then some .potinit else none
  else if w.extractLsb' 3 18 = 1#18 then
    if w.extractLsb' 21 5 = 0#5 then some .wquiet else none
  else if w.extractLsb' 3 18 = 3#18 then
    if w.extractLsb' 21 5 = 0#5 then some .commit else none
  else none

/-- Major 0x35 (R187). -/
def decodeMajor35 (w : BitVec 32) : Option Instr :=
  if w.extractLsb' 3 13 = 0#13 then
    some (.crd (w.extractLsb' 21 5) (w.extractLsb' 16 5))
  else if w.extractLsb' 3 13 = 1#13 then
    some (.cwr (w.extractLsb' 21 5) (w.extractLsb' 16 5))
  else none

/-- Major 0x36 (R187). -/
def decodeMajor36 (w : BitVec 32) : Option Instr :=
  if w.extractLsb' 3 18 = 0#18 then
    some (.trap (w.extractLsb' 21 5))
  else if w.extractLsb' 3 18 = 1#18 then
    if w.extractLsb' 21 5 = 0#5 then some .eret else none
  else if w.extractLsb' 3 18 = 2#18 then
    if w.extractLsb' 21 5 = 0#5 then some .wfi else none
  else if w.extractLsb' 3 18 = 3#18 then
    if w.extractLsb' 21 5 = 0#5 then some .brk else none
  else if w.extractLsb' 3 18 = 4#18 then
    if w.extractLsb' 21 5 = 0#5 then some .halt else none
  else none

/-- The instruction a pair of instruction words spells by field positions alone (R178, R180, R187): the major opcode of the
first word selects the format; an unassigned major has none. -/
def decodeRaw (w v : BitVec 32) : Option Instr :=
  if w.extractLsb' 26 6 = 0#6 then decodeMajor00 w
  else if w.extractLsb' 26 6 = 1#6 then decodeMajor01 w
  else if w.extractLsb' 26 6 = 2#6 then decodeMajor02 w
  else if w.extractLsb' 26 6 = 3#6 then decodeMajor03 w
  else if w.extractLsb' 26 6 = 4#6 then decodeMajor04 w
  else if w.extractLsb' 26 6 = 5#6 then decodeMajor05 w
  else if w.extractLsb' 26 6 = 6#6 then decodeMajor06 w
  else if w.extractLsb' 26 6 = 7#6 then decodeMajor07 w
  else if w.extractLsb' 26 6 = 8#6 then decodeMajor08 w
  else if w.extractLsb' 26 6 = 9#6 then decodeMajor09 w
  else if w.extractLsb' 26 6 = 10#6 then decodeMajor0A w
  else if w.extractLsb' 26 6 = 11#6 then decodeMajor0B w
  else if w.extractLsb' 26 6 = 12#6 then decodeMajor0C w
  else if w.extractLsb' 26 6 = 13#6 then decodeMajor0D w
  else if w.extractLsb' 26 6 = 14#6 then decodeMajor0E w
  else if w.extractLsb' 26 6 = 16#6 then decodeMajor10 w
  else if w.extractLsb' 26 6 = 17#6 then decodeMajor11 w
  else if w.extractLsb' 26 6 = 18#6 then decodeMajor12 w
  else if w.extractLsb' 26 6 = 19#6 then decodeMajor13 w
  else if w.extractLsb' 26 6 = 20#6 then decodeMajor14 w
  else if w.extractLsb' 26 6 = 21#6 then decodeMajor15 w
  else if w.extractLsb' 26 6 = 22#6 then decodeMajor16 w
  else if w.extractLsb' 26 6 = 23#6 then decodeMajor17 w
  else if w.extractLsb' 26 6 = 24#6 then decodeMajor18 w
  else if w.extractLsb' 26 6 = 25#6 then decodeMajor19 w
  else if w.extractLsb' 26 6 = 26#6 then decodeMajor1A w
  else if w.extractLsb' 26 6 = 27#6 then decodeMajor1B w v
  else if w.extractLsb' 26 6 = 28#6 then decodeMajor1C w
  else if w.extractLsb' 26 6 = 29#6 then decodeMajor1D w
  else if w.extractLsb' 26 6 = 32#6 then decodeMajor20 w
  else if w.extractLsb' 26 6 = 33#6 then decodeMajor21 w
  else if w.extractLsb' 26 6 = 34#6 then decodeMajor22 w
  else if w.extractLsb' 26 6 = 35#6 then decodeMajor23 w
  else if w.extractLsb' 26 6 = 36#6 then decodeMajor24 w
  else if w.extractLsb' 26 6 = 37#6 then decodeMajor25 w
  else if w.extractLsb' 26 6 = 38#6 then decodeMajor26 w
  else if w.extractLsb' 26 6 = 39#6 then decodeMajor27 w
  else if w.extractLsb' 26 6 = 40#6 then decodeMajor28 w
  else if w.extractLsb' 26 6 = 41#6 then decodeMajor29 w
  else if w.extractLsb' 26 6 = 42#6 then decodeMajor2A w
  else if w.extractLsb' 26 6 = 44#6 then decodeMajor2C w
  else if w.extractLsb' 26 6 = 45#6 then decodeMajor2D w
  else if w.extractLsb' 26 6 = 46#6 then decodeMajor2E w v
  else if w.extractLsb' 26 6 = 47#6 then decodeMajor2F w
  else if w.extractLsb' 26 6 = 48#6 then decodeMajor30 w v
  else if w.extractLsb' 26 6 = 49#6 then decodeMajor31 w v
  else if w.extractLsb' 26 6 = 50#6 then decodeMajor32 w
  else if w.extractLsb' 26 6 = 51#6 then decodeMajor33 w
  else if w.extractLsb' 26 6 = 52#6 then decodeMajor34 w
  else if w.extractLsb' 26 6 = 53#6 then decodeMajor35 w
  else if w.extractLsb' 26 6 = 54#6 then decodeMajor36 w
  else none

/-- Keep what a decoder found if it is an instruction of the S4. -/
def keepWellFormed (o : Option Instr) : Option Instr := o.filter wellFormed

/-- The operation of a 64-bit word of the switch program store (R298, R300). Reserved sources, operations and conditions, and
operand bits that the operation does not name, have no meaning (check 0x07 of R307). -/
def decodeSwitch (w : BitVec 64) : Option Instr :=
  if routesOk (w.extractLsb' 16 48) then
    if w.extractLsb' 11 5 = 0#5 then if w.extractLsb' 0 11 = 0#11 then some .snext else none
    else if w.extractLsb' 11 5 = 1#5 then if w.extractLsb' 9 2 = 0#2 then some .sjump else none
    else if w.extractLsb' 11 5 = 2#5 then some .sloop
    else if w.extractLsb' 11 5 = 3#5 then if w.extractLsb' 9 1 = 0#1 then some .sdbr else none
    else if w.extractLsb' 11 5 = 4#5 then
      if testOk (w.extractLsb' 7 4) (w.extractLsb' 3 4) then some .sbtag else none
    else if w.extractLsb' 11 5 = 5#5 then
      if testOk (w.extractLsb' 7 4) (w.extractLsb' 3 4) ∧ w.extractLsb' 0 3 = 0#3 then some .swait else none
    else if w.extractLsb' 11 5 = 6#5 then
      if testOk (w.extractLsb' 7 4) 0#4 ∧ w.extractLsb' 0 7 = 0#7 then some .sflip else none
    else if w.extractLsb' 11 5 = 7#5 then if w.extractLsb' 0 11 = 0#11 then some .shalt else none
    else none
  else none

/-- The control operation code of a switch instruction (R300). -/
def switchCode : Instr → Option (BitVec 5)
  | .snext => some 0#5
  | .sjump => some 1#5
  | .sloop => some 2#5
  | .sdbr => some 3#5
  | .sbtag => some 4#5
  | .swait => some 5#5
  | .sflip => some 6#5
  | .shalt => some 7#5
  | _ => none

/-- The 64-bit word of a switch instruction with its twelve routes and its operand (R298). -/
def encodeSwitch (i : Instr) (routes : BitVec 48) (operand : BitVec 11) : Option (BitVec 64) :=
  (switchCode i).map fun c => routes ++ c ++ operand

/-- The kind of a frame of a Guronus image (R303, R304): zero fields, reserved kinds and reserved codes in any field have no
meaning (check 0x01 of R307). Bits 240 to 243, the core mask, are zero in a kind that does not act per core. -/
def decodeFrame (w : BitVec 256) : Option Instr :=
  if w.extractLsb' 244 3 = 0#3 then
    if w.extractLsb' 248 8 = 1#8 then
      if w.extractLsb' 216 31 = 0#31 ∧ w.extractLsb' 206 2 ≠ 3#2 ∧ w.extractLsb' 192 2 ≠ 3#2 then some .header else none
    else if w.extractLsb' 248 8 = 2#8 then
      if w.extractLsb' 192 1 = 0#1 ∧ 1#3 ≤ w.extractLsb' 199 3 ∧ w.extractLsb' 199 3 ≤ 6#3 then some .code else none
    else if w.extractLsb' 248 8 = 3#8 then
      if w.extractLsb' 192 13 = 0#13 ∧ w.extractLsb' 240 4 = 0#4 ∧ w.extractLsb' 205 2 ≠ 0#2 then some .switch else none
    else if w.extractLsb' 248 8 = 4#8 then
      if w.extractLsb' 215 1 = 0#1 then
        if w.extractLsb' 0 112 = 0#112 ∧ w.extractLsb' 200 6 = 0#6 then
          if w.extractLsb' 210 2 = 3#2 then
            if w.extractLsb' 112 67 = 0#67 ∧ 1#11 ≤ w.extractLsb' 179 11 ∧ w.extractLsb' 179 11 ≤ 1024#11 then
              some .bankClaim
            else none
          else if w.extractLsb' 240 4 = 0#4 ∧ w.extractLsb' 208 2 ≠ 3#2 then some .bankClaim else none
        else none
      else if w.extractLsb' 192 1 = 0#1 ∧ w.extractLsb' 240 4 = 0#4 ∧ w.extractLsb' 193 5 < 24#5 then some .bankData
      else none
    else if w.extractLsb' 248 8 = 5#8 then
      if w.extractLsb' 192 18 = 0#18 ∧ w.extractLsb' 240 4 = 0#4 then some .template else none
    else if w.extractLsb' 248 8 = 6#8 then
      if w.extractLsb' 0 180 = 0#180 ∧ w.extractLsb' 240 4 = 0#4 ∧ linkOk (w.extractLsb' 184 32) then some .link else none
    else if w.extractLsb' 248 8 = 7#8 then
      if w.extractLsb' 0 210 = 0#210 ∧ w.extractLsb' 240 4 = 0#4 then some .matrix else none
    else if w.extractLsb' 248 8 = 8#8 then
      if w.extractLsb' 0 97 = 0#97 ∧ (w.extractLsb' 215 1 = 1#1 → w.extractLsb' 201 14 = 0#14) then some .start else none
    else none
  else none

/-- The kind code of a frame and, for BANK, the bit that tells a claim from data (R303, R304). -/
def frameCode : Instr → Option (BitVec 8 × BitVec 1)
  | .header => some (1#8, 0#1)
  | .code => some (2#8, 0#1)
  | .switch => some (3#8, 0#1)
  | .bankClaim => some (4#8, 0#1)
  | .bankData => some (4#8, 1#1)
  | .template => some (5#8, 0#1)
  | .link => some (6#8, 0#1)
  | .matrix => some (7#8, 0#1)
  | .start => some (8#8, 0#1)
  | _ => none

/-- The 256-bit word of a frame that names tiles: shadow bit, core mask, rectangle of virtual tiles and body (R303); a BANK frame
gives the lower 215 bits of its body, the top one telling a claim from data. -/
def encodeFrame (i : Instr) (s : BitVec 1) (cores : BitVec 4) (rect : BitVec 24) (body : BitVec 216) : Option (BitVec 256) :=
  (frameCode i).map fun c =>
    if c.1 = 4#8 then c.1 ++ s ++ 0#3 ++ cores ++ rect ++ c.2 ++ body.extractLsb' 0 215
    else c.1 ++ s ++ 0#3 ++ cores ++ rect ++ body


/-- The major opcodes that take a second instruction word (R178). -/
def isWide (w : BitVec 32) : Bool :=
  w.extractLsb' 26 6 = 0x1B#6 || w.extractLsb' 26 6 = 0x2E#6 || w.extractLsb' 26 6 = 0x30#6 || w.extractLsb' 26 6 = 0x31#6

/-- The guard that an instruction word names (R182): bits 2:0 in every format but J, VR and VR4, which have none and read as p0
(R180, R187). -/
def guardOf (w : BitVec 32) : BitVec 3 :=
  let op := w.extractLsb' 26 6
  if op = 0x0D#6 || op = 0x14#6 || op = 0x1A#6 || (0x20#6 ≤ op && op ≤ 0x2A#6) then 0#3 else w.extractLsb' 0 3

/-- The decoder of program instructions on the word at IP and the word after it (R178, R188). -/
def decode (w v : BitVec 32) : Option Instr := keepWellFormed (decodeRaw w v)

/-- The words of a program instruction, written from the field maps of R180 and the instruction's entry; the second word
is zero for a 32-bit instruction. The guard `g` takes its place in every format that has one (R182). What is no program
instruction has no words. -/
def encode (i : Instr) (g : BitVec 3) : Option (BitVec 32 × BitVec 32) :=
  match i with
  | .add d a b => some (0#6 ++ d ++ a ++ b ++ 0#8 ++ g, 0#32)
  | .sub d a b => some (0#6 ++ d ++ a ++ b ++ 1#8 ++ g, 0#32)
  | .and d a b => some (0#6 ++ d ++ a ++ b ++ 2#8 ++ g, 0#32)
  | .or d a b => some (0#6 ++ d ++ a ++ b ++ 3#8 ++ g, 0#32)
  | .xor d a b => some (0#6 ++ d ++ a ++ b ++ 4#8 ++ g, 0#32)
  | .andn d a b => some (0#6 ++ d ++ a ++ b ++ 5#8 ++ g, 0#32)
  | .shl d a b => some (0#6 ++ d ++ a ++ b ++ 6#8 ++ g, 0#32)
  | .shr d a b => some (0#6 ++ d ++ a ++ b ++ 7#8 ++ g, 0#32)
  | .sar d a b => some (0#6 ++ d ++ a ++ b ++ 8#8 ++ g, 0#32)
  | .rol d a b => some (0#6 ++ d ++ a ++ b ++ 9#8 ++ g, 0#32)
  | .ror d a b => some (0#6 ++ d ++ a ++ b ++ 10#8 ++ g, 0#32)
  | .min d a b => some (0#6 ++ d ++ a ++ b ++ 11#8 ++ g, 0#32)
  | .max d a b => some (0#6 ++ d ++ a ++ b ++ 12#8 ++ g, 0#32)
  | .minu d a b => some (0#6 ++ d ++ a ++ b ++ 13#8 ++ g, 0#32)
  | .maxu d a b => some (0#6 ++ d ++ a ++ b ++ 14#8 ++ g, 0#32)
  | .adds d a b => some (0#6 ++ d ++ a ++ b ++ 15#8 ++ g, 0#32)
  | .subs d a b => some (0#6 ++ d ++ a ++ b ++ 16#8 ++ g, 0#32)
  | .addus d a b => some (0#6 ++ d ++ a ++ b ++ 17#8 ++ g, 0#32)
  | .subus d a b => some (0#6 ++ d ++ a ++ b ++ 18#8 ++ g, 0#32)
  | .mov d a => some (0#6 ++ d ++ a ++ 32#13 ++ g, 0#32)
  | .sxb d a => some (0#6 ++ d ++ a ++ 33#13 ++ g, 0#32)
  | .sxh d a => some (0#6 ++ d ++ a ++ 34#13 ++ g, 0#32)
  | .sxw d a => some (0#6 ++ d ++ a ++ 35#13 ++ g, 0#32)
  | .zxb d a => some (0#6 ++ d ++ a ++ 36#13 ++ g, 0#32)
  | .zxh d a => some (0#6 ++ d ++ a ++ 37#13 ++ g, 0#32)
  | .zxw d a => some (0#6 ++ d ++ a ++ 38#13 ++ g, 0#32)
  | .clz d a => some (0#6 ++ d ++ a ++ 39#13 ++ g, 0#32)
  | .ctz d a => some (0#6 ++ d ++ a ++ 40#13 ++ g, 0#32)
  | .pcnt d a => some (0#6 ++ d ++ a ++ 41#13 ++ g, 0#32)
  | .mul d a b => some (1#6 ++ d ++ a ++ b ++ 0#8 ++ g, 0#32)
  | .mulh d a b => some (1#6 ++ d ++ a ++ b ++ 1#8 ++ g, 0#32)
  | .mulhu d a b => some (1#6 ++ d ++ a ++ b ++ 2#8 ++ g, 0#32)
  | .mulhsu d a b => some (1#6 ++ d ++ a ++ b ++ 3#8 ++ g, 0#32)
  | .div d a b => some (1#6 ++ d ++ a ++ b ++ 4#8 ++ g, 0#32)
  | .divu d a b => some (1#6 ++ d ++ a ++ b ++ 5#8 ++ g, 0#32)
  | .rem d a b => some (1#6 ++ d ++ a ++ b ++ 6#8 ++ g, 0#32)
  | .remu d a b => some (1#6 ++ d ++ a ++ b ++ 7#8 ++ g, 0#32)
  | .addi d a i => some (2#6 ++ d ++ a ++ i ++ g, 0#32)
  | .andi d a i => some (3#6 ++ d ++ a ++ i ++ g, 0#32)
  | .ori d a i => some (4#6 ++ d ++ a ++ i ++ g, 0#32)
  | .xori d a i => some (5#6 ++ d ++ a ++ i ++ g, 0#32)
  | .shli d a n => some (6#6 ++ d ++ a ++ 0#7 ++ n ++ g, 0#32)
  | .shri d a n => some (6#6 ++ d ++ a ++ 16#7 ++ n ++ g, 0#32)
  | .sari d a n => some (6#6 ++ d ++ a ++ 32#7 ++ n ++ g, 0#32)
  | .roli d a n => some (6#6 ++ d ++ a ++ 48#7 ++ n ++ g, 0#32)
  | .rori d a n => some (6#6 ++ d ++ a ++ 64#7 ++ n ++ g, 0#32)
  | .lhi d h c => some (7#6 ++ d ++ h ++ c ++ g, 0#32)
  | .cmp d a b m c => some (8#6 ++ 0#2 ++ d ++ a ++ b ++ 0#2 ++ m ++ c ++ g, 0#32)
  | .cmpi d a c i => some (9#6 ++ 0#2 ++ d ++ a ++ c ++ i ++ g, 0#32)
  | .pand d a b => some (10#6 ++ 0#2 ++ d ++ 0#2 ++ a ++ 0#2 ++ b ++ 0#8 ++ g, 0#32)
  | .por d a b => some (10#6 ++ 0#2 ++ d ++ 0#2 ++ a ++ 0#2 ++ b ++ 1#8 ++ g, 0#32)
  | .pxor d a b => some (10#6 ++ 0#2 ++ d ++ 0#2 ++ a ++ 0#2 ++ b ++ 2#8 ++ g, 0#32)
  | .pandn d a b => some (10#6 ++ 0#2 ++ d ++ 0#2 ++ a ++ 0#2 ++ b ++ 3#8 ++ g, 0#32)
  | .pnot d a => some (10#6 ++ 0#2 ++ d ++ 0#2 ++ a ++ 4#13 ++ g, 0#32)
  | .prds d a => some (10#6 ++ d ++ 0#2 ++ a ++ 5#13 ++ g, 0#32)
  | .pwrs d a => some (10#6 ++ 0#2 ++ d ++ a ++ 6#13 ++ g, 0#32)
  | .prdall d => some (10#6 ++ d ++ 7#18 ++ g, 0#32)
  | .pwrall a => some (10#6 ++ 0#5 ++ a ++ 8#13 ++ g, 0#32)
  | .sel d a b n => some (10#6 ++ d ++ a ++ b ++ 2#5 ++ n ++ g, 0#32)
  | .ipa d i => some (11#6 ++ d ++ i ++ g, 0#32)
  | .bt p o => some (12#6 ++ p ++ 1#1 ++ o ++ g, 0#32)
  | .bf p o => some (12#6 ++ p ++ 0#1 ++ o ++ g, 0#32)
  | .jmp o => some (13#6 ++ 0#1 ++ o, 0#32)
  | .call o => some (13#6 ++ 1#1 ++ o, 0#32)
  | .jr a => some (14#6 ++ 0#5 ++ a ++ 0#13 ++ g, 0#32)
  | .jalr d a => some (14#6 ++ d ++ a ++ 1#13 ++ g, 0#32)
  | .ld d a i z => some (16#6 ++ d ++ a ++ i ++ z ++ g, 0#32)
  | .st d a i z => some (17#6 ++ d ++ a ++ i ++ z ++ g, 0#32)
  | .vld d a i => some (18#6 ++ d ++ a ++ i ++ 0#2 ++ g, 0#32)
  | .vldLo d a i => some (18#6 ++ d ++ a ++ i ++ 1#2 ++ g, 0#32)
  | .vst d a i => some (19#6 ++ d ++ a ++ i ++ 0#2 ++ g, 0#32)
  | .vstLo d a i => some (19#6 ++ d ++ a ++ i ++ 1#2 ++ g, 0#32)
  | .vgat d a b s k t => some (20#6 ++ d ++ a ++ b ++ 0#1 ++ s ++ 0#3 ++ k ++ t, 0#32)
  | .vsct d a b s k t => some (20#6 ++ d ++ a ++ b ++ 1#1 ++ s ++ 0#3 ++ k ++ t, 0#32)
  | .aswap d a b o s => some (21#6 ++ d ++ a ++ b ++ o ++ s ++ 0#3 ++ g, 0#32)
  | .aadd d a b o s => some (21#6 ++ d ++ a ++ b ++ o ++ s ++ 1#3 ++ g, 0#32)
  | .aand d a b o s => some (21#6 ++ d ++ a ++ b ++ o ++ s ++ 2#3 ++ g, 0#32)
  | .aor d a b o s => some (21#6 ++ d ++ a ++ b ++ o ++ s ++ 3#3 ++ g, 0#32)
  | .axor d a b o s => some (21#6 ++ d ++ a ++ b ++ o ++ s ++ 4#3 ++ g, 0#32)
  | .amax d a b o s => some (21#6 ++ d ++ a ++ b ++ o ++ s ++ 5#3 ++ g, 0#32)
  | .amin d a b o s => some (21#6 ++ d ++ a ++ b ++ o ++ s ++ 6#3 ++ g, 0#32)
  | .amaxu d a b o s => some (21#6 ++ d ++ a ++ b ++ o ++ s ++ 7#3 ++ g, 0#32)
  | .cas d a b o s w => some (22#6 ++ d ++ a ++ b ++ o ++ s ++ w ++ 0#2 ++ g, 0#32)
  | .gtest d a => some (23#6 ++ d ++ a ++ 0#13 ++ g, 0#32)
  | .gcast d a w => some (23#6 ++ d ++ a ++ 2#10 ++ w ++ g, 0#32)
  | .cinv a b => some (24#6 ++ 0#5 ++ a ++ b ++ 0#8 ++ g, 0#32)
  | .cflush a b => some (24#6 ++ 0#5 ++ a ++ b ++ 1#8 ++ g, 0#32)
  | .cpref a b => some (24#6 ++ 0#5 ++ a ++ b ++ 2#8 ++ g, 0#32)
  | .fence s => some (25#6 ++ 0#19 ++ s ++ 0#1 ++ g, 0#32)
  | .stdone d a s => some (25#6 ++ d ++ a ++ 1#9 ++ s ++ 0#1 ++ g, 0#32)
  | .stdoneq q a s => some (25#6 ++ 0#2 ++ q ++ a ++ 2#9 ++ s ++ 0#1 ++ g, 0#32)
  | .stm d a k => some (26#6 ++ d ++ a ++ 0#11 ++ k ++ 0#2, 0#32)
  | .stq d a b w n r v q x => some (27#6 ++ d ++ a ++ b ++ w ++ n ++ g, r ++ v ++ q ++ x ++ 0#4)
  | .qpush q a => some (28#6 ++ 0#2 ++ q ++ a ++ 0#13 ++ g, 0#32)
  | .qpushv q a => some (28#6 ++ 0#2 ++ q ++ a ++ 1#13 ++ g, 0#32)
  | .qpop d q => some (28#6 ++ d ++ 0#2 ++ q ++ 2#13 ++ g, 0#32)
  | .qpopv d q => some (28#6 ++ d ++ 0#2 ++ q ++ 3#13 ++ g, 0#32)
  | .qcount d q => some (28#6 ++ d ++ 0#2 ++ q ++ 4#13 ++ g, 0#32)
  | .qtag d q => some (28#6 ++ d ++ 0#2 ++ q ++ 5#13 ++ g, 0#32)
  | .qdrop q => some (28#6 ++ 0#7 ++ q ++ 6#13 ++ g, 0#32)
  | .bset n a => some (29#6 ++ 0#2 ++ n ++ a ++ 0#13 ++ g, 0#32)
  | .bspill n a b => some (29#6 ++ 0#2 ++ n ++ a ++ b ++ 1#8 ++ g, 0#32)
  | .bget d n => some (29#6 ++ d ++ 0#7 ++ n ++ 2#8 ++ g, 0#32)
  | .vadd d a b k t => some (32#6 ++ d ++ a ++ b ++ 0#6 ++ k ++ t, 0#32)
  | .vsub d a b k t => some (32#6 ++ d ++ a ++ b ++ 1#6 ++ k ++ t, 0#32)
  | .vmul d a b k t => some (32#6 ++ d ++ a ++ b ++ 2#6 ++ k ++ t, 0#32)
  | .vmulh d a b k t => some (32#6 ++ d ++ a ++ b ++ 3#6 ++ k ++ t, 0#32)
  | .vmin d a b k t => some (32#6 ++ d ++ a ++ b ++ 4#6 ++ k ++ t, 0#32)
  | .vmax d a b k t => some (32#6 ++ d ++ a ++ b ++ 5#6 ++ k ++ t, 0#32)
  | .vadds d a b k t => some (32#6 ++ d ++ a ++ b ++ 6#6 ++ k ++ t, 0#32)
  | .vsubs d a b k t => some (32#6 ++ d ++ a ++ b ++ 7#6 ++ k ++ t, 0#32)
  | .vavg d a b k t => some (32#6 ++ d ++ a ++ b ++ 8#6 ++ k ++ t, 0#32)
  | .vabsd d a b k t => some (32#6 ++ d ++ a ++ b ++ 9#6 ++ k ++ t, 0#32)
  | .vand d a b k t => some (32#6 ++ d ++ a ++ b ++ 10#6 ++ k ++ t, 0#32)
  | .vor d a b k t => some (32#6 ++ d ++ a ++ b ++ 11#6 ++ k ++ t, 0#32)
  | .vxor d a b k t => some (32#6 ++ d ++ a ++ b ++ 12#6 ++ k ++ t, 0#32)
  | .vandn d a b k t => some (32#6 ++ d ++ a ++ b ++ 13#6 ++ k ++ t, 0#32)
  | .vshl d a b k t => some (32#6 ++ d ++ a ++ b ++ 14#6 ++ k ++ t, 0#32)
  | .vshr d a b k t => some (32#6 ++ d ++ a ++ b ++ 15#6 ++ k ++ t, 0#32)
  | .vdiv d a b k t => some (32#6 ++ d ++ a ++ b ++ 16#6 ++ k ++ t, 0#32)
  | .vrem d a b k t => some (32#6 ++ d ++ a ++ b ++ 17#6 ++ k ++ t, 0#32)
  | .vneg d a k t => some (32#6 ++ d ++ a ++ 18#11 ++ k ++ t, 0#32)
  | .vabs d a k t => some (32#6 ++ d ++ a ++ 19#11 ++ k ++ t, 0#32)
  | .vmuls d a b k t => some (32#6 ++ d ++ a ++ b ++ 20#6 ++ k ++ t, 0#32)
  | .valusVadd d a b x k t => some (33#6 ++ d ++ a ++ b ++ x ++ 0#5 ++ k ++ t, 0#32)
  | .valusVsub d a b x k t => some (33#6 ++ d ++ a ++ b ++ x ++ 1#5 ++ k ++ t, 0#32)
  | .valusVmul d a b x k t => some (33#6 ++ d ++ a ++ b ++ x ++ 2#5 ++ k ++ t, 0#32)
  | .valusVmulh d a b x k t => some (33#6 ++ d ++ a ++ b ++ x ++ 3#5 ++ k ++ t, 0#32)
  | .valusVmin d a b x k t => some (33#6 ++ d ++ a ++ b ++ x ++ 4#5 ++ k ++ t, 0#32)
  | .valusVmax d a b x k t => some (33#6 ++ d ++ a ++ b ++ x ++ 5#5 ++ k ++ t, 0#32)
  | .valusVadds d a b x k t => some (33#6 ++ d ++ a ++ b ++ x ++ 6#5 ++ k ++ t, 0#32)
  | .valusVsubs d a b x k t => some (33#6 ++ d ++ a ++ b ++ x ++ 7#5 ++ k ++ t, 0#32)
  | .valusVavg d a b x k t => some (33#6 ++ d ++ a ++ b ++ x ++ 8#5 ++ k ++ t, 0#32)
  | .valusVabsd d a b x k t => some (33#6 ++ d ++ a ++ b ++ x ++ 9#5 ++ k ++ t, 0#32)
  | .valusVand d a b x k t => some (33#6 ++ d ++ a ++ b ++ x ++ 10#5 ++ k ++ t, 0#32)
  | .valusVor d a b x k t => some (33#6 ++ d ++ a ++ b ++ x ++ 11#5 ++ k ++ t, 0#32)
  | .valusVxor d a b x k t => some (33#6 ++ d ++ a ++ b ++ x ++ 12#5 ++ k ++ t, 0#32)
  | .valusVandn d a b x k t => some (33#6 ++ d ++ a ++ b ++ x ++ 13#5 ++ k ++ t, 0#32)
  | .valusVshl d a b x k t => some (33#6 ++ d ++ a ++ b ++ x ++ 14#5 ++ k ++ t, 0#32)
  | .valusVshr d a b x k t => some (33#6 ++ d ++ a ++ b ++ x ++ 15#5 ++ k ++ t, 0#32)
  | .valusVdiv d a b x k t => some (33#6 ++ d ++ a ++ b ++ x ++ 16#5 ++ k ++ t, 0#32)
  | .valusVrem d a b x k t => some (33#6 ++ d ++ a ++ b ++ x ++ 17#5 ++ k ++ t, 0#32)
  | .valusVmuls d a b x k t => some (33#6 ++ d ++ a ++ b ++ x ++ 20#5 ++ k ++ t, 0#32)
  | .vfadd d a b k t => some (34#6 ++ d ++ a ++ b ++ 0#6 ++ k ++ t, 0#32)
  | .vfsub d a b k t => some (34#6 ++ d ++ a ++ b ++ 1#6 ++ k ++ t, 0#32)
  | .vfmul d a b k t => some (34#6 ++ d ++ a ++ b ++ 2#6 ++ k ++ t, 0#32)
  | .vfdiv d a b k t => some (34#6 ++ d ++ a ++ b ++ 3#6 ++ k ++ t, 0#32)
  | .vfmin d a b k t => some (34#6 ++ d ++ a ++ b ++ 4#6 ++ k ++ t, 0#32)
  | .vfmax d a b k t => some (34#6 ++ d ++ a ++ b ++ 5#6 ++ k ++ t, 0#32)
  | .vfsqrt d a k t => some (34#6 ++ d ++ a ++ 6#11 ++ k ++ t, 0#32)
  | .vfrcp d a k t => some (34#6 ++ d ++ a ++ 7#11 ++ k ++ t, 0#32)
  | .vfrsqrt d a k t => some (34#6 ++ d ++ a ++ 8#11 ++ k ++ t, 0#32)
  | .vfexp2 d a k t => some (34#6 ++ d ++ a ++ 9#11 ++ k ++ t, 0#32)
  | .vflog2 d a k t => some (34#6 ++ d ++ a ++ 10#11 ++ k ++ t, 0#32)
  | .vfabs d a k t => some (34#6 ++ d ++ a ++ 11#11 ++ k ++ t, 0#32)
  | .vfneg d a k t => some (34#6 ++ d ++ a ++ 12#11 ++ k ++ t, 0#32)
  | .vfsgnj d a b k t => some (34#6 ++ d ++ a ++ b ++ 13#6 ++ k ++ t, 0#32)
  | .vfma d a b c k t => some (35#6 ++ d ++ a ++ b ++ c ++ 0#1 ++ k ++ t, 0#32)
  | .vfms d a b c k t => some (35#6 ++ d ++ a ++ b ++ c ++ 1#1 ++ k ++ t, 0#32)
  | .vmac d a b c k t => some (36#6 ++ d ++ a ++ b ++ c ++ 0#1 ++ k ++ t, 0#32)
  | .vdot d a b c k t => some (36#6 ++ d ++ a ++ b ++ c ++ 1#1 ++ k ++ t, 0#32)
  | .vcvt d a x k t => some (37#6 ++ d ++ a ++ 0#7 ++ x ++ 0#2 ++ k ++ t, 0#32)
  | .vcvtn d a x h k t => some (37#6 ++ d ++ a ++ 1#7 ++ x ++ h ++ 0#1 ++ k ++ t, 0#32)
  | .vcvtw d a x h k t => some (37#6 ++ d ++ a ++ 2#7 ++ x ++ h ++ 0#1 ++ k ++ t, 0#32)
  | .vperm d a b k => some (38#6 ++ d ++ a ++ b ++ 0#6 ++ k ++ 0#2, 0#32)
  | .vslup d a b k => some (38#6 ++ d ++ a ++ b ++ 2#6 ++ k ++ 0#2, 0#32)
  | .vsldn d a b k => some (38#6 ++ d ++ a ++ b ++ 3#6 ++ k ++ 0#2, 0#32)
  | .vslupIm d a i k => some (38#6 ++ d ++ a ++ i ++ 4#6 ++ k ++ 0#2, 0#32)
  | .vsldnIm d a i k => some (38#6 ++ d ++ a ++ i ++ 5#6 ++ k ++ 0#2, 0#32)
  | .vzipl d a b k => some (38#6 ++ d ++ a ++ b ++ 6#6 ++ k ++ 0#2, 0#32)
  | .vziph d a b k => some (38#6 ++ d ++ a ++ b ++ 7#6 ++ k ++ 0#2, 0#32)
  | .vunzpe d a b k => some (38#6 ++ d ++ a ++ b ++ 8#6 ++ k ++ 0#2, 0#32)
  | .vunzpo d a b k => some (38#6 ++ d ++ a ++ b ++ 9#6 ++ k ++ 0#2, 0#32)
  | .vrsum d a k t => some (39#6 ++ d ++ a ++ 0#11 ++ k ++ t, 0#32)
  | .vrmin d a k t => some (39#6 ++ d ++ a ++ 1#11 ++ k ++ t, 0#32)
  | .vrmax d a k t => some (39#6 ++ d ++ a ++ 2#11 ++ k ++ t, 0#32)
  | .vrand d a k t => some (39#6 ++ d ++ a ++ 3#11 ++ k ++ t, 0#32)
  | .vror d a k t => some (39#6 ++ d ++ a ++ 4#11 ++ k ++ t, 0#32)
  | .vrxor d a k t => some (39#6 ++ d ++ a ++ 5#11 ++ k ++ t, 0#32)
  | .vrfsum d a k t => some (39#6 ++ d ++ a ++ 6#11 ++ k ++ t, 0#32)
  | .vrsumw d a k t => some (39#6 ++ d ++ a ++ 7#11 ++ k ++ t, 0#32)
  | .kand d a b => some (40#6 ++ 0#2 ++ d ++ 0#2 ++ a ++ 0#2 ++ b ++ 0#11, 0#32)
  | .kor d a b => some (40#6 ++ 0#2 ++ d ++ 0#2 ++ a ++ 0#2 ++ b ++ 32#11, 0#32)
  | .kxor d a b => some (40#6 ++ 0#2 ++ d ++ 0#2 ++ a ++ 0#2 ++ b ++ 64#11, 0#32)
  | .kandn d a b => some (40#6 ++ 0#2 ++ d ++ 0#2 ++ a ++ 0#2 ++ b ++ 96#11, 0#32)
  | .knot d a => some (40#6 ++ 0#2 ++ d ++ 0#2 ++ a ++ 128#16, 0#32)
  | .kset d a => some (40#6 ++ 0#2 ++ d ++ a ++ 160#16, 0#32)
  | .kget d a => some (40#6 ++ d ++ 0#2 ++ a ++ 192#16, 0#32)
  | .kcnt d a => some (40#6 ++ d ++ 0#2 ++ a ++ 224#16, 0#32)
  | .vcomp d a b k => some (40#6 ++ d ++ a ++ b ++ 8#6 ++ k ++ 0#2, 0#32)
  | .vexp d a k => some (40#6 ++ d ++ a ++ 9#11 ++ k ++ 0#2, 0#32)
  | .vmov d a k => some (41#6 ++ d ++ a ++ 0#11 ++ k ++ 0#2, 0#32)
  | .vsplat d a k => some (41#6 ++ d ++ a ++ 1#11 ++ k ++ 0#2, 0#32)
  | .vsplati d i k => some (41#6 ++ d ++ i ++ 2#6 ++ k ++ 0#2, 0#32)
  | .vins d a x => some (41#6 ++ d ++ a ++ x ++ 96#11, 0#32)
  | .vext d a x t => some (41#6 ++ d ++ a ++ x ++ 32#9 ++ t, 0#32)
  | .vcfg z w => some (41#6 ++ 0#7 ++ z ++ w ++ 192#16, 0#32)
  | .vcmp d a b c m k t => some (42#6 ++ 0#2 ++ d ++ a ++ b ++ c ++ m ++ 0#1 ++ k ++ t, 0#32)
  | .tkpeek d a => some (44#6 ++ d ++ a ++ 0#13 ++ g, 0#32)
  | .tkpeekQ d q => some (44#6 ++ d ++ 0#2 ++ q ++ 128#13 ++ g, 0#32)
  | .tkpop d a => some (44#6 ++ d ++ a ++ 16#13 ++ g, 0#32)
  | .tkpopQ d q => some (44#6 ++ d ++ 0#2 ++ q ++ 144#13 ++ g, 0#32)
  | .tkpopv d a => some (44#6 ++ d ++ a ++ 32#13 ++ g, 0#32)
  | .tkpopvQ d q => some (44#6 ++ d ++ 0#2 ++ q ++ 160#13 ++ g, 0#32)
  | .tksend d a t => some (44#6 ++ d ++ a ++ 3#9 ++ t ++ g, 0#32)
  | .tksendQ q a t => some (44#6 ++ 0#2 ++ q ++ a ++ 11#9 ++ t ++ g, 0#32)
  | .tksendv d a t => some (44#6 ++ d ++ a ++ 4#9 ++ t ++ g, 0#32)
  | .tksendvQ q a t => some (44#6 ++ 0#2 ++ q ++ a ++ 12#9 ++ t ++ g, 0#32)
  | .steer d a b e l => some (45#6 ++ 0#1 ++ d ++ 0#1 ++ a ++ 0#1 ++ b ++ e ++ l ++ 0#1 ++ g, 0#32)
  | .tee d a e l => some (45#6 ++ 0#1 ++ d ++ 0#1 ++ a ++ 15#5 ++ e ++ l ++ 0#1 ++ g, 0#32)
  | .merge d a b e l => some (45#6 ++ 0#1 ++ d ++ 0#1 ++ a ++ 0#1 ++ b ++ e ++ l ++ 1#1 ++ g, 0#32)
  | .fscan l i o x y z => some (46#6 ++ 0#3 ++ l ++ i ++ 0#4 ++ o ++ 0#5 ++ g, x ++ y ++ z ++ 0#17)
  | .fisect l i j o => some (46#6 ++ 1#3 ++ l ++ i ++ j ++ o ++ 0#5 ++ g, 0#32)
  | .funion l i j o => some (46#6 ++ 2#3 ++ l ++ i ++ j ++ o ++ 0#5 ++ g, 0#32)
  | .frep l i j o => some (46#6 ++ 3#3 ++ l ++ i ++ j ++ o ++ 0#5 ++ g, 0#32)
  | .fzip l i j o t p => some (46#6 ++ 4#3 ++ l ++ i ++ j ++ o ++ t ++ 0#1 ++ p ++ g, 0#32)
  | .fload l i o r x z => some (46#6 ++ 5#3 ++ l ++ i ++ 0#4 ++ o ++ 0#4 ++ r ++ g, x ++ 0#5 ++ z ++ 0#17)
  | .fred l i o t p => some (46#6 ++ 6#3 ++ l ++ i ++ 0#4 ++ o ++ t ++ 0#1 ++ p ++ g, 0#32)
  | .fwrite l i o r x z => some (46#6 ++ 7#3 ++ l ++ i ++ 0#4 ++ o ++ 0#4 ++ r ++ g, x ++ 0#5 ++ z ++ 0#17)
  | .btag d a c => some (47#6 ++ d ++ a ++ c ++ 0#9 ++ g, 0#32)
  | .btagQ d q c => some (47#6 ++ d ++ 0#2 ++ q ++ c ++ 256#9 ++ g, 0#32)
  | .wload a b c f v s => some (48#6 ++ a ++ b ++ c ++ 0#8 ++ g, f ++ v ++ 0#26 ++ s)
  | .wexport a s => some (48#6 ++ a ++ 1#18 ++ g, 0#29 ++ s)
  | .wexportRv s => some (48#6 ++ 1#23 ++ g, 268435456#29 ++ s)
  | .mmq a b c d h f v k => some (48#6 ++ a ++ b ++ c ++ d ++ 2#3 ++ g, h ++ f ++ v ++ 0#1 ++ k)
  | .accrd a f s w c => some (48#6 ++ a ++ 3#18 ++ g, f ++ s ++ w ++ c ++ 0#20)
  | .accclr s w c => some (48#6 ++ 4#23 ++ g, 0#2 ++ s ++ w ++ c ++ 0#19)
  | .carm a n => some (49#6 ++ a ++ 0#18 ++ g, 0#28 ++ n)
  | .cfire n => some (49#6 ++ 1#23 ++ g, 0#28 ++ n)
  | .cdis n => some (49#6 ++ 2#23 ++ g, 0#28 ++ n)
  | .cstat a n => some (49#6 ++ a ++ 3#18 ++ g, 0#28 ++ n)
  | .binit a b => some (50#6 ++ 0#5 ++ a ++ b ++ 0#8 ++ g, 0#32)
  | .barr d a => some (50#6 ++ d ++ a ++ 1#13 ++ g, 0#32)
  | .bwait d a b => some (50#6 ++ d ++ a ++ b ++ 2#8 ++ g, 0#32)
  | .btest d a => some (50#6 ++ d ++ a ++ 3#13 ++ g, 0#32)
  | .spawn d a b => some (51#6 ++ d ++ a ++ b ++ 0#8 ++ g, 0#32)
  | .send d a b => some (51#6 ++ d ++ a ++ b ++ 2#8 ++ g, 0#32)
  | .stake d => some (52#6 ++ d ++ 2#18 ++ g, 0#32)
  | .crd d c => some (53#6 ++ d ++ c ++ 0#13 ++ g, 0#32)
  | .cwr c a => some (53#6 ++ c ++ a ++ 1#13 ++ g, 0#32)
  | .trap n => some (54#6 ++ n ++ 0#18 ++ g, 0#32)
  | .hostRegisterWrite _ _ _ => none
  | .doorbell _ _ => none
  | .injectionSubmit _ _ => none
  | .hostMemWrite _ _ _ => none
  | .ret  => some (14#6 ++ 2#23 ++ g, 0#32)
  | .cinvAll  => some (24#6 ++ 3#23 ++ g, 0#32)
  | .tdone  => some (51#6 ++ 1#23 ++ g, 0#32)
  | .potinit  => some (52#6 ++ 0#23 ++ g, 0#32)
  | .wquiet  => some (52#6 ++ 1#23 ++ g, 0#32)
  | .commit  => some (52#6 ++ 3#23 ++ g, 0#32)
  | .eret  => some (54#6 ++ 1#23 ++ g, 0#32)
  | .wfi  => some (54#6 ++ 2#23 ++ g, 0#32)
  | .brk  => some (54#6 ++ 3#23 ++ g, 0#32)
  | .halt  => some (54#6 ++ 4#23 ++ g, 0#32)
  | .deviceReset => none
  | .launchQueueEnable _ _ => none
  | .launchQueueDisable _ _ => none
  | .eventQueueEnable _ _ => none
  | .eventQueueDisable _ _ => none
  | .consumedWrite _ _ => none
  | .devnumWrite _ => none
  | .routeWrite _ _ => none
  | .hostMemRead _ => none
  | .hostSnoop _ => none
  | .launch => none
  | .shadowLoad => none
  | .stop => none
  | .schedulerPlacement => none
  | .candidateOverdue => none
  | .preemptDiscard => none
  | .header => none
  | .code => none
  | .switch => none
  | .bankClaim => none
  | .bankData => none
  | .template => none
  | .link => none
  | .matrix => none
  | .start => none
  | .loadComplete => none
  | .residencyEnd => none
  | .watchdogExpiry => none
  | .commitRequest => none
  | .commitReply => none
  | .discard => none
  | .discardArrival => none
  | .discardStepDone => none
  | .faultReport => none
  | .asyncFaultArrival => none
  | .asyncFaultDelivery => none
  | .spillFault => none
  | .eventRecordPost => none
  | .tlbinv => none
  | .regload => none
  | .spillresume => none
  | .rowthresh => none
  | .eyecfg => none
  | .powercap => none
  | .sensorread => none
  | .logread => none
  | .replaycfg => none
  | .replayload => none
  | .almanacread => none
  | .firmwareUpdate _ _ _ _ => none
  | .getVersion => none
  | .getCapabilities => none
  | .negotiateAlgorithms _ => none
  | .getDigests => none
  | .getCertificate _ _ _ => none
  | .challenge _ _ => none
  | .getMeasurements _ _ => none
  | .sensorSample _ => none
  | .throttleUpdate => none
  | .positionFence _ => none
  | .patrolScrub => none
  | .periodicRefresh => none
  | .rowPrecharge => none
  | .eyeMarginLow _ _ _ => none
  | .channelRetrainComplete _ _ _ => none
  | .memoryPortAdmit => none
  | .tlbWalkComplete => none
  | .loadResponse => none
  | .writeAcknowledgement => none
  | .fabricRequest => none
  | .fabricNack => none
  | .routerPacket => none
  | .peerPacketArrival _ _ => none
  | .staticWordArrival => none
  | .creditReturn => none
  | .flipAtStreamPort => none
  | .streamStep => none
  | .fifoSpillRefill => none
  | .bankModeChangeEffect => none
  | .triggerPop => none
  | .copyStart => none
  | .copyElementIssue => none
  | .copyReadReturn => none
  | .copyComplete => none
  | .barrierEngineArrival => none
  | .bwaitWake => none
  | .matrixRequestToken => none
  | .remoteMatrixRequest => none
  | .aFetchComplete => none
  | .groupHoldExpiry => none
  | .groupOverdue => none
  | .groupIssue => none
  | .rowLeaveLane => none
  | .wloadWrite => none
  | .accumulatorApply => none
  | .psumPacket => none
  | .remoteCompletion => none
  | .borrowRequest => none
  | .borrowReply => none
  | .returnMessage => none
  | .aggregatorSend => none
  | .wquietWake => none
  | .stealRequest => none
  | .stealResponse => none
  | .stealPassWait => none
  | .activeMessageArrival => none
  | .stqPacket => none
  | .stqNotify => none
  | .stqAnswer => none
  | .wfiWake => none
  | .snext => none
  | .sjump => none
  | .sloop => none
  | .sdbr => none
  | .sbtag => none
  | .swait => none
  | .sflip => none
  | .shalt => none
  | .powerLoss _ => none
  | .illegalInstruction => none
  | .fetchFault => none

/-- An instruction word from its four bytes, the byte at the lowest address first (R4). -/
def wordOfBytes (b0 b1 b2 b3 : BitVec 8) : BitVec 32 := b3 ++ b2 ++ b1 ++ b0

/-- Byte `k` of a number laid out little-endian. -/
def byteOf (w k : Nat) : BitVec 8 := BitVec.ofNat 8 (w / 2 ^ (8 * k))

/-- The decoder on the first eight bytes of a list: the instruction and the bytes it takes (R178). -/
def decodeBytes : List (BitVec 8) → Option (Instr × Nat)
  | [b0, b1, b2, b3, b4, b5, b6, b7] =>
    let w := wordOfBytes b0 b1 b2 b3
    (decode w (wordOfBytes b4 b5 b6 b7)).map fun i => (i, if isWide w then 8 else 4)
  | [b0, b1, b2, b3] =>
    let w := wordOfBytes b0 b1 b2 b3
    if isWide w then none else (decode w 0#32).map fun i => (i, 4)
  | _ => none

/-- The instruction whose bits are `w`, bit 0 the least significant bit of the first word; bits above `nbits` are zero. -/
def decodeTableWord (nbits w : Nat) : Option Instr :=
  let x := w % 2 ^ nbits
  (decodeBytes ((List.range 8).map (byteOf x))).map Prod.fst

end Sys2Proof
end

