-- ==== Sys2Proof/Word.lean ====
section
/-! DEFINITION. The word types of the S4 (00_scope.md R4, R5) and the sparse table the state is made of. -/

namespace Sys2Proof

/-- A scalar register, a dword (R5). -/
abbrev W64 := BitVec 64

/-- A vector register, a sector, the data of a network word (R5). -/
abbrev W256 := BitVec 256

/-- A sparse table: keys in ascending order, each with its value. A key that is not listed has the default value its reader
names. -/
abbrev AMap (α : Type) := List (Nat × α)

namespace AMap

variable {α : Type}

/-- The value of a key, or the default. -/
def get (m : AMap α) (d : α) (k : Nat) : α :=
  match m with
  | [] => d
  | (j, x) :: r => if j = k then x else get r d k

/-- Put a value at a key, keeping the keys in ascending order. -/
def set (m : AMap α) (k : Nat) (v : α) : AMap α :=
  match m with
  | [] => [(k, v)]
  | (j, x) :: r => if j = k then (k, v) :: r else if k < j then (k, v) :: (j, x) :: r else (j, x) :: set r k v

/-- Remove a key. -/
def erase (m : AMap α) (k : Nat) : AMap α :=
  match m with
  | [] => []
  | (j, x) :: r => if j = k then r else (j, x) :: erase r k

end AMap

end Sys2Proof
end

