-- ==== Sys2Proof/Config.lean ====
section
/-! DEFINITION. What the manual leaves to the device and fixes no value for: opaque constants without a body, so that nothing can
be proved of a value they take. Each is named in the assumption log. -/

namespace Sys2Proof.Config

/-- The key that a `wexport` writes when the free-value counter stands at `n` (07_matrix_meld.md R133); the operation that uses it
keeps the rule's bound: non-zero and not issued before for the slot. (DESIGN CHOICE, log 8) -/
opaque exportKey : Nat → BitVec 32

/-- The residency number the scheduler picks (02_execution_model.md R32); used under the bound that it is free. (DESIGN CHOICE, log 8) -/
opaque residencyNumber : Nat → BitVec 16

/-- The service tag of a spill request (22_faults_discard.md R378); used under the bound that it is unique. (DESIGN CHOICE, log 8) -/
opaque serviceTag : Nat → BitVec 16

/-- The level that an ERR of cause 0x20 shows for an input that holds an element (09_fibres_progress.md R170 names levels of stops
only). (DESIGN CHOICE, log 8) -/
opaque elementLevel : Nat → BitVec 4

/-- The 512-bit SHAKE256 digest of a string of bytes (23_management.md R383); the function's standard is not in the manual. (PRESUMED, log 15) -/
opaque shake256 : List (BitVec 8) → BitVec 512

/-- Whether a Falcon-1024 signature, named by 64 bits that stand for it, is valid for a digest under the vendor key (R383). (PRESUMED, log 15) -/
opaque falconVerify : BitVec 512 → BitVec 64 → Bool

/-- The root stage's Falcon-1024 signature of the hash of a transcript (R385), named by 64 bits that stand for it. (PRESUMED, log 15) -/
opaque falconSign : BitVec 512 → W64

/-- The words of the certificate chain of slot 0 (R385). (PRESUMED, log 15) -/
opaque certificate : Nat → BitVec 8

/-- The length of that chain in bytes. (PRESUMED, log 15) -/
opaque certificateLength : Nat

/-- The SHA3-512 digest of a string of bytes (R385); its standard is not in the manual. (PRESUMED, log 15) -/
opaque sha3 : List (BitVec 8) → BitVec 512

/-- Data lanes and redundant lanes of a UCIe edge (24_fleet_operation.md R399 gives neither). (DESIGN CHOICE, log 8) -/
opaque ucieLanes : Nat
opaque ucieSpares : Nat

/-- The measurement of the ROM version (R383). (DESIGN CHOICE, log 8) -/
opaque romVersion : BitVec 512

/-- The unit code of event 0x1F (22_faults_discard.md R375, R380 name no codes). (DESIGN CHOICE, log 8) -/
opaque unitCode : Nat → BitVec 64

/-- The detail of the ERR of a request that reads a weight row with a parity error (21_memory_subsystem.md R368 gives the cause alone).
(DESIGN CHOICE, log 8) -/
opaque weightErrorDetail : Nat → BitVec 32

/-- The supply rails of the module (23_management.md R387 gives no number). (DESIGN CHOICE, log 8) -/
opaque rails : Nat

/-- What a sensor shows at a millisecond (R387), where no input gives the sample. (DESIGN CHOICE, log 8) -/
opaque reading : Nat → Nat → BitVec 32

/-- The margins of a channel's lane that no event has told: timing in bits 15:8, voltage in 7:0 (21_memory_subsystem.md R365). (DESIGN
CHOICE, log 8) -/
opaque eyeMargin : Nat → Nat → BitVec 16

/-- The command-specific error of a mailbox command that is refused where no rule gives the code (R386 names 0xFE and 0xFF, R362 and R369
theirs); used under the bound that it is not zero. (DESIGN CHOICE, log 8) -/
opaque mailboxError : Nat → BitVec 8

/-- The three dwords of the event-log entry by which a device reports itself unserviceable (24_fleet_operation.md R403 names no kind).
(DESIGN CHOICE, log 8) -/
opaque unserviceableEntry : Nat → BitVec 2 → BitVec 64

/-- The phase of a DRAM row's refresh in its window (21_memory_subsystem.md R408 fixes neither order nor phase). (DESIGN CHOICE, log 8) -/
opaque refreshPhase : Nat → Nat

/-- The sector that the patrol scrubber reads at cycle 0 (R368 gives the period alone). (DESIGN CHOICE, log 8) -/
opaque scrubPhase : Nat

/-- The stepping and the form, SLS4-P or SLS4-M, of the part (20_host_launch.md R407). (DESIGN CHOICE, log 8) -/
opaque stepping : BitVec 8
opaque form : BitVec 1

end Sys2Proof.Config
end

