-- ==== Sys2Proof/Machine/State.lean ====
section
/-! DEFINITION. The state of the S4 as plain data: every piece of state that the manual gives the machine (INVENTORY.md lists
each with its rule and reset value), and the machine right after reset. -/

namespace Sys2Proof.Machine

/-- The reasons the machine stops with a fault. Every fault the manual describes for a program (R296) or an engine is a next
state; this one stop is for a machine that has no supply. -/
inductive Fault where
  /-- Raised by `step` when the module supply is lost (24_fleet_operation.md R395) until the next DEVICE_RESET. Safe: nothing runs. -/
  | noSupply
  deriving DecidableEq, Repr

/-- The reasons an instruction has no meaning. -/
inductive Refusal where
  /-- Raised by an arm of `exec` whose instruction has not been given its meaning. Safe. -/
  | notModelled (mnemonic : String)
  deriving DecidableEq, Repr

/-- A word of the static network: 256 data bits and a 4-bit tag (04_static_network.md R71). -/
structure NetWord where
  data : W256
  tag : BitVec 4
  deriving DecidableEq, Repr

/-- The place a turn happens at: tile, core within the quad, context bank, and a number whose meaning is the event's (template,
SRAM bank, slot, lane, port, queue, residency, job). -/
structure Cur where
  t : Nat := 0
  q : Nat := 0
  b : Nat := 0
  n : Nat := 0
  deriving DecidableEq, Repr

/-- The mode of an SRAM bank (03_memory_spaces.md R60). -/
inductive BankMode where
  | scratch
  | cache
  | fifo
  deriving DecidableEq, Repr

/-- A mode or interleave change that a bank has accepted (R63). -/
structure BankChange where
  mode : BankMode
  il : Nat
  en : Bool
  who : Nat
  deriving DecidableEq, Repr

/-- One sector's part of an access: its transaction when it is under way, its generic address, where its bytes stand in the access,
how many they are, their value once they are there, and the fault cause its answer brought, 0 for none. -/
structure Piece where
  tid : Nat
  addr : W64
  off : Nat
  n : Nat
  val : Option Nat
  bad : Nat := 0
  deriving DecidableEq, Repr

/-- One SRAM bank of a tile (R60, R68 to R70, R237). A bank that no image has claimed, or that was freed, is in SCRATCH mode with interleave
1. `fetch` are the reads under way of the ring's head block, and `refillBad` tells that it could not be read. The interleave is held as its
code: 0 for 1, 1 for 2, 2 for 4 (R241). (DESIGN CHOICE, log 79) -/
structure Bank where
  owner : Option Nat := none
  mode : BankMode := .scratch
  il : Nat := 0
  spillBase : W64 := 0
  spillSize : Nat := 0
  spillEn : Bool := false
  queue : List NetWord := []
  reserved : Nat := 0
  staging : List NetWord := []
  ringHead : Nat := 0
  ringCount : Nat := 0
  spillFaulted : Bool := false
  fullPosted : Bool := false
  refillBad : Bool := false
  fetch : List Piece := []
  sink : Bool := false
  sawEnd : Bool := false
  pending : List BankChange := []
  deriving DecidableEq, Repr

/-- A task record (02_execution_model.md R36): entry offset, two arguments, stake. `waits` names the stores of its maker that its
release still waits for (05_consistency.md R101): until they are performed it cannot be stolen. -/
structure Task where
  entry : W64
  a0 : W64
  a1 : W64
  stake : W64
  waits : List Nat := []
  deriving DecidableEq, Repr

/-- An asynchronous fault record (12_memory_instructions.md R239). -/
structure AsyncRec where
  origin : BitVec 8
  detail : BitVec 32
  cause : BitVec 8
  addr : W64
  deriving DecidableEq, Repr

/-- How a waiting access ends: what it does with the bytes it fetched. -/
inductive Fin where
  | load (d : BitVec 5)
  | vload (d : BitVec 5)
  | gather (d : BitVec 5) (lanes : List Nat) (width : Nat)
  | atomic (d : BitVec 5)
  | carm (n : Nat)
  | stream
  | store
  deriving DecidableEq, Repr

/-- What a context does when the stores it waits for are performed. -/
inductive AckDone where
  | retire
  | again
  deriving DecidableEq, Repr

/-- Why a context that has begun an instruction is not ready (R34, R224, R239). -/
inductive Wait where
  | none
  | mem (fin : Fin) (ps : List Piece)
  | acks (tids : List Nat) (k : AckDone)
  | walk (va : W64) (wr : Bool)
  | bank (n : Nat)
  | wfi
  | bwait (d : BitVec 5) (name : BitVec 15) (ph : Bool)
  | barr (d : BitVec 5) (core idx : Nat) (tids : List Nat)
  | sweep (va : W64) (left : Nat)
  | wquiet
  | borrow
  | commit
  | stq (tid : Nat)
  | cdis (n : Nat)
  | accrd (d : BitVec 5)
  | mmq (id : Nat)
  | spill
  deriving DecidableEq, Repr

/-- Where the idle worker stands in its search (R39): not asking, asking the victim at a position of its visiting order, or
resting until a cycle. -/
inductive Steal where
  | start
  | asking (pos : Nat)
  | resting (until_ : Nat)
  deriving DecidableEq, Repr

/-- The life of a context bank on a core (R34, R37, R86, R376). -/
inductive Run where
  | none
  | placed
  | live
  | idle
  | halted
  | stopped
  deriving DecidableEq, Repr

/-- A code partition (R179, R305): base and size in bytes, and the entry address. -/
structure Code where
  base : Nat := 0
  size : Nat := 0
  entry : Nat := 0
  deriving DecidableEq, Repr

/-- A running streaming or steering instruction (09_fibres_progress.md R168, R169): the instruction and its length, the registers it
read at issue, and its position. `top` is the highest stop consumed on any input, `closed` the inputs that have given a stop of its
level, `vals` the values of the fibre that `fred` reduces, `mem` the answer of its last memory read (none of it on a failure), and
`drain` that it drains (R171). -/
structure StreamRun where
  instr : Instr
  len : Nat
  x : W64 := 0
  y : W64 := 0
  z : W64 := 0
  phase : Nat := 0
  lo : Nat := 0
  hi : Nat := 0
  prevA : Option Nat := none
  prevB : Option Nat := none
  isOpen : Bool := false
  top : Nat := 0
  closed : List Nat := []
  vals : List Nat := []
  flags : BitVec 6 := 0
  mem : Option (Option Nat) := none
  drain : Bool := false
  deriving DecidableEq, Repr

/-- The deque spill ring of a context (R38): base, size in bytes, index of the head block, number of blocks, records taken from the head
block, whether the newest block could not be read, and the reads under way of the newest block for the context itself and of the oldest
record for a thief. (DEDUCED, log 62) -/
structure Ring where
  base : W64 := 0
  size : Nat := 0
  head : Nat := 0
  count : Nat := 0
  headUsed : Nat := 0
  bad : Bool := false
  refill : List Piece := []
  theft : List Piece := []
  deriving DecidableEq, Repr

/-- One context bank of one core (R31, R32, R294, R239). `mid` tells that its instruction has begun and waits to go on: no record comes
between (12_memory_instructions.md R239). (DESIGN CHOICE, log 1) -/
structure Ctx where
  run : Run := .none
  resid : Option Nat := none
  fold : Nat := 0
  ip : BitVec 16 := 0
  sregs : AMap W64 := []
  vregs : AMap W256 := []
  preds : AMap Bool := []
  masks : AMap (BitVec 32) := []
  vcfg : W64 := 0
  conv : W64 := 0
  fstat : BitVec 6 := 0
  trapvec : BitVec 16 := 0
  trapip : BitVec 16 := 0
  trapcause : BitVec 8 := 0
  trapaddr : W64 := 0
  trapinfo : W64 := 0
  stake : W64 := 0
  instret : W64 := 0
  hold : BitVec 12 := 64
  prio : BitVec 2 := 0
  handler : Bool := false
  code : Code := {}
  shadowCode : Code := {}
  privStart : Nat := 0
  privSize : Nat := 0
  deque : List Task := []
  ring : Ring := {}
  bars : List (Nat × Nat) := []
  async : List AsyncRec := []
  asyncDrop : BitVec 8 := 0
  wait : Wait := .none
  heldLen : Nat := 0
  heldIns : List Nat := []
  walkFail : Option W64 := none
  stream : Option StreamRun := none
  steal : Steal := .start
  reqSeq : Nat := 0
  starts : Bool := false
  worker : Bool := false
  mid : Bool := false
  deriving DecidableEq, Repr

/-- A barrier (08_copies_barriers.md R163). -/
structure Barrier where
  expected : Nat := 1
  arrived : Nat := 0
  phase : Bool := false
  err : Bool := false
  deriving DecidableEq, Repr

/-- A core: its context counter (R33) and its barrier file (R163). (DESIGN CHOICE, log 1) -/
structure Core where
  counter : BitVec 2 := 3
  barriers : AMap Barrier := []
  deriving DecidableEq, Repr

/-- A line of the tile cache (R65): tag, valid bits of the four sectors, and when it was used last. -/
structure Line where
  tag : Nat := 0
  valid : BitVec 4 := 0
  used : Nat := 0
  deriving DecidableEq, Repr

/-- Where a write goes, which decides when it is performed (R99). -/
inductive Target where
  | device
  | host
  | peer
  | fabric
  deriving DecidableEq, Repr

/-- Who began a transaction of a tile's network interface: a context, a template's copy, the matrix node, a fill, the refill of a bank's
queue or of a context's deque, or another of the tile's engines. -/
inductive Owner where
  | ctx (k : Nat)
  | copy (n : Nat) (ord : Nat)
  | node (id : Nat)
  | fill
  | bank (n : Nat)
  | deque (k : Nat)
  | engine
  deriving DecidableEq, Repr

/-- A transaction under way from a tile (R57, R99, R223): its id, residency, the context it counts for, its owner, whether it
writes, its target, its generic address, its physical address, whether a fill may still become valid (R106), whether it is an `stq`, and
the sectors it writes. -/
structure Txn where
  tid : Nat
  resid : Nat
  key : Nat
  owner : Owner
  write : Bool
  target : Target
  addr : W64
  pa : Nat
  fill : Bool := false
  stq : Bool := false
  n : Nat := 1
  deriving DecidableEq, Repr

/-- The header of a packet (R89). Three are no fields of it: `via`, 1 + the peer link that an answer must take (20_host_launch.md R352), or
0, `host`, that the request is the host's own (R107), and `bad`, that the payload has an uncorrectable error, which comes from outside
(22_faults_discard.md R380; log 33). (DESIGN CHOICE, log 12; DEDUCED, log 51) -/
structure Hdr where
  kind : Nat := 0
  vc : Nat := 0
  ddev : Nat := 0
  dst : Nat := 0
  dcls : Nat := 0
  dq : Nat := 0
  dfold : Nat := 0
  sdev : Nat := 0
  stile : Nat := 0
  sq : Nat := 0
  sfold : Nat := 0
  resid : Nat := 0
  len : Nat := 0
  tid : Nat := 0
  op : BitVec 32 := 0
  addr : W64 := 0
  info : W64 := 0
  via : Nat := 0
  host : Bool := false
  bad : Bool := false
  deriving DecidableEq, Repr

/-- A packet: header and payload flits (R89). -/
structure Packet where
  h : Hdr
  pay : List W256 := []
  deriving DecidableEq, Repr

/-- A packet on the mesh, at the router of a tile (R91). -/
structure Flight where
  at_ : Nat
  p : Packet
  deriving DecidableEq, Repr

/-- A packet delivered to a node: a tile, 2048 + memory port, 4096 host, 4097 scheduler, 4098 management, 4104 + peer link. -/
structure Arrived where
  node : Nat
  p : Packet
  deriving DecidableEq, Repr

/-- An action that a release holds back until its stores are performed (R101, R103, R104). -/
inductive Held where
  | donePort (key port : Nat) (w : NetWord)
  | doneQueue (key q : Nat) (w : NetWord)
  | packet (p : Packet)
  | units (resid : Nat) (n : W64)
  deriving DecidableEq, Repr

/-- A held action with the transactions it waits for. -/
structure Deferred where
  tids : List Nat
  act : Held
  deriving DecidableEq, Repr

/-- A return aggregator of a residency on a tile (R44). -/
structure Agg where
  resid : Nat
  sum : Nat
  last : Nat
  deriving DecidableEq, Repr

/-- How an engine's work fails (R144, R160): cause, detail, and the full failing address where it arises from one. -/
structure MErr where
  cause : Nat
  detail : Nat
  addr : W64 := 0
  deriving DecidableEq, Repr

/-- What became of a copy's element (R152, R153, R160): its bytes, nothing for an index at or above the limit, or a fault with cause,
detail and address. -/
inductive CopyGot where
  | data (v : Nat)
  | skip
  | bad (cause : Nat) (detail : Nat) (addr : W64)
  deriving DecidableEq, Repr

/-- An element of a copy that has been issued and not delivered: its ordinal, its transaction when it goes over the network, its
address, and what became of it. -/
structure CopyRd where
  ord : Nat
  tid : Option Nat
  addr : W64
  got : Option CopyGot
  deriving DecidableEq, Repr

/-- An active copy (R152, R156, R160): when it started, the next element to issue, the elements issued and not delivered, the bytes of
the word that is being unpacked and of the one being packed, indices left, words held for its destination, the transactions of its
writes, whether it has stopped issuing, whether its closing token is among its words, whether an element was skipped, how it failed,
and the bytes it has read from global memory (23_management.md R390). -/
structure Copy where
  age : Nat
  issue : Nat := 0
  reads : List CopyRd := []
  unpack : List (BitVec 8) := []
  pack : List (BitVec 8) := []
  idx : List (BitVec 32) := []
  words : List NetWord := []
  writes : List Nat := []
  stopped : Bool := false
  closed : Bool := false
  skipped : Option Nat := none
  fail : Option MErr := none
  digest : List (BitVec 8) := []
  deriving DecidableEq, Repr

/-- A copy descriptor (R151): 64 bytes. -/
abbrev Desc := BitVec 512

/-- One configuration of a template: its armed descriptor, the context whose private area it uses, whether `carm` armed it, and the
stores that its armer's release still waits for (05_consistency.md R104). -/
structure Arm where
  desc : Option Desc := none
  who : Nat := 0
  byCarm : Bool := false
  waits : List Nat := []
  deriving DecidableEq, Repr

/-- A template of a stream port (R151 to R159): owner, live and shadow configuration, the firings not yet started, each with its number
in the tile's order of FIREs (R152) and the stores it still waits for, the active copy, whether a `cdis` waits for it, and what `cstat` reads. -/
structure Template where
  owner : Option Nat := none
  arm : Arm := {}
  shadow : Arm := {}
  fires : List (Nat × List Nat) := []
  active : Option Copy := none
  disarm : Bool := false
  completed : BitVec 32 := 0
  dropped : BitVec 16 := 0
  cause : BitVec 8 := 0
  deriving DecidableEq, Repr

/-- An engine completion on its way to a barrier (R163, R164). -/
structure Arrival where
  core : Nat
  idx : Nat
  err : Bool
  deriving DecidableEq, Repr

/-- A stored packet being handled by a tile for `stq` (R237): its writes are under way, and the notice waits for them. -/
structure StqJob where
  p : Packet
  queue : Option Nat
  tids : List Nat := []
  deriving DecidableEq, Repr

/-- The rate limit of an event kind at a tile (R375). -/
structure Rate where
  last : Nat
  suppressed : Nat
  deriving DecidableEq, Repr

/-- What a page walk is for: an access of a context, an engine of a tile, or the sectors that a `cpref` of a context fetches behind it. -/
inductive WalkUse where
  | access
  | engine
  | fetch (l : List W64)
  deriving DecidableEq, Repr

/-- A page walk that waits for a walker of a die (R358). `at_` is the level and table that it has come to, once it has begun. -/
structure Walk where
  die : Nat
  tile : Nat
  key : Nat
  asid : Nat
  root : Nat
  va : W64
  wr : Bool
  use_ : WalkUse := .access
  at_ : Option (Nat × Nat) := none
  deriving DecidableEq, Repr

/-- One tile, but for its memories, its node and its switch (R18). `linkLast` is the context bank whose lane each incoming link served last
(04_static_network.md R71), by direction; `stopping` are the steps of discards that the tile has begun (8·residency + step) and when, `walkFails`
the walks of its engines that have failed and when, and `softFixed` the SRAM errors corrected at its position (21_memory_subsystem.md R368).
(DESIGN CHOICE, log 1) -/
structure Tile where
  banks : AMap Bank := []
  cache : AMap Line := []
  templates : AMap Template := []
  txns : List Txn := []
  nextTid : Nat := 0
  deferred : List Deferred := []
  aggs : List Agg := []
  arrivals : List Arrival := []
  stqJobs : List StqJob := []
  flips : List (Nat × NetWord) := []
  malformed : Nat := 0
  stray : Nat := 0
  rates : AMap Rate := []
  copyAge : Nat := 0
  copyLast : Nat := 0
  stopping : List (Nat × Nat) := []
  linkLast : AMap Nat := []
  walkFails : List (Walk × Nat) := []
  softFixed : Nat := 0
  deriving DecidableEq, Repr

/-- A word on a link, readable from a cycle on (R72, R87): the direction it comes from, the tile and context bank that sent it, the
residency it was sent for, and whether its lane loops back on the tile, which is no link of the four (R29). -/
structure OnLink where
  dir : Nat
  at_ : Nat
  w : NetWord
  src : Nat
  resid : Nat
  loop : Bool
  deriving DecidableEq, Repr

/-- The shadow's state (R84). -/
inductive Shadow where
  | empty
  | loading
  | ready
  deriving DecidableEq, Repr

/-- The ports of one context bank of a tile's switch and the switch program's registers (R72 to R76, R84, R299). Directions are
0 north, 1 south, 2 east, 3 west. A link entry is the 4-bit owner code of R304. (DESIGN CHOICE, log 1) -/
structure Xbar where
  rx : AMap (List NetWord) := []
  flight : List OnLink := []
  credits : AMap Nat := []
  creditBack : List (Nat × Nat) := []
  toCore : AMap (List NetWord) := []
  fromCore : AMap (List NetWord) := []
  pc : BitVec 9 := 0
  lc0 : BitVec 10 := 0
  lc1 : BitVec 10 := 0
  h0 : Option NetWord := none
  h1 : Option NetWord := none
  halted : Bool := true
  linkIn : AMap (BitVec 4) := []
  linkOut : AMap (BitVec 4) := []
  xctl : BitVec 4 := 0
  shadow : Shadow := .empty
  shLinkIn : AMap (BitVec 4) := []
  shLinkOut : AMap (BitVec 4) := []
  shXctl : BitVec 4 := 0
  store : Nat := 0
  hasProg : Bool := false
  shHasProg : Bool := false
  deriving DecidableEq, Repr

/-- The format of a weight slot (07_matrix_meld.md R131). -/
inductive SlotFmt where
  | empty
  | i8
  | lo
  | hi
  deriving DecidableEq, Repr

/-- A weight slot (R123, R131, R133): `issued` holds the keys it has exported since placement, `ec` and `nanCol` the column
exponents and NaN bits of a pair, kept in its even slot. (DESIGN CHOICE, log 1) -/
structure Slot where
  owner : Option Nat := none
  fmt : SlotFmt := .empty
  gen : Nat := 0
  wc : Bool := false
  expValid : Bool := false
  expKey : BitVec 32 := 0
  expLim : Nat := 0
  expHold : Nat := 0
  issued : List (BitVec 32) := []
  ec : AMap Int := []
  nanCol : AMap Bool := []
  deriving DecidableEq, Repr

/-- An accumulator element (06_numerics.md R124): value, exponent and three flags. -/
structure Elem where
  v : Int := 0
  e : Int := 0
  nan : Bool := false
  pinf : Bool := false
  minf : Bool := false
  deriving DecidableEq, Repr

/-- A matrix request (R135): its token with its priority lowered, its requester (device, tile, context, context bank, residency), its
slot, generation and HOLD, the cycle of its admission, the stores its fetch waits for (R104), the sectors of its A rows, its
failure, and the reads of its A rows under way. `dead` marks one of a discarded residency, which delivers nothing (R150). -/
structure MReq where
  id : Nat
  tok : W256
  dev : Nat
  tile : Nat
  key : Nat
  bank : Nat
  resid : Nat
  remote : Bool
  tid : Nat
  slot : Nat
  gen : Nat
  hold : Nat
  admitted : Nat
  waits : List Nat
  rows : List W256
  fetched : Bool
  seq : Nat
  err : Option MErr
  dead : Bool
  reads : List Piece := []
  deriving DecidableEq, Repr

/-- A `wload` in the meld buffer (R132, R280): the slots it changes, source, format (0 I8, 1 B16, 2 F32), barrier, requester, and
the reads of its source under way. -/
structure WReq where
  id : Nat
  slots : List Nat
  slot : Nat
  f : Nat
  base : W64
  pitch : Nat
  bar : Option Nat
  key : Nat
  resid : Nat
  waits : List Nat
  reads : List Piece := []
  deriving DecidableEq, Repr

/-- A group of melded requests (R146 to R148). `cls` is 0 L, 1 C, 2 X; `id` that of its first member. -/
structure Group where
  id : Nat
  slot : Nat
  gen : Nat
  af : Nat
  d : Nat
  cls : Nat
  members : List MReq
  opened : Nat
  hold : Nat
  prio : Nat
  ready : Bool
  overdue : Bool
  isOpen : Bool
  deriving DecidableEq, Repr

/-- One row in a lane: its request, its number in the request, and its 64 terms with the weights of the issue (R134, R150). (DEDUCED, log 26) -/
structure LaneRow where
  req : MReq
  row : Nat
  terms : List Elem
  deriving DecidableEq, Repr

/-- An issue lane (R134): the slots of its group, the issue cycle moved on by its waits, digits, rows issued, rows still to leave,
words of the row at its head already pushed, the cycle from which it is free, and the second lane of a pair, which holds no rows. -/
structure Lane where
  slots : List Nat := []
  issued : Nat := 0
  d : Nat := 0
  done : Nat := 0
  rows : List LaneRow := []
  pushed : Nat := 0
  freeAt : Nat := 0
  mate : Option Nat := none
  deriving DecidableEq, Repr

/-- A token of the accumulator queue (R142). `done` is the request that completes when it has been applied. -/
inductive AccTok where
  | row (slice row : Nat) (acc : Bool) (terms : List Elem) (poison : Bool) (done : Option MReq)
  | poison (slice row : Nat) (done : Option MReq)
  | clear (slice row count : Nat)
  | read (key slice row g f : Nat) (d : BitVec 5)
  deriving DecidableEq, Repr

/-- A CHAINADD request from its admission on (R139): the header and data words of its PSUM token taken from M, the terms of its rows
that have left their lane, how many rows have been added, and whether its PSUM token has proved malformed. -/
structure ChainIn where
  req : MReq
  head : Option W256 := none
  words : List W256 := []
  terms : List (List Elem) := []
  sent : Nat := 0
  spoilt : Bool := false
  deriving DecidableEq, Repr

/-- Rows of a CHAIN, ONWARD or RACC request gathered for its next PSUM token or packet (R138, R141). -/
structure ChainOut where
  req : MReq
  rows : List (List Elem × Bool) := []
  sent : Nat := 0
  deriving DecidableEq, Repr

/-- A word on offer at M (04_static_network.md R405), and the request that completes when it is taken. -/
structure MWord where
  w : NetWord
  done : Option MReq := none
  deriving DecidableEq, Repr

/-- A RETURN request some of whose rows have left their lane (R138): its writes under way, the first sector found failing, and whether
its last row has left. -/
structure RetJob where
  req : MReq
  tids : List Nat := []
  bad : Option W64 := none
  last : Bool := false
  deriving DecidableEq, Repr

/-- A poison token on its way to the accumulator queue (R142, R146): its request, the request's row, and whether it completes it. -/
structure PoisonIn where
  req : MReq
  row : Nat
  done : Bool
  deriving DecidableEq, Repr

/-- The matrix node of a tile (R131, R134, R139, R142, R145, R405): slots, slices with their owners and poison bits, groups, requests for other
tiles whose rows are being fetched (R140), `wload`s, lanes, accumulator queue, and its side of M by context bank: request tokens taken, whether
words are being dropped, words offered. `badPsum` names remote requests one of whose PSUM packets was malformed, `returns` the RETURN requests
whose rows leave, `poisons` the poison tokens that wait for the accumulator queue, and `accBad` the elements (1024·slice + 64·row + column) with
an uncorrectable error, which comes from outside (21_memory_subsystem.md R368; log 33). -/
structure Node where
  slots : AMap Slot := []
  sliceOwner : AMap Nat := []
  acc : AMap Elem := []
  poison : AMap Bool := []
  groups : List Group := []
  sending : List MReq := []
  wloads : List WReq := []
  lanes : AMap Lane := []
  accQ : List AccTok := []
  mTok : AMap W256 := []
  mDrop : AMap Bool := []
  chains : List ChainIn := []
  outs : List ChainOut := []
  mOut : AMap (List MWord) := []
  returns : List RetJob := []
  poisons : List PoisonIn := []
  accBad : List Nat := []
  badPsum : List Nat := []
  nextId : Nat := 0
  deriving DecidableEq, Repr

/-- A memory port (08_copies_barriers.md R161, R162; 21_memory_subsystem.md R365, R367, R369, R370). `last` is the cycle of its last
admission, `corrected` the count of corrected errors. -/
structure Port where
  slots : AMap Nat := []
  mgmt : Nat := 4096
  mit : Nat := 8192
  radius : Nat := 1
  corrected : Nat := 0
  mitStall : Nat := 0
  trainStall : Nat := 0
  last : Option Nat := none
  deriving DecidableEq, Repr

/-- An open row of a DRAM bank: the row, the last cycle it was used (R370), until when the bank is blocked, and the physical address
whose access opened the row, which its events name (R371). -/
structure OpenRow where
  row : Option Nat := none
  used : Nat := 0
  blocked : Nat := 0
  pa : Nat := 0
  deriving DecidableEq, Repr

/-- An HBM4E channel (R364, R365): thresholds, automatic care, the cycle at which its retraining begins or began, failing mark, spares used,
and the margins of its lanes. (DESIGN CHOICE, log 4) -/
structure Channel where
  thT : Nat := 6
  thV : Nat := 10
  auto : Bool := false
  training : Option Nat := none
  failing : Bool := false
  spares : Nat := 0
  margins : AMap (Nat × Nat) := []
  minima : AMap (Nat × Nat) := []
  deriving DecidableEq, Repr

/-- A translation held in a TLB (R358). `level` is 1 for a tile's, 2 for a cluster's, 3 for a die's; `scope` the tile, cluster or
die. -/
structure TlbEntry where
  level : Nat
  scope : Nat
  asid : Nat
  root : Nat
  size : Nat
  vpn : Nat
  frame : Nat
  wr : Bool
  deriving DecidableEq, Repr

/-- A region entry (R361): valid, first and last granule, the rows of its matrix. -/
structure Region where
  valid : Bool := false
  g0 : Nat := 0
  g1 : Nat := 0
  rows : List (BitVec 35) := []
  deriving DecidableEq, Repr

/-- A launch record with where it comes from: its queue, age, cycle of availability, retry count, the residency number of its last
placement, or 0, its priority where it is requeued (02_execution_model.md R49), and what the scheduler has read for it as a candidate: its
binding table (R343) and the frames of its image behind the HEADER (02_execution_model.md R26). -/
structure Cand where
  lq : Nat
  dwords : List W64
  age : Nat
  since : Nat
  retry : Nat := 0
  last : Nat := 0
  prio : Option Nat := none
  binds : List (W64 × W64) := []
  frames : List W256 := []
  deriving DecidableEq, Repr

/-- A launch queue (20_host_launch.md R340, R341). `avail` lists the records available: index, age and cycle; `held` is the candidate, once
the scheduler has read it (R345); until then `got` are the sectors that it has read for the record of the age `gotAge`, none of one that
has no data. (DESIGN CHOICE, log 3) -/
structure LaunchQueue where
  base : W64 := 0
  size : Nat := 0
  enable : Bool := false
  prio : Nat := 0
  preempt : Bool := false
  starve : Nat := 0
  head : BitVec 32 := 0
  tail : BitVec 32 := 0
  err : Bool := false
  code : Nat := 0
  avail : List (Nat × Nat × Nat) := []
  held : Option Cand := none
  got : AMap (Option W256) := []
  gotAge : Nat := 0
  overdue : Bool := false
  lastPreempt : Nat := 0
  deriving DecidableEq, Repr

/-- An event queue (R348). (DESIGN CHOICE, log 3) -/
structure EventQueue where
  base : W64 := 0
  size : Nat := 0
  enable : Bool := false
  irq : Bool := false
  vector : Nat := 0
  posted : BitVec 32 := 0
  consumed : BitVec 32 := 0
  signalled : Bool := false
  deriving DecidableEq, Repr

/-- An event record that waits for its ring (R348, R349): queue and its first three dwords. -/
structure EventRec where
  queue : Nat
  d0 : W64
  d1 : W64
  d2 : W64
  deriving DecidableEq, Repr

/-- The state of an entry of the system context bank (22_faults_discard.md R374). -/
inductive ResState where
  | loading
  | uncommitted
  | committed
  | discarding
  | faulting
  deriving DecidableEq, Repr

/-- A live residency: an entry of the system context bank (R374), its region (R26, R28), context banks (R27, R28) and pot (R41). `potAt` is
the cycle of its last pot event (R43), `full` that of the last event since its `wquiet` that left POT equal to TOTAL (R45), `tags` are the
service tags given to it (R378), `event` the record of its fault that waits for the scheduler's buffer (R375, R377), `capture` is the buffer
that its entries go to (R390), `captAt` the index of the first of them, and `replay` the entries that it has still to meet again, with their
indices (R391). -/
structure Residency where
  num : Nat
  cand : Cand
  x : Nat
  y : Nat
  w : Nat
  h : Nat
  fold : Nat
  banks : List Nat
  state : ResState := .loading
  startCycle : Nat := 0
  started : Bool := false
  potValid : Bool := false
  pot : Nat := 0
  total : Nat := 0
  step : Nat := 0
  reported : List Nat := []
  reason : Nat := 0
  prio : Nat := 0
  event : Option EventRec := none
  faultWord : W64 := 0
  capture : Option Nat := none
  binds : List (Nat × Nat) := []
  potAt : Option Nat := none
  full : Option Nat := none
  tags : List Nat := []
  captAt : Nat := 0
  replay : Option (List (Nat × W256)) := none
  deriving DecidableEq, Repr

/-- An image that the loader reads (16_switch_image.md R306): its residency, whether it is a shadow load, its record, where it lies, the
next frame and their number, the class and partition sizes of its HEADER, whether a START frame has come, the cores started (context keys),
the template parts read (16·tile + template, part), the templates it has claimed, the descriptor dwords read, the routes of its switch
programs (context bank of a tile, index of the instruction, destination or 12 for a test, source), and the context banks with a LINK frame.
-/
structure LoadJob where
  id : Nat
  resid : Nat
  shadow : Bool
  cand : Cand
  image : Nat
  next : Nat := 0
  total : Nat := 1
  cls : Nat := 0
  sizes : List Nat := []
  started : Bool := false
  starts : List Nat := []
  parts : List (Nat × Nat) := []
  claimed : List Nat := []
  words : AMap W64 := []
  routes : List (Nat × Nat × Nat × Nat) := []
  links : List Nat := []
  deriving DecidableEq, Repr

/-- A spill service request outstanding (R378). `party` is 1 a deque, 2 a FIFO queue, 3 a message delivery. -/
structure SpillReq where
  resid : Nat
  tile : Nat
  tag : Option Nat
  party : Nat
  key : Nat
  queue : Nat
  va : W64
  deriving DecidableEq, Repr

/-- The Residency Scheduler (R340 to R350, R374). `got` are the sectors read of the capture that the record picked replays (R391). -/
structure Sched where
  lq : AMap LaunchQueue := []
  eq : AMap EventQueue := []
  buffer : List EventRec := []
  res : List Residency := []
  requeued : List Cand := []
  picked : Option (Cand × Nat × Nat × List Nat) := none
  got : AMap (Option W256) := []
  loads : List LoadJob := []
  lastPlace : Option Nat := none
  ageCount : Nat := 0
  jobCount : Nat := 0
  spills : List SpillReq := []
  asyncs : List (Nat × AsyncRec) := []
  deriving DecidableEq, Repr

/-- An injection window (R350). (DESIGN CHOICE, log 3) -/
structure Window where
  target : W64 := 0
  a0 : W64 := 0
  a1 : W64 := 0
  deriving DecidableEq, Repr

/-- The device's side of the host attachment (R338, R339, R350, R352, R386, R407): `msix` lists the vectors signalled, `pba` the pending
ones, and `running` is COMMAND as it stood when its GO was taken. (DESIGN CHOICE, log 3; PRESUMED, log 71) -/
structure HostIf where
  devnum : BitVec 8 := 0
  route : AMap (BitVec 8) := []
  windows : AMap Window := []
  msix : List Nat := []
  msixTable : AMap W64 := []
  pba : BitVec 32 := 0
  command : W64 := 0
  running : W64 := 0
  status : W64 := 0
  cmdBuf : AMap W64 := []
  rspBuf : AMap W64 := []
  lastRead : Option (Nat × W256 × Bool) := none
  lastSnoop : Option W64 := none
  deriving DecidableEq, Repr

/-- A firmware slot in flash (23_management.md R383): security version, digest of header and body, signature. (DESIGN CHOICE, log 4; DESIGN
CHOICE, log 14) -/
structure Firmware where
  sec : Nat := 0
  body : List (BitVec 8) := []
  sig : W64 := 0
  bootedOnce : Bool := false
  deriving DecidableEq, Repr

/-- A sensor: latest value and extremes since reset (R387). (DESIGN CHOICE, log 4) -/
structure Sensor where
  now : BitVec 32 := 0
  lo : BitVec 32 := 0
  hi : BitVec 32 := 0
  seen : Bool := false
  deriving DecidableEq, Repr

/-- A replay capture of a launch queue (R390, R391): queue, buffer, size in entries, entries written, and whether it is full. -/
structure Capture where
  lq : Nat
  addr : Nat
  size : Nat
  used : Nat := 0
  full : Bool := false
  deriving DecidableEq, Repr

/-- The Holko management controller (R382 to R391) and its flash (24_fleet_operation.md R393 to R404). `captWrites` are the writes to
capture buffers that are still to be made: address, bytes, value (R390). `marksSeen` are the SRAM errors that
stood in the last cycle and `sramErrors` those counted: tile and cycle (R402). (DESIGN CHOICE, log 4; DESIGN CHOICE, log 33) -/
structure Mgmt where
  fw : AMap Firmware := []
  active : AMap Nat := []
  next : AMap Nat := []
  fuse : Nat := 0
  meas : AMap (BitVec 512) := []
  almA : List W256 := []
  almB : List W256 := []
  extra : List (BitVec 64) := []
  hours : BitVec 32 := 0
  sensors : AMap Sensor := []
  log : AMap (List W64) := []
  logCount : Nat := 0
  cap : Nat := 2400
  level : Nat := 16
  dieLevel : AMap Nat := []
  lastLevelEvent : Option Nat := none
  asked37 : Bool := false
  captures : List Capture := []
  captWrites : List (Nat × Nat × Nat) := []
  replay : List (Nat × Nat × Nat) := []
  spdmVersion : Bool := false
  spdmAlgs : BitVec 32 := 0
  spdmTranscript : List W64 := []
  spdmReply : List W64 := []
  shoot : Option (List (Nat × Nat)) := none
  marksSeen : List (Nat × Nat) := []
  sramErrors : List (Nat × Nat) := []
  deriving DecidableEq, Repr

/-- What the configuration descriptor presents (R396 to R401): absent tiles, classes (0 Q4, 1 Q3, 2 Q2), retired channels, rows and
links, fenced tiles, the grade and the descriptor's address. `spare` gives the dead position of a die row, by 20·die + row (R396). -/
structure Conf where
  absent : List Nat := []
  classes : AMap Nat := []
  rows : List Nat := []
  channels : List Nat := []
  cxl : Nat := 0
  peers : AMap Nat := []
  edgeHalf : List Nat := []
  edgeFailed : List Nat := []
  fenced : List Nat := []
  spare : AMap Nat := []
  grade : Nat := 0
  addr : Nat := 0
  deriving DecidableEq, Repr

/-- What a turn of a cycle is: a core examines its contexts, one whose turn was put off does so behind all others, a switch tries its
instruction, a loader reads a frame, or an event happens. -/
inductive Act where
  | core
  | late
  | switch
  | frame
  | event (i : Instr)
  deriving DecidableEq, Repr

/-- A turn: where and what. -/
structure Turn where
  place : Cur
  act : Act
  deriving DecidableEq, Repr

/-- The machine. `agenda` holds the turns left of the present cycle; `cur`, `guard` and `word` are the latches of the turn that runs: its
place, the guard field of the instruction it issues (R182), and the switch instruction, frame or instruction words it executes. `issued`
tells whether the core's turn issued. `defects` are the objects that self-test or training finds dead: kind in bits 63:56, cause in 55:48,
object in 47:0 (R393, R394), and `schedLost` tells that the Residency Scheduler is lost (R403). `ctxErrors` are the contexts whose registers
hold an uncorrectable error (22_faults_discard.md R377), `badWords` the 64-bit words of SRAM with an uncorrectable error (R368), by home key
over 8, and `softWords` those with a correctable one; `badSectors` are the sectors of DRAM that hold a poison pattern and `symbolErrors` the
16-bit symbols in error of a sector, sixteen of data and two of check bits (R366, R367); `unownedError` tells that state which no residency
owns has an error (R380). Errors come from outside.
`inputs` are the outside's events not yet taken. `free` counts the free values taken. `atStart` names the FIFOs that held a word when the
cycle began (14_stream_instructions.md R277): 2·(4·(4·tile + bank) + core) for a `qx`, 2·(8·tile + bank) + 1 for a queue. `late` tells that
the core's turn is the one behind the turns of all other cores, where its operation on another tile's barrier stands (08_copies_barriers.md
R164), and `clash` that a turn must be put off for that. The fields `agenda`, `inputs`, `cur`, `guard`, `word`, `issued`, `free`, `atStart`,
`late` and `clash` are the model's own (log 5, 6, 8, 20, 76); the errors from outside are those of log 33. -/
structure State where
  cycle : Nat
  powered : Bool
  tilesOff : Bool
  booted : Bool
  recovery : Bool
  deviceError : Bool
  agenda : List Turn
  inputs : List Turn
  cur : Cur
  guard : BitVec 3
  word : W256
  issued : Bool
  late : Bool
  clash : Bool
  atStart : List Nat
  free : Nat
  mem : List Host.Cell
  badSectors : List Nat
  badWords : List Nat
  softWords : List Nat
  symbolErrors : AMap (BitVec 18)
  softPosted : AMap Nat
  ctxs : AMap Ctx
  cores : AMap Core
  tiles : AMap Tile
  xbars : AMap Xbar
  nodes : AMap Node
  ports : AMap Port
  openRows : AMap OpenRow
  rows : AMap Nat
  rowBad : List Nat
  channels : AMap Channel
  regions : List Region
  net : List Flight
  inbox : List Arrived
  peerOut : List (Nat × Packet)
  tlbs : List TlbEntry
  walks : List Walk
  sched : Sched
  host : HostIf
  mgmt : Mgmt
  conf : Conf
  defects : List (BitVec 64)
  ctxErrors : List Nat
  unownedError : Bool
  schedLost : Bool
  deriving DecidableEq, Repr

/-- The region table at reset (R361): one entry over granules 0 to 511 with the identity matrix. -/
def Region.identity : Region where
  valid := true
  g0 := 0
  g1 := 511
  rows := (List.range 35).map fun i => BitVec.twoPow 35 i

/-- The machine right after reset: every field as INVENTORY.md lists it. The first turn is DEVICE_RESET's (23_management.md R383). (DESIGN
CHOICE, log 1; DESIGN CHOICE, log 3; DESIGN CHOICE, log 6) -/
def State.reset : State where
  cycle := 0
  powered := true
  tilesOff := false
  booted := false
  recovery := false
  deviceError := false
  agenda := [⟨{}, .event .deviceReset⟩]
  inputs := []
  cur := {}
  guard := 0
  word := 0
  issued := false
  late := false
  clash := false
  atStart := []
  free := 0
  mem := []
  badSectors := []
  badWords := []
  softWords := []
  symbolErrors := []
  softPosted := []
  ctxs := []
  cores := []
  tiles := []
  xbars := []
  nodes := []
  ports := []
  openRows := []
  rows := []
  rowBad := []
  channels := []
  regions := Region.identity :: List.replicate 7 {}
  net := []
  inbox := []
  peerOut := []
  tlbs := []
  walks := []
  sched := {}
  host := {}
  mgmt := {}
  conf := {}
  defects := []
  ctxErrors := []
  unownedError := false
  schedLost := false

end Sys2Proof.Machine
end

