-- ==== Sys2Proof/Machine/Ops.lean ====
section
/-! DEFINITION. The named operations over the state: places, memory and its homes (05_consistency.md R93), windows
(03_memory_spaces.md R53, R54), translation (21_memory_subsystem.md R355, R361), packets (04_static_network.md R89), taking an
exception and returning from one (15_matrix_system_instructions.md R294, R295). -/

namespace Sys2Proof.Machine

/-! ## Places (R15) -/

/-- Key of a core. -/
abbrev Cur.core (c : Cur) : Nat := c.t * 4 + c.q

/-- Key of a context. -/
abbrev Cur.ctx (c : Cur) : Nat := (c.t * 4 + c.q) * 4 + c.b

/-- Key of a context bank of a tile. -/
abbrev Cur.tb (c : Cur) : Nat := c.t * 4 + c.b

/-- The tile, core and bank of a context key. -/
def placeOf (k : Nat) : Cur := { t := k / 16, q := k / 4 % 4, b := k % 4 }

/-- Column and row of a tile (R15). -/
def colOf (t : Nat) : Nat := t % 48
def rowOf (t : Nat) : Nat := t / 48

/-- Die of a tile (R14), cluster and place in the cluster (R15). -/
def dieOf (t : Nat) : Nat := 2 * (rowOf t / 20) + colOf t / 24
def clusterOf (t : Nat) : Nat := rowOf t / 2 * 16 + colOf t / 3
def inCluster (t : Nat) : Nat := rowOf t % 2 * 3 + colOf t % 3

/-- Tile `i` of a cluster (R15). -/
def clusterTile (c i : Nat) : Nat := (c / 16 * 2 + i / 3) * 48 + (c % 16 * 3 + i % 3)

/-! ## The parts of the state -/

def State.ctx (s : State) (k : Nat) : Ctx := s.ctxs.get {} k
def State.core (s : State) (k : Nat) : Core := s.cores.get {} k
def State.tile (s : State) (t : Nat) : Tile := s.tiles.get {} t
def State.xbar (s : State) (k : Nat) : Xbar := s.xbars.get {} k
def State.node (s : State) (t : Nat) : Node := s.nodes.get {} t
def State.port (s : State) (p : Nat) : Port := s.ports.get {} p
def State.setCtx (s : State) (k : Nat) (c : Ctx) : State := { s with ctxs := s.ctxs.set k c }
def State.setCore (s : State) (k : Nat) (c : Core) : State := { s with cores := s.cores.set k c }
def State.setTile (s : State) (t : Nat) (x : Tile) : State := { s with tiles := s.tiles.set t x }
def State.setXbar (s : State) (k : Nat) (x : Xbar) : State := { s with xbars := s.xbars.set k x }
def State.setNode (s : State) (t : Nat) (x : Node) : State := { s with nodes := s.nodes.set t x }
def State.setPort (s : State) (p : Nat) (x : Port) : State := { s with ports := s.ports.set p x }

/-- The context whose turn it is. -/
def State.me (s : State) : Ctx := s.ctx s.cur.ctx
def State.setMe (s : State) (c : Ctx) : State := s.setCtx s.cur.ctx c

def Tile.bank (x : Tile) (n : Nat) : Bank := x.banks.get {} n
def Tile.setBank (x : Tile) (n : Nat) (b : Bank) : Tile := { x with banks := x.banks.set n b }
def Tile.template (x : Tile) (n : Nat) : Template := x.templates.get {} n
def Tile.setTemplate (x : Tile) (n : Nat) (p : Template) : Tile := { x with templates := x.templates.set n p }
def State.bank (s : State) (t n : Nat) : Bank := (s.tile t).bank n
def State.setBank (s : State) (t n : Nat) (b : Bank) : State := s.setTile t ((s.tile t).setBank n b)
def Node.slot (x : Node) (n : Nat) : Slot := x.slots.get {} n
def Node.setSlot (x : Node) (n : Nat) (v : Slot) : Node := { x with slots := x.slots.set n v }

/-- The residency of a number, if it is live (R374). -/
def State.findRes (s : State) (r : Nat) : Option Residency := s.sched.res.find? fun x => x.num == r
def State.setSched (s : State) (x : Sched) : State := { s with sched := x }

/-- Replace the entry of a residency. -/
def State.setRes (s : State) (x : Residency) : State :=
  { s with sched := { s.sched with res := s.sched.res.map fun y => if y.num == x.num then x else y } }

/-- The residency that holds a context bank on a tile (R27). -/
def State.bankResid (s : State) (t b : Nat) : Option Nat := (s.ctx ((t * 4) * 4 + b)).resid

/-- The number of cores present on a tile by its class (R17, R397). -/
def State.coresOn (s : State) (t : Nat) : Nat := 4 - s.conf.classes.get 0 t

/-- A tile the configuration presents (R17). -/
def State.present (s : State) (t : Nat) : Bool := decide (t < 1920) && !s.conf.absent.contains t

/-! ## Memory: one list of cells under home keys -/

/-- The memory of the machine: cells with ascending addresses, none of them zero. -/
abbrev Memory := List Host.Cell

/-- What an address that no cell lists reads as: zero. (DESIGN CHOICE, log 2) -/
def Memory.blank : BitVec 8 := 0

/-- The canonical form: addresses rise strictly and no cell holds the blank. -/
def Memory.wf (m : Memory) : Bool :=
  match m with
  | [] => true
  | [(_, x)] => x != Memory.blank
  | (a, x) :: (b, y) :: r => x != Memory.blank && decide (a < b) && Memory.wf ((b, y) :: r)

/-- One byte. (DESIGN CHOICE, log 2) -/
def Memory.read (m : Memory) (a : Nat) : BitVec 8 :=
  match m with
  | [] => Memory.blank
  | (b, x) :: r => if b = a then x else if a < b then Memory.blank else Memory.read r a

/-- Write one byte, keeping the canonical form. -/
def Memory.write (m : Memory) (a : Nat) (v : BitVec 8) : Memory :=
  match m with
  | [] => if v = Memory.blank then [] else [(a, v)]
  | (b, x) :: r =>
    if b = a then (if v = Memory.blank then r else (a, v) :: r)
    else if a < b then (if v = Memory.blank then (b, x) :: r else (a, v) :: (b, x) :: r)
    else (b, x) :: Memory.write r a v

/-- `n` bytes from an address on, little-endian (R4). -/
def Memory.readN (m : Memory) (a : Nat) : Nat → Nat
  | 0 => 0
  | n + 1 => (Memory.read m a).toNat + 256 * Memory.readN m (a + 1) n

/-- Write `n` bytes from an address on, little-endian (R4). -/
def Memory.writeN (m : Memory) (a : Nat) : Nat → Nat → Memory
  | 0, _ => m
  | n + 1, v => Memory.writeN (Memory.write m a (BitVec.ofNat 8 v)) (a + 1) n (v / 256)

/-- Remove every cell from `a` to `a + n − 1`: the range reads as blank. -/
def Memory.clear (m : Memory) (a n : Nat) : Memory := m.filter fun c => !(decide (a ≤ c.1) && decide (c.1 < a + n))

/-- Write those of 32 bytes whose mask bit is 1 (R93). -/
def Memory.writeMask (m : Memory) (a : Nat) (mask : BitVec 32) (data : W256) : Memory :=
  (List.range 32).foldl (fun m j => if mask.getLsbD j then Memory.write m (a + j) (data.extractLsb' (8 * j) 8) else m) m

/-- Home keys: DRAM by coordinate below 2^40, host memory by its physical address, tile SRAM, instruction stores, switch program
stores (live half and shadow half), weight cells. (DESIGN CHOICE, log 18) -/
def sramBase : Nat := 2 ^ 41
def storeBase : Nat := 2 ^ 42
def switchBase : Nat := 2 ^ 43
def weightBase : Nat := 2 ^ 44

def sramKey (t bank byte : Nat) : Nat := sramBase + t * 2 ^ 17 + bank * 2 ^ 14 + byte
def storeKey (t a : Nat) : Nat := storeBase + t * 2 ^ 16 + a
def switchKey (t b half i : Nat) : Nat := switchBase + ((t * 4 + b) * 2 + half) * 4096 + i * 8
def weightKey (t slot row col : Nat) : Nat := weightBase + t * 2 ^ 15 + slot * 4096 + row * 64 + col

/-- Bank and byte of a scratch offset under the interleave in force (R61). -/
def scratchHome (x : Tile) (off : Nat) : Nat × Nat :=
  let w := 2 ^ (x.bank (off / 2 ^ 14 % 8)).il
  let g := off / 2 ^ 14 % 8 / w * w
  let o := off - g * 2 ^ 14
  (g + o / 32 % w, o / 32 / w * 32 + o % 32)

/-- The home key of a scratch offset of a tile. -/
def State.scratchKey (s : State) (t off : Nat) : Nat :=
  let h := scratchHome (s.tile t) off
  sramKey t h.1 h.2

/-! ## Windows (R53, R54) -/

/-- The five windows of a generic address. -/
inductive Win where
  | global
  | priv
  | scratch
  | cluster
  | fabric
  deriving DecidableEq, Repr

/-- The window of an address, if its top byte is one and its zero fields are zero (R53). -/
def winOf (a : W64) : Option Win :=
  let top := a.extractLsb' 56 8
  if top = 0x00#8 then some .global
  else if top = 0xF8#8 then if a.extractLsb' 16 40 = 0#40 then some .priv else none
  else if top = 0xF9#8 then if a.extractLsb' 17 27 = 0#27 then some .scratch else none
  else if top = 0xFA#8 then if a.extractLsb' 17 27 = 0#27 then some .cluster else none
  else if top = 0xFB#8 then if a.extractLsb' 17 27 = 0#27 then some .fabric else none
  else none

/-- A precise fault: cause, TRAPADDR, TRAPINFO (R296). -/
structure Trap where
  cause : Nat
  addr : W64 := 0
  info : W64 := 0
  deriving DecidableEq, Repr

/-- The tile and scratch offset that an address of an SRAM window names from a context (R53, R55). -/
def sramPlace (c : Ctx) (t : Nat) (w : Win) (a : W64) : Nat × Nat :=
  match w with
  | .priv => (t, c.privStart + (a.extractLsb' 0 16).toNat)
  | .cluster => (clusterTile (a.extractLsb' 47 9).toNat (a.extractLsb' 44 3).toNat, (a.extractLsb' 0 17).toNat)
  | _ => ((a.extractLsb' 44 12).toNat, (a.extractLsb' 0 17).toNat)

/-- The checks of R54 before bank mode and ownership, for `n` bytes from an address on, with the range checks of R223: none, or the
fault. -/
def State.checkWindow (s : State) (c : Ctx) (t : Nat) (a : W64) (n : Nat) : Option Trap :=
  match winOf a with
  | none => some ⟨0x10, a, 0⟩
  | some .global => if a.toNat + n ≤ 2 ^ 56 then none else some ⟨0x10, a, 0⟩
  | some .priv => if (a.extractLsb' 0 16).toNat + n ≤ c.privSize then none else some ⟨0x11, a, 0⟩
  | some w =>
    let i := (a.extractLsb' 44 3).toNat
    let p := sramPlace c t w a
    if (w = .cluster ∧ 6 ≤ i) ∨ s.present p.1 = false ∨ 2 ^ 17 < p.2 + n then some ⟨0x10, a, 0⟩
    else if w = .scratch ∧ p.1 ≠ t then some ⟨0x12, a, 0⟩
    else if w = .cluster ∧ (a.extractLsb' 47 9).toNat ≠ clusterOf t then some ⟨0x13, a, 0⟩
    else none

/-- Does the residency own the bank (R60)? -/
def State.ownsBank (s : State) (r t n : Nat) : Bool :=
  match (s.bank t n).owner with
  | none => false
  | some b => s.bankResid t b == some r

/-- The banks that `n` bytes from a scratch offset touch, by sector, in ascending order. -/
def State.banksOf (s : State) (t off n : Nat) : List Nat :=
  if n = 0 then [] else
  (List.range (((off + n - 1) / 32) - off / 32 + 1)).map fun j => (scratchHome (s.tile t) ((off / 32 + j) * 32)).1

/-- The bank mode and ownership checks (R54), every bank for its mode first. -/
def State.checkBanks (s : State) (r t off n : Nat) (a : W64) : Option Trap :=
  let bs := s.banksOf t off n
  match bs.find? fun b => (s.bank t b).mode ≠ .scratch with
  | some b => some ⟨0x14, a, BitVec.ofNat 64 b⟩
  | none =>
    match bs.find? fun b => !s.ownsBank r t b with
    | some b => some ⟨0x15, a, BitVec.ofNat 64 b⟩
    | none => none

/-! ## Device physical memory -/

/-- Parity of the bits of a number below 2^64. -/
def parity (x : Nat) : Bool :=
  let a := x ^^^ (x >>> 32)
  let b := a ^^^ (a >>> 16)
  let c := b ^^^ (b >>> 8)
  let d := c ^^^ (c >>> 4)
  let e := d ^^^ (d >>> 2)
  (e ^^^ (e >>> 1)) % 2 == 1

/-- The coordinate of the sector of a DRAM physical address, if a region maps its granule (R361). -/
def State.coordOf (s : State) (pa : Nat) : Option Nat :=
  match s.regions.find? fun r => r.valid && decide (r.g0 ≤ pa / 2 ^ 31) && decide (pa / 2 ^ 31 ≤ r.g1) with
  | none => none
  | some r =>
    let p := pa / 32 % 2 ^ 35
    some ((r.rows.foldl (fun (acc : Nat × Nat) row =>
      (acc.1 + (if parity (row.toNat &&& p) then acc.2 else 0), acc.2 * 2)) (0, 1)).1)

/-- Channel number 32h + channel of a coordinate (R360). -/
def channelOf (c : Nat) : Nat := c / 2 ^ 26

/-- Memory port of a coordinate (R360). -/
def portOf (c : Nat) : Nat := c / 2 ^ 28

/-- The home key of a physical address: host memory at itself, DRAM at its coordinate; none is a decode miss (R363). (DESIGN CHOICE, log 18) -/
def State.physKey (s : State) (pa : Nat) : Option Nat :=
  if 2 ^ 40 ≤ pa then some pa
  else match s.coordOf pa with
    | none => none
    | some c => if s.conf.channels.contains (channelOf c) then none else some (c * 32 + pa % 32)

/-- Symbols in error of a sector: the code of a sector corrects one and detects two (21_memory_subsystem.md R366). More are taken as detected.
(DESIGN CHOICE, log 33) -/
def symbolCount (m : BitVec 18) : Nat := ((List.range 18).filter m.getLsbD).length

/-- Is a sector of DRAM uncorrectable: it holds a poison pattern, or errors in two symbols or more (R366, R367)? -/
def State.sectorBad (s : State) (c : Nat) : Bool := s.badSectors.contains c || decide (2 ≤ symbolCount (s.symbolErrors.get 0 c))

/-- Has a sector of DRAM an error that its code corrects, confined to one symbol (R366)? -/
def State.sectorSoft (s : State) (c : Nat) : Bool := !s.badSectors.contains c && symbolCount (s.symbolErrors.get 0 c) == 1

/-- The tile of an SRAM word: of a bank, an instruction store, a switch program or a weight cell. -/
def sramTile (key : Nat) : Nat :=
  if key < storeBase then (key - sramBase) / 2 ^ 17
  else if key < switchBase then (key - storeBase) / 2 ^ 16
  else if key < weightBase then (key - switchBase) / 2 ^ 15
  else (key - weightBase) / 2 ^ 15

/-- A dword at a physical address of DRAM as a walker reads it (R358): none on a decode miss or an uncorrectable sector. -/
def State.readPte (s : State) (pa : Nat) : Option Nat :=
  if 2 ^ 40 ≤ pa then none else
  match s.physKey pa with
  | none => none
  | some k => if s.sectorBad (k / 32) then none else some (Memory.readN s.mem k 8)

/-- One table entry's reading (R356) at a level: the frame and write permission of a leaf, the next table, or a failure. -/
inductive Pte where
  | leaf (frame : Nat) (wr : Bool)
  | next (table : Nat)
  | fail
  deriving DecidableEq, Repr

/-- Bits of the page offset at a level (R355). -/
def pageBits (level : Nat) : Nat := if level = 2 then 30 else if level = 3 then 21 else 16

/-- Read an entry (R356). -/
def readEntry (level e : Nat) : Pte :=
  let field := e / 256 % 2 ^ 33 * 256
  if e % 2 = 0 ∨ e / 8 % 32 ≠ 0 ∨ 2 ^ 41 ≤ e then .fail
  else if e / 2 % 2 = 1 then
    if level < 2 ∨ field % 2 ^ pageBits level ≠ 0 then .fail else .leaf field (e / 4 % 2 == 1)
  else if level = 4 ∨ 2 ^ 40 ≤ field ∨ field % (if level = 3 then 256 else 4096) ≠ 0 then .fail
  else .next field

/-- The index of an address in the table of a level (R355). -/
def vaIndex (level va : Nat) : Nat :=
  if level = 0 then va / 2 ^ 48 % 256 else if level = 1 then va / 2 ^ 39 % 512
  else if level = 2 then va / 2 ^ 30 % 512 else if level = 3 then va / 2 ^ 21 % 512 else va / 2 ^ 16 % 32

/-- Walk the tables from a level on (R355, R356): frame, bits of the page and write permission. -/
def State.walkFrom (s : State) (va : Nat) : Nat → Nat → Nat → Option (Nat × Nat × Bool)
  | 0, _, _ => none
  | fuel + 1, level, table =>
    match s.readPte (table + 8 * vaIndex level va) with
    | none => none
    | some e =>
      match readEntry level e with
      | .fail => none
      | .leaf f w => some (f, pageBits level, w)
      | .next tb => State.walkFrom s va fuel (level + 1) tb

/-- A whole walk for an access; a write through a leaf without permission fails (R356). -/
def State.walk (s : State) (root va : Nat) (wr : Bool) : Option (Nat × Nat × Bool) :=
  match s.walkFrom va 5 0 root with
  | none => none
  | some r => if wr && !r.2.2 then none else some r

/-- The root word of a residency: address-space identifier and level-0 table (R354). -/
def State.rootOf (s : State) (r : Nat) : Nat × Nat :=
  match s.findRes r with
  | none => (0, 0)
  | some x => let d := (x.cand.dwords.getD 7 0).toNat; (d / 2 ^ 48, d % 2 ^ 41 / 2048 * 2048)

/-- The entry of a TLB that a tile's access finds: its own, its cluster's or its die's (R358). A write needs one that permits it. (DEDUCED,
log 28) -/
def State.tlbFind (s : State) (t asid va : Nat) (wr : Bool) : Option TlbEntry :=
  s.tlbs.find? fun e =>
    e.asid == asid && e.vpn == va / 2 ^ e.size && (e.wr || !wr) &&
    ((e.level == 1 && e.scope == t) || (e.level == 2 && e.scope == clusterOf t) || (e.level == 3 && e.scope == dieOf t))

/-! ## Packets (R89 to R92) -/

/-- Virtual channel of a kind (R90). -/
def vcOf (kind : Nat) : Nat :=
  if kind = 0 ∨ kind = 1 ∨ kind = 2 ∨ kind = 10 then 0
  else if kind = 3 ∨ kind = 4 ∨ kind = 5 ∨ kind = 11 then 1
  else if kind = 6 ∨ kind = 7 ∨ kind = 8 ∨ kind = 9 then 2 else 3

/-- Virtual channel of a header (R90): a write that carries a template's bulk data, which bit 62 of its kind-specific dword marks, goes on
VC1. (DESIGN CHOICE, log 12) -/
def Hdr.channel (h : Hdr) : Nat := if h.kind = 1 ∧ h.info.getLsbD 62 = true then 1 else vcOf h.kind

/-- The 256 bits of a header (R89). (DESIGN CHOICE, log 12) -/
def Hdr.bits (h : Hdr) : W256 :=
  BitVec.ofNat 4 h.kind ++ BitVec.ofNat 2 h.vc ++ 0#2 ++ BitVec.ofNat 8 h.ddev ++ BitVec.ofNat 12 h.dst ++
  BitVec.ofNat 2 h.dcls ++ BitVec.ofNat 2 h.dq ++ BitVec.ofNat 2 h.dfold ++ BitVec.ofNat 8 h.sdev ++
  BitVec.ofNat 12 h.stile ++ BitVec.ofNat 2 h.sq ++ BitVec.ofNat 2 h.sfold ++ BitVec.ofNat 16 h.resid ++
  BitVec.ofNat 7 h.len ++ BitVec.ofNat 15 h.tid ++ h.op ++ h.addr ++ h.info

/-- A header from its bits (R89). (DESIGN CHOICE, log 12) -/
def Hdr.ofBits (w : W256) : Hdr where
  kind := (w.extractLsb' 252 4).toNat
  vc := (w.extractLsb' 250 2).toNat
  ddev := (w.extractLsb' 240 8).toNat
  dst := (w.extractLsb' 228 12).toNat
  dcls := (w.extractLsb' 226 2).toNat
  dq := (w.extractLsb' 224 2).toNat
  dfold := (w.extractLsb' 222 2).toNat
  sdev := (w.extractLsb' 214 8).toNat
  stile := (w.extractLsb' 202 12).toNat
  sq := (w.extractLsb' 200 2).toNat
  sfold := (w.extractLsb' 198 2).toNat
  resid := (w.extractLsb' 182 16).toNat
  len := (w.extractLsb' 175 7).toNat
  tid := (w.extractLsb' 160 15).toNat
  op := w.extractLsb' 128 32
  addr := w.extractLsb' 64 64
  info := w.extractLsb' 0 64

/-- The router of memory port `p` (R20). -/
def portTile (p : Nat) : Nat :=
  let h := p / 8
  let j := p % 8
  let d := h / 4
  let east := d % 2
  let south := d / 2
  let k := h % 4
  if k < 2 then
    let x := if east = 0 then (if k = 0 then 2 else 14) else (if k = 0 then 26 else 38)
    (if south = 0 then 0 else 39) * 48 + x + j
  else
    let y := (if south = 0 then (if k = 2 then 1 else 11) else (if k = 2 then 21 else 31)) + j
    y * 48 + (if east = 0 then 0 else 47)

/-- The router of peer link `l` (R21). -/
def linkTile (l : Nat) : Nat :=
  let d := l / 2
  if l % 2 = 0 then (if d / 2 = 0 then 0 else 39) * 48 + (if d % 2 = 0 then 11 else 36)
  else (if d / 2 = 0 then 9 else 29) * 48 + (if d % 2 = 0 then 0 else 47)

/-- The node a header's destination names on this device: a tile, 2048 + port, or 4096 + attachment. -/
def Hdr.node (h : Hdr) : Nat :=
  if h.dcls = 0 then h.dst else if h.dcls = 1 then 2048 + h.dst % 128 else 4096 + h.dst % 4

/-- The router at which a node is reached (R20, R21). (DESIGN CHOICE, log 12) -/
def nodeTile (n : Nat) : Nat :=
  if n < 2048 then n else if n < 4096 then portTile (n - 2048) else if n < 4104 then 0 else linkTile (n - 4104)

/-- Put a packet on the mesh at a tile's router. -/
def State.send (s : State) (t : Nat) (p : Packet) : State :=
  let h := { p.h with vc := p.h.channel, sdev := s.host.devnum.toNat, len := p.pay.length }
  { s with net := s.net ++ [⟨t, { p with h := h }⟩] }

/-- A header from this device to one of its tiles. -/
def State.toTile (s : State) (kind src dst r : Nat) : Hdr :=
  { kind := kind, ddev := s.host.devnum.toNat, dst := dst, stile := src, resid := r }

/-- A header to an attachment: 0 host, 1 scheduler, 2 management. -/
def State.toAttach (s : State) (kind src code r : Nat) : Hdr :=
  { kind := kind, ddev := s.host.devnum.toNat, dst := code, dcls := 2, stile := src, resid := r }

/-- A new transaction id of a tile: 15 bits (R89). -/
def State.newTid (s : State) (t : Nat) : Nat × State :=
  let x := s.tile t
  (x.nextTid, s.setTile t { x with nextTid := (x.nextTid + 1) % 2 ^ 15 })

/-! ## Event records (R348, R349, R375) -/

/-- Dword 0 of a system event (R375). -/
def eventWord (kind spec r t q b low : Nat) : W64 :=
  BitVec.ofNat 8 kind ++ BitVec.ofNat 8 spec ++ BitVec.ofNat 16 r ++ BitVec.ofNat 12 t ++ BitVec.ofNat 2 q ++
  BitVec.ofNat 2 b ++ BitVec.ofNat 16 low

/-- Queue a record for its ring, and keep events of kinds 0x10 to 0x3F in the log (R348, R387). The log stamps milliseconds. (DEDUCED, log 31) -/
def State.post (s : State) (e : EventRec) : State :=
  let kind := (e.d0.extractLsb' 56 8).toNat
  let s := { s with sched := { s.sched with buffer := s.sched.buffer ++ [e] } }
  if 0x10 ≤ kind ∧ kind ≤ 0x3F then
    let m := s.mgmt
    { s with mgmt := { m with
        log := m.log.set (m.logCount % 65536) [e.d0, e.d1, e.d2, BitVec.ofNat 64 (s.cycle / 1250000)]
        logCount := m.logCount + 1 } }
  else s

/-- The completion queue of a residency (R342), or queue 0. -/
def State.queueOf (s : State) (r : Nat) : Nat :=
  match s.findRes r with
  | none => 0
  | some x => ((x.cand.dwords.getD 0 0).extractLsb' 22 4).toNat

/-- The packet of kind 13 in which a tile's event goes to the scheduler (R375); its operation code tells that the event names its
residency. (DESIGN CHOICE, log 12) -/
def State.eventPacket (s : State) (t : Nat) (d0 d1 d2 : W64) (r : Option Nat) : Packet :=
  let hd : Hdr := s.toAttach 13 t 1 (r.getD 0)
  ⟨{ hd with op := if r.isSome then 1 else 0 }, [d0 ++ d1 ++ d2 ++ 0#64]⟩

def isEvent (p : Packet) : Bool := p.h.kind == 13

/-- An event that a tile raises goes to the scheduler, under the rate limit of kinds 0x11 to 0x15 (R375): one per kind and tile every 4,096
cycles; what is suppressed is counted in the next, in dword 2. (DEDUCED, log 31) -/
def State.tileEvent (s : State) (t : Nat) (d0 d1 d2 : W64) (r : Option Nat) : State :=
  let kind := (d0.extractLsb' 56 8).toNat
  if 0x11 ≤ kind ∧ kind ≤ 0x15 then
    let x := s.tile t
    let v := x.rates.get ⟨0, 0⟩ kind
    if s.cycle < v.last then s.setTile t { x with rates := x.rates.set kind ⟨v.last, v.suppressed + 1⟩ }
    else (s.setTile t { x with rates := x.rates.set kind ⟨s.cycle + 4096, 0⟩ }).send t
      (s.eventPacket t d0 d1 (BitVec.ofNat 64 v.suppressed) r)
  else s.send t (s.eventPacket t d0 d1 d2 r)

/-! ## The fault path (R294, R295, R377) -/

/-- Operation codes of system packets (kind 12) between tiles and the scheduler; the manual leaves these header bits open. (DESIGN CHOICE,
log 12) -/
def opCommit : BitVec 32 := 1
def opCommitReply : BitVec 32 := 2
def opDiscard : BitVec 32 := 3
def opStepDone : BitVec 32 := 4
def opFault : BitVec 32 := 5

def isFault (p : Packet) : Bool := p.h.kind == 12 && p.h.op == opFault

/-- The fault report of a context (R377): reason, cause and the trap values, sent on VC3 to the scheduler. -/
def State.reportFault (s : State) (k reason cause : Nat) (addr info : W64) : State :=
  let c := s.ctx k
  let p := placeOf k
  match c.resid with
  | none => s
  | some r =>
    s.send p.t ⟨{ s.toAttach 12 p.t 1 r with op := opFault, sq := p.q },
      [eventWord 0x10 reason r p.t p.q p.b cause ++ addr ++ info ++ 0#64]⟩

/-- Deliver a fault to a context (R294): with a handler free, the saved registers are written, handler-active is set and the
context goes on at TRAPVEC; without one the context stops and its residency is faulted. -/
def State.deliver (s : State) (k : Nat) (c : Trap) (ret : BitVec 16) : State :=
  let x := s.ctx k
  if x.handler || x.trapvec = 0 then
    (s.setCtx k { x with run := .stopped, wait := .none }).reportFault k (if x.handler then 2 else 1) c.cause c.addr c.info
  else
    s.setCtx k { x with
      trapip := ret, trapcause := BitVec.ofNat 8 c.cause, trapaddr := c.addr, trapinfo := c.info,
      handler := true, ip := x.trapvec, walkFail := none, mid := false }

/-- A transfer target lies in the partition and is a multiple of 4 (R186). -/
def Ctx.targetOk (c : Ctx) (t : W64) : Bool :=
  decide (c.code.base ≤ t.toNat) && decide (t.toNat < c.code.base + c.code.size) && decide (t.toNat % 4 = 0)

/-! ## Registers -/

/-- Read a scalar register; s0 reads zero (R184). -/
def Ctx.s (c : Ctx) (n : Nat) : W64 := if n = 0 then 0 else c.sregs.get 0 n

/-- Write a scalar register; a write to s0 is discarded (R184). -/
def Ctx.setS (c : Ctx) (n : Nat) (v : W64) : Ctx := if n = 0 then c else { c with sregs := c.sregs.set n v }

def Ctx.v (c : Ctx) (n : Nat) : W256 := c.vregs.get 0 n
def Ctx.setV (c : Ctx) (n : Nat) (v : W256) : Ctx := { c with vregs := c.vregs.set n v }

/-- A predicate; p0 is true (R31). -/
def Ctx.p (c : Ctx) (n : Nat) : Bool := if n = 0 then true else c.preds.get false n

/-- Write a predicate; a write to p0 is discarded (R205). -/
def Ctx.setP (c : Ctx) (n : Nat) (v : Bool) : Ctx := if n = 0 then c else { c with preds := c.preds.set n v }

/-- A lane mask; k0 is all ones (R31). -/
def Ctx.k (c : Ctx) (n : Nat) : BitVec 32 := if n = 0 then BitVec.allOnes 32 else c.masks.get 0 n

/-- Write a lane mask; a write to k0 is discarded (R256). -/
def Ctx.setK (c : Ctx) (n : Nat) (v : BitVec 32) : Ctx := if n = 0 then c else { c with masks := c.masks.set n v }

/-! ## Ports of a core and lanes of the static network (R71 to R79) -/

/-- What a link is: closed, within a die, across a die edge, or a loopback lane (R29, R72, R87). -/
inductive LinkKind where
  | inner
  | edge
  | loop
  deriving DecidableEq, Repr

/-- The opposite direction of 0 north, 1 south, 2 east, 3 west. -/
def opposite (d : Nat) : Nat := if d = 0 then 1 else if d = 1 then 0 else if d = 2 then 3 else 2

/-- Virtual coordinates of a context bank of a residency on a tile (R28). -/
def Residency.virtualOf (r : Residency) (t fold : Nat) : Nat × Nat :=
  let px := colOf t - r.x
  let py := rowOf t - r.y
  if r.fold = 1 then (px, py) else if r.fold = 2 then (px * 2 + fold % 2, py)
  else (px * 2 + fold % 2, py * 2 + fold / 2)

/-- Physical tile and fold index of a virtual tile (R28). -/
def Residency.physicalOf (r : Residency) (vx vy : Nat) : Nat × Nat :=
  if r.fold = 1 then ((r.y + vy) * 48 + r.x + vx, 0)
  else if r.fold = 2 then ((r.y + vy) * 48 + r.x + vx / 2, vx % 2)
  else ((r.y + vy / 2) * 48 + r.x + vx / 2, vy % 2 * 2 + vx % 2)

/-- The virtual shape (R28). -/
def Residency.shape (r : Residency) : Nat × Nat :=
  (if r.fold = 1 then r.w else r.w * 2, if r.fold = 4 then r.h * 2 else r.h)

/-- Does the crossing from tile `t` to its neighbour `u` cross a die edge (R19)? -/
def crossesEdge (t u : Nat) : Bool := dieOf t != dieOf u

/-- The neighbour that an output of a context bank of a tile feeds: tile, bank, kind of the link; none where the region or the
grid ends, or the tile beyond is absent (R29, R73). -/
def State.neighbour (s : State) (t b d : Nat) : Option (Nat × Nat × LinkKind) :=
  match s.bankResid t b with
  | none => none
  | some n =>
    match s.findRes n with
    | none => none
    | some r =>
      let fold := (s.ctx (t * 16 + b)).fold
      let v := r.virtualOf t fold
      let sh := r.shape
      let go (vx vy : Nat) : Option (Nat × Nat × LinkKind) :=
        let p := r.physicalOf vx vy
        match r.banks[p.2]? with
        | none => none
        | some b' =>
          if s.present p.1 = false then none
          else some (p.1, b', if p.1 = t then .loop else if crossesEdge t p.1 then .edge else .inner)
      if d = 0 then (if v.2 = 0 then none else go v.1 (v.2 - 1))
      else if d = 1 then (if v.2 + 1 < sh.2 then go v.1 (v.2 + 1) else none)
      else if d = 2 then (if v.1 + 1 < sh.1 then go (v.1 + 1) v.2 else none)
      else (if v.1 = 0 then none else go (v.1 - 1) v.2)

/-- Credits of a lane at placement (R72, R87). -/
def lanesCredits (k : LinkKind) : Nat := if k = .edge then 20 else 4

/-- Half-width edges take 11 cycles instead of 9 (R399). -/
def State.edgeDelay (s : State) (t u : Nat) : Nat :=
  let e := if dieOf t + dieOf u = 1 then 0 else if dieOf t + dieOf u = 5 then 1 else if dieOf t + dieOf u = 2 then 2 else 3
  if s.conf.edgeHalf.contains e then 11 else 9

/-- Cycles from a write to readability (R72, R87, R29, R399). (DESIGN CHOICE, log 9) -/
def State.linkDelay (s : State) (k : LinkKind) (t u : Nat) : Nat :=
  match k with
  | .inner => 1
  | .loop => 2
  | .edge => s.edgeDelay t u

/-- Cycles for a returned credit (R72, R87). -/
def State.creditDelay (s : State) (k : LinkKind) (t u : Nat) : Nat :=
  match k with
  | .edge => s.edgeDelay t u
  | _ => 1

/-- Write a word to an output lane: a credit is used and the word is on its way (R72). -/
def State.pushLane (s : State) (t b d : Nat) (w : NetWord) : State :=
  match s.neighbour t b d with
  | none => s
  | some (u, b', k) =>
    let x := s.xbar (t * 4 + b)
    let s := s.setXbar (t * 4 + b) { x with credits := x.credits.set d (x.credits.get 0 d - 1) }
    let y := s.xbar (u * 4 + b')
    let word : OnLink := {
      dir := opposite d, at_ := s.cycle + s.linkDelay k t u, w := w, src := t * 4 + b, resid := (s.bankResid t b).getD 0, loop := k == .loop }
    s.setXbar (u * 4 + b') { y with flight := y.flight ++ [word] }

/-- Pop the head of an input lane: the credit goes back to the sender (R72), which has one more than its FIFO holds after a word of an earlier
residency that a placement found there. (DESIGN CHOICE, log 87) -/
def State.popLane (s : State) (t b d : Nat) : State :=
  let x := s.xbar (t * 4 + b)
  let s := s.setXbar (t * 4 + b) { x with rx := x.rx.set d ((x.rx.get [] d).drop 1) }
  match s.neighbour t b d with
  | none => s
  | some (u, b', k) =>
    let y := s.xbar (u * 4 + b')
    s.setXbar (u * 4 + b') { y with creditBack := y.creditBack ++ [(opposite d, s.cycle + s.creditDelay k t u)] }

/-- The words waiting at an input port of the core whose turn it is: 27 to 30 the lanes, 31 the `qx` FIFO (R74, R77). -/
def State.portIn (s : State) (p : Nat) : List NetWord :=
  let x := s.xbar s.cur.tb
  if p = 31 then x.toCore.get [] s.cur.q else x.rx.get [] (p - 27)

/-- Pop an input port of the core whose turn it is. -/
def State.popPort (s : State) (p : Nat) : State :=
  if p = 31 then
    let x := s.xbar s.cur.tb
    s.setXbar s.cur.tb { x with toCore := x.toCore.set s.cur.q ((x.toCore.get [] s.cur.q).drop 1) }
  else s.popLane s.cur.t s.cur.b (p - 27)

/-- Words an output port of a context can take now: credits of the lane, or room of the 4-word FIFO to the switch (R72, R74). -/
def State.roomAt (s : State) (k p : Nat) : Nat :=
  let c := placeOf k
  let x := s.xbar c.tb
  if p = 31 then 4 - (x.fromCore.get [] c.q).length else x.credits.get 0 (p - 27)

/-- Is a DONE token of the context still waiting for its place at an endpoint (R103)? -/
def State.donePending (s : State) (k : Nat) (queue : Bool) (p : Nat) : Bool :=
  (s.tile (placeOf k).t).deferred.any fun d =>
    match d.act with
    | .donePort k' p' _ => !queue && k' == k && p' == p
    | .doneQueue k' q' _ => queue && k' == k && q' == p
    | _ => false

/-- Push a word to an output port of a context. -/
def State.pushPortOf (s : State) (k p : Nat) (w : NetWord) : State :=
  let c := placeOf k
  if p = 31 then
    let x := s.xbar c.tb
    s.setXbar c.tb { x with fromCore := x.fromCore.set c.q (x.fromCore.get [] c.q ++ [w]) }
  else s.pushLane c.t c.b (p - 27) w

def State.pushPort (s : State) (p : Nat) (w : NetWord) : State := s.pushPortOf s.cur.ctx p w

/-- Does the link table give an input or output direction to the core (R76, R77)? `qx` is its own. -/
def State.ownsIn (s : State) (p : Nat) : Bool :=
  p == 31 || (((s.xbar s.cur.tb).linkIn.get 0 (p - 27)) &&& 7#4) == BitVec.ofNat 4 (4 + s.cur.q)
def State.ownsOut (s : State) (p : Nat) : Bool :=
  p == 31 || (((s.xbar s.cur.tb).linkOut.get 0 (p - 27)) &&& 7#4) == BitVec.ofNat 4 (4 + s.cur.q)

/-- In-band configuration enabled on an input of the core (R83). -/
def State.ctlOn (s : State) (p : Nat) : Bool :=
  let x := s.xbar s.cur.tb
  if p = 31 then x.xctl.getLsbD s.cur.q else (x.linkIn.get 0 (p - 27)).getLsbD 3

end Sys2Proof.Machine
end

