-- ==== Sys2Proof/Machine/Flags.lean ====
section
/-! DEFINITION. The sticky flags (06_numerics.md R115), the float formats (R110) and rounding (R113, R118, R119). -/

namespace Sys2Proof.Machine

/-! ## Flags (R115) -/

def flInvalid : BitVec 6 := 1
def flOverflow : BitVec 6 := 2
def flUnderflow : BitVec 6 := 4
def flInexact : BitVec 6 := 8
def flSaturated : BitVec 6 := 16
def flStream : BitVec 6 := 32

/-- An instruction ORs its flags into FSTAT (R115). -/
def Ctx.orFlags (c : Ctx) (f : BitVec 6) : Ctx := { c with fstat := c.fstat ||| f }

/-! ## Helpers (R119) -/

/-- The n-bit two's complement value of the low n bits. -/
def sext (x n : Nat) : Int :=
  let y := x % 2 ^ n
  if 2 ^ n ≤ 2 * y then (y : Int) - (2 ^ n : Nat) else y

/-- The low n bits of an integer in two's complement. -/
def low (x : Int) (n : Nat) : Nat := (x % (2 ^ n : Nat)).toNat

/-- floor(log2 x), and 0 for 0. -/
def ilog2 (x : Nat) : Nat := Nat.log2 x

/-- v·2^e re-expressed at exponent t: a left shift, or a floor (R119). -/
def align (v e t : Int) : Int :=
  if t ≤ e then v * (2 ^ (e - t).toNat : Nat) else Int.fdiv v (2 ^ (t - e).toNat : Nat)

/-- A magnitude shifted right by `k` and rounded by a mode of R116 (0 nearest even, 1 toward zero, 2 down, 3 up, 4 nearest, ties
away) for a sign, with whether anything was lost. -/
def roundShift (neg : Bool) (m k mode : Nat) : Nat × Bool :=
  let q := m / 2 ^ k
  let r := m % 2 ^ k
  let up :=
    if r = 0 then false
    else if mode = 0 then decide (2 ^ k < 2 * r) || (decide (2 * r = 2 ^ k) && decide (q % 2 = 1))
    else if mode = 1 then false
    else if mode = 2 then neg
    else if mode = 3 then !neg
    else decide (2 ^ k ≤ 2 * r)
  (if up then q + 1 else q, decide (r ≠ 0))

/-! ## Float formats (R110) -/

/-- A float format: bits of the exponent field and of the fraction. -/
structure Fmt where
  eb : Nat
  fb : Nat
  deriving DecidableEq, Repr

def fmtF16 : Fmt := ⟨5, 10⟩
def fmtB16 : Fmt := ⟨8, 7⟩
def fmtF32 : Fmt := ⟨8, 23⟩

def Fmt.width (f : Fmt) : Nat := 1 + f.eb + f.fb
def Fmt.bias (f : Fmt) : Int := (2 ^ (f.eb - 1) : Nat) - 1
def Fmt.emin (f : Fmt) : Int := 1 - f.bias

/-- The default NaN (R110). -/
def Fmt.nan (f : Fmt) : Nat := (2 ^ f.eb - 1) * 2 ^ f.fb + 2 ^ (f.fb - 1)
def Fmt.inf (f : Fmt) (neg : Bool) : Nat := (if neg then 2 ^ (f.eb + f.fb) else 0) + (2 ^ f.eb - 1) * 2 ^ f.fb
def Fmt.zero (f : Fmt) (neg : Bool) : Nat := if neg then 2 ^ (f.eb + f.fb) else 0
def Fmt.largest (f : Fmt) (neg : Bool) : Nat := f.inf neg - 1

/-- What a float's bits say: a NaN (signalling or not), an infinity, or (−1)^neg · m · 2^e. -/
inductive FVal where
  | nan (signalling : Bool)
  | inf (neg : Bool)
  | num (neg : Bool) (m : Nat) (e : Int)
  deriving DecidableEq, Repr

/-- Read the bits of a float (R110). -/
def Fmt.read (f : Fmt) (x : Nat) : FVal :=
  let fr := x % 2 ^ f.fb
  let ex := x / 2 ^ f.fb % 2 ^ f.eb
  let neg := decide (x / 2 ^ (f.eb + f.fb) % 2 = 1)
  if ex = 2 ^ f.eb - 1 then (if fr = 0 then .inf neg else .nan (decide (fr < 2 ^ (f.fb - 1))))
  else if ex = 0 then .num neg fr (f.emin - f.fb)
  else .num neg (2 ^ f.fb + fr) (ex - f.bias - f.fb)

/-- How a float result is finished (R116, R118). -/
structure Ctl where
  mode : Nat := 0
  sat : Bool := false
  flush : Bool := false
  deriving DecidableEq, Repr

/-- The bits of an overflowed result (R118). -/
def Fmt.overflow (f : Fmt) (c : Ctl) (neg : Bool) : Nat × BitVec 6 :=
  if c.sat then (f.largest neg, flOverflow ||| flInexact ||| flSaturated)
  else
    let toInf := c.mode = 0 ∨ c.mode = 4 ∨ (c.mode = 2 ∧ neg = true) ∨ (c.mode = 3 ∧ neg = false)
    (if toInf then f.inf neg else f.largest neg, flOverflow ||| flInexact)

/-- Round (−1)^neg · m · 2^e to a format and finish it (R113, R118, R119): bits and flags. (DEDUCED, log 21) -/
def Fmt.round (f : Fmt) (c : Ctl) (neg : Bool) (m : Nat) (e : Int) : Nat × BitVec 6 :=
  if m = 0 then (f.zero neg, 0)
  else
    let q : Int := max (ilog2 m + e) f.emin - f.fb
    let r := if q ≤ e then (m * 2 ^ (e - q).toNat, false) else roundShift neg m (q - e).toNat c.mode
    let y := r.1
    if y < 2 ^ f.fb then
      if c.flush && decide (y ≠ 0) then (f.zero neg, flUnderflow ||| flInexact)
      else (f.zero neg + y, if r.2 then flUnderflow ||| flInexact else 0)
    else
      let y' := if y = 2 ^ (f.fb + 1) then 2 ^ f.fb else y
      let q' := if y = 2 ^ (f.fb + 1) then q + 1 else q
      let ex := q' + f.fb + f.bias
      if ((2 ^ f.eb - 1 : Nat) : Int) ≤ ex then f.overflow c neg
      else (f.zero neg + ex.toNat * 2 ^ f.fb + (y' - 2 ^ f.fb), if r.2 then flInexact else 0)

/-- Round to nearest even, as arithmetic does (R113). (DEDUCED, log 21) -/
def Fmt.rne (f : Fmt) (neg : Bool) (m : Nat) (e : Int) : Nat × BitVec 6 := f.round {} neg m e

/-- Round v·2^e to nearest even; a zero takes the given sign. -/
def Fmt.rneInt (f : Fmt) (zeroNeg : Bool) (v e : Int) : Nat × BitVec 6 :=
  if v = 0 then (f.zero zeroNeg, 0) else f.rne (decide (v < 0)) v.natAbs e

/-- ln 2 scaled by 2^256, floor. (DEDUCED, log 22) -/
def ln2 : Nat := 80260960185991308862233904206310070533990667611589946606122867505419956976171

end Sys2Proof.Machine
end

