-- ==== Sys2Proof/Machine/Numerics.lean ====
section
/-! DEFINITION. Arithmetic on element types (06_numerics.md R109 to R127; 13_vector_instructions.md R248 to R259): integer forms,
float operations rounded once, conversions under CONV, comparisons. -/

namespace Sys2Proof.Machine

/-! ## Integers (R109, R114) -/

/-- Range of an n-bit integer type, signed or not. -/
def intMin (sg : Bool) (n : Nat) : Int := if sg then -(2 ^ (n - 1) : Nat) else 0
def intMax (sg : Bool) (n : Nat) : Int := if sg then (2 ^ (n - 1) : Nat) - 1 else (2 ^ n : Nat) - 1

/-- Clamp to a range, with the saturated flag where it clamps (R114, R208). -/
def clampTo (sg : Bool) (n : Nat) (t : Int) : Int × BitVec 6 :=
  if t < intMin sg n then (intMin sg n, flSaturated)
  else if intMax sg n < t then (intMax sg n, flSaturated) else (t, 0)

/-- Quotient and remainder of R114: all ones and the dividend for a zero divisor, else truncated toward zero. -/
def divide (n : Nat) (sg : Bool) (a b : Int) : Int :=
  if b = 0 then (if sg then -1 else (2 ^ n : Nat) - 1) else Int.tdiv a b
def remainder (a b : Int) : Int := if b = 0 then a else Int.tmod a b

/-! ## Float operations (R113) -/

/-- A result of a float operation: bits and flags. -/
abbrev FRes := Nat × BitVec 6

def sigFlag (x y z : FVal) : BitVec 6 := if x = .nan true ∨ y = .nan true ∨ z = .nan true then flInvalid else 0

def FVal.isNan : FVal → Bool
  | .nan _ => true
  | _ => false

def FVal.neg : FVal → FVal
  | .num s m e => .num (!s) m e
  | .inf s => .inf (!s)
  | x => x

/-- The exact sum of two numbers as an integer and an exponent. -/
def addExact (s1 : Bool) (m1 : Nat) (e1 : Int) (s2 : Bool) (m2 : Nat) (e2 : Int) : Int × Int :=
  let e := min e1 e2
  let v (s : Bool) (m : Nat) (e' : Int) : Int := let a : Int := (m * 2 ^ (e' - e).toNat : Nat); if s then -a else a
  (v s1 m1 e1 + v s2 m2 e2, e)

/-- a + b, rounded once. -/
def fAdd (f : Fmt) (a b : FVal) : FRes :=
  match a, b with
  | .num s1 m1 e1, .num s2 m2 e2 =>
    let r := addExact s1 m1 e1 s2 m2 e2
    f.rneInt (s1 && s2) r.1 r.2
  | .inf s, .num _ _ _ => (f.inf s, 0)
  | .num _ _ _, .inf s => (f.inf s, 0)
  | .inf s, .inf t => if s = t then (f.inf s, 0) else (f.nan, flInvalid)
  | _, _ => (f.nan, sigFlag a b b)

/-- a · b + c, rounded once (R113, R251). -/
def fMulAdd (f : Fmt) (a b c : FVal) : FRes :=
  match a, b with
  | .num s1 m1 e1, .num s2 m2 e2 =>
    match c with
    | .num s3 m3 e3 =>
      let s := s1 != s2
      let r := addExact s (m1 * m2) (e1 + e2) s3 m3 e3
      f.rneInt (s && s3) r.1 r.2
    | .inf s => (f.inf s, 0)
    | .nan g => (f.nan, if g then flInvalid else 0)
  | .inf s1, .num s2 m2 _ =>
    if m2 = 0 then (f.nan, flInvalid) else infPlus f (s1 != s2) c
  | .num s1 m1 _, .inf s2 =>
    if m1 = 0 then (f.nan, flInvalid) else infPlus f (s1 != s2) c
  | .inf s1, .inf s2 => infPlus f (s1 != s2) c
  | _, _ => (f.nan, sigFlag a b c)
where
  /-- An infinite product plus c. -/
  infPlus (f : Fmt) (s : Bool) (c : FVal) : FRes :=
    match c with
    | .num _ _ _ => (f.inf s, 0)
    | .inf t => if s = t then (f.inf s, 0) else (f.nan, flInvalid)
    | .nan g => (f.nan, if g then flInvalid else 0)

/-- a · b, rounded once. -/
def fMul (f : Fmt) (a b : FVal) : FRes :=
  match a, b with
  | .num s1 m1 e1, .num s2 m2 e2 => f.rne (s1 != s2) (m1 * m2) (e1 + e2)
  | .inf s1, .num s2 m2 _ => if m2 = 0 then (f.nan, flInvalid) else (f.inf (s1 != s2), 0)
  | .num s1 m1 _, .inf s2 => if m1 = 0 then (f.nan, flInvalid) else (f.inf (s1 != s2), 0)
  | .inf s1, .inf s2 => (f.inf (s1 != s2), 0)
  | _, _ => (f.nan, sigFlag a b b)

/-- Round `m·2^e` where the exact value lies strictly between it and its successor when `more` is set: two more bits hold it. -/
def rneMore (f : Fmt) (neg : Bool) (m : Nat) (e : Int) (more : Bool) : FRes :=
  f.rne neg (4 * m + (if more then 1 else 0)) (e - 2)

/-- a / b, correctly rounded (R113). -/
def fDiv (f : Fmt) (a b : FVal) : FRes :=
  match a, b with
  | .num s1 m1 e1, .num s2 m2 e2 =>
    if m2 = 0 then (if m1 = 0 then (f.nan, flInvalid) else (f.inf (s1 != s2), flOverflow))
    else
      let n := m1 * 2 ^ 64
      rneMore f (s1 != s2) (n / m2) (e1 - e2 - 64) (decide (n % m2 ≠ 0))
  | .inf s1, .num s2 _ _ => (f.inf (s1 != s2), 0)
  | .num s1 _ _, .inf s2 => (f.zero (s1 != s2), 0)
  | .inf _, .inf _ => (f.nan, flInvalid)
  | _, _ => (f.nan, sigFlag a b b)

/-- Integer square root, floor, by bits from `k − 1` down. -/
def isqrt (n : Nat) : Nat → Nat → Nat
  | 0, r => r
  | k + 1, r => let t := r + 2 ^ k; isqrt n k (if t * t ≤ n then t else r)

/-- sqrt(a), correctly rounded (R113). -/
def fSqrt (f : Fmt) (a : FVal) : FRes :=
  match a with
  | .num s m e =>
    if m = 0 then (f.zero s, 0)
    else if s then (f.nan, flInvalid)
    else
      let odd := (e % 2).toNat
      let n := m * 2 ^ (80 + odd)
      let r := isqrt n 64 0
      rneMore f false r ((e - odd - 80) / 2) (decide (r * r ≠ n))
  | .inf s => if s then (f.nan, flInvalid) else (f.inf false, 0)
  | .nan g => (f.nan, if g then flInvalid else 0)

/-- 1 / sqrt(a), correctly rounded (R113). -/
def fRsqrt (f : Fmt) (a : FVal) : FRes :=
  match a with
  | .num s m e =>
    if m = 0 then (f.inf s, flOverflow)
    else if s then (f.nan, flInvalid)
    else
      let odd := (e % 2).toNat
      let k := m * 2 ^ odd
      let r := isqrt (2 ^ 160 / k) 81 0
      rneMore f false r (-80 - (e - odd) / 2) (decide (r * r * k ≠ 2 ^ 160))
  | .inf s => if s then (f.nan, flInvalid) else (f.zero false, 0)
  | .nan g => (f.nan, if g then flInvalid else 0)

/-- Fixed-point exponential series: `y`, `term` and the sum are scaled by 2^256. (DEDUCED, log 22) -/
def expSeries (y : Nat) : Nat → Nat → Nat → Nat → Nat
  | 0, _, _, acc => acc
  | n + 1, k, term, acc => let t := term * y / 2 ^ 256 / k; expSeries y n (k + 1) t (acc + t)

/-- 2^a, correctly rounded (R113): exact for an integer, else by a 256-bit series. (DEDUCED, log 22) -/
def fExp2 (f : Fmt) (a : FVal) : FRes :=
  match a with
  | .num s m e =>
    if m = 0 then f.rne false 1 0
    else if 2 ^ 9 ≤ (if 0 ≤ e then m * 2 ^ e.toNat else m / 2 ^ (-e).toNat) then
      f.rne false 1 (if s then -100000 else 100000)
    else if 0 ≤ e then
      let k : Int := (m * 2 ^ e.toNat : Nat)
      f.rne false 1 (if s then -k else k)
    else
      let sh := (-e).toNat
      let x : Int := if s then -(m : Int) else m
      let n := Int.fdiv x (2 ^ sh : Nat)
      let fr := (x - n * (2 ^ sh : Nat)).toNat
      if fr = 0 then f.rne false 1 n
      else
        let y := fr * ln2 / 2 ^ sh
        rneMore f false (expSeries y 60 1 (2 ^ 256) (2 ^ 256)) (n - 256) true
  | .inf s => if s then (f.zero false, 0) else (f.inf false, 0)
  | .nan g => (f.nan, if g then flInvalid else 0)

/-- Fixed-point series of atanh: `z2` is z², `p` the odd power. (DEDUCED, log 22) -/
def atanhSeries (z2 : Nat) : Nat → Nat → Nat → Nat → Nat
  | 0, _, _, acc => acc
  | n + 1, k, p, acc => atanhSeries z2 n (k + 2) (p * z2 / 2 ^ 256) (acc + p / k)

/-- log2(a), correctly rounded (R113): exact for a power of two, else by a 256-bit series. (DEDUCED, log 22) -/
def fLog2 (f : Fmt) (a : FVal) : FRes :=
  match a with
  | .num s m e =>
    if m = 0 then (f.inf true, flOverflow)
    else if s then (f.nan, flInvalid)
    else
      let l := ilog2 m
      let n : Int := l + e
      if m = 2 ^ l then f.rneInt false n 0
      else
        let t := m * 2 ^ 256 / 2 ^ l
        let z := (t - 2 ^ 256) * 2 ^ 256 / (t + 2 ^ 256)
        let ln := 2 * atanhSeries (z * z / 2 ^ 256) 90 1 z 0
        let v := n * (2 ^ 256 : Nat) + (ln * 2 ^ 256 / ln2 : Nat)
        rneMore f (decide (v < 0)) (if v < 0 then v.natAbs - 1 else v.natAbs) (-256) true
  | .inf s => if s then (f.nan, flInvalid) else (f.inf false, 0)
  | .nan g => (f.nan, if g then flInvalid else 0)

/-- Order of two numbers or infinities: −1, 0 or 1; −0 equals +0. -/
def fCmp (a b : FVal) : Int :=
  match a, b with
  | .num s1 m1 e1, .num s2 m2 e2 => Int.sign (addExact s1 m1 e1 (!s2) m2 e2).1
  | .inf s, .inf t => if s = t then 0 else if s then -1 else 1
  | .inf s, _ => if s then -1 else 1
  | _, .inf t => if t then 1 else -1
  | _, _ => 0

/-- Minimum or maximum (R250): −0 below +0, one NaN gives the other operand, two the default NaN. The operands come with their bits. -/
def fMinMax (f : Fmt) (isMax : Bool) (x y : Nat) : FRes :=
  let a := f.read x
  let b := f.read y
  let fl := sigFlag a b b
  if a.isNan && b.isNan then (f.nan, fl)
  else if a.isNan then (y, fl)
  else if b.isNan then (x, fl)
  else
    let c := fCmp a b
    let less := decide (c < 0) || (decide (c = 0) && decide (2 ^ (f.eb + f.fb) ≤ x))
    (if less = isMax then y else x, fl)

/-- Change of sign (R250): bits of a with a given sign; a NaN gives the default NaN. -/
def fSign (f : Fmt) (x : Nat) (neg : Bool) : FRes :=
  match f.read x with
  | .nan g => (f.nan, if g then flInvalid else 0)
  | _ => (x % 2 ^ (f.eb + f.fb) + (if neg then 2 ^ (f.eb + f.fb) else 0), 0)

/-- Exact sum of floats rounded once (R255): result and flags. `xs` are the active lanes' values. -/
def fSum (f : Fmt) (xs : List FVal) : FRes :=
  let sig := xs.any fun x => x = .nan true
  if xs.any FVal.isNan then (f.nan, if sig then flInvalid else 0)
  else if xs.contains (.inf true) && xs.contains (.inf false) then (f.nan, flInvalid)
  else if xs.contains (.inf true) then (f.inf true, 0)
  else if xs.contains (.inf false) then (f.inf false, 0)
  else
    let e := f.emin - f.fb
    let v := xs.foldl (fun (acc : Int) x =>
      match x with
      | .num s m e' => let a : Int := (m * 2 ^ (e' - e).toNat : Nat); if s then acc - a else acc + a
      | _ => acc) 0
    let allNeg := !xs.isEmpty && xs.all fun x => match x with | .num true 0 _ => true | _ => false
    f.rneInt allNeg v e

/-! ## Conversions (R116, R118) -/

/-- The fields of CONV (R116). -/
structure Conv where
  mode : Nat
  sat : Bool
  nani : Nat
  flush : Bool
  deriving DecidableEq, Repr

def convOf (w : W64) : Conv where
  mode := (w.extractLsb' 0 3).toNat
  sat := w.getLsbD 3
  nani := (w.extractLsb' 4 2).toNat
  flush := w.getLsbD 6

/-- A legal CONV value (R116). -/
def convOk (w : W64) : Bool := decide (w.toNat < 128) && decide ((w.extractLsb' 4 2).toNat < 3) && decide ((w.extractLsb' 0 3).toNat < 5)

/-- A legal VCFG value (R244). -/
def vcfgOk (w : W64) : Bool := decide (w.toNat < 8) && decide ((w.extractLsb' 0 2).toNat < 3)

/-- An element type at a width: signed or unsigned integer, or a float format. -/
inductive ETy where
  | int (sg : Bool) (n : Nat)
  | flt (f : Fmt)
  deriving DecidableEq, Repr

/-- The type of a code at a width, if R112 allows it. -/
def etyOf (code width : Nat) : Option ETy :=
  if code = 0 then some (.int true width)
  else if code = 1 then some (.int false width)
  else if code = 2 then (if width = 16 then some (.flt fmtF16) else if width = 32 then some (.flt fmtF32) else none)
  else if width = 16 then some (.flt fmtB16) else none

def ETy.width : ETy → Nat
  | .int _ n => n
  | .flt f => f.width

/-- An out-of-range integer result (R118). -/
def intOut (c : Conv) (sg : Bool) (n : Nat) (fromFloat : Bool) (x : Int) : FRes :=
  if c.sat then (low (clampTo sg n x).1 n, flSaturated)
  else (low x n, if fromFloat then flInvalid else 0)

/-- One conversion of R118: source bits to target bits and flags. -/
def convert (c : Conv) (src tgt : ETy) (x : Nat) : FRes :=
  match src with
  | .int sg n =>
    let v : Int := if sg then sext x n else (x % 2 ^ n : Nat)
    match tgt with
    | .int tg m =>
      if intMin tg m ≤ v ∧ v ≤ intMax tg m then (low v m, 0) else intOut c tg m false v
    | .flt f => f.round ⟨c.mode, c.sat, c.flush⟩ (decide (v < 0)) v.natAbs 0
  | .flt g =>
    match g.read x, tgt with
    | .nan sig, .flt f => (f.nan, if sig then flInvalid else 0)
    | .nan _, .int tg m =>
      (low (if c.nani = 0 then 0 else if c.nani = 1 then intMin tg m else intMax tg m) m, flInvalid)
    | .inf s, .flt f => (f.inf s, 0)
    | .inf s, .int tg m => (low (if s then intMin tg m else intMax tg m) m, flInvalid)
    | .num s m e, .flt f => f.round ⟨c.mode, c.sat, c.flush⟩ s m e
    | .num s m e, .int tg n =>
      let r := if 0 ≤ e then (m * 2 ^ e.toNat, false) else roundShift s m (-e).toNat c.mode
      let v : Int := if s then -(r.1 : Int) else r.1
      if intMin tg n ≤ v ∧ v ≤ intMax tg n then (low v n, if r.2 then flInexact else 0) else intOut c tg n true v

/-! ## Accumulator elements (R124 to R127) -/

/-- Raise the exponent until the sum lies below 2^62 in magnitude (R126). -/
def raise (v1 e1 v2 e2 : Int) : Nat → Int → Int × Int
  | 0, e => (align v1 e1 e + align v2 e2 e, e)
  | n + 1, e =>
    let v := align v1 e1 e + align v2 e2 e
    if v.natAbs < 2 ^ 62 then (v, e) else raise v1 e1 v2 e2 n (e + 1)

/-- Add a term to an element (R126). One operand stands unshifted at the lower exponent, so that while the other has more than 65 bits no
exponent can do: the search starts behind those. -/
def Elem.add (a b : Elem) : Elem :=
  let nan := a.nan || b.nan
  let pinf := a.pinf || b.pinf
  let minf := a.minf || b.minf
  let e0 := min a.e b.e
  let big := max (ilog2 (align a.v a.e e0).natAbs) (ilog2 (align b.v b.e e0).natAbs)
  let e1 := if 64 < big then e0 + (big - 64 : Nat) else e0
  let r := raise a.v a.e b.v b.e 8 e1
  let ovf := decide (4095 < r.2)
  let pinf := pinf || (ovf && decide (0 < r.1))
  let minf := minf || (ovf && !decide (0 < r.1))
  let v := if ovf then 0 else r.1
  let e := if ovf then 0 else r.2
  if pinf && minf then ⟨v, e, true, false, false⟩ else ⟨v, e, nan, pinf, minf⟩

/-- The delivery of an element (R127): 0 F32, 1 B16, 2 I32. A term that no addition has touched may bear both infinities' marks, of which
R127 does not speak: it is delivered as a NaN. (DEDUCED, log 23; DESIGN CHOICE, log 80) -/
def Elem.deliver (x : Elem) (fmt : Nat) : FRes :=
  let x : Elem := if x.pinf && x.minf then { x with nan := true } else x
  if fmt = 2 then
    if x.nan then (0, flInvalid)
    else if x.pinf then (2 ^ 31 - 1, flSaturated)
    else if x.minf then (2 ^ 31, flSaturated)
    else
      let r := if 0 ≤ x.e then (x.v.natAbs * 2 ^ x.e.toNat, false) else roundShift (decide (x.v < 0)) x.v.natAbs (-x.e).toNat 0
      let v : Int := if x.v < 0 then -(r.1 : Int) else r.1
      let k := clampTo true 32 v
      (low k.1 32, k.2 ||| (if r.2 then flInexact else 0))
  else
    let f := if fmt = 1 then fmtB16 else fmtF32
    if x.nan then (f.nan, 0)
    else if x.pinf then (f.inf false, 0)
    else if x.minf then (f.inf true, 0)
    else f.rneInt false x.v x.e

/-- A poisoned row delivers a NaN element and sets invalid (R143). -/
def poisonDeliver (fmt : Nat) : FRes := ((Elem.deliver ⟨0, 0, true, false, false⟩ fmt).1, flInvalid)

/-- The EF half of an element and its V field (R124). -/
def Elem.ef (x : Elem) : BitVec 16 :=
  (if x.nan then 1#1 else 0#1) ++ (if x.pinf then 1#1 else 0#1) ++ (if x.minf then 1#1 else 0#1) ++ BitVec.ofInt 13 x.e
def Elem.ofBits (v : W64) (ef : BitVec 16) : Elem :=
  ⟨v.toInt, (ef.extractLsb' 0 13).toInt, ef.getLsbD 15, ef.getLsbD 14, ef.getLsbD 13⟩

end Sys2Proof.Machine
end

