-- ==== Sys2Proof/Machine/Operands.lean ====
section
/-! DEFINITION. How an instruction meets its operands: register fields and ports (04_static_network.md R77 to R82), guards
(11_scalar_control.md R206, R207), in-band configuration and FLIP at a core (R83, R85), the order of the faults found at issue
(10_encoding_assembly.md R189), and the retirement of an instruction. -/

namespace Sys2Proof.Machine

/-- A source field of an instruction: whether the instruction needs a word there to be ready, whether a CTL or a FLIP at its head
acts, whether a word that is not DATA is a token fault, and whether it is popped. Token and streaming instructions leave some of
these out (14_stream_instructions.md R262 to R265). -/
structure Src where
  f : Nat
  need : Bool := true
  ctl : Bool := true
  flip : Bool := true
  tok : Bool := true
  pop : Bool := true
  deriving DecidableEq, Repr

/-- A source field that reads an operand. -/
def rd (f : BitVec 5) : Src := { f := f.toNat }

/-- A source field whose word is taken whatever its tag (R264). -/
def rawRd (f : BitVec 5) : Src := { f := f.toNat, ctl := false, tok := false }

/-- A source field that is only looked at (R264, R265). -/
def lookAt (f : BitVec 5) (need : Bool) : Src :=
  { f := f.toNat, need := need, ctl := false, flip := false, tok := false, pop := false }

/-- The input of a streaming instruction at issue (R262). -/
def streamRd (p : Nat) : Src := { f := p, tok := false, pop := false }

/-- How the body of an instruction ends. -/
inductive Res where
  /-- Completed. -/
  | ok (s : State)
  /-- Completed, and the context goes on at `t`. -/
  | jump (s : State) (t : W64)
  /-- Completed, and the body has said where the context goes on. -/
  | leave (s : State)
  /-- Begun: the context waits (`Ctx.wait`) and the instruction completes later. -/
  | hold (s : State)
  /-- Not begun, and the context waits before it tries again. -/
  | pause (s : State)
  /-- Not ready (R34). -/
  | wait
  /-- Not ready, since an access is held; what that counts is in `s`. -/
  | stall (s : State)
  /-- A precise fault: nothing of the instruction happens (R79). -/
  | trap (c : Trap)
  /-- A trap or breakpoint, delivered with the address after the instruction (15_matrix_system_instructions.md R293). -/
  | raise (c : Trap)

/-! ## Ports of an instruction -/

/-- The ports that the source fields name, one entry per field, in field order (R78). -/
def portsOf (srcs : List Src) : List Nat := (srcs.filter fun x => decide (27 ≤ x.f)).map Src.f

/-- The ports that destination fields name. -/
def outPorts (outs : List (BitVec 5)) : List Nat := (outs.filter fun x => decide (27 ≤ x.toNat)).map BitVec.toNat

/-- The port-ownership fault of R77, sources first. -/
def State.ownFault (s : State) (ins outs : List Nat) : Option Trap :=
  match ins.find? fun p => !s.ownsIn p with
  | some p => some ⟨0x04, 0, BitVec.ofNat 64 p⟩
  | none =>
    match outs.find? fun p => !s.ownsOut p with
    | some p => some ⟨0x04, 0, BitVec.ofNat 64 p⟩
    | none => none

/-- Every source port holds a word for each field that names it (R78). -/
def State.portsFull (s : State) (ins : List Nat) : Bool := ins.all fun p => decide (ins.count p ≤ (s.portIn p).length)

/-- Every destination port has room and no DONE token waiting for its place (R34, R103). -/
def State.portsRoom (s : State) (outs : List Nat) : Bool :=
  outs.all fun p => decide (outs.count p ≤ s.roomAt s.cur.ctx p) && !s.donePending s.cur.ctx false p

/-- The word a source position would take: the j-th of its port, j the number of earlier fields that name it. -/
def State.wordAt (s : State) (srcs : List Src) (i : Nat) : NetWord :=
  match srcs[i]? with
  | none => ⟨0, 0⟩
  | some x => (s.portIn x.f).getD ((portsOf (srcs.take i)).count x.f) ⟨0, 0⟩

/-- The value of a source position: a register of the file the entry names, or the word's data. `vec` lists the positions that are
vector positions (R184). -/
def State.operand (s : State) (srcs : List Src) (vec : Nat → Bool) (i : Nat) : W256 :=
  match srcs[i]? with
  | none => 0
  | some x =>
    if 27 ≤ x.f then (s.wordAt srcs i).data
    else if vec i then s.me.v x.f else (s.me.s x.f).setWidth 256

/-! ## Control registers (R32, R292) -/

/-- The effect of a write to a writable control register: none is the control-value fault. `limit` is the launch record's priority
limit. -/
def Ctx.writeControl (c : Ctx) (n : Nat) (v : W64) (limit : Nat) : Option Ctx :=
  match n with
  | 5 => if vcfgOk v then some { c with vcfg := v } else none
  | 6 => if convOk v then some { c with conv := v } else none
  | 7 => some { c with fstat := v.setWidth 6 }
  | 8 => if v.extractLsb' 0 2 = 0#2 then some { c with trapvec := v.setWidth 16 } else none
  | 9 => some { c with trapip := v.setWidth 16 }
  | 10 => some { c with trapcause := v.setWidth 8 }
  | 11 => some { c with trapaddr := v }
  | 12 => some { c with trapinfo := v }
  | 16 => some { c with hold := v.setWidth 12 }
  | 17 => some { c with prio := BitVec.ofNat 2 (min (v.extractLsb' 0 2).toNat limit) }
  | _ => some c

/-- The matrix priority limit of the launch record of a residency (20_host_launch.md R342 dword 0). -/
def Residency.prioLimit (r : Residency) : Nat := ((r.cand.dwords.getD 0 0).extractLsb' 30 2).toNat

/-- The priority limit of a context. -/
def State.prioLimit (s : State) (k : Nat) : Nat :=
  match (s.ctx k).resid with
  | none => 0
  | some r => match s.findRes r with | none => 0 | some x => x.prioLimit

/-- The control register that a CTL class configures (R83). -/
def ctlRegister (cls : BitVec 8) : Option Nat :=
  if cls = 1#8 then some 6 else if cls = 2#8 then some 5 else if cls = 3#8 then some 16 else none

/-! ## What stands at the head of a port -/

/-- The head of a port is a CTL that acts there: its register and value (R82, R83). (DEDUCED, log 19) -/
def State.ctlAt (s : State) (p : Nat) : Option (Nat × W64) :=
  match s.portIn p with
  | w :: _ =>
    if w.tag = 7#4 ∧ s.ctlOn p = true then
      (ctlRegister (w.data.extractLsb' 0 8)).map fun n => (n, w.data.extractLsb' 64 64)
    else none
  | [] => none

/-- The head of a port is a FLIP whose mask names this core (R82, R85). (DEDUCED, log 19) -/
def State.flipAt (s : State) (p : Nat) : Bool :=
  match s.portIn p with
  | w :: _ => w.tag == 8#4 && w.data.getLsbD (2 + s.cur.q)
  | [] => false

/-- A stray word is counted, saturating, and named by an event (R86; 22_faults_discard.md R375 kind 0x11). (DEDUCED, log 46) -/
def State.countStray (s : State) (t b : Nat) (tag : BitVec 4) : State :=
  let x := s.tile t
  let n := min (x.stray + 1) (2 ^ 32 - 1)
  (s.setTile t { x with stray := n }).tileEvent t (eventWord 0x11 0 0 t 0 b tag.toNat) (BitVec.ofNat 64 n) 0 none

/-- A FLIP acts on the core whose turn it is (R85): none while the shadow is LOADING. -/
def State.flipCore (s : State) (p : Nat) : Option State :=
  let x := s.xbar s.cur.tb
  match x.shadow with
  | .loading => none
  | .empty => some ((s.popPort p).countStray s.cur.t s.cur.b 8)
  | .ready =>
    let s := s.popPort p
    let c := s.me
    some (s.setMe { c with
      code := c.shadowCode, shadowCode := c.code, ip := BitVec.ofNat 16 c.shadowCode.entry, run := .live, mid := false })

/-- Each element once, in first-come order. -/
def uniq (l : List Nat) : List Nat :=
  match l with
  | [] => []
  | x :: r => x :: (uniq r).filter (· != x)

/-- What became of the heads of the ports an instruction reads: it may go on; the turn is used without it; it is not ready; or it
faults. -/
inductive Heads where
  | go (s : State) (applied : Bool)
  | used (s : State)
  | wait
  | trap (s : State) (c : Trap)

/-- One CTL at the head of a port is applied and dropped (R83), then a FLIP there acts (R85). (DEDUCED, log 19) -/
def State.head (s : State) (p : Nat) (ctl : Bool) (applied : Bool) : Heads :=
  let flip (s : State) (applied : Bool) : Heads :=
    if s.flipAt p then
      match s.flipCore p with
      | none => if applied then .used s else .wait
      | some s' => .used s'
    else .go s applied
  match (if ctl then s.ctlAt p else none) with
  | none => flip s applied
  | some (n, v) =>
    match s.me.writeControl n v (s.prioLimit s.cur.ctx) with
    | none => .trap s ⟨0x07, 0, BitVec.ofNat 64 n⟩
    | some c =>
      let s := (s.setMe c).popPort p
      match s.ctlAt p with
      | none => flip s true
      | some _ => .used s

/-- The heads of all the ports an instruction reads, in field order; a pair tells whether a CTL acts there. (DEDUCED, log 19) -/
def State.heads (s : State) (applied : Bool) : List (Nat × Bool) → Heads
  | [] => .go s applied
  | p :: ps =>
    match s.head p.1 p.2 applied with
    | .go s' a => State.heads s' a ps
    | r => r

/-- The ports whose heads may act, each once. -/
def actingPorts (srcs : List Src) : List (Nat × Bool) :=
  (uniq (portsOf (srcs.filter Src.flip))).map fun p => (p, srcs.any fun x => x.f == p && x.ctl)

/-- The first source word that is not DATA raises the token fault (R82). -/
def State.tokenFault (s : State) (srcs : List Src) : Option Trap :=
  let bad := (List.range srcs.length).find? fun i =>
    match srcs[i]? with
    | none => false
    | some x => decide (27 ≤ x.f) && x.tok && (s.wordAt srcs i).tag != 0#4
  match bad with
  | none => none
  | some i =>
    match srcs[i]? with
    | none => none
    | some x => some ⟨0x06, 0, BitVec.ofNat 64 ((s.wordAt srcs i).tag.toNat + x.f * 256)⟩

/-! ## Retirement -/

/-- An instruction of `len` bytes retires. (DEDUCED, log 19) -/
def Ctx.retire (c : Ctx) (len : Nat) : Ctx :=
  { c with instret := c.instret + 1, ip := c.ip + BitVec.ofNat 16 len, walkFail := none, mid := false }

/-- Pop one word from each port of a list. -/
def State.popPorts (s : State) (ps : List Nat) : State := ps.foldl State.popPort s

/-- The ports that an instruction pops when it completes. -/
def popsOf (srcs : List Src) : List Nat := portsOf (srcs.filter Src.pop)

/-- The turn of this core was used. -/
def State.used (s : State) : State := { s with issued := true }

/-- A precise fault of the context whose turn it is (R294): TRAPIP is the IP of the instruction. -/
def State.fault (s : State) (c : Trap) : State := (s.deliver s.cur.ctx c s.me.ip).used

/-- May no answer that the wait is for fault or abandon the instruction? Such an instruction pops its ports when it issues; another pops
them when it completes, since one that faults pops none (R79). (DEDUCED, log 77) -/
def Wait.sure (w : Wait) : Bool :=
  match w with
  | .acks _ _ => true
  | .barr _ _ _ _ => true
  | .sweep _ _ => true
  | .bank _ => true
  | .cdis _ => true
  | .accrd _ => true
  | .mmq _ => true
  | _ => false

/-- An instruction of `len` bytes has begun and its context waits: its ports are popped now, or kept in `heldIns` until it completes
(R79). (DEDUCED, log 77) -/
def State.holds (s : State) (len : Nat) (pops : List Nat) : State :=
  if s.me.wait.sure then
    let s := s.popPorts pops
    s.setMe { s.me with heldLen := len, heldIns := [], mid := false }
  else s.setMe { s.me with heldLen := len, heldIns := pops, mid := false }

/-- What the way the body ends does to the context. An instruction that pauses uses its core's turn, which moves the context counter, and
issues again when it goes on. (DEDUCED, log 19; DESIGN CHOICE, log 78) -/
def State.conclude (s : State) (len : Nat) (pops : List Nat) (applied : Bool) (r : Res) : State :=
  match r with
  | .ok s' => let s' := s'.popPorts pops; (s'.setMe (s'.me.retire len)).used
  | .jump s' t => let s' := s'.popPorts pops; (s'.setMe { s'.me.retire len with ip := t.setWidth 16 }).used
  | .leave s' => let s' := s'.popPorts pops; (s'.setMe { s'.me with instret := s'.me.instret + 1, walkFail := none, mid := false }).used
  | .hold s' => (s'.holds len pops).used
  | .pause s' => (s'.setMe { s'.me with mid := true }).used
  | .wait => if applied then s.used else s
  | .stall s' => if applied then s'.used else s'
  | .trap c => s.fault c
  | .raise c => let s' := s.popPorts pops; (s'.deliver s'.cur.ctx c (s'.me.ip + BitVec.ofNat 16 len)).used

/-- Issue an instruction of `len` bytes with its source fields, which of them are vector positions, its destination fields, its width
check, and its body over the operand values (R189, R206, R207). A state in which the instruction is not ready stays as it is. (DEDUCED, log 19) -/
def State.issue (s : State) (len : Nat) (srcs : List Src) (vec : Nat → Bool) (outs : List (BitVec 5)) (width : Ctx → Bool)
    (body : (Nat → W256) → State → Res) : State :=
  let ins := portsOf srcs
  let os := outPorts outs
  match s.ownFault ins os with
  | some c => s.fault c
  | none =>
    let needs := portsOf (srcs.filter Src.need)
    if s.portsFull needs = false ∨ s.portsRoom os = false then s
    else if s.me.p s.guard.toNat = false then (s.setMe (s.me.retire len)).used
    else
      match s.heads false (actingPorts srcs) with
      | .wait => s
      | .used s' => s'.used
      | .trap s' c => s'.fault c
      | .go s' applied =>
        if s'.portsFull needs = false then (if applied then s'.used else s')
        else if width s'.me then s'.fault ⟨0x05, 0, 0⟩
        else
          match s'.tokenFault srcs with
          | some c => s'.fault c
          | none => s'.conclude len (popsOf srcs) applied (body (s'.operand srcs vec) s')

/-- An instruction that pushes to a queue: with a false guard it still waits for a DONE token of its context that waits for its entry
there (R207, R103; 12_memory_instructions.md R235). (DEDUCED, log 19) -/
def State.forQueue (s : State) (q : Nat) (srcs : List Src) (outs : List (BitVec 5)) (go : State) : State :=
  if s.me.p s.guard.toNat = false ∧ s.donePending s.cur.ctx true q = true ∧ s.ownFault (portsOf srcs) (outPorts outs) = none then s else go

/-- An instruction without a width check whose register fields are all scalar. -/
def State.issueS (s : State) (len : Nat) (srcs : List Src) (outs : List (BitVec 5)) (body : (Nat → W64) → State → Res) : State :=
  s.issue len srcs (fun _ => false) outs (fun _ => false) fun x s => body (fun i => (x i).setWidth 64) s

/-! ## Results -/

/-- Write a scalar destination: s0 discards, a port takes the value zero-extended with tag DATA (R78, R205). -/
def State.put (s : State) (d : BitVec 5) (v : W64) : State :=
  if 27 ≤ d.toNat then s.pushPort d.toNat ⟨v.setWidth 256, 0⟩ else s.setMe (s.me.setS d.toNat v)

/-- Write a vector destination (R78, R184). -/
def State.putV (s : State) (d : BitVec 5) (v : W256) : State :=
  if 27 ≤ d.toNat then s.pushPort d.toNat ⟨v, 0⟩ else s.setMe (s.me.setV d.toNat v)

/-- Write to a destination of another context (a completion). -/
def State.withCur (s : State) (k : Nat) (f : State → State) : State :=
  let c := s.cur
  let s' := f { s with cur := placeOf k }
  { s' with cur := c }

/-- OR flags into FSTAT of the context whose turn it is (R115). -/
def State.flags (s : State) (f : BitVec 6) : State := s.setMe (s.me.orFlags f)

/-- A waiting instruction of the context whose turn it is completes: its ports are popped and it retires. -/
def State.complete (s : State) : State :=
  let s := s.popPorts s.me.heldIns
  s.setMe { s.me.retire s.me.heldLen with wait := .none, heldIns := [], heldLen := 0 }

/-- A waiting instruction faults (R223, R238): it has no effect. -/
def State.failHeld (s : State) (c : Trap) : State :=
  let s := s.setMe { s.me with wait := .none, heldIns := [], heldLen := 0 }
  s.deliver s.cur.ctx c s.me.ip

/-- The illegal-instruction fault, with the words of the instruction (R188). -/
def State.illegal (s : State) : Trap := ⟨0x01, 0, s.word.extractLsb' 0 64⟩

end Sys2Proof.Machine
end

