-- ==== Sys2Proof/Machine/Almanac.lean ====
section
/-! DEFINITION. The Almanac of retired objects and its two copies in flash (24_fleet_operation.md R393 to R395), and the management events
of 23_management.md R388. -/

namespace Sys2Proof.Machine

/-- Tile-clock cycles of a millisecond, a second and an hour: the tile clock runs at 1.25 GHz (01_topology.md R23). -/
def cyclesPerMs : Nat := 1250000
def cyclesPerHour : Nat := 4500000000000

/-- A management event (23_management.md R388): kind, kind-specific byte, fields, and dwords 1 and 2. -/
def State.mgmtEvent (s : State) (kind b low : Nat) (d1 d2 : W64) : State :=
  s.post ⟨0, BitVec.ofNat 8 kind ++ BitVec.ofNat 8 b ++ 0#16 ++ BitVec.ofNat 32 low, d1, d2⟩

/-- Power-on hours now. -/
def State.hoursNow (s : State) : Nat := s.mgmt.hours.toNat + s.cycle / cyclesPerHour

/-- The fields of a record (R393). -/
def recKind (r : W256) : Nat := (r.extractLsb' 248 8).toNat
def recSeq (r : W256) : Nat := (r.extractLsb' 208 32).toNat
def recObject (r : W256) : BitVec 48 := r.extractLsb' 128 48
def recChain (r : W256) : W64 := r.extractLsb' 0 64

/-- The bytes of a record in flash, little-endian. -/
def recBytes (r : W256) : List (BitVec 8) := (List.range 32).map fun i => r.extractLsb' (8 * i) 8

/-- The chain that a record carries after the records of a list: of the last one's bytes, or of 32 zero bytes (R393). -/
def chainAfter (l : List W256) : W64 :=
  (Config.shake256 (recBytes (l.getLast?.getD 0))).extractLsb' 0 64

/-- A new record after those of a list. -/
def newRecord (l : List W256) (hours kind cause : Nat) (obj : BitVec 48) : W256 :=
  BitVec.ofNat 8 kind ++ BitVec.ofNat 8 cause ++ BitVec.ofNat 32 l.length ++ BitVec.ofNat 32 hours ++ obj ++ 0#64 ++ chainAfter l

/-- The longest prefix of a copy in which every sequence number and chain is correct (R395). -/
def validPrefix (good : List W256) : List W256 → List W256
  | [] => good
  | r :: l => if recSeq r = good.length ∧ recChain r = chainAfter good then validPrefix (good ++ [r]) l else good

/-- A retired object, with its kind. -/
def objectKey (kind : Nat) (obj : BitVec 48) : BitVec 64 := BitVec.ofNat 8 kind ++ 0#8 ++ obj

/-- The objects that are retired: those of copy A, and those that a full copy could not keep (R395). -/
def Mgmt.retired (m : Mgmt) : List (BitVec 64) := (m.almA.map fun r => objectKey (recKind r) (recObject r)) ++ m.extra

/-- The root stage appends a record to copy A, then to copy B, unless its object is already retired; a full copy keeps none (R395). -/
def State.almanacAppend (s : State) (kind cause : Nat) (obj : BitVec 48) : State :=
  let m := s.mgmt
  if m.retired.contains (objectKey kind obj) then s
  else if 4096 ≤ m.almA.length then
    ({ s with mgmt := { m with extra := m.extra ++ [objectKey kind obj] } }).mgmtEvent 0x38 2 0
      (BitVec.ofNat 64 m.almA.length) (BitVec.ofNat 64 s.hoursNow)
  else
    let r := newRecord m.almA s.hoursNow kind cause obj
    let s := { s with mgmt := { m with almA := m.almA ++ [r], almB := m.almB ++ [r] } }
    if s.mgmt.almA.length = 3840 then
      s.mgmtEvent 0x38 1 0 (BitVec.ofNat 64 3840) (BitVec.ofNat 64 s.hoursNow)
    else s

end Sys2Proof.Machine
end

