-- ==== Sys2Proof/Machine/Rows.lean ====
section
/-! DEFINITION. The rows of DRAM and the check of its data (21_memory_subsystem.md R363, R366, R367, R369, R370): what an access to a
physical address does beside reading or writing its bytes. -/

namespace Sys2Proof.Machine

/-- The memory port that serves a DRAM physical address; an address that no region maps is answered by port 0 (R363). (DEDUCED, log 47) -/
def State.portFor (s : State) (pa : Nat) : Nat := portOf ((s.coordOf pa).getD 0)

/-- An event of the memory (R371): dword 1 and the port. (DEDUCED, log 52) -/
def State.memEvent (s : State) (kind : Nat) (d1 : W64) (port : Nat) : State :=
  s.post ⟨0, eventWord kind 0 0 0 0 0 0, d1, BitVec.ofNat 64 port⟩

/-! ## Rows (R369, R370). A bank is named by the upper 14 bits of a coordinate, a row by the upper 29. -/

def bankOf (c : Nat) : Nat := c / 2 ^ 21
def rowNumber (c : Nat) : Nat := c / 64 % 2 ^ 15

/-- The rows that a mitigation of a row refreshes. -/
def neighbours (r radius : Nat) : List Nat :=
  (List.range (2 * radius + 1)).filterMap fun i =>
    if r + i < radius ∨ i = radius ∨ 2 ^ 15 ≤ r + i - radius then none else some (r + i - radius)

/-- The bank closes its open row: the row's activation counter rises, and at a threshold the port acts (R370). A retraining of the channel
counts from the end of the mitigation, which is completed first (R372). (DEDUCED, log 11; DEDUCED, log 52) -/
def State.closeRow (s : State) (bk : Nat) : State :=
  let o := s.openRows.get {} bk
  match o.row with
  | none => s
  | some r =>
    let port := bk / 128
    let y := s.port port
    let key := bk * 2 ^ 15 + r
    let at_ := BitVec.ofNat 64 o.pa
    let bad := s.rowBad.contains key
    let s := if bad then s.memEvent 0x22 at_ port else s
    let old := s.rows.get 0 key
    let v := if bad then 0xFFFF else if old ≠ 0xFFFF then old + 1 else old
    let put (s : State) (v blocked : Nat) : State :=
      { s with
        rows := s.rows.set key v, rowBad := s.rowBad.filter (· != key)
        openRows := s.openRows.set bk { o with row := none, blocked := max o.blocked blocked }
        channels := s.channels.map fun e =>
          if e.1 = bk / 32 then (e.1, { e.2 with training := e.2.training.map fun b => max b blocked }) else e }
    if y.mit ≤ v then
      (put s 0 (s.cycle + 240 * (neighbours r y.radius).length)).memEvent 0x21 at_ port
    else if v = y.mgmt then (put s v 0).memEvent 0x20 at_ port
    else put s v 0

/-- A request of a physical address reaches its row: another row of the bank closes first, and if the bank is then free the row is
open. (DEDUCED, log 11) -/
def State.openRow (s : State) (c pa : Nat) : State :=
  let bk := bankOf c
  let o := s.openRows.get {} bk
  let s := if o.row.isSome ∧ o.row ≠ some (rowNumber c) then s.closeRow bk else s
  let o := s.openRows.get {} bk
  if s.cycle < o.blocked then s
  else
    { s with openRows := s.openRows.set bk { o with
        row := some (rowNumber c), used := s.cycle, pa := if o.row.isSome then o.pa else pa / 32 * 32 } }

/-! ## The check of DRAM data (R363, R366, R367) -/

/-- The coordinate that serves a DRAM physical address: none is a decode miss. -/
def State.dramCoord (s : State) (pa : Nat) : Option Nat :=
  (s.coordOf pa).filter fun c => !s.conf.channels.contains (channelOf c)

/-- A decode miss (R363). (DEDUCED, log 47) -/
def State.decodeMiss (s : State) (pa : Nat) : State := s.memEvent 0x26 (BitVec.ofNat 64 pa) (s.portFor pa)

/-- The errors in the symbols of a sector end: it is written whole, or corrected. -/
def State.cleanSector (s : State) (c : Nat) : State := { s with symbolErrors := s.symbolErrors.erase c }

/-- A correctable error of a sector is corrected and written back, counted, and named once an hour (R367). (DESIGN CHOICE, log 33) -/
def State.correct (s : State) (c pa : Nat) : State :=
  if s.sectorSoft c then
    let p := portOf c
    let y := s.port p
    let s := (s.setPort p { y with corrected := y.corrected + 1 }).cleanSector c
    match s.softPosted.find? fun e => e.1 == c with
    | some e =>
      if s.cycle < e.2 + cyclesPerHour then s
      else ({ s with softPosted := s.softPosted.set c s.cycle }).memEvent 0x24 (BitVec.ofNat 64 pa) p
    | none => ({ s with softPosted := s.softPosted.set c s.cycle }).memEvent 0x24 (BitVec.ofNat 64 pa) p
  else s

/-- Check a sector that is read: false is uncorrectable. (DESIGN CHOICE, log 33) -/
def State.checkSector (s : State) (c pa : Nat) : Bool × State :=
  if s.sectorBad c then (false, s.memEvent 0x25 (BitVec.ofNat 64 pa) (portOf c)) else (true, s.correct c pa)

/-- How an access meets the check of a sector: it reads it, writes all of it, or writes a part, which the port does as a read, a change
and a write (R366). -/
inductive Touch where
  | read
  | whole
  | part
  deriving DecidableEq, Repr

/-- What a write of some bytes of a sector is. -/
def touchOf (mask : BitVec 32) : Touch := if mask = BitVec.allOnes 32 then .whole else .part

/-- The check that an access makes of its sector (R366, R367): a write of a part reads the sector, and stores an uncorrectable one with a poison
pattern. (DESIGN CHOICE, log 33) -/
def State.checkTouch (s : State) (c pa : Nat) (u : Touch) : State :=
  match u with
  | .read => (s.checkSector c pa).2
  | .whole => s.cleanSector c
  | .part =>
    match s.checkSector c pa with
    | (true, s) => s
    | (false, s) => { s.cleanSector c with badSectors := if s.badSectors.contains c then s.badSectors else s.badSectors ++ [c] }

/-! ## An access at its row (R363, R365, R370, R372) -/

/-- Does the channel of a coordinate retrain, or wait to? Is its bank blocked by a mitigation? (DEDUCED, log 11) -/
def State.trainingAt (s : State) (c : Nat) : Bool := (s.channels.get {} (channelOf c)).training.isSome
def State.blockedAt (s : State) (c : Nat) : Bool := decide (s.cycle < (s.openRows.get {} (bankOf c)).blocked)

/-- Is an access to a physical address held now? -/
def State.heldAt (s : State) (pa : Nat) : Bool :=
  decide (pa < 2 ^ 40) && (s.dramCoord pa).any fun c => s.trainingAt c || s.blockedAt c

/-- An access that is held is counted for its cycle at its port (R365, R370). -/
def State.countStall (s : State) (c : Nat) : State :=
  let y := s.port (portOf c)
  s.setPort (portOf c) { y with
    mitStall := y.mitStall + (if s.blockedAt c then 1 else 0), trainStall := y.trainStall + (if s.trainingAt c then 1 else 0) }

/-- An access to a physical address comes to its row: false while it is held there, by a retraining, or by a mitigation that its own change of
the row may have begun. Host memory has no rows, and a decode miss is named (R363, R365, R370). (DEDUCED, log 11; DEDUCED, log 47) -/
def State.arrive (s : State) (pa : Nat) : Bool × State :=
  if 2 ^ 40 ≤ pa then (true, s)
  else
    match s.dramCoord pa with
    | none => (true, s.decodeMiss pa)
    | some c =>
      if s.trainingAt c || s.blockedAt c then (false, s.countStall c)
      else
        let u := s.openRow c pa
        if u.blockedAt c then (false, u.countStall c) else (true, u)

/-- What an access to a physical address does beside its bytes: it comes to its row, and what is read is checked (R363, R367, R370); false while
it is held. (DEDUCED, log 11) -/
def State.visit (s : State) (pa : Nat) (u : Touch) : Bool × State :=
  match s.arrive pa with
  | (false, s) => (false, s)
  | (true, s) =>
    match (s.dramCoord pa).filter fun _ => decide (pa < 2 ^ 40) with
    | none => (true, s)
    | some c => (true, s.checkTouch c pa u)

end Sys2Proof.Machine
end

