-- ==== Sys2Proof/Machine/Access.lean ====
section
/-! DEFINITION. Memory accesses of a context (12_memory_instructions.md R223, R224): the checks, the sectors of an access, where each
sector is (05_consistency.md R93), the tile cache (03_memory_spaces.md R64 to R67), requests on the dynamic network, queues (R68 to
R70), and what waits for writes to be performed (R99 to R104). -/

namespace Sys2Proof.Machine

/-! ## Checks and sectors -/

/-- The checks of R223, in order, for `n` bytes at an address that must be a multiple of `al`: none, or the fault. -/
def State.checkAccess (s : State) (c : Ctx) (t : Nat) (a : W64) (n al : Nat) : Option Trap :=
  let g := winOf a = some .global
  match s.checkWindow c t a (if g then 1 else n) with
  | some x => some x
  | none =>
    let banks :=
      match winOf a with
      | some .global => none
      | some .fabric => none
      | none => none
      | some w => let p := sramPlace c t w a; s.checkBanks (c.resid.getD 0) p.1 p.2 n a
    match banks with
    | some x => some x
    | none =>
      if a.toNat % al ≠ 0 then some ⟨0x18, a, 0⟩
      else if g ∧ 2 ^ 56 < a.toNat + n then some ⟨0x10, a, 0⟩ else none

/-- Has a bank that `n` bytes of an SRAM window touch, from the context whose turn it is, accepted a change? The access waits until it has
taken effect and is judged by the new mode (03_memory_spaces.md R63). -/
def State.changing (s : State) (a : W64) (n : Nat) : Bool :=
  match winOf a with
  | none => false
  | some .global => false
  | some .fabric => false
  | some w =>
    let p := sramPlace s.me s.cur.t w a
    (s.checkWindow s.me s.cur.t a n).isNone && (s.banksOf p.1 p.2 n).any fun b => (s.bank p.1 b).pending != []

/-- One sector's part of an access: address, place in the access, bytes. -/
structure Part where
  addr : W64
  off : Nat
  n : Nat
  deriving DecidableEq, Repr

/-- The sectors that `n` bytes from an address on touch, ascending (R94). -/
def partsFrom (a : W64) (off : Nat) : Nat → Nat → List Part
  | 0, _ => []
  | fuel + 1, n =>
    if n = 0 then []
    else
      let m := min n (32 - a.toNat % 32)
      ⟨a, off, m⟩ :: partsFrom (a + BitVec.ofNat 64 m) (off + m) fuel (n - m)

def parts (a : W64) (n : Nat) : List Part := partsFrom a 0 (n / 32 + 2) n

/-- Where a part is. -/
inductive Home where
  | sram (key : Nat)
  | fabric (t : Nat)
  | mem (pa : Nat)
  deriving DecidableEq, Repr

/-- What the search for a part's home gives. -/
inductive Found where
  | home (h : Home)
  | wait
  | walk (va : W64)
  | fail (c : Trap)

/-- Is a transaction a fabric store to a sector of a tile that is not acknowledged? -/
def Txn.fabricAt (x : Txn) (t off : Nat) : Bool :=
  x.write && x.target == .fabric && (x.addr.extractLsb' 44 12).toNat == t && (x.addr.extractLsb' 0 17).toNat / 32 == off / 32

/-- Is a posted fabric store to a sector of a tile under way that an access to it through another window must follow (R96): one of the
context, or any of the tile's own, which a trigger's DATA word may cover (R101)? (DEDUCED, log 75) -/
def State.fabricPending (s : State) (k t off : Nat) : Bool :=
  ((s.tile (placeOf k).t).txns.any fun x => x.owner == .ctx k && x.fabricAt t off) || (s.tile t).txns.any fun x => x.fabricAt t off

/-! ## Translation (21_memory_subsystem.md R355 to R358) -/

/-- Do two walks stand for one page: the same tables, the same smallest page (R358)? (DEDUCED, log 28) -/
def Walk.same (v w : Walk) : Bool :=
  v.die == w.die && v.asid == w.asid && v.root == w.root && v.va.toNat / 2 ^ 16 == w.va.toNat / 2 ^ 16

/-- The pages of a list of walks, each once, by its oldest walk. -/
def walkPages (l : List Walk) : List Walk := l.foldl (fun acc w => if acc.any fun v => v.same w then acc else acc ++ [w]) []

/-- A walk of a tile and residency for an address. -/
def State.walkFor (s : State) (t r k : Nat) (va : W64) (wr : Bool) (u : WalkUse) : Walk :=
  let root := s.rootOf r
  { die := dieOf t, tile := t, key := k, asid := root.1, root := root.2, va := va, wr := wr, use_ := u }

/-- Can the miss queue of a tile's die take a page: it merges with one of its own, or the queue holds fewer than 256 (R358)? -/
def State.walkRoom (s : State) (t r : Nat) (va : W64) : Bool :=
  let l := s.walks.filter fun w => w.die == dieOf t
  l.any (fun v => v.same (s.walkFor t r 0 va false .access)) || decide ((walkPages l).length < 256)

/-- Entries of a TLB of a level that compete for a place, and the sets they are in: a tile's is fully associative with 32, a cluster's has
64 sets of 8, a die's 512 sets of 8 (R358). (DEDUCED, log 28) -/
def tlbWays (level : Nat) : Nat := if level = 1 then 32 else 8
def tlbSets (level : Nat) : Nat := if level = 1 then 1 else if level = 2 then 64 else 512

/-- Install a translation in a TLB of a level: the oldest entry of its set leaves a full one. (DEDUCED, log 28) -/
def State.tlbPut (s : State) (level scope asid root va : Nat) (x : Nat × Nat × Bool) : State :=
  let e : TlbEntry := { level := level, scope := scope, asid := asid, root := root, size := x.2.1, vpn := va / 2 ^ x.2.1, frame := x.1, wr := x.2.2 }
  let mine (y : TlbEntry) : Bool := y.level == level && y.scope == scope && y.vpn % tlbSets level == e.vpn % tlbSets level
  let l := s.tlbs.filter fun y => !(mine y && y.asid == e.asid && y.size == e.size && y.vpn == e.vpn)
  let l := if tlbWays level ≤ (l.filter mine).length then l.eraseP mine else l
  { s with tlbs := l ++ [e] }

/-- Install a translation for a tile, its cluster and its die. -/
def State.tlbFill (s : State) (t : Nat) (root : Nat × Nat) (va : Nat) (x : Nat × Nat × Bool) : State :=
  ((s.tlbPut 3 (dieOf t) root.1 root.2 va x).tlbPut 2 (clusterOf t) root.1 root.2 va x).tlbPut 1 t root.1 root.2 va x

/-- What a walker has come to: a translation or none, or an entry of a level's table that is held (R365, R370). -/
inductive Walked where
  | ended (x : Option (Nat × Nat × Bool))
  | held (level table : Nat)

/-- A walker reads entries at their home from a level on, until one ends the walk or is held (R355 to R358). (DEDUCED, log 11) -/
def State.walkOn (s : State) (va : Nat) : Nat → Nat → Nat → Walked × State
  | 0, _, _ => (.ended none, s)
  | fuel + 1, level, table =>
    match s.visit (table + 8 * vaIndex level va) .read with
    | (false, s) => (.held level table, s)
    | (true, s) =>
      match s.readPte (table + 8 * vaIndex level va) with
      | none => (.ended none, s)
      | some e =>
        match readEntry level e with
        | .fail => (.ended none, s)
        | .leaf f w => (.ended (some (f, pageBits level, w)), s)
        | .next tb => State.walkOn s va fuel (level + 1) tb

/-- What an engine's translation gives: a physical address, a failure, or nothing yet. -/
inductive Sought where
  | at_ (pa : Nat)
  | fail
  | wait

/-- How long the failure of an engine's walk waits for the engine. (DESIGN CHOICE, log 92) -/
def failCycles : Nat := 1024

/-- Is a walk of an engine another's of the same kind: the same page and kind of access of one tile? -/
def Walk.again (v w : Walk) : Bool := v.same w && v.tile == w.tile && v.wr == w.wr && v.use_ == w.use_

/-- An engine of a tile translates a virtual address of a residency: by the tile's TLBs, else by a walk that joins the die's miss queue, whose
failure it learns once (R358). (DEDUCED, log 27) -/
def State.seek (s : State) (t r : Nat) (va : W64) (wr : Bool) : Sought × State :=
  let w := s.walkFor t r 0 va wr .engine
  let x := s.tile t
  match s.tlbFind t w.asid va.toNat wr with
  | some e => (.at_ (e.frame + va.toNat % 2 ^ e.size), s)
  | none =>
    if x.walkFails.any fun f => f.1.again w && decide (s.cycle < f.2 + failCycles) then
      (.fail, s.setTile t { x with walkFails := x.walkFails.filter fun f => !f.1.again w })
    else if (s.walks.any fun v => v.again w) ∨ s.walkRoom t r va = false then (.wait, s)
    else (.wait, { s with walks := s.walks ++ [w] })

/-- The sectors, by physical address, that an `stq` to this device writes, as the tables now map them. -/
def State.stqSectors (s : State) (x : Txn) : List Nat :=
  (List.range x.n).filterMap fun j =>
    let va := x.addr.toNat + 32 * j
    (s.walk (s.rootOf x.resid).2 va true).map fun y => y.1 + va % 2 ^ y.2.1

/-- Does an unanswered `stq` of a context to this device write the sector of a physical address? A later access of the context waits for
it (R96). (DEDUCED, log 75) -/
def State.stqPending (s : State) (k pa : Nat) : Bool :=
  (s.tile (placeOf k).t).txns.any fun x =>
    x.stq && x.owner == .ctx k && x.target == .device && (s.stqSectors x).any fun p => p / 32 == pa / 32

/-- Has a CACHE bank of a residency on a tile accepted a change? An access through the tile cache waits until it has taken effect
(03_memory_spaces.md R63). -/
def State.cacheChanging (s : State) (t r : Nat) : Bool :=
  (List.range 8).any fun n => (s.bank t n).mode == .cache && s.ownsBank r t n && (s.bank t n).pending != []

/-- The home of a part of an access of the context whose turn it is. (DEDUCED, log 75) -/
def State.findHome (s : State) (a : W64) (wr : Bool) : Found :=
  let c := s.me
  let t := s.cur.t
  match winOf a with
  | none => .fail ⟨0x10, a, 0⟩
  | some .fabric => .home (.fabric (a.extractLsb' 44 12).toNat)
  | some .global =>
    match s.tlbFind t (s.rootOf (c.resid.getD 0)).1 a.toNat wr with
    | some e =>
      let pa := e.frame + a.toNat % 2 ^ e.size
      if s.stqPending s.cur.ctx pa ∨ s.cacheChanging t (c.resid.getD 0) = true then .wait else .home (.mem pa)
    | none =>
      if c.walkFail = some a then .fail ⟨0x19, a, 0⟩
      else if s.walkRoom t (c.resid.getD 0) a then .walk a else .wait
  | some w =>
    let p := sramPlace c t w a
    let h := scratchHome (s.tile p.1) p.2
    if (s.bank p.1 h.1).pending ≠ [] ∨ s.fabricPending s.cur.ctx p.1 p.2 = true then .wait
    else .home (.sram (sramKey p.1 h.1 h.2))

/-- The homes of all parts, or the first part that fails its own check or has none. -/
inductive Homes where
  | all (l : List (Part × Home))
  | wait
  | walk (va : W64)
  | fail (c : Trap)

/-- The homes of the parts of an access, lowest first: the first that fails or must walk decides (R223). (DEDUCED, log 49) -/
def State.findHomes (s : State) (chk : Part → Option Trap) (wr : Bool) : List Part → Homes
  | [] => .all []
  | p :: ps =>
    if s.changing p.addr p.n then .wait
    else
      match chk p with
      | some c => .fail c
      | none =>
        match s.findHome p.addr wr with
        | .wait => .wait
        | .walk va => .walk va
        | .fail c => .fail c
        | .home h =>
          match s.findHomes chk wr ps with
          | .all l => .all ((p, h) :: l)
          | r => r

/-- The context joins the miss queue of its die and waits for the walk (R358). -/
def State.startWalk (s : State) (va : W64) (wr : Bool) : State :=
  { s.setMe { s.me with wait := .walk va wr } with
    walks := s.walks ++ [s.walkFor s.cur.t (s.me.resid.getD 0) s.cur.ctx va wr .access] }

/-! ## Sectors at their homes -/

/-- Does a home key name SRAM, whose code covers 64 bits each (21_memory_subsystem.md R368), and no DRAM? -/
def isSram (key : Nat) : Bool := decide (sramBase ≤ key)

/-- Are bytes of a mask of the sector of a home key uncorrectable (R367, R368)? (DESIGN CHOICE, log 33) -/
def State.badMask (s : State) (key : Nat) (mask : BitVec 32) : Bool :=
  if isSram key then s.badWords.any fun w => w / 4 == key / 32 && mask.extractLsb' (8 * (w % 4)) 8 != 0
  else s.sectorBad (key / 32)

/-- Is one of `n` bytes of memory from a home key on, within a sector, uncorrectable (R367, R368)? (DESIGN CHOICE, log 33) -/
def State.badAt (s : State) (key n : Nat) : Bool :=
  if isSram key then s.badWords.any fun w => decide (key / 8 ≤ w) && decide (w ≤ (key + n - 1) / 8)
  else s.sectorBad (key / 32)

/-- The SRAM words of a sector that a masked write replaces whole: their errors are gone. -/
def replaced (key : Nat) (mask : BitVec 32) (w : Nat) : Bool :=
  w / 4 == key / 32 && mask.extractLsb' (8 * (w % 4)) 8 == BitVec.allOnes 8

/-- Write some bytes of a sector at its home; a whole sector of DRAM clears its poison (R367), a whole word of SRAM its error. `data` holds
byte j of the sector at byte j. -/
def State.writeSector (s : State) (key : Nat) (mask : BitVec 32) (data : W256) : State :=
  { s with
    mem := Memory.writeMask s.mem (key / 32 * 32) mask data
    badSectors := if mask = BitVec.allOnes 32 then s.badSectors.filter (· != key / 32) else s.badSectors
    badWords := s.badWords.filter fun w => !replaced key mask w }

/-- The bytes of a mask of a sector become uncorrectable (R367, R368), which is no error of their SRAM (24_fleet_operation.md R402). -/
def State.spoilSector (s : State) (key : Nat) (mask : BitVec 32) : State :=
  if isSram key then
    let l := ((List.range 4).filter fun i => mask.extractLsb' (8 * i) 8 != 0).map fun i => key / 32 * 4 + i
    { s with badWords := s.badWords ++ l, mgmt := { s.mgmt with marksSeen := s.mgmt.marksSeen ++ l.map fun w => (sramTile (8 * w), w) } }
  else { s with badSectors := s.badSectors ++ [key / 32] }

/-- Write some bytes of a sector; data that have an uncorrectable error make them uncorrectable (22_faults_discard.md R380). -/
def State.writeOrSpoil (s : State) (key : Nat) (mask : BitVec 32) (data : W256) (bad : Bool) : State :=
  if bad then (s.writeSector key mask data).spoilSector key mask else s.writeSector key mask data

/-- Clear `n` bytes of whole sectors from a key on, with their errors. -/
def State.wipe (s : State) (key n : Nat) : State :=
  { s with
    mem := Memory.clear s.mem key n
    badSectors := s.badSectors.filter fun c => !(decide (key / 32 ≤ c) && decide (c < (key + n) / 32))
    badWords := s.badWords.filter fun w => !(decide (key / 8 ≤ w) && decide (w < (key + n) / 8)) }

/-- The 32 bytes of a sector. -/
def State.readSector (s : State) (key : Nat) : W256 := BitVec.ofNat 256 (Memory.readN s.mem (key / 32 * 32) 32)

/-- Mask of `n` bytes from a byte of a sector on, and a value moved there. -/
def byteMask (o n : Nat) : BitVec 32 := BitVec.ofNat 32 ((2 ^ n - 1) * 2 ^ o)
def placed (v o : Nat) : W256 := BitVec.ofNat 256 (v * 2 ^ (8 * o))

/-- `n` bytes of a sector from byte `o` on. -/
def cutSector (d : W256) (o n : Nat) : Nat := d.toNat / 2 ^ (8 * o) % 2 ^ (8 * n)

/-- Does a physical address lie in the configuration descriptor, where every write is dropped (24_fleet_operation.md R401)? -/
def State.inDescriptor (s : State) (pa : Nat) : Bool :=
  s.booted && decide (s.conf.addr ≤ pa) && decide (pa < s.conf.addr + 2 ^ 14)

/-! ## Atomics (R230, R231) -/

/-- The new value of an atomic on 64 bits. -/
def atomicNew (op : Nat) (old b : W64) : W64 :=
  if op = 0 then b
  else if op = 1 then old + b
  else if op = 2 then old &&& b
  else if op = 3 then old ||| b
  else if op = 4 then old ^^^ b
  else if op = 5 then (if old.slt b then b else old)
  else if op = 6 then (if b.slt old then b else old)
  else if old.ult b then b else old

/-- The code of an atomic in a request: operation, compare-and-swap, word width. -/
structure AOp where
  op : Nat
  cas : Bool
  word : Bool
  deriving DecidableEq, Repr

def AOp.bits (a : AOp) : BitVec 32 := BitVec.ofNat 32 (a.op + (if a.cas then 8 else 0) + (if a.word then 16 else 0))
def AOp.ofBits (b : BitVec 32) : AOp := ⟨(b.extractLsb' 0 3).toNat, b.getLsbD 3, b.getLsbD 4⟩

/-- Perform an atomic at a home key: one read and write, or a read where a comparison fails (R105). Old value and state. -/
def State.atomicAt (s : State) (key : Nat) (a : AOp) (b e : W64) : W64 × State :=
  let n := if a.word then 4 else 8
  let old := BitVec.ofNat 64 (Memory.readN s.mem key n)
  let lowBits (x : W64) : W64 := if a.word then x &&& 0xFFFFFFFF#64 else x
  if a.cas then
    if old = lowBits e then (old, { s with mem := Memory.writeN s.mem key n (lowBits b).toNat }) else (old, s)
  else (old, { s with mem := Memory.writeN s.mem key n (atomicNew a.op old b).toNat })

/-! ## The tile cache (R64 to R67) -/

/-- The ways of a residency's cache on a tile: its CACHE banks. -/
def State.ways (s : State) (t r : Nat) : List Nat :=
  (List.range 8).filter fun n => (s.bank t n).mode == .cache && s.ownsBank r t n

def setOf (pa : Nat) : Nat := pa / 128 % 128
def tagOf (pa : Nat) : Nat := pa / 2 ^ 14
def secOf (pa : Nat) : Nat := pa / 32 % 4
def lineKey (way pa : Nat) : Nat := way * 128 + setOf pa

/-- The home key of a sector of a way. -/
def cacheKey (t way pa : Nat) : Nat := sramKey t way (setOf pa * 128 + secOf pa * 32)

/-- The way that holds the line of an address with any sector. (DEDUCED, log 63) -/
def State.wayOf (s : State) (t r pa : Nat) : Option Nat :=
  (s.ways t r).find? fun w =>
    let l := (s.tile t).cache.get {} (lineKey w pa)
    l.tag == tagOf pa && decide (0 < l.used)

/-- The way that holds the sector valid. -/
def State.hit (s : State) (t r pa : Nat) : Option Nat :=
  match s.wayOf t r pa with
  | none => none
  | some w => if ((s.tile t).cache.get {} (lineKey w pa)).valid.getLsbD (secOf pa) then some w else none

def State.setLine (s : State) (t k : Nat) (l : Line) : State :=
  s.setTile t { s.tile t with cache := (s.tile t).cache.set k l }

/-- A use of a line (replacement is least recently used, R65). (DEDUCED, log 63) -/
def State.touch (s : State) (t way pa : Nat) : State :=
  let k := lineKey way pa
  s.setLine t k { (s.tile t).cache.get {} k with used := s.cycle + 1 }

/-- Allocate the line of an address if absent, in the way used least recently (R65); nothing without a cache. (DEDUCED, log 63) -/
def State.allocate (s : State) (t r pa : Nat) : State :=
  match s.wayOf t r pa with
  | some w => s.touch t w pa
  | none =>
    match s.ways t r with
    | [] => s
    | w0 :: ws =>
      let age (w : Nat) : Nat := ((s.tile t).cache.get {} (lineKey w pa)).used
      let w := ws.foldl (fun b w => if age w < age b then w else b) w0
      s.setLine t (lineKey w pa) { tag := tagOf pa, valid := 0, used := s.cycle + 1 }

/-- A fill's data reach the cache, if its line is still there (R65). -/
def State.fillSector (s : State) (t r pa : Nat) (d : W256) : State :=
  match s.wayOf t r pa with
  | none => s
  | some w =>
    let k := lineKey w pa
    let l := (s.tile t).cache.get {} k
    (s.setLine t k { l with valid := l.valid ||| BitVec.ofNat 4 (2 ^ secOf pa) }).writeSector (cacheKey t w pa)
      (BitVec.allOnes 32) d

/-- Fills of a sector under way for a residency leave it invalid (R106). -/
def State.dropFills (s : State) (t r : Nat) (p : Nat → Bool) : State :=
  let x := s.tile t
  s.setTile t { x with txns := x.txns.map fun y => if y.fill && y.resid == r && p y.pa then { y with fill := false } else y }

/-- A sector becomes invalid (R66, R106). -/
def State.invalidate (s : State) (t r pa : Nat) : State :=
  let s := s.dropFills t r fun q => q / 32 == pa / 32
  match s.wayOf t r pa with
  | none => s
  | some w =>
    let k := lineKey w pa
    let l := (s.tile t).cache.get {} k
    s.setLine t k { l with valid := l.valid &&& ~~~(BitVec.ofNat 4 (2 ^ secOf pa)) }

/-- A store updates a valid copy in the same cycle (R66), and is no use of its line: a use is a load that finds the line or brings it in
(R65 does not say what counts). A fill under way must not bring older bytes in (R96). (DEDUCED, log 63) -/
def State.updateCopy (s : State) (t r pa : Nat) (mask : BitVec 32) (d : W256) : State :=
  let s := s.dropFills t r fun q => q / 32 == pa / 32
  match s.hit t r pa with
  | none => s
  | some w => s.writeSector (cacheKey t w pa) mask d

/-- The copies of what an `stq` to this device writes leave its tile's cache, when it is sent and when it is answered: a later load of the
context finds its bytes (R96). (DEDUCED, log 75) -/
def State.dropStq (s : State) (t : Nat) (x : Txn) : State :=
  if x.target = .device then (s.stqSectors x).foldl (fun s pa => s.invalidate t x.resid pa) s else s

/-! ## Requests -/

def targetOf (h : Home) : Target :=
  match h with
  | .sram _ => .fabric
  | .fabric _ => .fabric
  | .mem pa => if 2 ^ 40 ≤ pa then .host else .device

/-- The header of a request of a tile to a home: 0 read, 1 write, 2 atomic. -/
def State.requestTo (s : State) (t r kind : Nat) (h : Home) (a : W64) : Hdr :=
  match h with
  | .mem pa =>
    if 2 ^ 40 ≤ pa then { s.toAttach kind t 0 r with addr := BitVec.ofNat 64 pa }
    else { s.toAttach kind t 0 r with dcls := 1, dst := s.portFor pa, addr := BitVec.ofNat 64 pa }
  | .fabric u => { s.toTile kind t u r with addr := a }
  | .sram _ => { s.toTile kind t t r with addr := a }

/-- Issue a request from a tile: its transaction is listed until it is answered. `bad` tells that its payload has an uncorrectable error.
(DESIGN CHOICE, log 12) -/
def State.request (s : State) (t r key : Nat) (owner : Owner) (kind : Nat) (h : Home) (a : W64) (op : BitVec 32) (sid : Nat)
    (pay : List W256) (fill : Bool) (bad : Bool := false) : Nat × State :=
  let (tid, s) := s.newTid t
  let x := s.tile t
  let pa := match h with | .mem pa => pa | _ => 0
  let s := s.setTile t { x with txns := x.txns ++
    [(⟨tid, r, key, owner, kind != 0, targetOf h, a, pa, fill, false, 1⟩ : Txn)] }
  let p := placeOf key
  let hd : Hdr := s.requestTo t r kind h a
  let hd : Hdr := { hd with op := op, tid := tid, info := BitVec.ofNat 64 sid, sq := p.q, sfold := (s.ctx key).fold, bad := bad }
  (tid, s.send t ⟨hd, pay⟩)

/-! ## Transfers of the hardware's own engines: requests of the default class (08_copies_barriers.md R161) -/

/-- The places of an engine's parts: all of them, the first that does not translate, or not yet. -/
inductive Spots where
  | all (l : List (Part × Nat))
  | miss (va : W64)
  | wait

/-- Translate the parts of an engine's access one after the other. -/
def State.seekAll (s : State) (t r : Nat) (wr : Bool) : List Part → Spots × State
  | [] => (.all [], s)
  | p :: ps =>
    if winOf p.addr ≠ some .global then (.miss p.addr, s)
    else
      match s.seek t r p.addr wr with
      | (.at_ pa, s) =>
        match s.seekAll t r wr ps with
        | (.all l, s) => (.all ((p, pa) :: l), s)
        | x => x
      | (.fail, s) => (.miss p.addr, s)
      | (.wait, s) => (.wait, s)

/-- What an engine's transfer begins with: the parts that are under way, an address that it cannot use, or not yet. -/
inductive Begun where
  | begun (s : State) (ps : List Piece)
  | miss (s : State) (va : W64)
  | wait (s : State)

/-- Send the requests of an engine's parts: writes of the bytes of `v`, whose data may be uncorrectable, or reads (`v` none). -/
def State.sendParts (s : State) (t r : Nat) (owner : Owner) (v : Option Nat) (bad : Bool) : List (Part × Nat) → List Piece × State
  | [] => ([], s)
  | (p, pa) :: l =>
    let o := p.addr.toNat % 32
    let pay := (v.map fun v => placed (v / 2 ^ (8 * p.off) % 2 ^ (8 * p.n)) o).toList
    let q := s.request t r (t * 16) owner (if v.isSome then 1 else 0) (.mem pa) p.addr (byteMask o p.n) 0 pay false bad
    let y := q.2.sendParts t r owner v bad l
    ({ tid := q.1, addr := p.addr, off := p.off, n := p.n, val := none } :: y.1, y.2)

/-- An engine of a tile begins to write or read `n` bytes at a global address of a residency, when all of them translate. (DEDUCED, log 27) -/
def State.move (s : State) (t r : Nat) (owner : Owner) (a : W64) (n : Nat) (v : Option Nat) (bad : Bool := false) : Begun :=
  match s.seekAll t r v.isSome (parts a n) with
  | (.wait, s) => .wait s
  | (.miss va, s) => .miss s va
  | (.all l, s) =>
    let y := s.sendParts t r owner v bad l
    .begun y.2 y.1

/-- An answer reaches the piece of a list that waits for it. -/
def answerPiece (tid : Nat) (f : Piece → Piece) (l : List Piece) : List Piece := l.map fun p => if p.tid = tid ∧ p.val = none then f p else p

/-- Have all pieces of a read been answered? Has one failed? -/
def allAnswered (l : List Piece) : Bool := l.all fun p => p.val.isSome || p.bad != 0
def anyFailed (l : List Piece) : Bool := l.any fun p => p.bad != 0

/-- An engine whose read has failed reads again at these times. (DESIGN CHOICE, log 38) -/
def State.retries (s : State) : Bool := s.cycle % 4096 == 0

/-! ## Loads -/

/-- Begin the read of one part for the context whose turn it is: at once from a bank or the tile cache, else by a request. -/
def State.readPart (s : State) (p : Part) (h : Home) : Piece × State :=
  let t := s.cur.t
  let r := s.me.resid.getD 0
  let o := p.addr.toNat % 32
  match h with
  | .sram key => ({ tid := 0, addr := p.addr, off := p.off, n := p.n, val := some (cutSector (s.readSector key) o p.n) }, s)
  | .mem pa =>
    match s.hit t r pa with
    | some w => ({ tid := 0, addr := p.addr, off := p.off, n := p.n, val := some (cutSector (s.readSector (cacheKey t w pa)) o p.n) }, s.touch t w pa)
    | none =>
      let s := s.allocate t r pa
      let (tid, s) := s.request t r s.cur.ctx (.ctx s.cur.ctx) 0 h p.addr (byteMask o p.n) 0 [] (s.ways t r != [])
      ({ tid := tid, addr := p.addr, off := p.off, n := p.n, val := none }, s)
  | .fabric _ =>
    let (tid, s) := s.request t r s.cur.ctx (.ctx s.cur.ctx) 0 h p.addr (byteMask o p.n) 0 [] false
    ({ tid := tid, addr := p.addr, off := p.off, n := p.n, val := none }, s)

/-- The parts read, one after the other. -/
def State.readParts (s : State) : List (Part × Home) → List Piece × State
  | [] => ([], s)
  | (p, h) :: ps =>
    let (x, s) := s.readPart p h
    let (xs, s) := s.readParts ps
    (x :: xs, s)

/-- The value that pieces make: each at its place in the access. -/
def pieceValue (ps : List Piece) : Nat := ps.foldl (fun acc p => acc + (p.val.getD 0) * 2 ^ (8 * p.off)) 0

/-- Is a part whose data are at hand uncorrectable? -/
def State.badPart (s : State) (l : List (Part × Home)) : Option Part :=
  (l.find? fun x =>
    match x.2 with
    | .sram key => s.badAt key x.1.n
    | .mem pa => match s.hit s.cur.t (s.me.resid.getD 0) pa with
      | some w => s.badAt (cacheKey s.cur.t w pa + pa % 32) x.1.n
      | none => false
    | .fabric _ => false).map Prod.fst

/-- Read the parts of an access: `done` completes the instruction with their value when all are at hand, else the context waits with
`fin`. `chk` checks each part; `fix` gives a part's fault its TRAPADDR and TRAPINFO. A part that is at hand and uncorrectable faults once
the lower parts are known to be good (R223, R228). -/
def State.readAll (s : State) (ps : List Part) (chk : Part → Option Trap) (fin : Fin) (fix : Trap → Trap) (done : State → Nat → Res) :
    Res :=
  match s.findHomes chk false ps with
  | .wait => .wait
  | .walk va => .pause (s.startWalk va false)
  | .fail c => .trap (fix c)
  | .all l =>
    match s.badPart l with
    | some p =>
      let (xs, s) := s.readParts (l.takeWhile fun x => x.1 != p)
      if xs.all fun p => p.val.isSome then .trap (fix ⟨0x1A, p.addr, 0⟩)
      else .hold (s.setMe { s.me with wait := .mem fin (xs ++ [{ tid := 0, addr := p.addr, off := p.off, n := p.n, val := some 0, bad := 0x1A }]) })
    | none =>
      let (xs, s) := s.readParts l
      if xs.all fun p => p.val.isSome then done s (pieceValue xs)
      else .hold (s.setMe { s.me with wait := .mem fin xs })

/-! ## Stores -/

/-- Write one part for the context whose turn it is: `v` is the part's value. -/
def State.writePart (s : State) (p : Part) (h : Home) (mask : BitVec 32) (d : W256) : State :=
  let t := s.cur.t
  let r := s.me.resid.getD 0
  match h with
  | .sram key => s.writeSector key mask d
  | .mem pa => ((s.updateCopy t r pa mask d).request t r s.cur.ctx (.ctx s.cur.ctx) 1 h p.addr mask 0 [d] false).2
  | .fabric _ => (s.request t r s.cur.ctx (.ctx s.cur.ctx) 1 h p.addr mask 0 [d] false).2

/-- Write the parts of an access whose bytes are those of `v`, in order. -/
def State.writeParts (s : State) (v : Nat) (l : List (Part × Home)) : State :=
  l.foldl (fun s x =>
    let o := x.1.addr.toNat % 32
    s.writePart x.1 x.2 (byteMask o x.1.n) (placed (v / 2 ^ (8 * x.1.off) % 2 ^ (8 * x.1.n)) o)) s

/-- Store the bytes of `v` over the parts of an access. -/
def State.writeAll (s : State) (ps : List Part) (v : Nat) (chk : Part → Option Trap) (fix : Trap → Trap) : Res :=
  match s.findHomes chk true ps with
  | .wait => .wait
  | .walk va => .pause (s.startWalk va true)
  | .fail c => .trap (fix c)
  | .all l => .ok (s.writeParts v l)

/-! ## FIFO queues (R68 to R70) -/

/-- Where a push of a word would go now: the bank, the staging block, or nowhere (it would block; a queue that is spill-faulted blocks every
push, R70). -/
inductive PushTo where
  | bank
  | staging
  | blocked
  deriving DecidableEq, Repr

def Bank.pushTo (b : Bank) : PushTo :=
  if b.spillFaulted = false ∧ b.ringCount = 0 ∧ b.staging = [] ∧ b.queue.length + b.reserved < 512 then .bank
  else if b.spillFaulted = false ∧ b.spillEn ∧ 0 < b.spillSize ∧ b.staging.length < 32 then .staging
  else .blocked

/-- Push a word to a queue; an end token is remembered for a stream sink (R51). -/
def Bank.push (b : Bank) (w : NetWord) : Bank :=
  let b := if w.tag = 5#4 ∨ w.tag = 6#4 then { b with sawEnd := true } else b
  match b.pushTo with
  | .bank => { b with queue := b.queue ++ [w] }
  | _ => { b with staging := b.staging ++ [w] }

/-- Push a word into a reserved entry (R237). (DEDUCED, log 32; DESIGN CHOICE, log 64) -/
def Bank.pushReserved (b : Bank) (w : NetWord) : Bank := { b with reserved := b.reserved - 1 }.push w

/-- Entries of the queue in the bank, the ring and the staging block, reserved ones included (R240). -/
def Bank.entries (b : Bank) : Nat := b.queue.length + b.reserved + b.ringCount * 32 + b.staging.length

/-- The faults of a queue that is not an owned FIFO bank (R240). -/
def State.queueFault (s : State) (t r q : Nat) : Option Trap :=
  if (s.bank t q).mode ≠ .fifo then some ⟨0x14, 0, BitVec.ofNat 64 q⟩
  else if s.ownsBank r t q = false then some ⟨0x15, 0, BitVec.ofNat 64 q⟩ else none

/-- A bank after a change: what it keeps of its spill settings (R60). (DEDUCED, log 66) -/
def Bank.changed (b : Bank) (c : BankChange) : Bank :=
  let stays := b.mode = .fifo ∧ c.mode = .fifo
  { b with
    mode := c.mode, il := c.il, pending := b.pending.drop 1
    spillBase := if stays then b.spillBase else 0
    spillSize := if stays then b.spillSize else 0
    spillEn := if stays then c.en else false
    queue := [], staging := [], ringHead := 0, ringCount := 0, spillFaulted := false, fullPosted := false, refillBad := false, fetch := [] }

/-- A bank after all the changes it has accepted: a later change is judged by it (R61, R63). -/
def Bank.eventual (b : Bank) : Bank := b.pending.foldl Bank.changed b

/-! ## Writes not yet performed (R99 to R104) -/

/-- Must a release of a scope wait for the write? Device memory counts as performed at CORE and TILE scope once it is accepted. (DEDUCED,
log 34) -/
def Txn.waitsAt (x : Txn) (scope : Nat) : Bool := x.write && (decide (2 ≤ scope) || x.target != .device || x.stq)

/-- The transactions of a context that a full release at a scope waits for (R101). (DEDUCED, log 34) -/
def State.releaseSet (s : State) (k scope : Nat) : List Nat :=
  ((s.tile (placeOf k).t).txns.filter fun x => x.owner == .ctx k && x.waitsAt scope).map Txn.tid

/-- The transactions that a fence at a scope waits for (R100): the context's, and from CLUSTER on every device write of the residency.
(DEDUCED, log 34; DESIGN CHOICE, log 35) -/
def State.fenceSet (s : State) (k scope : Nat) : List Nat :=
  ((s.tile (placeOf k).t).txns.filter fun x =>
    (x.owner == .ctx k && x.waitsAt scope) ||
    (decide (2 ≤ scope) && x.write && x.target == .device && some x.resid == (s.ctx k).resid)).map Txn.tid

/-- The root tile, bank and context of a residency (01_topology.md R30). -/
def Residency.rootTile (r : Residency) : Nat := r.y * 48 + r.x
def Residency.rootBank (r : Residency) : Nat := r.banks.headD 0
def Residency.rootKey (r : Residency) : Nat := r.rootTile * 16 + r.rootBank

/-! ## The pot's events (02_execution_model.md R43) -/

/-- Operation codes of task, steal and pot packets (kinds 6 to 9); the manual leaves these header bits open. (DESIGN CHOICE, log 12) -/
def opMessage : BitVec 32 := 0
def opInject : BitVec 32 := 1
def opBorrow : BitVec 32 := 2
def opReturn : BitVec 32 := 3
def opGrant : BitVec 32 := 4
def opExhaust : BitVec 32 := 5
def opEmpty : BitVec 32 := 6
def opRecord : BitVec 32 := 7
def opHostMessage : BitVec 32 := 8

/-- A submission that waits for an earlier one of its window (20_host_launch.md R350): it has not come to a pot yet. -/
def isQueuedSubmission (p : Packet) : Bool := p.h.kind == 9 && p.h.op == opHostMessage && p.h.dq == 1

/-- A packet of the pot for its root tile: BORROW, RETURN, or an injection that waits for its turn (R43). -/
def isPotEvent (p : Packet) : Bool :=
  p.h.kind == 9 && (p.h.op == opBorrow || p.h.op == opReturn || p.h.op == opInject || p.h.op == opHostMessage) && !isQueuedSubmission p

/-- A packet of the pot of a residency. -/
def isPotOf (r : Nat) (p : Packet) : Bool := isPotEvent p && p.h.resid == r

/-- Can the root handle an event that comes now in this cycle: it has handled none yet, and none waits (R43)? -/
def State.potNow (s : State) (r : Residency) : Bool :=
  r.potAt != some s.cycle && !s.inbox.any fun x => x.node == r.rootTile && isPotOf r.num x.p

/-- Units return to the pot (R43); an event that leaves POT equal to TOTAL is what a `wquiet` sleeps for (R45). -/
def State.potReturn (s : State) (r : Residency) (n : Nat) : State :=
  s.setRes { r with pot := r.pot + n, potAt := some s.cycle, full := if r.pot + n = r.total then some s.cycle else r.full }

/-- Units of the root's tile return to the pot: as this cycle's event, or as one that waits for its turn behind others (R43).
(DEDUCED, log 60) -/
def State.addPot (s : State) (r : Nat) (n : Nat) : State :=
  match (s.findRes r).filter Residency.potValid with
  | none => s
  | some x =>
    if s.potNow x then s.potReturn x n
    else
      let hd : Hdr := s.toTile 9 x.rootTile x.rootTile r
      { s with inbox := s.inbox ++ [⟨x.rootTile, ⟨{ hd with op := opReturn, info := BitVec.ofNat 64 n }, []⟩⟩] }

/-- Add returned units to the aggregator of a residency on a tile (R44): at the root tile they go into the pot directly. -/
def State.addUnits (s : State) (t r : Nat) (n : W64) : State :=
  match s.findRes r with
  | none => s
  | some y =>
    if y.rootTile = t then s.addPot r n.toNat
    else
      let x := s.tile t
      match x.aggs.find? fun a => a.resid == r with
      | some _ =>
        s.setTile t { x with aggs := x.aggs.map fun a => if a.resid == r then { a with sum := a.sum + n.toNat } else a }
      | none => s.setTile t { x with aggs := x.aggs ++ [⟨r, n.toNat, y.startCycle⟩] }

/-- A held action happens: its stores are performed (R101, R103). -/
def State.release (s : State) (t : Nat) (a : Held) : State :=
  match a with
  | .donePort k p w => s.pushPortOf k p w
  | .doneQueue _ q w => s.setBank t q ((s.bank t q).pushReserved w)
  | .packet p => s.send t p
  | .units r n => s.addUnits t r n

/-- Hold an action back until transactions of its tile are performed; with none it happens at once. -/
def State.defer (s : State) (t : Nat) (tids : List Nat) (a : Held) : State :=
  if tids = [] then s.release t a
  else s.setTile t { s.tile t with deferred := (s.tile t).deferred ++ [⟨tids, a⟩] }

/-- Strike a transaction from a list. -/
def strike (tid : Nat) (l : List Nat) : List Nat := l.filter (· != tid)

/-- What a context waits for, less a transaction. -/
def Wait.strike (tid : Nat) (w : Wait) : Wait :=
  match w with
  | .acks l k => .acks (Machine.strike tid l) k
  | .barr d core idx l => .barr d core idx (Machine.strike tid l)
  | w => w

/-- A template no longer waits for a transaction; nor does its copy. -/
def Template.performed (x : Template) (tid : Nat) : Template :=
  { x with
    fires := x.fires.map fun f => (f.1, strike tid f.2)
    arm := { x.arm with waits := strike tid x.arm.waits }
    shadow := { x.shadow with waits := strike tid x.shadow.waits }
    active := x.active.map fun c => { c with writes := strike tid c.writes } }

/-- A write of a tile is performed, or refused for good: everything on the tile that waits for it waits no longer. -/
def State.performed (s : State) (t tid : Nat) : State :=
  let x : Tile := s.tile t
  let x : Tile := { x with
    txns := x.txns.filter fun (y : Txn) => y.tid != tid
    deferred := x.deferred.map fun (d : Deferred) => { d with tids := strike tid d.tids }
    templates := x.templates.map fun (e : Nat × Template) => (e.1, e.2.performed tid)
    stqJobs := x.stqJobs.map fun (j : StqJob) => { j with tids := strike tid j.tids } }
  let ready := x.deferred.filter fun d => d.tids = []
  let s := s.setTile t { x with deferred := x.deferred.filter fun d => d.tids ≠ [] }
  let n := s.node t
  let fixM (m : MReq) : MReq := { m with waits := if m.remote then m.waits else strike tid m.waits }
  let s := s.setNode t { n with
    groups := n.groups.map fun g => { g with members := g.members.map fixM }
    sending := n.sending.map fixM
    wloads := n.wloads.map fun w => { w with waits := strike tid w.waits } }
  let s := { s with ctxs := s.ctxs.map fun e =>
    if (placeOf e.1).t = t then
      (e.1, { e.2 with
        wait := e.2.wait.strike tid
        deque := e.2.deque.map fun d => { d with waits := strike tid d.waits } })
    else e }
  ready.foldl (fun s d => s.release t d.act) s

/-! ## Packets at a tile: the oldest of some kinds that waits there -/

/-- The oldest packet waiting at a node that a test picks. -/
def State.arrived (s : State) (node : Nat) (p : Packet → Bool) : Option Packet :=
  (s.inbox.find? fun x => x.node == node && p x.p).map Arrived.p

/-- Take the oldest packet at a node that a test picks from the inbox. -/
def State.takeArrived (s : State) (node : Nat) (p : Packet → Bool) : State :=
  { s with inbox := s.inbox.eraseP fun x => x.node == node && p x.p }

/-! ## Asynchronous fault records (R239) -/

/-- A record reaches its context (R239): it is queued, or counted as dropped when four are; a context that has halted or is an idle
worker faults its residency with it (22_faults_discard.md R377 reason 3); a context without a residency drops it. -/
def State.queueRecord (s : State) (k : Nat) (r : AsyncRec) : State :=
  let c := s.ctx k
  match c.run with
  | .none => s
  | .placed => s
  | .stopped => s
  | .live =>
    if 4 ≤ c.async.length then
      s.setCtx k { c with asyncDrop := if c.asyncDrop = 255 then 255 else c.asyncDrop + 1 }
    else s.setCtx k { c with async := c.async ++ [r] }
  | _ =>
    (s.setCtx k { c with run := .stopped, wait := .none }).reportFault k 3 0x0A r.addr
      (r.origin ++ c.asyncDrop ++ 0#8 ++ r.detail ++ r.cause)

end Sys2Proof.Machine
end

