-- ==== Sys2Proof/Machine/Replay.lean ====
section
/-! DEFINITION. Replay capture and replay (23_management.md R390, R391): the entries that a captured residency appends and a replayed
one must meet again. -/

namespace Sys2Proof.Machine

/-- Write `n` bytes within one sector of device memory: false while that is held; nothing where no region maps it, nor in the configuration
descriptor (24_fleet_operation.md R401). -/
def State.physWrite (s : State) (pa n v : Nat) : Bool × State :=
  if s.inDescriptor pa then (true, s)
  else
    let mask := byteMask (pa % 32) n
    match s.visit pa (touchOf mask) with
    | (false, s) => (false, s)
    | (true, s) =>
      match s.physKey pa with
      | none => (true, s)
      | some k => (true, s.writeSector k mask (placed v (pa % 32)))

/-- Read a sector of device memory: none while that is held, and no data on a decode miss or an uncorrectable error (21_memory_subsystem.md R363,
R367). -/
def State.physRead (s : State) (pa : Nat) : Option (Option W256) × State :=
  match s.visit pa .read with
  | (false, s) => (none, s)
  | (true, s) => (some ((s.physKey pa).bind fun k => if s.badAt k 32 then none else some (s.readSector k)), s)

/-- Read sectors one after the other, but those read already, until one is held: are they all read, those that are, and the state. -/
def State.readSectors (s : State) (got : AMap (Option W256)) : List Nat → Bool × AMap (Option W256) × State
  | [] => (true, got, s)
  | pa :: l =>
    if got.any fun e => e.1 == pa then s.readSectors got l
    else
      match s.physRead pa with
      | (none, s) => (false, got, s)
      | (some d, s) => s.readSectors (got.set pa d) l

/-- A sector that has been read, zero where it has no data. -/
def sectorOf (got : AMap (Option W256)) (pa : Nat) : W256 := (got.get none pa).getD 0

/-- An entry: its kind with what names its place, and three dwords. (DESIGN CHOICE, log 41) -/
structure Capt where
  d0 : W64
  d1 : W64 := 0
  d2 : W64 := 0
  d3 : W64 := 0
  deriving DecidableEq, Repr

def Capt.bits (e : Capt) : W256 := e.d3 ++ e.d2 ++ e.d1 ++ e.d0

/-- Dword 0 of an entry: kind, a small number, a tile. (DESIGN CHOICE, log 41) -/
def captHead (kind small tile : Nat) : W64 := BitVec.ofNat 64 (kind * 2 ^ 56 + small * 2 ^ 48 + tile)

/-- The capture that a residency's entries go to: that of the buffer it was placed with (R390). -/
def State.captureOf (s : State) (r : Nat) : Option Capture :=
  ((s.findRes r).bind Residency.capture).bind fun a => s.mgmt.captures.find? fun c => c.addr == a

/-- Replace the capture of a buffer. -/
def State.setCapture (s : State) (c : Capture) : State :=
  { s with mgmt := { s.mgmt with captures := s.mgmt.captures.map fun x => if x.addr = c.addr then c else x } }

/-- The writes to capture buffers are made in their order, until one is held. -/
def State.flushCapture (s : State) : Nat → State
  | 0 => s
  | n + 1 =>
    match s.mgmt.captWrites with
    | [] => s
    | (pa, len, v) :: r =>
      match s.physWrite pa len v with
      | (false, s) => s
      | (true, s) => State.flushCapture { s with mgmt := { s.mgmt with captWrites := r } } n

/-- Write to a capture buffer, behind the writes that wait. -/
def State.captWrite (s : State) (l : List (Nat × Nat × Nat)) : State :=
  let w := s.mgmt.captWrites ++ l
  State.flushCapture { s with mgmt := { s.mgmt with captWrites := w } } w.length

/-- The marks that a full buffer puts into the first entries of the runs that it cuts, those of the residencies that are still live: they cannot
be replayed (R392). (DESIGN CHOICE, log 41) -/
def State.cutMarks (s : State) (c : Capture) : List (Nat × Nat × Nat) :=
  (s.sched.res.filter fun x => x.capture == some c.addr && x.captAt != 0).map fun x => (c.addr + 32 * x.captAt + 24, 8, 1)

/-- Append an entry of a residency to its capture buffer: sector 0 holds the full flag in dword 0 and the number of entries in dword 1,
and bits 47:32 of an entry's dword 0 name the residency. A full buffer stops capture and posts event 0x35 (R390, R388). (DESIGN CHOICE, log 41) -/
def State.capture (s : State) (r : Nat) (e : Capt) : State :=
  match s.captureOf r with
  | none => s
  | some c =>
    if c.full then s
    else if c.size ≤ c.used + 1 then
      ((s.setCapture { c with full := true }).captWrite ((c.addr, 8, 1) :: s.cutMarks c)).post
        ⟨0, eventWord 0x35 c.lq 0 0 0 0 0, BitVec.ofNat 64 c.used, BitVec.ofNat 64 c.addr⟩
    else
      let e := { e with d0 := e.d0 ||| BitVec.ofNat 64 (r * 2 ^ 32) }
      (s.setCapture { c with used := c.used + 1 }).captWrite
        [(c.addr + 32 * (c.used + 1), 32, e.bits.toNat), (c.addr + 8, 8, c.used + 1)]

/-- The sectors of the entries of a capture buffer of some entries, by its first sector (R390). -/
def captSectors (addr size : Nat) (head : W256) : List Nat :=
  (List.range (min size (head.extractLsb' 64 64).toNat)).map fun i => addr + 32 * (i + 1)

/-- The kind of an entry, the residency that it names, and the entry as a replay compares it: without the residency, which a target word of an
injection names too. -/
def captKind (w : W256) : BitVec 8 := w.extractLsb' 56 8
def captResid (w : W256) : BitVec 16 := w.extractLsb' 32 16
def captPlain (w : W256) : W256 :=
  w &&& ~~~(0xFFFF00000000#256) &&& ~~~(if captKind w = 4 then BitVec.ofNat 256 (0xFFFF * 2 ^ 104) else 0)

/-- The entries of a residency up to the next placement under its number. -/
def runEntries (n : BitVec 16) : List (Nat × W256) → List (Nat × W256)
  | [] => []
  | (i, w) :: l =>
    if captResid w ≠ n then runEntries n l
    else if captKind w = 1 then []
    else (i, captPlain w) :: runEntries n l

/-- The run that the first kind 1 entry of a host tag begins (R391): whether a full buffer has cut it, and its entries with their
indices. (DESIGN CHOICE, log 41) -/
def runOf (tag : W64) : List (Nat × W256) → Bool × List (Nat × W256)
  | [] => (false, [])
  | (_, w) :: l =>
    if captKind w = 1 ∧ w.extractLsb' 64 64 = tag then (w.extractLsb' 192 64 != 0, runEntries (captResid w) l) else runOf tag l

/-- What a replayed happening meets: it goes on, it waits for its turn, or the replay diverges at an entry. -/
inductive Gate where
  | pass (s : State)
  | hold
  | diverge (s : State)

/-- The fault report of a tile for a residency (22_faults_discard.md R377). -/
def State.reportTile (s : State) (t r reason : Nat) : State :=
  let hd : Hdr := s.toAttach 12 t 1 r
  s.send t ⟨{ hd with op := opFault }, [eventWord 0x10 reason r t 0 0 0 ++ 0#64 ++ 0#64 ++ 0#64]⟩

/-- A replay diverges: event 0x36, and the residency is faulted with reason 0x08 (R391). (DESIGN CHOICE, log 41) -/
def State.diverge (s : State) (t : Nat) (x : Residency) (kind idx : Nat) : State :=
  (s.post ⟨s.queueOf x.num, eventWord 0x36 kind x.num 0 0 0 0, BitVec.ofNat 64 idx, (x.cand.dwords.getD 0 0) >>> 48⟩).reportTile t x.num 8

/-- A happening that capture records and replay orders (R390, R391): `strict` when one found nowhere in the capture diverges. The
happenings of one dword 0 follow each other; one that comes before its turn waits, but a digest differs; an unknown one that need not diverge goes
on. What goes on is captured. (DESIGN CHOICE, log 41) -/
def State.gate (s : State) (t r : Nat) (e : Capt) (strict : Bool) : Gate :=
  match s.findRes r with
  | none => .pass s
  | some x =>
    match x.replay with
    | none => .pass (s.capture r e)
    | some l =>
      let kind := captKind e.bits
      match l.filter fun y => y.2.extractLsb' 0 64 == e.d0 with
      | [] => if strict then .diverge (s.diverge t x kind.toNat 0) else .pass (s.capture r e)
      | (i, y) :: rest =>
        if y = captPlain e.bits then
          .pass ((s.setRes { x with replay := some (l.filter fun z => z.1 != i) }).capture r e)
        else if kind ≠ 3 ∧ (rest.any fun z => z.2 == captPlain e.bits) = true then .hold
        else if strict then .diverge (s.diverge t x kind.toNat i) else .pass (s.capture r e)

end Sys2Proof.Machine
end

