-- ==== Sys2Proof/Machine/System.lean ====
section
/-! DEFINITION. Control registers, system instructions and the fault path of a context (15_matrix_system_instructions.md R292 to R296;
12_memory_instructions.md R239). -/

namespace Sys2Proof.Machine

/-! ## Control registers (R292; 02_execution_model.md R32) -/

/-- Tile-clock cycles since the start of the residency of the context whose turn it is. -/
def State.cycleOf (s : State) : Nat :=
  match s.me.resid.bind s.findRes with
  | none => s.cycle
  | some r => s.cycle - r.startCycle

/-- The value that `crd` reads of a control register. -/
def State.control (s : State) (n : Nat) : W64 :=
  let c := s.me
  match n with
  | 0 => c.ip.setWidth 64
  | 1 => BitVec.ofNat 64 s.cur.b
  | 2 => BitVec.ofNat 64 s.cur.core
  | 3 => BitVec.ofNat 64 s.cur.t
  | 4 => BitVec.ofNat 64 (c.fold * 2 ^ 16 + c.resid.getD 0)
  | 5 => c.vcfg
  | 6 => c.conv
  | 7 => c.fstat.setWidth 64
  | 8 => c.trapvec.setWidth 64
  | 9 => c.trapip.setWidth 64
  | 10 => c.trapcause.setWidth 64
  | 11 => c.trapaddr
  | 12 => c.trapinfo
  | 13 => c.stake
  | 14 => BitVec.ofNat 64 s.cycleOf
  | 15 => c.instret
  | 16 => c.hold.setWidth 64
  | 17 => c.prio.setWidth 64
  | _ => 0

/-- `crd` (R292). -/
def execCrd (d c : BitVec 5) (s : State) : Host.Outcome State Fault Refusal :=
  .next (s.issueS 4 [] [d] fun _ s => .ok (s.put d (s.control c.toNat)))

/-- `cwr` (R292): a register that is read-only is an illegal instruction, which decoding finds. -/
def execCwr (c a : BitVec 5) (s : State) : Host.Outcome State Fault Refusal :=
  .next (s.issueS 4 [rd a] [] fun x s =>
    match s.me.writeControl c.toNat (x 0) (s.prioLimit s.cur.ctx) with
    | none => .trap ⟨0x07, 0, c.setWidth 64⟩
    | some c' => .ok (s.setMe c'))

/-! ## System instructions (R293) -/

/-- `trap n` (R293): cause 0x08, TRAPINFO n, TRAPIP the address after it. -/
def execTrap (n : BitVec 5) (s : State) : Host.Outcome State Fault Refusal :=
  .next (s.issueS 4 [] [] fun _ _ => .raise ⟨0x08, 0, n.setWidth 64⟩)

/-- `brk` (R293): cause 0x09. -/
def execBrk (s : State) : Host.Outcome State Fault Refusal := .next (s.issueS 4 [] [] fun _ _ => .raise ⟨0x09, 0, 0⟩)

/-- `eret` (R295): illegal with handler-active clear; else the context goes on at TRAPIP, checked as a transfer target while the
handler is still active. -/
def execEret (s : State) : Host.Outcome State Fault Refusal :=
  .next (s.issueS 4 [] [] fun _ s =>
    let c := s.me
    if c.handler = false then .trap s.illegal
    else
      let t : W64 := c.trapip.setWidth 64
      if c.targetOk t then .leave (s.setMe { c with ip := c.trapip, handler := false }) else .trap ⟨0x03, t, 0⟩)

/-- Does an input that the context whose turn it is owns hold a word (R293)? -/
def State.inputWord (s : State) : Bool := [27, 28, 29, 30, 31].any fun p => s.ownsIn p && s.portIn p != []

/-- What `wfi` sleeps for has come (R293). -/
def State.wfiDone (s : State) : Bool := s.inputWord || s.me.async != []

/-- `wfi` (R293). -/
def execWfi (s : State) : Host.Outcome State Fault Refusal :=
  .next (s.issueS 4 [] [] fun _ s => if s.wfiDone then .ok s else .hold (s.setMe { s.me with wait := .wfi }))

/-- `WFI_WAKE`: the sleeping context completes without popping (R293). A record that can be delivered abandons the `wfi` instead
(12_memory_instructions.md R239). -/
def execWfiWake (s : State) : Host.Outcome State Fault Refusal :=
  .next (if s.me.wait = .wfi ∧ s.wfiDone = true ∧ (s.me.async = [] ∨ s.me.handler = true) then s.complete else s)

/-- Records that still wait for a context that has come to rest fault its residency (12_memory_instructions.md R239). -/
def State.restRecords (s : State) (k : Nat) : State :=
  let c := s.ctx k
  match c.async with
  | [] => s
  | r :: _ => (s.setCtx k { c with async := [] }).queueRecord k r

/-- `halt` (R293): the stake stays (02_execution_model.md R37). -/
def execHalt (s : State) : Host.Outcome State Fault Refusal :=
  .next (s.issueS 4 [] [] fun _ s => .leave ((s.setMe { s.me with run := .halted }).restRecords s.cur.ctx))

/-! ## Faults found before an instruction is known -/

/-- `ILLEGAL_INSTRUCTION`: words that are no instruction (10_encoding_assembly.md R188). -/
def execIllegalInstruction (s : State) : Host.Outcome State Fault Refusal := .next (s.fault s.illegal)

/-- Does the instruction at IP, of two words when `wide`, lie outside the code partition (10_encoding_assembly.md R179)? (DEDUCED, log 36) -/
def Ctx.fetchMiss (c : Ctx) (wide : Bool) : Bool :=
  let ip := c.ip.toNat
  decide (ip < c.code.base) || decide (c.code.base + c.code.size < ip + (if wide then 8 else 4))

/-- `FETCH_FAULT`: TRAPIP and TRAPADDR hold the address fetched (R179), the IP of the instruction (R294). (DEDUCED, log 36) -/
def execFetchFault (s : State) : Host.Outcome State Fault Refusal := .next (s.fault ⟨0x02, s.me.ip.setWidth 64, 0⟩)

/-! ## Asynchronous fault records (12_memory_instructions.md R239) -/

/-- TRAPINFO of a record, with the count of the records dropped before it. -/
def AsyncRec.info (r : AsyncRec) (dropped : BitVec 8) : W64 := r.origin ++ dropped ++ 0#8 ++ r.detail ++ r.cause

/-- Can a queued record be delivered to the context now: it is live, runs no handler, is between two instructions, or in a wait that a
record abandons (R239)? A running streaming instruction completes first (14_stream_instructions.md R276), and so does one that a walk,
a release or a borrow has put off (15_matrix_system_instructions.md R297). -/
def Ctx.takesRecord (c : Ctx) : Bool :=
  c.run == .live && c.async != [] && !c.handler && !c.mid && c.stream == none &&
  match c.wait with
  | .none => true
  | .wfi => true
  | .bwait _ _ _ => true
  | .wquiet => true
  | .stq _ => true
  | _ => false

/-- `ASYNC_FAULT_DELIVERY`: the oldest record reaches the context's handler; an instruction it sleeps in is abandoned (R239). It uses the
core's turn of its cycle, which moves the context counter, though no instruction issues. (DESIGN CHOICE, log 78) -/
def execAsyncFaultDelivery (s : State) : Host.Outcome State Fault Refusal :=
  .next
    (match s.me.takesRecord, s.me.async with
    | true, r :: rs =>
      let c := s.me
      let s := s.setMe { c with async := rs, asyncDrop := 0, wait := .none, heldIns := [], heldLen := 0 }
      s.fault ⟨0x0A, r.addr, r.info c.asyncDrop⟩
    | _, _ => s)

/-- `ASYNC_FAULT_ARRIVAL`: a record raised by an engine reaches its context's queue (R239). -/
def execAsyncFaultArrival (s : State) : Host.Outcome State Fault Refusal :=
  .next
    (match s.sched.asyncs with
    | [] => s
    | (k, r) :: rs => (s.setSched { s.sched with asyncs := rs }).queueRecord k r)

end Sys2Proof.Machine
end

