-- ==== Sys2Proof/Machine/Task.lean ====
section
/-! DEFINITION. Tasks, stakes, the pot, stealing and messages (02_execution_model.md R36 to R48; 15_matrix_system_instructions.md R288
to R291). -/

namespace Sys2Proof.Machine

/-! ## Records -/

/-- The four dwords of a record (R36). -/
def Task.bits (x : Task) : W256 := x.stake ++ x.a1 ++ x.a0 ++ x.entry
def Task.ofBits (w : W256) : Task where
  entry := w.extractLsb' 0 64
  a0 := w.extractLsb' 64 64
  a1 := w.extractLsb' 128 64
  stake := w.extractLsb' 192 64

/-- A context starts a task (R36): IP, s1, s2 and STAKE are set, every other register keeps its value. -/
def Ctx.startTask (c : Ctx) (x : Task) : Ctx :=
  { (c.setS 1 x.a0).setS 2 x.a1 with
    ip := BitVec.ofNat 16 (c.code.base + x.entry.toNat), stake := x.stake, run := .live, steal := .start }

/-! ## The deque and its spill ring (R38). The head of the list is the top, its end the bottom. -/

/-- Address of a block of a ring. -/
def Ring.block (g : Ring) (i : Nat) : W64 := g.base + BitVec.ofNat 64 (i % (g.size / 1024) * 1024)

/-- The value of a block of records, one record per sector. -/
def blockValue (l : List Task) : Nat := l.foldr (fun x acc => x.bits.toNat + acc * 2 ^ 256) 0

/-- The records of a block. -/
def blockTasks (v : Nat) : Nat → List Task
  | 0 => []
  | n + 1 => Task.ofBits (BitVec.ofNat 256 v) :: blockTasks (v / 2 ^ 256) n

/-- What making room in a deque gives. -/
inductive Room where
  | ok (s : State)
  | full
  | wait (s : State)
  | fault (s : State) (va : W64)

/-- Make room at the bottom of a context's deque: at 64 records the top 32 are written as one block at the tail of the ring (R38).
Records whose release is not performed cannot leave the hardware yet. -/
def State.dequeRoom (s : State) (k : Nat) : Room :=
  let c := s.ctx k
  if c.deque.length < 64 then .ok s
  else if c.ring.size / 1024 ≤ c.ring.count then .full
  else
    let top := c.deque.take 32
    if top.any fun x => x.waits != [] then .wait s
    else
      match s.move (placeOf k).t (c.resid.getD 0) .engine (c.ring.block (c.ring.head + c.ring.count)) 1024 (some (blockValue top)) with
      | .wait s => .wait s
      | .miss s va => .fault s va
      | .begun s _ =>
        let c := s.ctx k
        .ok (s.setCtx k { c with deque := c.deque.drop 32, ring := { c.ring with count := c.ring.count + 1, refill := [] } })

/-- Push a record at the bottom. -/
def State.pushTask (s : State) (k : Nat) (x : Task) : State :=
  s.setCtx k { s.ctx k with deque := (s.ctx k).deque ++ [x] }

/-- A residency that steal requests, messages and returns still reach (22_faults_discard.md R376). -/
def State.liveRes (s : State) (r : Nat) : Option Residency :=
  (s.findRes r).filter fun x => x.state != .discarding && x.state != .faulting

/-- Has a deque, a queue or, for messages, a delivering tile a request outstanding (22_faults_discard.md R378)? -/
def SpillReq.blocks (x : SpillReq) (t party key queue : Nat) : Bool :=
  x.tile == t && x.party == party && (party == 3 || (x.key == key && x.queue == queue))

/-- A party whose spill write faults asks for service, once, while its residency is live (R376, R378). -/
def State.askSpill (s : State) (r t party key queue : Nat) (va : W64) : State :=
  if (s.sched.spills.any fun x => x.blocks t party key queue) ∨ (s.liveRes r).isNone = true then s
  else s.setSched { s.sched with spills := s.sched.spills ++ [(⟨r, t, none, party, key, queue, va⟩ : SpillReq)] }

/-- What a context's next task is (R37): the bottom record, or after a refill of the newest block; it may have to wait for the refill;
or there is none. -/
inductive NextTask where
  | task (s : State) (x : Task)
  | wait (s : State)
  | none

/-- The refill of a context's deque goes on: the newest block is read by requests; one that cannot be read is tried again. (DESIGN CHOICE,
log 38; DEDUCED, log 62) -/
def State.refillDeque (s : State) (k : Nat) : NextTask :=
  let c := s.ctx k
  let g := c.ring
  let put (s : State) (g : Ring) : State := s.setCtx k { s.ctx k with ring := g }
  if g.refill = [] then
    if g.bad ∧ s.retries = false then .wait s
    else
      match s.move (placeOf k).t (c.resid.getD 0) (.deque k) (g.block (g.head + g.count - 1)) 1024 none with
      | .wait s => .wait s
      | .miss s _ => .wait (put s { g with bad := true })
      | .begun s ps => .wait (put s { g with refill := ps })
  else if allAnswered g.refill = false then .wait s
  else if anyFailed g.refill then .wait (put s { g with refill := [], bad := true })
  else
    let l := (blockTasks (pieceValue g.refill) 32).drop (if g.count = 1 then g.headUsed else 0)
    let g := { g with
      count := g.count - 1, headUsed := if g.count = 1 then 0 else g.headUsed, bad := false, refill := [], theft := if g.count = 1 then [] else g.theft }
    match l.getLast? with
    | .none => .none
    | some x => .task (s.setCtx k { c with deque := l.dropLast, ring := g }) x

/-- The next task of a context: see `NextTask`. -/
def State.nextTask (s : State) (k : Nat) : NextTask :=
  let c := s.ctx k
  match c.deque.getLast? with
  | some x => .task (s.setCtx k { c with deque := c.deque.dropLast }) x
  | .none => if c.ring.count = 0 then .none else s.refillDeque k

/-- What a context that looks for its next task becomes: a context with a task, or an idle worker; or it must wait for a refill (R37). -/
inductive Taken where
  | ok (s : State)
  | wait (s : State)

/-- A context takes its next task or becomes an idle worker (R37). -/
def State.takeNext (s : State) (k : Nat) : Taken :=
  match s.nextTask k with
  | .task s x => .ok (s.setCtx k ((s.ctx k).startTask x))
  | .wait s => .wait s
  | .none => .ok ((s.setCtx k { s.ctx k with run := .idle, steal := .start }).restRecords k)

/-! ## The root and the pot (R41 to R45) -/

/-- The residency of the context whose turn it is. -/
def State.myRes (s : State) : Option Residency := s.me.resid.bind s.findRes

/-- Is the context whose turn it is the root of its residency (R30)? -/
def State.isRoot (s : State) : Bool :=
  match s.myRes with
  | none => false
  | some r => r.rootKey == s.cur.ctx

/-- Is the pot of the context's residency valid (R41)? -/
def State.potOn (s : State) : Bool :=
  match s.myRes with
  | none => false
  | some r => r.potValid

/-- Split the stake before a record or message leaves (R42): the child's stake, or a borrow from the root for which the context
sleeps. -/
inductive Split where
  | ok (s : State) (child : W64)
  | borrow (s : State)

def State.split (s : State) : Split :=
  let c := s.me
  match s.myRes with
  | none => .ok s 0
  | some r =>
    if r.potValid = false then .ok s 0
    else if c.stake.toNat ≤ 1 then
      let hd : Hdr := s.toTile 9 s.cur.t r.rootTile r.num
      .borrow ((s.setMe { c with wait := .borrow }).send s.cur.t
        ⟨{ hd with op := opBorrow, sq := s.cur.q, sfold := c.fold, info := BitVec.ofNat 64 s.cur.ctx }, []⟩)
    else
      let child := c.stake >>> 1
      .ok (s.setMe { c with stake := c.stake - child }) child

/-- An entry that `spawn` or `send` may name (R288): an address in the own partition, a multiple of 4. -/
def Ctx.entryOk (c : Ctx) (e : W64) : Bool :=
  decide (e.toNat < 2 ^ 16) && decide (e.toNat % 4 = 0) && decide (c.code.base ≤ e.toNat) &&
  decide (e.toNat < c.code.base + c.code.size)

/-- `spawn` (R288): the deque first, then the stake, then the push; the record can be stolen once the context's earlier writes are
performed at DEVICE scope (05_consistency.md R101). (DEDUCED, log 37) -/
def execSpawn (d a b : BitVec 5) (s : State) : Host.Outcome State Fault Refusal :=
  .next (s.issueS 4 [rd a, rd b, rd d] [] fun x s =>
    let e := x 2
    let k := s.cur.ctx
    if s.me.entryOk e = false then .trap ⟨0x27, 0, e⟩
    else
      match s.dequeRoom k with
      | .full => .trap ⟨0x25, 0, 0⟩
      | .wait s => .stall s
      | .fault s va =>
        .pause ((s.setMe { s.me with wait := .spill }).askSpill (s.me.resid.getD 0) s.cur.t 1 k 0 va)
      | .ok s' =>
        match s.split with
        | .borrow s => .pause s
        | .ok _ child =>
          .ok ((s'.setMe { s'.me with stake := s'.me.stake - child }).pushTask k
            ⟨BitVec.ofNat 64 (e.toNat - s.me.code.base), x 0, x 1, child, s.releaseSet k 4⟩))

/-! ## Messages (R289, R40) -/

/-- Is the core a core of the residency's region that its tile has, and the fold index below its fold (R40)? -/
def State.inResidency (s : State) (r : Residency) (core fold : Nat) : Bool :=
  let t := core / 4
  decide (t < 1920) && decide (r.x ≤ colOf t) && decide (colOf t < r.x + r.w) && decide (r.y ≤ rowOf t) &&
  decide (rowOf t < r.y + r.h) && decide (fold < r.fold) && decide (core % 4 < s.coresOn t)

/-- The check of a target word of a `send` to this device (R289). (DEDUCED, log 37) -/
def State.sendOk (s : State) (r : Residency) (w : W64) : Bool :=
  w.extractLsb' 40 24 == 0#24 && !w.getLsbD 31 && s.me.entryOk (w.extractLsb' 0 16 |>.setWidth 64) &&
  s.inResidency r (w.extractLsb' 16 13).toNat (w.extractLsb' 29 2).toNat

/-- The message of a record to a core and fold index of a residency. -/
def State.message (s : State) (dev src core fold r : Nat) (op : BitVec 32) (x : Task) (w : W64) : Packet :=
  let hd : Hdr := s.toTile 6 src (core / 4) r
  ⟨{ hd with ddev := dev, dq := core % 4, dfold := fold, op := op, addr := x.entry, info := w, sdev := s.host.devnum.toNat, len := 1 },
    [x.bits]⟩

/-- Wait until the writes that a release of a scope covers are performed (05_consistency.md R101), then go on. -/
def State.afterRelease (s : State) (scope : Nat) (go : Res) : Res :=
  let w := s.releaseSet s.cur.ctx scope
  if w = [] then go else .pause (s.setMe { s.me with wait := .acks w .again })

/-- `send` (R289): to this device a stake moves with the message, to another none does; it waits until the context's earlier writes are
performed at DEVICE, or SYSTEM, scope (05_consistency.md R101), and completes when the message leaves. (DEDUCED, log 37) -/
def execSend (d a b : BitVec 5) (s : State) : Host.Outcome State Fault Refusal :=
  .next (s.issueS 4 [rd a, rd b, rd d] [] fun x s =>
    let w := x 2
    let mine (p : Packet) : Packet := { p with h := { p.h with sq := s.cur.q, sfold := s.me.fold } }
    let dev := (w.extractLsb' 32 8).toNat
    let core := (w.extractLsb' 16 13).toNat
    let fold := (w.extractLsb' 29 2).toNat
    let entry : W64 := BitVec.ofNat 64 ((w.extractLsb' 0 16).toNat - s.me.code.base)
    match s.myRes with
    | none => .trap ⟨0x27, 0, w⟩
    | some r =>
      if dev = 0xFF ∨ dev = s.host.devnum.toNat then
        if s.sendOk r w = false then .trap ⟨0x27, 0, w⟩
        else
          s.afterRelease 4
            (match s.split with
            | .borrow s => .pause s
            | .ok s child =>
              .ok (s.send s.cur.t (mine (s.message s.host.devnum.toNat s.cur.t core fold r.num opMessage ⟨entry, x 0, x 1, child, []⟩ w))))
      else if w.extractLsb' 56 8 ≠ 0#8 ∨ w.getLsbD 31 = true ∨ s.me.entryOk (w.extractLsb' 0 16 |>.setWidth 64) = false then
        .trap ⟨0x27, 0, w⟩
      else
        s.afterRelease 5
          (.ok (s.send s.cur.t (mine (s.message dev s.cur.t core fold (w.extractLsb' 40 16).toNat opInject ⟨entry, x 0, x 1, 0, []⟩ w)))))

/-! ## tdone, potinit, wquiet, stake, commit (R290, R291) -/

/-- `tdone` (R290): the stake returns once the task's earlier writes are performed at DEVICE scope, and the context goes on with its
next task (R37, R44); while that is still being refilled the stake has returned already. -/
def execTdone (s : State) : Host.Outcome State Fault Refusal :=
  .next (s.issueS 4 [] [] fun _ s =>
    let k := s.cur.ctx
    let back (s : State) : State :=
      if s.potOn ∧ (s.me.mid = false ∨ s.me.stake ≠ 0) then
        let n := s.me.stake
        (s.setMe { s.me with stake := 0 }).defer s.cur.t (s.releaseSet k 4) (.units (s.me.resid.getD 0) n)
      else s
    match (back s).takeNext k with
    | .wait s' => if s.potOn = true ∧ s.me.stake ≠ 0 then .pause s' else .stall s'
    | .ok s => .leave s)

/-- `potinit` (R41). -/
def execPotinit (s : State) : Host.Outcome State Fault Refusal :=
  .next (s.issueS 4 [] [] fun _ s =>
    match s.myRes with
    | none => .trap ⟨0x28, 0, 0⟩
    | some r =>
      if s.isRoot = false ∨ (r.potValid = true ∧ r.pot ≠ r.total) then .trap ⟨0x28, 0, 0⟩
      else
        .ok ((s.setRes { r with potValid := true, pot := 0, total := 2 ^ 62, full := none }).setMe { s.me with stake := BitVec.ofNat 64 (2 ^ 62) }))

/-- `wquiet` (R45): the root's stake returns, and the root sleeps until an event leaves the pot full. -/
def execWquiet (s : State) : Host.Outcome State Fault Refusal :=
  .next (s.issueS 4 [] [] fun _ s =>
    match s.myRes.filter Residency.potValid with
    | none => .trap ⟨0x28, 0, 1⟩
    | some r =>
      if s.isRoot = false then .trap ⟨0x28, 0, 1⟩
      else
        let s := (s.setRes { r with full := none }).addPot r.num s.me.stake.toNat
        .hold (s.setMe { s.me with stake := 0, wait := .wquiet }))

/-- `WQUIET_WAKE`: in the first cycle after an event that left POT equal to TOTAL the root wakes, whatever events follow (R45). -/
def execWquietWake (s : State) : Host.Outcome State Fault Refusal :=
  .next
    (match s.me.wait, s.myRes with
    | .wquiet, some r => if r.full.any fun c => decide (c < s.cycle) then s.complete else s
    | _, _ => s)

/-- `stake` (R291). -/
def execStake (d : BitVec 5) (s : State) : Host.Outcome State Fault Refusal :=
  .next (s.issueS 4 [] [d] fun _ s => .ok (s.put d s.me.stake))

/-- `commit` (R48): the root asks the scheduler and sleeps; once committed it completes at once. -/
def execCommit (s : State) : Host.Outcome State Fault Refusal :=
  .next (s.issueS 4 [] [] fun _ s =>
    match s.myRes with
    | none => .trap ⟨0x28, 0, 3⟩
    | some r =>
      if s.isRoot = false then .trap ⟨0x28, 0, 3⟩
      else if r.state = .committed then .ok s
      else
        let hd : Hdr := s.toAttach 12 s.cur.t 1 r.num
        .hold ((s.setMe { s.me with wait := .commit }).send s.cur.t
          ⟨{ hd with op := opCommit, sq := s.cur.q, info := BitVec.ofNat 64 s.cur.ctx }, []⟩))

/-! ## Packets of the pot -/

/-- The root is asked for 2^40 units, this cycle's event of its pot: it grants them, or refuses when the total would reach 2^63 (R43). -/
def State.grantUnits (s : State) (r : Residency) : Bool × State :=
  let ok := decide (r.total + 2 ^ 40 < 2 ^ 63)
  (ok, s.setRes { r with total := if ok then r.total + 2 ^ 40 else r.total, potAt := some s.cycle })

/-- A message admitted as a host injection takes 2^40 units from the root, or none without a pot (R43): its stake, or none when the
grant is refused. -/
def State.grant (s : State) (r : Residency) : Option W64 × State :=
  if r.potValid = false then (some 0, s)
  else
    let g := s.grantUnits r
    (if g.1 then some (BitVec.ofNat 64 (2 ^ 40)) else none, g.2)

/-- The core within the quad and the context bank that the event of a dropped message names: its sender's core where it finds no route, else
its target's core and bank; bank 0 where the target is on another device, or its residency has gone. (DESIGN CHOICE, log 86) -/
def State.dropPlace (s : State) (reason : Nat) (p : Packet) : Nat × Nat :=
  if reason = 2 then (p.h.sq, 0)
  else (p.h.dq, match s.findRes p.h.resid with | none => 0 | some r => if reason = 1 then r.banks.getD p.h.dfold 0 else 0)

/-- A message is dropped and named by an event at its residency's queue (22_faults_discard.md R375 kind 0x14): reason 1 residency not live,
2 no route, 3 wrong device. -/
def State.dropMessage (s : State) (t reason : Nat) (p : Packet) : State :=
  let q := s.dropPlace reason p
  s.tileEvent t (eventWord 0x14 reason p.h.resid t q.1 q.2 0) p.h.info 0 (some p.h.resid)

/-! ## The host's injections (20_host_launch.md R350) -/

/-- Does a target word break its layout, or name a core or fold index outside the residency? -/
def State.badTarget (s : State) (r : Residency) (w : W64) : Bool :=
  w.extractLsb' 56 8 != 0#8 || w.getLsbD 31 || w.extractLsb' 32 8 != 0xFF#8 || w.extractLsb' 0 2 != 0#2 ||
  !s.inResidency r (w.extractLsb' 16 13).toNat (w.extractLsb' 29 2).toNat

/-- An injection waits at a tile: at its root's for its turn among the pot's events (R43), or `behind` an earlier submission of its
window (R350): target word, arguments, window and queue. -/
def State.queueInjection (s : State) (behind : Bool) (root r w queue : Nat) (target a0 a1 : W64) : State :=
  let hd : Hdr := s.toTile 9 root root r
  { s with inbox := s.inbox ++
    [⟨root, ⟨{ hd with op := opHostMessage, dq := behind.toNat, addr := target, info := BitVec.ofNat 64 (w * 16 + queue) },
      [0#128 ++ a1 ++ a0]⟩⟩] }

/-- Handle the submission of a window's values: a message, with 2^40 units from a valid pot, or a rejection (R350, R43). `turn` says that
it has waited for its turn among the pot's events. -/
def State.submitNow (s : State) (w queue : Nat) (target a0 a1 : W64) (turn : Bool) : State :=
  let reject (s : State) (cause : Nat) : State :=
    s.post ⟨queue, BitVec.ofNat 8 2 ++ BitVec.ofNat 8 cause ++ BitVec.ofNat 48 w, target, 0⟩
  match s.liveRes (target.extractLsb' 40 16).toNat with
  | none => reject s 1
  | some r =>
    if s.badTarget r target then reject s 2
    else if r.potValid ∧ (if turn then r.potAt ≠ some s.cycle else s.potNow r = true) = False then
      s.queueInjection false r.rootTile r.num w queue target a0 a1
    else
      match s.grant r with
      | (none, s) => reject s 3
      | (some n, s) =>
        let core := (target.extractLsb' 16 13).toNat
        let entry : W64 := (target.extractLsb' 0 16).setWidth 64
        s.send 0 (s.message s.host.devnum.toNat 0 core (target.extractLsb' 29 2).toNat r.num opHostMessage ⟨entry, a0, a1, n, []⟩ target)

/-- A submission of a window that waits. -/
def Packet.ofWindow (p : Packet) (w : Nat) : Bool := p.h.kind == 9 && p.h.op == opHostMessage && p.h.info.toNat / 16 == w

/-- Submit the staged values of a window: behind an earlier submission of the window that waits, else at once (R350). -/
def State.submit (s : State) (w queue : Nat) : State :=
  let x := s.host.windows.get {} w
  match s.inbox.find? fun y => y.p.ofWindow w with
  | some y => s.queueInjection true y.node y.p.h.resid w queue x.target x.a0 x.a1
  | none => s.submitNow w queue x.target x.a0 x.a1 false

/-- The values of a submission that has waited are handled. -/
def State.submitPacket (s : State) (p : Packet) (turn : Bool) : State :=
  let w := p.pay.headD 0
  s.submitNow (p.h.info.toNat / 16) (p.h.info.toNat % 16) p.h.addr (w.extractLsb' 0 64) (w.extractLsb' 64 64) turn

/-- A submission at the place's tile whose window has no earlier one any more is handled (R350). -/
def State.submitNext (s : State) : State :=
  let first (y : Arrived) : Bool := s.inbox.find? (fun z => z.p.ofWindow (y.p.h.info.toNat / 16)) == some y
  match s.inbox.find? fun y => y.node == s.cur.t && isQueuedSubmission y.p && first y with
  | none => s
  | some y => ({ s with inbox := s.inbox.erase y }).submitPacket y.p false

/-- The oldest event of the place's pot, if the root can handle one in this cycle (R43). -/
def State.potEvent (s : State) : Option Packet :=
  if (s.findRes s.cur.n).any fun r => r.potAt == some s.cycle then none else s.arrived s.cur.t (isPotOf s.cur.n)

/-- `BORROW_REQUEST`: the root grants 2^40 units, or refuses when the total would reach 2^63 (R43); so it does for an injection that has
waited for its turn. A place that names no residency is that of a submission behind another of its window (20_host_launch.md R350). -/
def execBorrowRequest (s : State) : Host.Outcome State Fault Refusal :=
  .next
    (match s.potEvent with
    | none => if s.cur.n = 0 ∧ (s.findRes 0).isNone then s.submitNext else s
    | some p =>
      if p.h.op = opReturn then s
      else
        let s := s.takeArrived s.cur.t (isPotOf s.cur.n)
        if p.h.op = opHostMessage then s.submitPacket p true
        else
          match s.liveRes p.h.resid with
          | none => if p.h.op = opInject then s.dropMessage s.cur.t 1 p else s
          | some r =>
            if p.h.op = opInject then
              match s.grant r with
              | (none, s) => s.dropMessage s.cur.t 1 p
              | (some n, s) =>
                s.send s.cur.t ⟨{ p.h with kind := 6, op := opMessage }, [{ Task.ofBits (p.pay.headD 0) with stake := n }.bits]⟩
            else
              let hd : Hdr := s.toTile 9 s.cur.t p.h.stile r.num
              let answer (op : BitVec 32) (s : State) : State :=
                s.send s.cur.t ⟨{ hd with op := op, dq := p.h.sq, dfold := p.h.sfold, info := p.h.info }, []⟩
              let g := s.grantUnits r
              answer (if g.1 then opGrant else opExhaust) g.2)

/-- `RETURN_MESSAGE`: returned units go into the pot (R43). -/
def execReturnMessage (s : State) : Host.Outcome State Fault Refusal :=
  .next
    (match s.potEvent with
    | none => s
    | some p =>
      if p.h.op ≠ opReturn then s
      else
        let s := s.takeArrived s.cur.t (isPotOf s.cur.n)
        match (s.liveRes p.h.resid).filter Residency.potValid with
        | none => s
        | some r => s.potReturn r p.h.info.toNat)

def isPotReply (p : Packet) : Bool := p.h.kind == 9 && (p.h.op == opGrant || p.h.op == opExhaust)

/-- `BORROW_REPLY`: a grant raises STAKE and the sleeping instruction goes on; EXHAUST is its precise fault (R42). -/
def execBorrowReply (s : State) : Host.Outcome State Fault Refusal :=
  .next
    (match s.arrived s.cur.t isPotReply with
    | none => s
    | some p =>
      let s := s.takeArrived s.cur.t isPotReply
      s.withCur p.h.info.toNat fun s =>
        let c := s.me
        if c.wait ≠ .borrow ∨ c.resid ≠ some p.h.resid then s
        else if p.h.op = opGrant then s.setMe { c with wait := .none, stake := c.stake + BitVec.ofNat 64 (2 ^ 40) }
        else s.failHeld ⟨0x26, 0, 0⟩)

/-! ## The aggregator (R44) -/

/-- Has the tile no live context and no deque record of the residency, spilled records and undelivered messages counted? -/
def State.quietTile (s : State) (t r : Nat) : Bool :=
  !((List.range 16).any fun i =>
      let c := s.ctx (t * 16 + i)
      c.resid == some r && (c.run == .live || c.deque != [] || decide (0 < c.ring.count))) &&
  !(s.inbox.any fun x => x.node == t && x.p.h.kind == 6 && x.p.h.resid == r)

/-- `AGGREGATOR_SEND`: the sum of the residency named by the place goes to the root (R44). -/
def execAggregatorSend (s : State) : Host.Outcome State Fault Refusal :=
  .next
    (let t := s.cur.t
    let x := s.tile t
    match x.aggs.find? fun a => a.resid == s.cur.n, s.liveRes s.cur.n with
    | some a, some r =>
      if a.sum ≠ 0 ∧ (s.quietTile t a.resid = true ∨ 2 ^ 48 ≤ a.sum ∨ a.last + 4096 ≤ s.cycle) then
        let s := s.setTile t { x with aggs := x.aggs.map fun b => if b.resid == a.resid then ⟨a.resid, 0, s.cycle⟩ else b }
        let hd : Hdr := s.toTile 9 t r.rootTile r.num
        s.send t ⟨{ hd with op := opReturn, info := BitVec.ofNat 64 a.sum }, []⟩
      else s
    | _, _ => s)

/-! ## Stealing (R39) -/

/-- The tiles of a residency's region that are present, in ascending number. -/
def State.regionTiles (s : State) (r : Residency) : List Nat :=
  ((List.range (r.w * r.h)).map fun i => (r.y + i / r.w) * 48 + r.x + i % r.w).filter s.present

/-- Tiles in ascending number, starting after one and wrapping. -/
def afterWrap (t : Nat) (l : List Nat) : List Nat := (l.filter fun u => decide (t < u)) ++ l.filter fun u => decide (u < t)

/-- The order in which a thief on a tile visits the tiles of its residency (R39). -/
def State.victims (s : State) (r : Residency) (t : Nat) : List Nat :=
  let l := s.regionTiles r
  let same := l.filter fun u => clusterOf u == clusterOf t
  let die := l.filter fun u => clusterOf u != clusterOf t && dieOf u == dieOf t
  let far := l.filter fun u => dieOf u != dieOf t
  afterWrap t same ++ afterWrap t die ++ afterWrap t far

/-- Ask the victim at a position of the order; past the last, the pass has found nothing and the thief waits 256 cycles. -/
def State.askVictim (s : State) (r : Residency) (pos : Nat) : State :=
  match (s.victims r s.cur.t)[pos]? with
  | none => s.setMe { s.me with steal := .resting (s.cycle + 256) }
  | some v =>
    let hd : Hdr := s.toTile 7 s.cur.t v r.num
    (s.setMe { s.me with steal := .asking pos }).send s.cur.t
      ⟨{ hd with sq := s.cur.q, sfold := s.me.fold, info := BitVec.ofNat 64 s.cur.ctx }, []⟩

/-- `STEAL_PASS_WAIT`: an idle worker begins a pass, its first or the next after 256 cycles (R39). -/
def execStealPassWait (s : State) : Host.Outcome State Fault Refusal :=
  .next
    (match s.me.run, s.me.resid.bind s.liveRes with
    | .idle, some r =>
      match s.me.steal with
      | .start => s.askVictim r 0
      | .resting c => if c ≤ s.cycle then s.askVictim r 0 else s
      | .asking _ => s
    | _, _ => s)

/-- What the top of a deque gives a thief: a record, none, or not yet. -/
inductive Top where
  | task (s : State) (x : Task)
  | empty (s : State)
  | wait (s : State)

/-- The thief's record of a ring's head block is taken: the block is gone with its last one. -/
def Ring.taken (g : Ring) : Ring :=
  if g.headUsed + 1 = 32 then
    { g with head := (g.head + 1) % (g.size / 1024), count := g.count - 1, headUsed := 0, theft := [], refill := if g.count = 1 then [] else g.refill }
  else { g with headUsed := g.headUsed + 1, theft := [] }

/-- The top record of a deque that a thief may take: from the hardware deque, or the oldest of the ring's head block, which is read by a
request (R38). A record whose release is not performed, or that cannot be read, counts as none; while a block is read for the context itself
none is taken from it. (DESIGN CHOICE, log 38; DEDUCED, log 62) -/
def State.topTask (s : State) (k : Nat) : Top :=
  let c := s.ctx k
  let g := c.ring
  let put (s : State) (g : Ring) : State := s.setCtx k { s.ctx k with ring := g }
  match c.deque with
  | x :: r => if x.waits = [] then .task (s.setCtx k { c with deque := r }) x else .empty s
  | [] =>
    if g.count = 0 ∨ (g.count = 1 ∧ g.refill ≠ []) then .empty s
    else if g.theft = [] then
      match s.move (placeOf k).t (c.resid.getD 0) (.deque k) (g.block g.head + BitVec.ofNat 64 (g.headUsed * 32)) 32 none with
      | .wait s => .wait s
      | .miss s _ => .empty s
      | .begun s ps => .wait (put s { g with theft := ps })
    else if allAnswered g.theft = false then .wait s
    else if anyFailed g.theft then .empty (put s { g with theft := [] })
    else .task (put s g.taken) (Task.ofBits (BitVec.ofNat 256 (pieceValue g.theft)))

/-- The top record of the first of some deques that has one (R39). -/
def State.topOf (s : State) : List Nat → Top
  | [] => .empty s
  | k :: l =>
    match s.topTask k with
    | .empty s => State.topOf s l
    | r => r

/-- The contexts of a residency on a tile, lowest q first, then lowest fold index (R39). -/
def State.ctxsOf (s : State) (t : Nat) (r : Residency) : List Nat :=
  (List.range 4).flatMap fun q => r.banks.map fun b => (t * 4 + q) * 4 + b

/-- `STEAL_REQUEST`: the victim tile answers with the top record of the first deque that has one, or with an empty answer (R39). -/
def execStealRequest (s : State) : Host.Outcome State Fault Refusal :=
  .next
    (let t := s.cur.t
    let is7 (p : Packet) : Bool := p.h.kind == 7
    match s.arrived t is7 with
    | none => s
    | some p =>
      let rest := s.takeArrived t is7
      match rest.liveRes p.h.resid with
      | none => rest
      | some r =>
        let hd : Hdr := s.toTile 8 t p.h.stile r.num
        let hd : Hdr := { hd with dq := p.h.sq, dfold := p.h.sfold, info := p.h.info }
        match rest.topOf (s.ctxsOf t r) with
        | .wait u => { u with inbox := s.inbox }
        | .empty s => s.send t ⟨{ hd with op := opEmpty }, []⟩
        | .task s x => s.send t ⟨{ hd with op := opRecord, addr := x.entry }, [x.bits]⟩)

/-- `STEAL_RESPONSE`: the thief starts the record it was given, or asks the next tile (R39). A thief that a message has started in the meantime
keeps the record in its deque. The tile that answers is not compared: an empty answer that comes after its thief was started by a message, has
ended that task and has begun a new pass counts as the answer of the pass's present victim. (DEDUCED, log 39; DESIGN CHOICE, log 85) -/
def execStealResponse (s : State) : Host.Outcome State Fault Refusal :=
  .next
    (let is8 (p : Packet) : Bool := p.h.kind == 8
    match s.arrived s.cur.t is8 with
    | none => s
    | some p =>
      let s := s.takeArrived s.cur.t is8
      match s.liveRes p.h.resid with
      | none => s
      | some r =>
        s.withCur p.h.info.toNat fun s =>
          let c := s.me
          if c.resid ≠ some r.num then s
          else if p.h.op = opRecord then
            let x := Task.ofBits (p.pay.headD 0)
            if c.run = .idle then s.setMe (c.startTask x)
            else (match s.dequeRoom s.cur.ctx with | .ok s => s | _ => s).pushTask s.cur.ctx x
          else
            match c.run, c.steal with
            | .idle, .asking pos => s.askVictim r (pos + 1)
            | _, _ => s)

/-! ## Delivery of messages (R40) -/

/-- Capture and replay of a host injection's delivery (23_management.md R390, R391). -/
def State.injectGate (s : State) (t : Nat) (p : Packet) : Gate :=
  if p.h.op = opHostMessage then s.gate t p.h.resid { d0 := captHead 4 0 0, d1 := p.h.info } false else .pass s

/-- Can a message join its target's deque: with room, or by a spill that faults and for which its tile may ask for service (R40,
22_faults_discard.md R378)? -/
def State.dequeTakes (s : State) (t k : Nat) : Bool :=
  !(s.sched.spills.any fun x => x.tile == t && x.party == 3 && x.key == k) &&
  match s.dequeRoom k with
  | .ok _ => true
  | .fault _ _ => !s.sched.spills.any fun x => x.blocks t 3 k 0
  | _ => false

/-- Need a message at a tile not wait: for its residency's start, for room in its target's deque, or for the service of a failed spill
(R40)? A message that waits holds up no other. (DEDUCED, log 61) -/
def State.takesMessage (s : State) (t : Nat) (p : Packet) : Bool :=
  match s.liveRes p.h.resid with
  | none => true
  | some r =>
    let k := (t * 4 + p.h.dq) * 4 + r.banks.getD p.h.dfold 0
    r.started && (!s.inResidency r (t * 4 + p.h.dq) p.h.dfold || (s.ctx k).run == .idle || s.dequeTakes t k)

/-- A message at a tile that need not wait, for its target or for its turn in a replay. (DEDUCED, log 61) -/
def State.isMessage (s : State) (t : Nat) (p : Packet) : Bool :=
  p.h.kind == 6 && s.takesMessage t p && match s.injectGate t p with | .hold => false | _ => true

/-- A peer's injection waits at its root for its turn among the pot's events (R43). -/
def State.queuePeerInjection (s : State) (r : Residency) (p : Packet) : State :=
  { s with inbox := s.inbox ++ [⟨r.rootTile, { p with h := { p.h with kind := 9 } }⟩] }

/-- Where a message's target has no room until a walk of its spill is over, the walk is asked for. -/
def State.seekRoom (s : State) (t : Nat) : State :=
  (s.inbox.filter fun x => x.node == t && x.p.h.kind == 6).foldl (fun s x =>
    match s.liveRes x.p.h.resid with
    | none => s
    | some r =>
      match s.dequeRoom ((t * 4 + x.p.h.dq) * 4 + r.banks.getD x.p.h.dfold 0) with
      | .wait s => s
      | _ => s) s

/-- `ACTIVE_MESSAGE_ARRIVAL`: a message starts an idle worker, or is pushed at the bottom of its target's deque (R40); one for a
residency that is not live, or that cannot be admitted, is dropped; a peer's injection takes its units first. (DEDUCED, log 61) -/
def execActiveMessageArrival (s : State) : Host.Outcome State Fault Refusal :=
  .next
    (let t := s.cur.t
    match s.arrived t (s.isMessage t) with
    | none => s.seekRoom t
    | some p =>
      let rest := s.takeArrived t (s.isMessage t)
      match s.liveRes p.h.resid with
      | none => rest.dropMessage t 1 p
      | some r =>
        if s.inResidency r (t * 4 + p.h.dq) p.h.dfold = false then rest.dropMessage t 1 p
        else if p.h.op = opInject ∧ r.potValid = true ∧ s.potNow r = false then rest.queuePeerInjection r p
        else
          let k := (t * 4 + p.h.dq) * 4 + r.banks.getD p.h.dfold 0
          let x := Task.ofBits (p.pay.headD 0)
          let put (s : State) (stake : W64) : State :=
            let x := { x with stake := stake }
            if (s.ctx k).run = .idle then s.setCtx k ((s.ctx k).startTask x) else s.pushTask k x
          let place (s : State) : State :=
            if p.h.op = opInject then
              match s.grant r with
              | (none, s) => s.dropMessage t 1 p
              | (some n, s) => put s n
            else
              match s.injectGate t p with
              | .pass s => put s x.stake
              | .hold => s
              | .diverge s => s
          if (s.ctx k).run = .idle then place rest
          else
            match rest.dequeRoom k with
            | .ok s => place s
            | .fault u va => ({ u with inbox := s.inbox }).askSpill r.num t 3 k 0 va
            | _ => s)

end Sys2Proof.Machine
end

