-- ==== Sys2Proof/Machine/Banks.lean ====
section
/-! DEFINITION. What a tile's banks do by themselves: spill and refill of queues (03_memory_spaces.md R69, R70), changes of mode and
interleave (R60, R61, R63), and the request for spill service (22_faults_discard.md R378). The turn's place names tile and bank. -/

namespace Sys2Proof.Machine

/-! ## Queues with a spill ring (R69, R70) -/

/-- Blocks that a queue's ring holds, and the address of one. -/
def Bank.ringSize (b : Bank) : Nat := b.spillSize / 1056
def Bank.block (b : Bank) (i : Nat) : W64 := b.spillBase + BitVec.ofNat 64 (i % b.ringSize * 1056)

/-- The 1,056 bytes of a block: the data of 32 entries, then their tags. -/
def blockOf (l : List NetWord) : Nat :=
  l.foldr (fun w acc => w.data.toNat + acc * 2 ^ 256) 0 + l.foldr (fun w acc => w.tag.toNat + acc * 16) 0 * 2 ^ 8192

/-- The entries of a block. -/
def blockWords (v : Nat) : List NetWord :=
  (List.range 32).map fun i => ⟨BitVec.ofNat 256 (v / 2 ^ (256 * i)), BitVec.ofNat 4 (v / 2 ^ (8192 + 4 * i))⟩

/-- The residency that owns a bank. -/
def State.bankOwner (s : State) (t n : Nat) : Nat :=
  match (s.bank t n).owner with
  | none => 0
  | some b => (s.bankResid t b).getD 0

/-- A full staging block is written at the ring's tail; a full ring is named by an event, once, and a translation fault makes the queue
spill-faulted (R69, R70). -/
def State.spillBlock (s : State) (t n : Nat) : State :=
  let b := s.bank t n
  let r := s.bankOwner t n
  if b.staging.length < 32 ∨ b.spillFaulted = true then s
  else if b.ringSize ≤ b.ringCount then
    if b.fullPosted then s
    else (s.setBank t n { b with fullPosted := true }).tileEvent t (eventWord 0x15 0 r t 0 (b.owner.getD 0) n) b.spillBase 0 (some r)
  else
    match s.move t r .engine (b.block (b.ringHead + b.ringCount)) 1056 (some (blockOf (b.staging.take 32))) with
    | .wait s => s
    | .miss s va => (s.setBank t n { b with spillFaulted := true }).askSpill r t 2 0 n va
    | .begun s _ => s.setBank t n { b with staging := b.staging.drop 32, ringCount := b.ringCount + 1 }

/-- The ring's head block is refilled into the bank when 32 entries are free, by requests (R69); one that cannot be read is tried
again. (DESIGN CHOICE, log 38) -/
def State.refillBlock (s : State) (t n : Nat) : State :=
  let b := s.bank t n
  if b.fetch = [] then
    if 512 < b.queue.length + b.reserved + 32 ∨ (b.refillBad = true ∧ s.retries = false) then s
    else
      match s.move t (s.bankOwner t n) (.bank n) (b.block b.ringHead) 1056 none with
      | .wait s => s
      | .miss s _ => s.setBank t n { b with refillBad := true }
      | .begun s ps => s.setBank t n { b with fetch := ps }
  else if allAnswered b.fetch = false ∨ 512 < b.queue.length + b.reserved + 32 then s
  else if anyFailed b.fetch then s.setBank t n { b with fetch := [], refillBad := true }
  else s.setBank t n { b with
    fetch := [], refillBad := false, queue := b.queue ++ blockWords (pieceValue b.fetch), ringHead := (b.ringHead + 1) % b.ringSize
    ringCount := b.ringCount - 1, fullPosted := false }

/-- The ring's head block comes back, or with none the oldest staging word moves (R69), unless its write has failed (R70). -/
def State.refill (s : State) (t n : Nat) : State :=
  let b := s.bank t n
  if 0 < b.ringCount then s.refillBlock t n
  else
    match b.staging with
    | [] => s
    | w :: r =>
      if b.queue.length + b.reserved < 512 ∧ b.spillFaulted = false then s.setBank t n { b with queue := b.queue ++ [w], staging := r } else s

/-- `FIFO_SPILL_REFILL` (R69). -/
def execFifoSpillRefill (s : State) : Host.Outcome State Fault Refusal :=
  .next (if (s.bank s.cur.t s.cur.n).mode = .fifo then (s.spillBlock s.cur.t s.cur.n).refill s.cur.t s.cur.n else s)

/-! ## Changes of mode and interleave (R60, R61, R63) -/

/-- Does a change keep the bytes of a bank: a change of interleave alone, in SCRATCH mode (R63)? (DEDUCED, log 66) -/
def Bank.keeps (b : Bank) (c : BankChange) : Bool := b.mode == .scratch && c.mode == .scratch

/-- Clear a bank's bytes to zero, and what is known of them. -/
def State.clearBank (s : State) (t n : Nat) : State := s.wipe (sramKey t n 0) (2 ^ 14)

/-- A bank leaves its lines of the tile cache. -/
def State.dropWay (s : State) (t n : Nat) : State :=
  s.setTile t { s.tile t with cache := (s.tile t).cache.filter fun e => e.1 / 128 != n }

/-- A change takes effect on one bank. (DEDUCED, log 66) -/
def State.changeBank (s : State) (t n : Nat) (c : BankChange) : State :=
  let b := s.bank t n
  let s := if b.keeps c then s else (s.clearBank t n).dropWay t n
  s.setBank t n (b.changed c)

/-- `BANK_MODE_CHANGE_EFFECT`: the oldest change of the place's bank takes effect on its whole group when it is the oldest of every bank
there; the `bset` that made it completes (R63). (DESIGN CHOICE, log 9; DEDUCED, log 66) -/
def execBankModeChangeEffect (s : State) : Host.Outcome State Fault Refusal :=
  .next
    (let t := s.cur.t
    match (s.bank t s.cur.n).pending with
    | [] => s
    | c :: _ =>
      let w := 2 ^ c.il
      let g := (List.range w).map fun j => s.cur.n / w * w + j
      if g.any fun n => (s.bank t n).pending.head? != some c then s
      else
        let s := g.foldl (fun s n => s.changeBank t n c) s
        s.withCur c.who fun s =>
          match s.me.wait with
          | .bank _ => s.complete
          | _ => s)

/-! ## Spill service (22_faults_discard.md R378) -/

/-- A service tag that none of some has: the device's choice. (DESIGN CHOICE, log 8) -/
def freshTag (used : List Nat) (k : Nat) : Nat :=
  if used.contains k = false then k
  else ((List.range (used.length + 1)).find? fun j => !used.contains j).getD 0

/-- The tags that a new request of a residency must not have: those it was ever given, so that a repeated fault has a new one, and once
they run out those of its outstanding requests (R378). -/
def State.usedTags (s : State) (r : Nat) : List Nat :=
  let open_ := s.sched.spills.filterMap fun y => if y.resid = r then y.tag else none
  let given := match s.findRes r with | none => [] | some x => x.tags
  if 2 ^ 16 - 1 ≤ given.length then open_ else given ++ open_

/-- `SPILL_FAULT`: the oldest request not yet posted is, once the scheduler's buffer has room (R375, R378). -/
def execSpillFault (s : State) : Host.Outcome State Fault Refusal :=
  .next
    (if 64 ≤ s.sched.buffer.length then s
    else
      match s.sched.spills.find? fun x => x.tag.isNone with
      | none => s
      | some x =>
        let tag := freshTag (s.usedTags x.resid) (Config.serviceTag s.free).toNat
        let p : Cur := if x.party = 2 then { b := (s.bank x.tile x.queue).owner.getD 0 } else placeOf x.key
        let spills := s.sched.spills.map fun y =>
          if y.tile = x.tile ∧ y.party = x.party ∧ y.key = x.key ∧ y.queue = x.queue ∧ y.tag = none then { y with tag := some tag } else y
        let s := { s with free := s.free + 1, sched := { s.sched with spills := spills } }
        let s := match s.findRes x.resid with | none => s | some r => s.setRes { r with tags := tag :: r.tags }
        s.post ⟨s.queueOf x.resid, eventWord 0x16 x.party x.resid x.tile p.q p.b x.queue, x.va, BitVec.ofNat 64 tag⟩)

end Sys2Proof.Machine
end

