-- ==== Sys2Proof/Machine/Barrier.lean ====
section
/-! DEFINITION. Barriers (08_copies_barriers.md R163, R164; 15_matrix_system_instructions.md R278, R287). -/

namespace Sys2Proof.Machine

/-- Does a barrier index lie in a context's share (R163)? -/
def Ctx.holdsBar (c : Ctx) (idx : Nat) : Bool := c.bars.any fun x => decide (x.1 ≤ idx) && decide (idx < x.1 + x.2)

/-- The barrier that a name gives on a tile's cluster, if it lies in a residency's share of that core's file: its core and index
(R278, R163). (DEDUCED, log 44) -/
def State.barPlace (s : State) (t r name : Nat) : Option (Nat × Nat) :=
  let c := name / 1024
  let core := clusterTile (clusterOf t) (c / 4) * 4 + c % 4
  let idx := name % 1024
  let owned := (List.range 4).any fun b =>
    let x := s.ctx (core * 4 + b)
    x.resid == some r && x.holdsBar idx
  if c < 24 ∧ owned = true then some (core, idx) else none

def State.barrier (s : State) (core idx : Nat) : Barrier := (s.core core).barriers.get {} idx

def State.setBarrier (s : State) (core idx : Nat) (b : Barrier) : State :=
  s.setCore core { s.core core with barriers := (s.core core).barriers.set idx b }

/-- `binit` (R163): the phase stays. -/
def Barrier.init (b : Barrier) (n : Nat) : Barrier := { b with expected := n, arrived := 0, err := false }

/-- One arrival (R163): at the expected count the arrived count returns to 0 and the phase inverts. -/
def Barrier.arrive (b : Barrier) (err : Bool) : Barrier :=
  if b.arrived + 1 = b.expected then { b with arrived := 0, phase := !b.phase, err := b.err || err }
  else { b with arrived := b.arrived + 1, err := b.err || err }

/-- An operation on a named barrier of the context whose turn it is; another name faults (R278). One over the cluster path stands behind
the instructions of the owning tile's cores (R164): unless this is such a late turn, the turn is put off. (DEDUCED, log 44; DESIGN CHOICE,
log 76) -/
def State.onBarrier (s : State) (name : W64) (f : Nat → Nat → Barrier → Res) : Res :=
  match s.barPlace s.cur.t (s.me.resid.getD 0) name.toNat with
  | none => .trap ⟨0x23, 0, name⟩
  | some (core, idx) => if core / 4 ≠ s.cur.t ∧ s.late = false then .stall { s with clash := true } else f core idx (s.barrier core idx)

/-- The arrival of `barr` and its result, the phase before it. -/
def State.barrArrive (s : State) (d : BitVec 5) (core idx : Nat) : State :=
  let b := s.barrier core idx
  (s.setBarrier core idx (b.arrive false)).put d (if b.phase then 1 else 0)

/-- `binit` (R287): a count of 0 or above 65,535 raises the descriptor fault. -/
def execBinit (a b : BitVec 5) (s : State) : Host.Outcome State Fault Refusal :=
  .next (s.issueS 4 [rd a, rd b] [] fun x s =>
    s.onBarrier (x 0) fun core idx y =>
      if x 1 = 0 ∨ 65535 < (x 1).toNat then .trap ⟨0x21, 0, 0⟩
      else .ok (s.setBarrier core idx (y.init (x 1).toNat)))

/-- The arrival of a `barr` that has waited for its context's earlier writes, in the turn of its core or behind the turns of all (R164). (DEDUCED,
log 77; DESIGN CHOICE, log 76) -/
def State.barrLate (s : State) (d : BitVec 5) (core idx : Nat) : State :=
  if core / 4 ≠ s.cur.t ∧ s.late = false then { s with clash := true } else (s.barrArrive d core idx).complete

/-- `barr` (R287): a full release at CLUSTER scope: it pops its port (04_static_network.md R79), and its arrival waits for the context's earlier
writes (05_consistency.md R101) and then takes its place at the file. The turn of a context that waits so is that arrival. (DEDUCED, log 77) -/
def execBarr (d a : BitVec 5) (s : State) : Host.Outcome State Fault Refusal :=
  .next
    (match s.me.wait with
    | .barr d core idx [] => s.barrLate d core idx
    | _ =>
      s.issueS 4 [rd a] [d] fun x s =>
        s.onBarrier (x 0) fun core idx _ =>
          let w := s.releaseSet s.cur.ctx 2
          if w = [] then .ok (s.barrArrive d core idx)
          else .hold (s.setMe { s.me with wait := .barr d core idx w }))

/-- `bwait` (R287): sleeps while the phase is the one given, then returns the error flag. -/
def execBwait (d a b : BitVec 5) (s : State) : Host.Outcome State Fault Refusal :=
  .next (s.issueS 4 [rd a, rd b] [d] fun x s =>
    s.onBarrier (x 0) fun _ _ y =>
      let ph := (x 1).getLsbD 0
      if y.phase = ph then .hold (s.setMe { s.me with wait := .bwait d ((x 0).setWidth 15) ph })
      else .ok (s.put d (if y.err then 1 else 0)))

/-- `btest` (R287): phase + 2·error. -/
def execBtest (d a : BitVec 5) (s : State) : Host.Outcome State Fault Refusal :=
  .next (s.issueS 4 [rd a] [d] fun x s =>
    s.onBarrier (x 0) fun _ _ y => .ok (s.put d ((if y.phase then 1 else 0) + (if y.err then 2 else 0))))

/-- `BWAIT_WAKE`: the file's notice of a phase change reaches the sleeping context (R287). -/
def execBwaitWake (s : State) : Host.Outcome State Fault Refusal :=
  .next
    (match s.me.wait with
    | .bwait d name ph =>
      match s.barPlace s.cur.t (s.me.resid.getD 0) name.toNat with
      | none => s
      | some (core, idx) =>
        let y := s.barrier core idx
        if y.phase = ph then s else (s.put d (if y.err then 1 else 0)).complete
    | _ => s)

/-- `BARRIER_ENGINE_ARRIVAL`: the oldest completion of an engine waiting at the tile arrives on its barrier (R163, R164). -/
def execBarrierEngineArrival (s : State) : Host.Outcome State Fault Refusal :=
  .next
    (let x := s.tile s.cur.t
    match x.arrivals with
    | [] => s
    | a :: r =>
      let s := s.setTile s.cur.t { x with arrivals := r }
      s.setBarrier a.core a.idx ((s.barrier a.core a.idx).arrive a.err))

/-- Queue the arrival of an engine completion of a tile on a named barrier of a residency; a name without a barrier of the residency
is none (R165). (DEDUCED, log 44) -/
def State.engineArrive (s : State) (t r name : Nat) (err : Bool) : State :=
  match s.barPlace t r name with
  | none => s
  | some (core, idx) =>
    let u := core / 4
    s.setTile u { s.tile u with arrivals := (s.tile u).arrivals ++ [(⟨core, idx, err⟩ : Arrival)] }

end Sys2Proof.Machine
end

