-- ==== Sys2Proof/Machine/Lanes.lean ====
section
/-! DEFINITION. Vector lanes and masking (13_vector_instructions.md R243 to R245; 06_numerics.md R112). -/

namespace Sys2Proof.Machine

/-- Lane width and number of lanes that VCFG.W gives (R112). -/
def Ctx.laneW (c : Ctx) : Nat := 8 * 2 ^ (c.vcfg.extractLsb' 0 2).toNat
def Ctx.laneN (c : Ctx) : Nat := 256 / c.laneW

/-- VCFG.ZM (R244). -/
def Ctx.zm (c : Ctx) : Bool := c.vcfg.getLsbD 2

/-- Lane `l` of width `w`. -/
def lane (x : W256) (w l : Nat) : Nat := x.toNat / 2 ^ (w * l) % 2 ^ w

/-- The vector whose lanes 0 to n − 1 are given. -/
def ofLanes (w : Nat) (f : Nat → Nat) : Nat → Nat
  | 0 => 0
  | n + 1 => ofLanes w f n + f n % 2 ^ w * 2 ^ (w * n)

def vecOf (w n : Nat) (f : Nat → Nat) : W256 := BitVec.ofNat 256 (ofLanes w f n)

/-- The earlier value of a vector destination: none, and zero, for a port (R245). -/
def State.oldV (s : State) (d : BitVec 5) : W256 := if 27 ≤ d.toNat then 0 else s.me.v d.toNat

/-- What lane `l` of a destination holds after a masked write: its new value when active, else the old value or zero (R245). -/
def State.keepLane (s : State) (d : BitVec 5) (w l : Nat) : Nat := if s.me.zm then 0 else lane (s.oldV d) w l

/-- The masked result of a lane-wise instruction (R245). -/
def State.masked (s : State) (d : BitVec 5) (k : BitVec 3) (w n : Nat) (f : Nat → Nat) : W256 :=
  vecOf w n fun l => if (s.me.k k.toNat).getLsbD l then f l else s.keepLane d w l

/-- The union of the flags of the active lanes. -/
def laneFlags (mask : BitVec 32) (f : Nat → BitVec 6) (n : Nat) : BitVec 6 :=
  (List.range n).foldl (fun acc l => if mask.getLsbD l then acc ||| f l else acc) 0

end Sys2Proof.Machine
end

