-- ==== Sys2Proof/Machine/Memory.lean ====
section
/-! DEFINITION. Memory, atomic, space and ordering instructions (12_memory_instructions.md R225 to R241). -/

namespace Sys2Proof.Machine

/-! ## Loads and stores (R225 to R227) -/

/-- The effective address of format M (R223): get(ra) + sext(imm) · A. -/
def effective (b : W64) (i : BitVec 11) (unit : Nat) : W64 := b + BitVec.ofInt 64 (i.toInt * unit)

/-- A fault of a plain access names the access. (DEDUCED, log 50) -/
def nameAccess (a : W64) (c : Trap) : Trap := if c.cause = 0x1A then { c with addr := a } else c

/-- Read `n` bytes at an address for the context whose turn it is. -/
def State.load (s : State) (a : W64) (n al : Nat) (fin : Fin) (done : State → Nat → Res) : Res :=
  if s.changing a n then .wait else
  match s.checkAccess s.me s.cur.t a n al with
  | some c => .trap c
  | none => s.readAll (parts a n) (fun _ => none) fin (nameAccess a) done

/-- Write `n` bytes at an address for the context whose turn it is. -/
def State.store (s : State) (a : W64) (n al v : Nat) : Res :=
  if s.changing a n then .wait else
  match s.checkAccess s.me s.cur.t a n al with
  | some c => .trap c
  | none => s.writeAll (parts a n) v (fun _ => none) (nameAccess a)

/-- `ld.z` (R225). -/
def execLd (d a : BitVec 5) (i : BitVec 11) (z : BitVec 2) (s : State) : Host.Outcome State Fault Refusal :=
  .next (s.issueS 4 [rd a] [d] fun x s =>
    let n := 2 ^ z.toNat
    s.load (effective (x 0) i n) n 1 (.load d) fun s v => .ok (s.put d (BitVec.ofNat 64 v)))

/-- `st.z` (R226). -/
def execSt (d a : BitVec 5) (i : BitVec 11) (z : BitVec 2) (s : State) : Host.Outcome State Fault Refusal :=
  .next (s.issueS 4 [rd a, rd d] [] fun x s =>
    let n := 2 ^ z.toNat
    s.store (effective (x 0) i n) n 1 (x 1).toNat)

/-- A vector load of `n` bytes (R227). -/
def State.vectorLoad (s : State) (n : Nat) (d a : BitVec 5) (i : BitVec 11) : State :=
  s.issueS 4 [rd a] [d] fun x s =>
    s.load (effective (x 0) i n) n 1 (.vload d) fun s v => .ok (s.putV d (BitVec.ofNat 256 v))

/-- A vector store of `n` bytes (R227). -/
def State.vectorStore (s : State) (n : Nat) (d a : BitVec 5) (i : BitVec 11) : State :=
  s.issue 4 [rd a, rd d] (fun k => k == 1) [] (fun _ => false) fun x s =>
    s.store (effective ((x 0).setWidth 64) i n) n 1 (x 1).toNat

/-- `vld` (R227). -/
def execVld (d a : BitVec 5) (i : BitVec 11) (s : State) : Host.Outcome State Fault Refusal := .next (s.vectorLoad 32 d a i)

/-- `vld.lo` (R227). -/
def execVldLo (d a : BitVec 5) (i : BitVec 11) (s : State) : Host.Outcome State Fault Refusal := .next (s.vectorLoad 16 d a i)

/-- `vst` (R227). -/
def execVst (d a : BitVec 5) (i : BitVec 11) (s : State) : Host.Outcome State Fault Refusal := .next (s.vectorStore 32 d a i)

/-- `vst.lo` (R227). -/
def execVstLo (d a : BitVec 5) (i : BitVec 11) (s : State) : Host.Outcome State Fault Refusal := .next (s.vectorStore 16 d a i)

/-! ## Gather and scatter (R228) -/

/-- The active lanes of a mask, ascending. -/
def State.activeLanes (s : State) (k : BitVec 3) (n : Nat) : List Nat :=
  (List.range n).filter fun l => (s.me.k k.toNat).getLsbD l

/-- The elements of a gather or scatter: address and place of each active lane. -/
def State.elements (s : State) (base : W64) (off : W256) (k : BitVec 3) (fs : BitVec 2) (t : BitVec 2) : List Part :=
  let w := s.me.laneW
  (s.activeLanes k s.me.laneN).map fun l =>
    let o : Int := if t = 0#2 then sext (lane off w l) w else lane off w l
    ⟨base + BitVec.ofInt 64 (o * 2 ^ fs.toNat), l * (w / 8), w / 8⟩

/-- The check of one element (R228). -/
def State.checkElement (s : State) (p : Part) : Option Trap := s.checkAccess s.me s.cur.t p.addr p.n p.n

/-- A fault of an element holds its lane in TRAPINFO (R228). (DEDUCED, log 50) -/
def nameLane (ps : List Part) (c : Trap) : Trap :=
  match ps.find? fun p => p.addr = c.addr with
  | some p => { c with info := BitVec.ofNat 64 (p.off / p.n) }
  | none => c

/-- The result of a gather whose element values stand at their places in `v` (R228, R245). -/
def State.gathered (s : State) (d : BitVec 5) (lanes : List Nat) (w v : Nat) : W256 :=
  vecOf w (256 / w) fun l => if lanes.contains l then v / 2 ^ (w * l) % 2 ^ w else s.keepLane d w l

/-- `vgat` (R228). -/
def execVgat (d a b : BitVec 5) (fs : BitVec 2) (k : BitVec 3) (t : BitVec 2) (s : State) : Host.Outcome State Fault Refusal :=
  .next (s.issue 4 [rd a, rd b] (fun i => i == 0) [d] (fun _ => false) fun x s =>
    let ps := s.elements ((x 1).setWidth 64) (x 0) k fs t
    let lanes := s.activeLanes k s.me.laneN
    let w := s.me.laneW
    s.readAll ps s.checkElement (.gather d lanes w) (nameLane ps) fun s v => .ok (s.putV d (s.gathered d lanes w v)))

/-- `vsct` (R228). -/
def execVsct (d a b : BitVec 5) (fs : BitVec 2) (k : BitVec 3) (t : BitVec 2) (s : State) : Host.Outcome State Fault Refusal :=
  .next (s.issue 4 [rd a, rd b, rd d] (fun i => i != 1) [] (fun _ => false) fun x s =>
    let ps := s.elements ((x 1).setWidth 64) (x 0) k fs t
    s.writeAll ps (x 2).toNat s.checkElement (nameLane ps))

/-- `stm`: the mask is a byte mask of one sector (R229). -/
def execStm (d a : BitVec 5) (k : BitVec 3) (s : State) : Host.Outcome State Fault Refusal :=
  .next (s.issue 4 [rd a, rd d] (fun i => i == 1) [] (fun _ => false) fun x s =>
    let addr : W64 := (x 0).setWidth 64
    if s.changing addr 32 then .wait else
    match s.checkAccess s.me s.cur.t addr 32 32 with
    | some c => .trap c
    | none =>
      match s.findHomes (fun _ => none) true [⟨addr, 0, 32⟩] with
      | .wait => .wait
      | .walk va => .pause (s.startWalk va true)
      | .fail c => .trap c
      | .all l =>
        let m := s.me.k k.toNat
        if m = 0 then .ok s else .ok (l.foldl (fun s y => s.writePart y.1 y.2 m (x 1)) s))

/-! ## Atomics and compare-and-swap (R230 to R232) -/

/-- Perform an atomic of the context whose turn it is at an address that passed its checks: a release first waits for the events it
covers (R105). -/
def State.atomic (s : State) (d : BitVec 5) (op : AOp) (ord fs : Nat) (a b e : W64) : Res :=
  let n := if op.word then 4 else 8
  let k := s.cur.ctx
  if s.changing a n then .wait else
  match s.checkAccess s.me s.cur.t a n n with
  | some c => .trap c
  | none =>
    match s.findHome a true with
    | .wait => .wait
    | .walk va => .pause (s.startWalk va true)
    | .fail c => .trap c
    | .home h =>
      let go (s : State) : Res :=
        match h with
        | .sram key =>
          if s.badAt key n then .trap ⟨0x1A, a, 0⟩
          else let r := s.atomicAt key op b e; .ok (r.2.put d r.1)
        | _ =>
          let r := s.me.resid.getD 0
          let s := match h with | .mem pa => s.invalidate s.cur.t r pa | _ => s
          let q := s.request s.cur.t r k (.ctx k) 2 h a op.bits 0 [(0#128 ++ e ++ b : W256)] false
          .hold (q.2.setMe { q.2.me with wait := .mem (.atomic d) [{ tid := q.1, addr := a, off := 0, n := n, val := none }] })
      match h with
      | .mem pa => if 2 ^ 40 ≤ pa then .trap ⟨0x1D, a, 0⟩ else release ord fs k s go
      | _ => release ord fs k s go
where
  /-- The wait of a release order, then the atomic. -/
  release (ord fs k : Nat) (s : State) (go : State → Res) : Res :=
    let w := if 2 ≤ ord then s.releaseSet k fs else []
    if w = [] then go s else .pause (s.setMe { s.me with wait := .acks w .again })

/-- An atomic of R230. -/
def State.atom (s : State) (op : Nat) (d a b : BitVec 5) (o : BitVec 2) (fs : BitVec 3) : State :=
  s.issueS 4 [rd a, rd b] [d] fun x s => s.atomic d ⟨op, false, false⟩ o.toNat fs.toNat (x 0) (x 1) 0

/-- `aswap`: memory becomes b (R230). -/
def execAswap (d a b : BitVec 5) (o : BitVec 2) (fs : BitVec 3) (s : State) : Host.Outcome State Fault Refusal :=
  .next (s.atom 0 d a b o fs)

/-- `aadd`: memory becomes old + b (R230). -/
def execAadd (d a b : BitVec 5) (o : BitVec 2) (fs : BitVec 3) (s : State) : Host.Outcome State Fault Refusal :=
  .next (s.atom 1 d a b o fs)

/-- `aand`: memory becomes old & b (R230). -/
def execAand (d a b : BitVec 5) (o : BitVec 2) (fs : BitVec 3) (s : State) : Host.Outcome State Fault Refusal :=
  .next (s.atom 2 d a b o fs)

/-- `aor`: memory becomes old | b (R230). -/
def execAor (d a b : BitVec 5) (o : BitVec 2) (fs : BitVec 3) (s : State) : Host.Outcome State Fault Refusal :=
  .next (s.atom 3 d a b o fs)

/-- `axor`: memory becomes old ^ b (R230). -/
def execAxor (d a b : BitVec 5) (o : BitVec 2) (fs : BitVec 3) (s : State) : Host.Outcome State Fault Refusal :=
  .next (s.atom 4 d a b o fs)

/-- `amax`: memory becomes the larger of sg(old) and sg(b) (R230). -/
def execAmax (d a b : BitVec 5) (o : BitVec 2) (fs : BitVec 3) (s : State) : Host.Outcome State Fault Refusal :=
  .next (s.atom 5 d a b o fs)

/-- `amin`: memory becomes the smaller of sg(old) and sg(b) (R230). -/
def execAmin (d a b : BitVec 5) (o : BitVec 2) (fs : BitVec 3) (s : State) : Host.Outcome State Fault Refusal :=
  .next (s.atom 6 d a b o fs)

/-- `amaxu`: memory becomes the larger of un(old) and un(b) (R230). -/
def execAmaxu (d a b : BitVec 5) (o : BitVec 2) (fs : BitVec 3) (s : State) : Host.Outcome State Fault Refusal :=
  .next (s.atom 7 d a b o fs)

/-- `cas`: rd holds the expected value, rb the new one; ports pop in the order ra, rd, rb (R231). -/
def execCas (d a b : BitVec 5) (o : BitVec 2) (fs : BitVec 3) (w : BitVec 1) (s : State) : Host.Outcome State Fault Refusal :=
  .next (s.issueS 4 [rd a, rd d, rd b] [d] fun x s => s.atomic d ⟨0, true, w == 1#1⟩ o.toNat fs.toNat (x 0) (x 2) (x 1))

/-! ## Space test and cast (R233; 03_memory_spaces.md R58, R59) -/

/-- The class word of an address (R58). (DEDUCED, log 29) -/
def State.classOf (s : State) (a : W64) : W64 :=
  match winOf a with
  | none => 7
  | some w =>
    let c : W64 := match w with | .global => 0 | .priv => 1 | .scratch => 2 | .cluster => 3 | .fabric => 4
    if (s.checkWindow s.me s.cur.t a 1).isNone then c + 8 else c

/-- `gtest` (R58). -/
def execGtest (d a : BitVec 5) (s : State) : Host.Outcome State Fault Refusal :=
  .next (s.issueS 4 [rd a] [d] fun x s => .ok (s.put d (s.classOf (x 0))))

/-- The encoding of tile and scratch offset in a window (R53). -/
def encodePlace (w : Win) (t o : Nat) : W64 :=
  match w with
  | .scratch => BitVec.ofNat 64 (0xF9 * 2 ^ 56 + t * 2 ^ 44 + o)
  | .cluster => BitVec.ofNat 64 (0xFA * 2 ^ 56 + clusterOf t * 2 ^ 47 + inCluster t * 2 ^ 44 + o)
  | .fabric => BitVec.ofNat 64 (0xFB * 2 ^ 56 + t * 2 ^ 44 + o)
  | _ => 0

/-- Do the fields of an address pass the field checks of R54, its first two? (DEDUCED, log 29) -/
def State.fieldsOk (s : State) (a : W64) : Bool :=
  match winOf a with
  | none => false
  | some .global => true
  | some .priv => true
  | some .cluster =>
    decide ((a.extractLsb' 44 3).toNat < 6) && s.present (clusterTile (a.extractLsb' 47 9).toNat (a.extractLsb' 44 3).toNat)
  | some _ => s.present (a.extractLsb' 44 12).toNat

/-- The conversion table of R59: the converted address, if the conversion is listed. (DEDUCED, log 29) -/
def State.cast (s : State) (a : W64) (tgt : Win) : Option W64 :=
  let c := s.me
  let own := s.cur.t
  match winOf a with
  | none => none
  | some w =>
    if w = tgt then (if s.fieldsOk a then some a else none)
    else if w = .global ∨ tgt = .global then none
    else
      let p := sramPlace c own w a
      match w, tgt with
      | .priv, _ => if (a.extractLsb' 0 16).toNat < c.privSize then some (encodePlace tgt own p.2) else none
      | _, .priv =>
        if p.1 = own ∧ (w ≠ .cluster ∨ (a.extractLsb' 44 3).toNat < 6) ∧ c.privStart ≤ p.2 ∧ p.2 < c.privStart + c.privSize then
          some (BitVec.ofNat 64 (0xF8 * 2 ^ 56 + (p.2 - c.privStart))) else none
      | .scratch, .fabric => some (encodePlace .fabric p.1 p.2)
      | .cluster, .fabric => if (a.extractLsb' 44 3).toNat < 6 then some (encodePlace .fabric p.1 p.2) else none
      | .cluster, .scratch => if (a.extractLsb' 44 3).toNat < 6 ∧ p.1 = own then some (encodePlace .scratch own p.2) else none
      | .fabric, .scratch => if p.1 = own then some (encodePlace .scratch own p.2) else none
      | _, .cluster =>
        if s.present p.1 = true ∧ clusterOf p.1 = clusterOf own then some (encodePlace .cluster p.1 p.2) else none
      | _, _ => none

/-- The window that a `gcast` function code names (R233). -/
def castTo (w : BitVec 3) : Win :=
  match w.toNat with
  | 0 => .global
  | 1 => .priv
  | 2 => .scratch
  | 3 => .cluster
  | _ => .fabric

/-- `gcast` (R59). -/
def execGcast (d a : BitVec 5) (w : BitVec 3) (s : State) : Host.Outcome State Fault Refusal :=
  .next (s.issueS 4 [rd a] [d] fun x s =>
    match s.cast (x 0) (castTo w) with
    | some v => .ok (s.put d v)
    | none => .trap ⟨0x1C, x 0, 0⟩)

/-! ## Cache operations (R234) -/

/-- The fault of a `cinv` or `cflush` range: its start first, then its end (R234). -/
def cacheRangeFault (a n : W64) : Option Trap :=
  if winOf a ≠ some .global ∨ 2 ^ 56 < a.toNat + n.toNat then some ⟨0x10, a, 0⟩ else none

/-- First sector address and number of sectors of a range, rounded outward; none for a length of 0. -/
def rangeSectors (a n : W64) : Nat × Nat :=
  if n = 0 then (0, 0) else (a.toNat / 32 * 32, (a.toNat + n.toNat - 1) / 32 - a.toNat / 32 + 1)

/-- The sectors of a range by virtual address. -/
def rangeList (a n : W64) : List W64 :=
  let g := rangeSectors a n
  (List.range g.2).map fun j => BitVec.ofNat 64 (g.1 + 32 * j)

/-- Invalidate `left` sectors from an address on in a residency's tile cache: the pages that fail translation are skipped. Where a
translation must wait, the address and the number of sectors left. (DEDUCED, log 27) -/
def State.sweep (s : State) (t r : Nat) : Nat → W64 → Nat → Option (W64 × Nat) × State
  | 0, _, _ => (none, s)
  | _, _, 0 => (none, s)
  | fuel + 1, va, left + 1 =>
    match s.seek t r va false with
    | (.at_ pa, s) => (s.invalidate t r pa).sweep t r fuel (va + 32) left
    | (.fail, s) =>
      let n := (2 ^ 16 - va.toNat % 2 ^ 16) / 32
      s.sweep t r fuel (va + BitVec.ofNat 64 (32 * n)) (left + 1 - n)
    | (.wait, s) => (some (va, left + 1), s)

/-- A sweep of the context whose turn it is goes as far as it can. -/
def State.sweepOn (s : State) (va : W64) (left : Nat) : Option (W64 × Nat) × State :=
  s.sweep s.cur.t (s.me.resid.getD 0) left va left

/-- A sweep that has waited for a translation goes on, and completes its `cinv` at its end. -/
def State.sweepLate (s : State) (va : W64) (left : Nat) : State :=
  match s.sweepOn va left with
  | (none, s) => s.complete
  | (some p, s) => s.setMe { s.me with wait := .sweep p.1 p.2 }

/-- `cinv` (R234, R106): where a page must be walked its context waits, and the turn of a context that waits so goes on with it. -/
def execCinv (a b : BitVec 5) (s : State) : Host.Outcome State Fault Refusal :=
  .next
    (match s.me.wait with
    | .sweep va left => s.sweepLate va left
    | _ =>
      s.issueS 4 [rd a, rd b] [] fun x s =>
        match cacheRangeFault (x 0) (x 1) with
        | some c => .trap c
        | none =>
          let g := rangeSectors (x 0) (x 1)
          match s.sweepOn (BitVec.ofNat 64 g.1) g.2 with
          | (none, s) => .ok s
          | (some p, s) => .hold (s.setMe { s.me with wait := .sweep p.1 p.2 }))

/-- The writes of a context that are not performed at DEVICE scope and touch a range of global addresses (R234). -/
def State.rangeWrites (s : State) (k : Nat) (a n : W64) : List Nat :=
  let g := rangeSectors a n
  ((s.tile (placeOf k).t).txns.filter fun y =>
    let o := y.addr.toNat / 32 * 32
    y.owner == .ctx k && y.write && winOf y.addr == some .global && decide (0 < g.2) &&
    decide (o < g.1 + 32 * g.2) && decide (g.1 < o + 32 * y.n)).map Txn.tid

/-- `cflush`: waits until every earlier write of the context to the range is performed at DEVICE scope (R234). -/
def execCflush (a b : BitVec 5) (s : State) : Host.Outcome State Fault Refusal :=
  .next (s.issueS 4 [rd a, rd b] [] fun x s =>
    match cacheRangeFault (x 0) (x 1) with
    | some c => .trap c
    | none =>
      let w := s.rangeWrites s.cur.ctx (x 0) (x 1)
      if w = [] then .ok s else .hold (s.setMe { s.me with wait := .acks w .retire }))

/-- The part of a range that lies below the end of the global window: `cpref` never faults (R234). -/
def clipLength (a n : W64) : W64 := if 2 ^ 56 < a.toNat + n.toNat then BitVec.ofNat 64 (2 ^ 56 - a.toNat) else n

/-- Fetch a sector into the tile's cache, if it is neither valid there nor under way (R234). -/
def State.prefetch (s : State) (t r pa : Nat) : State :=
  if (s.hit t r pa).isSome ∨ ((s.tile t).txns.any fun y => y.fill && y.resid == r && y.pa / 32 == pa / 32) = true then s
  else
    let pa := pa / 32 * 32
    ((s.allocate t r pa).request t r s.cur.ctx .fill 0 (.mem pa) 0 (BitVec.allOnes 32) 0 [] true).2

/-- Fetch sectors of a residency into the tile's cache, where the tile has one. -/
def State.prefetchAll (s : State) (t r : Nat) (l : List Nat) : State :=
  if s.ways t r = [] then s else l.foldl (fun s pa => s.prefetch t r pa) s

/-- Fetch a sector of the context whose turn it is by its address: at once where a TLB holds its page, else behind a walk of the page; one whose
page the miss queue cannot take is dropped (R234, R358). (DEDUCED, log 27) -/
def State.prefetchAt (s : State) (t r : Nat) (va : W64) : State :=
  let w := s.walkFor t r s.cur.ctx va false (.fetch [va])
  match s.tlbFind t w.asid va.toNat false with
  | some e => s.prefetchAll t r [e.frame + va.toNat % 2 ^ e.size]
  | none =>
    let mine (v : Walk) : Bool := v.same w && v.key == w.key && match v.use_ with | .fetch _ => true | _ => false
    if s.walks.any mine then
      { s with walks := s.walks.map fun v =>
        if mine v then (match v.use_ with | .fetch l => { v with use_ := .fetch (l ++ [va]) } | _ => v) else v }
    else if s.walkRoom t r va then { s with walks := s.walks ++ [w] } else s

/-- `cpref`: fetches the sectors of a range that are neither valid nor under way; it completes at once and never faults (R234). -/
def execCpref (a b : BitVec 5) (s : State) : Host.Outcome State Fault Refusal :=
  .next (s.issueS 4 [rd a, rd b] [] fun x s =>
    let t := s.cur.t
    let r := s.me.resid.getD 0
    if s.ways t r = [] ∨ winOf (x 0) ≠ some .global then .ok s
    else .ok ((rangeList (x 0) (clipLength (x 0) (x 1))).foldl (fun s va => s.prefetchAt t r va) s))

/-- `cinv.all` (R234). -/
def execCinvAll (s : State) : Host.Outcome State Fault Refusal :=
  .next (s.issueS 4 [] [] fun _ s =>
    let t := s.cur.t
    let r := s.me.resid.getD 0
    let ws := s.ways t r
    let s := s.dropFills t r fun _ => true
    .ok (s.setTile t { s.tile t with cache := (s.tile t).cache.filter fun e => !ws.contains (e.1 / 128) }))

/-! ## Fences and done tokens (R235; 05_consistency.md R100, R103) -/

/-- `fence` (R100). -/
def execFence (fs : BitVec 3) (s : State) : Host.Outcome State Fault Refusal :=
  .next (s.issueS 4 [] [] fun _ s =>
    let w := s.fenceSet s.cur.ctx fs.toNat
    if w = [] then .ok s else .hold (s.setMe { s.me with wait := .acks w .retire }))

/-- The DONE token of a `stdone` (R103). -/
def State.doneToken (s : State) (fs : BitVec 3) (v : W64) : NetWord :=
  ⟨BitVec.ofNat 256 (v.toNat % 2 ^ 32 * 2 ^ 32 + fs.toNat * 2 ^ 24 + s.cur.q * 2 ^ 20 + s.cur.t * 2 ^ 8), 0xB⟩

/-- `stdone` to a port (R103). -/
def execStdone (d a : BitVec 5) (fs : BitVec 3) (s : State) : Host.Outcome State Fault Refusal :=
  .next (s.issueS 4 [rd a] [d] fun x s =>
    .ok (s.defer s.cur.t (s.releaseSet s.cur.ctx fs.toNat) (.donePort s.cur.ctx d.toNat (s.doneToken fs (x 0)))))

/-- A queue of the context whose turn it is can take a word from it now (R68, R103). -/
def State.queueRoom (s : State) (q : Nat) : Bool :=
  let b := s.bank s.cur.t q
  b.pushTo != .blocked && b.pending == [] && !s.donePending s.cur.ctx true q

/-- `stdone` to a queue (R103, R235): the token's entry is reserved at issue. (DEDUCED, log 32) -/
def execStdoneq (q : BitVec 3) (a : BitVec 5) (fs : BitVec 3) (s : State) : Host.Outcome State Fault Refusal :=
  .next (s.forQueue q.toNat [rd a] [] (s.issueS 4 [rd a] [] fun x s =>
    let t := s.cur.t
    let n := q.toNat
    if (s.bank t n).pending ≠ [] then .wait else
    match s.queueFault t (s.me.resid.getD 0) n with
    | some c => .trap c
    | none =>
      if s.queueRoom n = false then .wait
      else
        let b := s.bank t n
        .ok ((s.setBank t n { b with reserved := b.reserved + 1 }).defer t (s.releaseSet s.cur.ctx fs.toNat)
          (.doneQueue s.cur.ctx n (s.doneToken fs (x 0))))))

/-! ## Store and queue (R236 to R238) -/

/-- What the source of an `stq` gives at issue: its homes, or what stands in the way. -/
def State.stqSource (s : State) (src : W64) (n : Nat) : Homes := s.findHomes (fun _ => none) false (parts src (32 * n))

/-- The checks of `stq` at issue behind those of its source (R223), in order (R236). -/
def State.stqFault (s : State) (dst src w : W64) (n : Nat) (r : BitVec 16) (v : BitVec 8) (x : Bool) : Option Trap :=
  if winOf src = some .global ∨ winOf src = some .fabric then some ⟨0x1E, 0, 0⟩
  else if src.toNat % 32 ≠ 0 then some ⟨0x18, src, 0⟩
  else if winOf dst ≠ some .global then some ⟨0x10, dst, 0⟩
  else if dst.toNat % 32 ≠ 0 then some ⟨0x18, dst, 0⟩
  else if 2 ^ 56 < dst.toNat + 32 * n then some ⟨0x10, dst, 0⟩
  else if (x ∧ (w.extractLsb' 44 20 ≠ 0#20)) ∨ (v = s.host.devnum ∧ some r.toNat ≠ s.me.resid) then some ⟨0x1E, 0, 0⟩
  else none

/-- The sectors that an `stq` carries, read at issue (R236). -/
def State.stqData (s : State) (l : List (Part × Home)) : List W256 :=
  l.map fun y => match y.2 with | .sram key => s.readSector key | _ => 0

/-- Is a sector of the source uncorrectable? (DEDUCED, log 65) -/
def State.stqBad (s : State) (l : List (Part × Home)) : Bool :=
  l.any fun y => match y.2 with | .sram key => s.badAt key 32 | _ => false

/-- The kind-specific header dword of an `stq` packet: that it is one, its queue and whether it has one, its value. (DESIGN CHOICE, log 12) -/
def stqInfo (x : Bool) (q : BitVec 3) (v : W64) : W64 :=
  BitVec.ofNat 64 (2 ^ 63 + (if x then 2 ^ 35 + q.toNat * 2 ^ 32 + v.toNat % 2 ^ 32 else 0))

/-- A refusal of an `stq` reaches its context (R238): the precise fault of a waiting one, else an asynchronous record. -/
def State.stqRefused (s : State) (k tid : Nat) (waits : Bool) (cause : Nat) (addr : W64) : State :=
  if waits then
    if (s.ctx k).wait = .stq tid then s.withCur k fun s => s.failHeld ⟨0x1F, addr, BitVec.ofNat 64 cause⟩ else s
  else s.queueRecord k ⟨2, 0, BitVec.ofNat 8 cause, addr⟩

/-- `stq` (R236 to R238). (DEDUCED, log 65) -/
def execStq (d a b : BitVec 5) (w : BitVec 1) (n : BitVec 7) (r : BitVec 16) (v : BitVec 8) (q : BitVec 3) (x : BitVec 1) (s : State) :
    Host.Outcome State Fault Refusal :=
  .next (s.issueS 8 (if x = 1#1 then [rd a, rd b, rd d] else [rd a, rd b]) [] fun y s =>
    let hasQ := x == 1#1
    let cnt := n.toNat + 1
    let word := if hasQ then y 2 else 0
    let t := s.cur.t
    let k := s.cur.ctx
    if s.changing (y 1) (32 * cnt) then .wait else
    match s.checkAccess s.me s.cur.t (y 1) (32 * cnt) 1 with
    | some c => .trap c
    | none =>
    match s.stqSource (y 1) cnt with
    | .wait => .wait
    | .walk va => .pause (s.startWalk va false)
    | .fail c => .trap c
    | .all l =>
    match s.stqFault (y 0) (y 1) word cnt r v hasQ with
    | some c => .trap c
    | none =>
        if s.stqBad l then .trap ⟨0x1A, y 1, 0⟩
        else
          let data := s.stqData l
          let home := v = s.host.devnum
          let tile := (word.extractLsb' 32 12).toNat
          if hasQ ∧ home ∧ s.present tile = false then
            (if w = 1#1 then .trap ⟨0x1F, 0, 3⟩ else .ok (s.queueRecord k ⟨2, 0, 3, 0⟩))
          else
            let waits := s.releaseSet k (if home then 4 else 5)
            let m := s.newTid t
            let s := m.2
            let z := s.tile t
            let tx : Txn := ⟨m.1, s.me.resid.getD 0, k, .ctx k, true, if home then .device else .peer, y 0, 0, false, true, cnt⟩
            let s := (s.setTile t { z with txns := z.txns ++ [tx] }).dropStq t tx
            let hd : Hdr := if hasQ then s.toTile 1 t tile r.toNat else s.toAttach 1 t 1 r.toNat
            let hd : Hdr := { hd with
              ddev := v.toNat, tid := m.1, addr := y 0, info := stqInfo hasQ q word, sq := s.cur.q, sfold := s.me.fold
              sdev := s.host.devnum.toNat, len := cnt }
            let s := s.defer t waits (.packet ⟨hd, data⟩)
            if w = 1#1 then .hold (s.setMe { s.me with wait := .stq m.1 }) else .ok s)

/-! ## Queue operations (R240) -/

/-- An operation on a queue of the residency: it waits behind a change of the bank (03_memory_spaces.md R63), and its faults come first
(R240). -/
def State.onQueue (s : State) (q : BitVec 3) (body : Bank → Res) : Res :=
  if (s.bank s.cur.t q.toNat).pending ≠ [] then .wait else
  match s.queueFault s.cur.t (s.me.resid.getD 0) q.toNat with
  | some c => .trap c
  | none => body (s.bank s.cur.t q.toNat)

/-- Push a word for the context whose turn it is. -/
def State.queuePush (s : State) (q : BitVec 3) (w : NetWord) : Res :=
  s.onQueue q fun b => if s.queueRoom q.toNat then .ok (s.setBank s.cur.t q.toNat (b.push w)) else .wait

/-- Pop a DATA head. -/
def State.queuePop (s : State) (q : BitVec 3) (f : State → W256 → State) : Res :=
  s.onQueue q fun b =>
    match b.queue with
    | [] => .wait
    | w :: r =>
      if w.tag ≠ 0#4 then .trap ⟨0x06, 0, BitVec.ofNat 64 (w.tag.toNat + q.toNat * 256)⟩
      else .ok (f (s.setBank s.cur.t q.toNat { b with queue := r }) w.data)

/-- `qpush` (R240). -/
def execQpush (q : BitVec 3) (a : BitVec 5) (s : State) : Host.Outcome State Fault Refusal :=
  .next (s.forQueue q.toNat [rd a] [] (s.issueS 4 [rd a] [] fun x s => s.queuePush q ⟨(x 0).setWidth 256, 0⟩))

/-- `qpushv` (R240). -/
def execQpushv (q : BitVec 3) (a : BitVec 5) (s : State) : Host.Outcome State Fault Refusal :=
  .next (s.forQueue q.toNat [rd a] [] (s.issue 4 [rd a] (fun _ => true) [] (fun _ => false) fun x s => s.queuePush q ⟨x 0, 0⟩))

/-- `qpop` (R240). -/
def execQpop (d : BitVec 5) (q : BitVec 3) (s : State) : Host.Outcome State Fault Refusal :=
  .next (s.issueS 4 [] [d] fun _ s => s.queuePop q fun s w => s.put d (w.setWidth 64))

/-- `qpopv` (R240). -/
def execQpopv (d : BitVec 5) (q : BitVec 3) (s : State) : Host.Outcome State Fault Refusal :=
  .next (s.issueS 4 [] [d] fun _ s => s.queuePop q fun s w => s.putV d w)

/-- `qcount` (R240). -/
def execQcount (d : BitVec 5) (q : BitVec 3) (s : State) : Host.Outcome State Fault Refusal :=
  .next (s.issueS 4 [] [d] fun _ s => s.onQueue q fun b => .ok (s.put d (BitVec.ofNat 64 b.entries)))

/-- `qtag` (R240). -/
def execQtag (d : BitVec 5) (q : BitVec 3) (s : State) : Host.Outcome State Fault Refusal :=
  .next (s.issueS 4 [] [d] fun _ s => s.onQueue q fun b =>
    .ok (s.put d (match b.queue with | [] => 0x10 | w :: _ => w.tag.setWidth 64)))

/-- `qdrop` (R240). -/
def execQdrop (q : BitVec 3) (s : State) : Host.Outcome State Fault Refusal :=
  .next (s.issueS 4 [] [] fun _ s => s.onQueue q fun b =>
    match b.queue with
    | [] => .wait
    | _ :: r => .ok (s.setBank s.cur.t q.toNat { b with queue := r }))

/-! ## Bank configuration (R241; 03_memory_spaces.md R60, R61, R63) -/

/-- The aligned group of 2^il banks that holds a bank (R61). -/
def groupOf (n il : Nat) : List Nat := (List.range (2 ^ il)).map fun j => n / 2 ^ il * 2 ^ il + j

/-- The faults of `bset`, in the order of its table, on every bank of the group (R241), judged by the changes that its banks have
accepted (R61, R63). -/
def State.bsetFault (s : State) (n : Nat) (c : W64) : Option Trap :=
  let t := s.cur.t
  let il := (c.extractLsb' 2 2).toNat
  let mode := (c.extractLsb' 0 2).toNat
  let g := if il = 3 then [n] else groupOf n il
  match g.find? fun m => !s.ownsBank (s.me.resid.getD 0) t m with
  | some m => some ⟨0x15, 0, BitVec.ofNat 64 m⟩
  | none =>
    if il = 3 ∨ mode = 3 ∨ 32 ≤ c.toNat ∨ (0 < il ∧ mode ≠ 0) ∨ (c.getLsbD 4 = true ∧ mode ≠ 2) then
      some ⟨0x16, 0, BitVec.ofNat 64 n⟩
    else
      match g.find? fun m => il < (s.bank t m).eventual.il with
      | some m => some ⟨0x16, 0, BitVec.ofNat 64 m⟩
      | none =>
        match g.find? fun m => (s.bank t m).mode == .fifo && decide ((s.bank t m).entries ≠ 0) with
        | some m => some ⟨0x17, 0, BitVec.ofNat 64 m⟩
        | none => none

/-- `bset`: the change is accepted by every bank of the group, and the instruction completes when it has taken effect (R63). -/
def execBset (n : BitVec 3) (a : BitVec 5) (s : State) : Host.Outcome State Fault Refusal :=
  .next (s.issueS 4 [rd a] [] fun x s =>
    let c := x 0
    match s.bsetFault n.toNat c with
    | some f => .trap f
    | none =>
      let m : BankMode := if c.extractLsb' 0 2 = 0#2 then .scratch else if c.extractLsb' 0 2 = 1#2 then .cache else .fifo
      let il := (c.extractLsb' 2 2).toNat
      let ch : BankChange := ⟨m, il, c.getLsbD 4, s.cur.ctx⟩
      let s := (groupOf n.toNat il).foldl (fun s j =>
        let b := s.bank s.cur.t j
        s.setBank s.cur.t j { b with pending := b.pending ++ [ch] }) s
      .hold (s.setMe { s.me with wait := .bank n.toNat }))

/-- `bspill` (R241). -/
def execBspill (n : BitVec 3) (a b : BitVec 5) (s : State) : Host.Outcome State Fault Refusal :=
  .next (s.issueS 4 [rd a, rd b] [] fun x s =>
    let t := s.cur.t
    let k := s.bank t n.toNat
    let i := BitVec.ofNat 64 n.toNat
    if s.ownsBank (s.me.resid.getD 0) t n.toNat = false then .trap ⟨0x15, 0, i⟩
    else if k.pending ≠ [] then .wait
    else if k.mode ≠ .fifo ∨ k.entries ≠ 0 ∨ winOf (x 0) ≠ some .global ∨ (x 0).toNat % 32 ≠ 0 ∨ (x 1).toNat % 1056 ≠ 0 then
      .trap ⟨0x16, 0, i⟩
    else .ok (s.setBank t n.toNat { k with spillBase := x 0, spillSize := (x 1).toNat, ringHead := 0 }))

/-- `bget` (R241). -/
def execBget (d : BitVec 5) (n : BitVec 3) (s : State) : Host.Outcome State Fault Refusal :=
  .next (s.issueS 4 [] [d] fun _ s =>
    let t := s.cur.t
    let b := s.bank t n.toNat
    let mode := match b.mode with | .scratch => 0 | .cache => 1 | .fifo => 2
    let v := mode + b.il * 4 + (if b.spillEn then 16 else 0) + (if b.spillFaulted then 32 else 0) +
      (if s.ownsBank (s.me.resid.getD 0) t n.toNat then 64 else 0) + (if b.owner.isSome then 128 else 0) +
      (if b.mode = .fifo then (b.queue.length + b.reserved) * 256 else 0)
    .ok (s.put d (BitVec.ofNat 64 v)))

end Sys2Proof.Machine
end

