-- ==== Sys2Proof/Machine/Copy.lean ====
section
/-! DEFINITION. Copy templates (08_copies_barriers.md R151 to R160; 15_matrix_system_instructions.md R286; 03_memory_spaces.md R406;
04_static_network.md R85, R405). -/

namespace Sys2Proof.Machine

/-! ## The descriptor (R151) -/

def Desc.dword (d : Desc) (i : Nat) : W64 := d.extractLsb' (64 * i) 64
def Desc.count (d : Desc) (i : Nat) : Nat := (d.extractLsb' (128 + 16 * i) 16).toNat
def Desc.srcStride (d : Desc) (i : Nat) : Int := (d.extractLsb' (192 + 32 * i) 32).toInt
def Desc.dstStride (d : Desc) (i : Nat) : Int := (d.extractLsb' (320 + 32 * i) 32).toInt
def Desc.sid (d : Desc) : Nat := (d.extractLsb' 496 16).toNat
def Desc.srcKind (d : Desc) : Nat := (d.extractLsb' 494 2).toNat
def Desc.dstKind (d : Desc) : Nat := (d.extractLsb' 492 2).toNat
def Desc.z (d : Desc) : Nat := (d.extractLsb' 489 3).toNat
def Desc.indexed (d : Desc) : Bool := d.getLsbD 488
def Desc.idxQueue (d : Desc) : Nat := (d.extractLsb' 485 3).toNat
def Desc.trigger (d : Desc) : Option Nat := if d.getLsbD 484 then some (d.extractLsb' 481 3).toNat else none
def Desc.barrier (d : Desc) : Option Nat := if d.getLsbD 480 then some (d.extractLsb' 465 15).toNat else none

/-- Bytes of an element, elements of a copy (R152). -/
def Desc.bytes (d : Desc) : Nat := 2 ^ d.z
def Desc.total (d : Desc) : Nat := d.count 0 * d.count 1 * d.count 2 * d.count 3

/-- The index limit of an indexed copy (R153). -/
def Desc.limit (d : Desc) : Nat := (d.extractLsb' 224 32).toNat

/-- The four loop indices of an element (R152). -/
def Desc.loop (d : Desc) (n i : Nat) : Nat :=
  if i = 0 then n % d.count 0
  else if i = 1 then n / d.count 0 % d.count 1
  else if i = 2 then n / d.count 0 / d.count 1 % d.count 2
  else n / d.count 0 / d.count 1 / d.count 2

def offsetOf (f : Nat → Int) (g : Nat → Nat) : Int := f 0 * g 0 + f 1 * g 1 + f 2 * g 2 + f 3 * g 3

/-- Source address of an element: of its index in an indexed copy (R152). -/
def Desc.srcAddr (d : Desc) (n idx : Nat) : W64 :=
  d.dword 0 + BitVec.ofInt 64 (if d.indexed then idx * d.srcStride 0 else offsetOf d.srcStride (d.loop n))

def Desc.dstAddr (d : Desc) (n : Nat) : W64 := d.dword 1 + BitVec.ofInt 64 (offsetOf d.dstStride (d.loop n))

/-! ## Arming (R155) -/

/-- The reserved codes, zero fields, counts and index limit of a descriptor (R151, R153, R155). -/
def Desc.formOk (d : Desc) : Bool :=
  let endOk (kind : Nat) (x : W64) (str : List Int) : Bool :=
    if kind = 0 then true
    else (if kind = 1 then decide (x.toNat < 8) else decide (x = 0)) && str.all (· == 0)
  let strides (f : Nat → Int) : List Int := [f 0, f 1, f 2, f 3]
  decide (d.srcKind < 3) && decide (d.dstKind < 3) && decide (d.z < 6) && d.extractLsb' 448 17 == 0#17 &&
  [0, 1, 2, 3].all (fun i => decide (d.count i ≠ 0)) &&
  endOk d.srcKind (d.dword 0) (strides d.srcStride) && endOk d.dstKind (d.dword 1) (strides d.dstStride) &&
  (!d.indexed || (d.srcKind == 0 && decide (d.limit ≠ 0) && d.srcStride 2 == 0 && d.srcStride 3 == 0))

/-- The queues that a descriptor names. -/
def Desc.queues (d : Desc) : List Nat :=
  (if d.srcKind = 1 then [(d.dword 0).toNat % 8] else []) ++ (if d.dstKind = 1 then [(d.dword 1).toNat % 8] else []) ++
  (if d.indexed then [d.idxQueue] else []) ++ d.trigger.toList

/-- The trigger and index queues. -/
def Desc.pulls (d : Desc) : List Nat := (if d.indexed then [d.idxQueue] else []) ++ d.trigger.toList

/-- The strides of an address end with the counts of its loops: an indexed source has one loop of L. -/
def Desc.srcWalk (d : Desc) : List (Int × Nat) :=
  if d.indexed then [(d.srcStride 0, d.limit)] else [0, 1, 2, 3].map fun i => (d.srcStride i, d.count i)
def Desc.dstWalk (d : Desc) : List (Int × Nat) := [0, 1, 2, 3].map fun i => (d.dstStride i, d.count i)

/-- The alignment of an address end (R155). -/
def endAligned (base : W64) (walk : List (Int × Nat)) (n : Nat) : Bool :=
  decide (base.toNat % n = 0) && walk.all fun x => decide (x.1 % (n : Int) = 0)

/-- Lowest and highest byte of a walk. -/
def walkLow (base : W64) (walk : List (Int × Nat)) : Int :=
  walk.foldl (fun acc x => acc + min 0 (x.1 * ((x.2 : Int) - 1))) base.toNat
def walkHigh (base : W64) (walk : List (Int × Nat)) (n : Nat) : Int :=
  walk.foldl (fun acc x => acc + max 0 (x.1 * ((x.2 : Int) - 1))) ((base.toNat : Int) + n - 1)

/-- The first address past the range that the window of an address allows to a context (R155, R53, R54). -/
def windowEnd (c : Ctx) (a : W64) : Nat :=
  match winOf a with
  | some .priv => 0xF8 * 2 ^ 56 + c.privSize
  | some .global => 2 ^ 56
  | _ => a.toNat / 2 ^ 17 * 2 ^ 17 + 2 ^ 17

/-- The copy-bounds address of a walk of an address end, if it breaks them (R155). -/
def State.walkFault (s : State) (c : Ctx) (t : Nat) (base : W64) (walk : List (Int × Nat)) (n : Nat) : Option W64 :=
  let lo := walkLow base walk
  let a : W64 := BitVec.ofInt 64 lo
  if lo < 0 ∨ (2 ^ 64 : Int) ≤ lo ∨ (s.checkWindow c t a 1).isSome = true then some a
  else if (windowEnd c a : Int) ≤ walkHigh base walk n then some (BitVec.ofNat 64 (windowEnd c a)) else none

/-- The checks of R155 on a descriptor for template `n` of a tile, after the template's own: `c` is the context whose private area it
uses. (DEDUCED, log 43) -/
def State.checkDesc (s : State) (c : Ctx) (t r n : Nat) (d : Desc) : Option Trap :=
  let i : W64 := BitVec.ofNat 64 n
  let others := (s.tile t).templates.any fun e =>
    e.1 != n && match e.2.arm.desc with
      | none => false
      | some x => d.pulls.any fun q => Desc.pulls x |>.contains q
  if d.formOk = false then some ⟨0x21, 0, i⟩
  else if (d.queues.any fun q => (s.queueFault t r q).isSome) ∨ others = true then some ⟨0x21, 0, i⟩
  else if d.srcKind = 0 ∧ endAligned (d.dword 0) d.srcWalk d.bytes = false then some ⟨0x18, d.dword 0, i⟩
  else if d.dstKind = 0 ∧ endAligned (d.dword 1) d.dstWalk d.bytes = false then some ⟨0x18, d.dword 1, i⟩
  else
    match (if d.srcKind = 0 then s.walkFault c t (d.dword 0) d.srcWalk d.bytes else none) with
    | some a => some ⟨0x22, a, i⟩
    | none =>
      match (if d.dstKind = 0 then s.walkFault c t (d.dword 1) d.dstWalk d.bytes else none) with
      | some a => some ⟨0x22, a, i⟩
      | none =>
        match d.barrier with
        | none => none
        | some name => if (s.barPlace t r name).isNone then some ⟨0x23, 0, BitVec.ofNat 64 (n + name * 2 ^ 16)⟩ else none

/-- Does the residency of the context whose turn it is own the template (R154, R286)? -/
def State.ownsTemplate (s : State) (n : Nat) : Bool :=
  match ((s.tile s.cur.t).template n).owner with
  | none => false
  | some b => s.bankResid s.cur.t b == s.me.resid && s.me.resid.isSome

/-- `carm` arms a template with the descriptor it has read (R155): clears its last cause and dropped count (R158). -/
def State.arming (s : State) (n : Nat) (d : Desc) : Res :=
  let t := s.cur.t
  let i : W64 := BitVec.ofNat 64 n
  let x := (s.tile t).template n
  if s.ownsTemplate n = false ∨ x.active.isSome = true ∨ x.fires ≠ [] then .trap ⟨0x20, 0, i⟩
  else
    match s.checkDesc s.me t (s.me.resid.getD 0) n d with
    | some c => .trap c
    | none =>
      let a : Arm := { desc := some d, who := s.cur.ctx, byCarm := true, waits := s.releaseSet s.cur.ctx 1 }
      .ok (s.setTile t ((s.tile t).setTemplate n { x with arm := a, cause := 0, dropped := 0 }))

/-- `carm` (R286): reads 64 bytes as a vector load pair would, then checks and arms. -/
def execCarm (a : BitVec 5) (n : BitVec 4) (s : State) : Host.Outcome State Fault Refusal :=
  .next (s.issueS 8 [rd a] [] fun x s =>
    if s.ownsTemplate n.toNat = false then .trap ⟨0x20, 0, n.setWidth 64⟩
    else if (x 0).toNat % 64 ≠ 0 then .trap ⟨0x18, x 0, 0⟩
    else s.load (x 0) 64 1 (.carm n.toNat) fun s v => s.arming n.toNat (BitVec.ofNat 512 v))

/-- One firing more of a template of the tile whose turn it is, numbered in the tile's order of FIREs (R152), with the stores it waits
for. -/
def State.addFiring (s : State) (n : Nat) (x : Template) (waits : List Nat) : State :=
  let y := s.tile s.cur.t
  s.setTile s.cur.t { y with
    templates := y.templates.set n { x with fires := x.fires ++ [(y.copyAge, waits)] }, copyAge := y.copyAge + 1 }

/-- `cfire` (R156, R286): one firing more, which waits for the context's earlier events (05_consistency.md R104). -/
def execCfire (n : BitVec 4) (s : State) : Host.Outcome State Fault Refusal :=
  .next (s.issueS 8 [] [] fun _ s =>
    let x := (s.tile s.cur.t).template n.toNat
    if s.ownsTemplate n.toNat = false then .trap ⟨0x20, 0, n.setWidth 64⟩
    else if x.arm.desc.isNone then .trap ⟨0x21, 0, n.setWidth 64⟩
    else if 255 ≤ x.fires.length then .wait
    else
      .ok (s.addFiring n.toNat x (s.releaseSet s.cur.ctx 1)))

/-- A disarmed template (R157): what `cstat` reads stays. -/
def Template.disarmed (x : Template) : Template := { x with arm := {}, fires := [], disarm := false }

/-- `cdis` (R157): clears the pending count, and disarms once the active copy has completed. -/
def execCdis (n : BitVec 4) (s : State) : Host.Outcome State Fault Refusal :=
  .next (s.issueS 8 [] [] fun _ s =>
    let t := s.cur.t
    let x := (s.tile t).template n.toNat
    if s.ownsTemplate n.toNat = false then .trap ⟨0x20, 0, n.setWidth 64⟩
    else if x.arm.desc.isNone then .ok s
    else if x.active.isNone then .ok (s.setTile t ((s.tile t).setTemplate n.toNat x.disarmed))
    else
      let s := s.setTile t ((s.tile t).setTemplate n.toNat { x with fires := [], disarm := true })
      .hold (s.setMe { s.me with wait := .cdis n.toNat }))

/-- The dword of `cstat` (R158). -/
def Template.status (x : Template) : W64 := x.cause ++ BitVec.ofNat 8 x.fires.length ++ x.dropped ++ x.completed

/-- `cstat` (R158). (DEDUCED, log 43) -/
def execCstat (a : BitVec 5) (n : BitVec 4) (s : State) : Host.Outcome State Fault Refusal :=
  .next (s.issueS 8 [] [a] fun _ s =>
    if s.ownsTemplate n.toNat = false then .trap ⟨0x20, 0, n.setWidth 64⟩
    else .ok (s.put a ((s.tile s.cur.t).template n.toNat).status))

/-! ## Firing (R156) -/

/-- The residency of a template of a tile: that of its owner's bank (R154). -/
def State.templateRes (s : State) (t n : Nat) : Nat :=
  match ((s.tile t).template n).owner with
  | none => 0
  | some b => (s.bankResid t b).getD 0

/-- Replace a template of the tile whose turn it is. -/
def State.setTmpl (s : State) (n : Nat) (x : Template) : State := s.setTile s.cur.t ((s.tile s.cur.t).setTemplate n x)

def State.tmpl (s : State) (n : Nat) : Template := (s.tile s.cur.t).template n

/-- `TRIGGER_POP`: the head of the trigger queue adds a firing, or is dropped and counted (R156). -/
def execTriggerPop (s : State) : Host.Outcome State Fault Refusal :=
  .next
    (let n := s.cur.n
    let x := s.tmpl n
    match x.arm.desc.bind Desc.trigger with
    | none => s
    | some q =>
      let b := s.bank s.cur.t q
      if x.disarm ∨ 255 ≤ x.fires.length ∨ (s.queueFault s.cur.t (s.templateRes s.cur.t n) q).isSome = true ∨ b.pending ≠ [] then s
      else
        match b.queue with
        | [] => s
        | w :: r =>
          let s := s.setBank s.cur.t q { b with queue := r }
          if w.tag = 0#4 ∨ w.tag = 0xB#4 then s.addFiring n x []
          else s.setTmpl n { x with dropped := if x.dropped = 0xFFFF then 0xFFFF else x.dropped + 1 })

/-- `COPY_START`: an idle template begins the oldest pending firing, once what it waits for is performed (R156). -/
def execCopyStart (s : State) : Host.Outcome State Fault Refusal :=
  .next
    (let n := s.cur.n
    let x := s.tmpl n
    match x.fires with
    | (age, []) :: r =>
      if x.active.isSome ∨ x.arm.desc.isNone ∨ x.arm.waits ≠ [] then s
      else s.setTmpl n { x with fires := r, active := some { age := age } }
    | _ => s)

/-! ## Elements -/

/-- Where an element of a copy is: at a home, not to be reached yet, or a fault of R160. -/
inductive CSpot where
  | home (s : State) (h : Home)
  | wait (s : State)
  | bad (s : State) (cause : Nat)

/-- Has the tile a write under way to the sector of a home? An engine's access follows it (05_consistency.md R104, R108). -/
def State.writeUnderWay (s : State) (t : Nat) (h : Home) (a : W64) : Bool :=
  (s.tile t).txns.any fun x =>
    x.write &&
    match h with
    | .sram _ => false
    | .fabric _ => x.target == .fabric && x.addr.extractLsb' 5 59 == a.extractLsb' 5 59
    | .mem pa =>
      x.target != .fabric &&
      (if x.stq then x.target == .device && (s.stqSectors x).any fun p => p / 32 == pa / 32 else x.pa / 32 == pa / 32)

/-- The place of `n` bytes at an address for an engine of a tile that works for a context of a residency (R160, R406), behind the writes of
the tile that are under way to it (05_consistency.md R101, R104). -/
def State.engineHome (s : State) (t r who : Nat) (a : W64) (n : Nat) (wr : Bool) : CSpot :=
  let at_ (s : State) (h : Home) : CSpot := if s.writeUnderWay t h a then .wait s else .home s h
  match winOf a with
  | none => .bad s 0x42
  | some .fabric => at_ s (.fabric (a.extractLsb' 44 12).toNat)
  | some .global =>
    match s.seek t r a wr with
    | (.fail, s) => .bad s 0x40
    | (.wait, s) => .wait s
    | (.at_ pa, s) => at_ s (.mem pa)
  | some w =>
    let p := sramPlace (s.ctx who) t w a
    let h := scratchHome (s.tile p.1) p.2
    if (s.bank p.1 h.1).pending ≠ [] ∨ s.fabricPending who p.1 p.2 = true then .wait s
    else if (s.checkBanks r p.1 p.2 n a).isSome then .bad s 0x42
    else .home s (.sram (sramKey p.1 h.1 h.2))

/-- The place of `n` bytes at an address for a template's copy. -/
def State.copySpot (s : State) (x : Template) (r : Nat) (a : W64) (n : Nat) (wr : Bool) : CSpot :=
  s.engineHome s.cur.t r x.arm.who a n wr

/-- An element whose copy meets a fault at an address. -/
def badAddr (cause : Nat) (a : W64) : CopyGot := .bad cause (a.toNat % 2 ^ 32) a

/-- The words that a copy holds for a queue or P, with those that its elements under way and the word it unpacks will make: an element
skipped becomes an ERR word behind the partial word before it (R153, R156). -/
def Copy.heldWords (c : Copy) (d : Desc) : Nat :=
  let step (acc : Nat × Nat) (y : CopyRd) : Nat × Nat :=
    match y.got with
    | some .skip => (acc.1 + (if acc.2 = 0 then 1 else 2), 0)
    | _ => if 32 ≤ acc.2 + d.bytes then (acc.1 + 1, 0) else (acc.1, acc.2 + d.bytes)
  let l := c.reads.foldl step (c.words.length, c.pack.length)
  l.1 + (l.2 + c.unpack.length + 31) / 32

/-- May a copy take more for its destination: to a queue or P while it holds, and has under way, fewer than 8 words (R156)? -/
def Copy.hasSlack (c : Copy) (d : Desc) : Bool := d.dstKind == 0 || decide (c.heldWords d < 8)

/-- The bytes of a word, byte 0 first. -/
def wordBytes (w : W256) : List (BitVec 8) := (List.range 32).map fun i => w.extractLsb' (8 * i) 8

/-- The value of bytes, byte 0 first. -/
def bytesValue (l : List (BitVec 8)) : Nat := l.foldr (fun b acc => b.toNat + 256 * acc) 0

/-- `n` bytes of a value. -/
def valueBytes (v : Nat) : Nat → List (BitVec 8)
  | 0 => []
  | n + 1 => BitVec.ofNat 8 v :: valueBytes (v / 256) n

/-- Issue an element whose outcome is known. -/
def Copy.issued (c : Copy) (tid : Option Nat) (a : W64) (g : Option CopyGot) : Copy :=
  let bad := match g with | some (.bad _ _ _) => true | _ => false
  { c with issue := c.issue + 1, stopped := c.stopped || bad, reads := c.reads ++ [⟨c.issue, tid, a, g⟩] }

/-- Take a word of a queue for a copy: the word, or nothing while there is none. -/
def State.copyWord (s : State) (q : Nat) : Option (NetWord × State) :=
  let b := s.bank s.cur.t q
  match b.queue with
  | [] => none
  | w :: r => if b.pending ≠ [] then none else some (w, s.setBank s.cur.t q { b with queue := r })

/-- The next index of an indexed copy: with the copy and state after taking it, or the tag of a word that is no index word, or nothing
yet (R153). -/
inductive NextIdx where
  | idx (i : Nat) (c : Copy) (s : State)
  | bad (tag : Nat)
  | wait

def State.nextIdx (s : State) (c : Copy) (d : Desc) : NextIdx :=
  match c.idx with
  | i :: r => .idx i.toNat { c with idx := r } s
  | [] =>
    match s.copyWord d.idxQueue with
    | none => .wait
    | some (w, s) =>
      if w.tag ≠ 0#4 then .bad w.tag.toNat
      else
        .idx (w.data.extractLsb' 0 32).toNat { c with idx := [1, 2, 3, 4, 5, 6, 7].map fun l => w.data.extractLsb' (32 * l) 32 } s

/-- Elements that one sector request or one word may serve: as many as a word holds. (DEDUCED, log 42) -/
def Desc.runCap (d : Desc) : Nat := 32 / d.bytes

/-- Do two addresses lie in one sector? -/
def sameSector (a b : W64) : Bool := decide (a.toNat / 32 = b.toNat / 32)

/-- The source addresses of the elements from an ordinal on that lie in the sector of an address, one after the other. (DEDUCED, log 42) -/
def Desc.run (d : Desc) (a : W64) : Nat → Nat → List W64
  | 0, _ => []
  | f + 1, n => if d.total ≤ n ∨ sameSector a (d.srcAddr n 0) = false then [] else d.srcAddr n 0 :: d.run a f (n + 1)

/-- The same for an indexed copy, by the indices at hand. (DEDUCED, log 42) -/
def Desc.runIdx (d : Desc) (a : W64) : Nat → Nat → List (BitVec 32) → List W64
  | 0, _, _ => []
  | _, _, [] => []
  | f + 1, n, i :: r =>
    if d.total ≤ n ∨ d.limit ≤ i.toNat ∨ sameSector a (d.srcAddr n i.toNat) = false then []
    else d.srcAddr n i.toNat :: d.runIdx a f (n + 1) r

/-- The elements behind the next one, at address `a`, that share its sector request (05_consistency.md R94: one event per sector). (DEDUCED,
log 42) -/
def Copy.follow (c : Copy) (d : Desc) (a : W64) : List W64 :=
  if d.indexed then d.runIdx a (d.runCap - 1) (c.issue + 1) c.idx else d.run a (d.runCap - 1) (c.issue + 1)

/-- Issue the elements of one sector: their addresses, the transaction, and what is known of each. -/
def Copy.issueRun (c : Copy) (d : Desc) (tid : Option Nat) (l : List W64) (f : W64 → Option CopyGot) : Copy :=
  l.foldl (fun c b => c.issued tid b (f b)) { c with idx := if d.indexed then c.idx.drop (l.length - 1) else c.idx }

/-- The byte mask of elements of a sector. -/
def runMask (n : Nat) (l : List W64) : BitVec 32 := l.foldl (fun m a => m ||| byteMask (a.toNat % 32) n) 0

/-- Read the elements of the sector at an address (R152): at once from a bank, up to the first that is uncorrectable (R160), else by one
request under the copy's stream id. Whether it could, since it may have to wait. -/
def State.copyRead (s : State) (n : Nat) (x : Template) (d : Desc) (c : Copy) (a : W64) : Bool × State :=
  let r := s.templateRes s.cur.t n
  let put (s : State) (c : Copy) : Bool × State := (true, s.setTmpl n { x with active := some c })
  match s.copySpot x r a d.bytes false with
  | .wait s => (false, s)
  | .bad s k => put s (c.issued none a (some (badAddr k a)))
  | .home s (.sram key) =>
    let l := a :: c.follow d a
    let bad (b : W64) : Bool := s.badAt (key / 32 * 32 + b.toNat % 32) d.bytes
    let l := l.take ((l.takeWhile fun b => !bad b).length + 1)
    put s (c.issueRun d none l fun b =>
      some (if bad b then badAddr 0x44 b else .data (cutSector (s.readSector key) (b.toNat % 32) d.bytes)))
  | .home s h =>
    let l := a :: c.follow d a
    let q := s.request s.cur.t r x.arm.who (.copy n c.issue) 0 h a (runMask d.bytes l) d.sid [] false
    put q.2 (c.issueRun d (some q.1) l fun _ => none)

/-- Issue the elements of the word that is being unpacked, as far as the copy goes. -/
def Copy.unpackAll (c : Copy) (d : Desc) : Nat → Copy
  | 0 => c
  | f + 1 =>
    if c.unpack.length < d.bytes ∨ d.total ≤ c.issue then c
    else Copy.unpackAll ({ c with unpack := c.unpack.drop d.bytes }.issued none 0 (some (.data (bytesValue (c.unpack.take d.bytes))))) d f

/-- Issue the next elements of the active copy of a template: those of one sector or of one word; false if none can be issued now. (DEDUCED,
log 42) -/
def State.copyIssue (s : State) (n : Nat) : Bool × State :=
  let x := s.tmpl n
  match x.active, x.arm.desc with
  | some c, some d =>
    let put (s : State) (c : Copy) : Bool × State := (true, s.setTmpl n { x with active := some c })
    if c.stopped ∨ d.total ≤ c.issue then (false, s)
    else if d.srcKind ≠ 0 ∧ d.bytes ≤ c.unpack.length then put s (c.unpackAll d 32)
    else if c.hasSlack d = false then (false, s)
    else if d.srcKind = 0 then
      if d.indexed then
        match s.nextIdx c d with
        | .wait => (false, s)
        | .bad tag => put s (c.issued none 0 (some (.bad 0x43 tag 0)))
        | .idx i c' s' =>
          if d.limit ≤ i then put s' (c'.issued none 0 (some .skip))
          else
            match s'.copyRead n x d c' (d.srcAddr c.issue i) with
            | (true, s') => (true, s')
            | (false, s') => (false, s'.setTmpl n { x with active := some { c' with idx := BitVec.ofNat 32 i :: c'.idx } })
      else s.copyRead n x d c (d.srcAddr c.issue 0)
    else if d.srcKind = 1 then
      let q := (d.dword 0).toNat % 8
      match s.copyWord q with
      | none => (false, s)
      | some (w, s') =>
        if w.tag ≠ 0#4 then put s (c.issued none 0 (some (.bad 0x43 w.tag.toNat 0)))
        else put s' ({ c with unpack := wordBytes w.data }.unpackAll d 32)
    else (false, s)
  | _, _ => (false, s)

/-- The templates of a tile in the order of its round robin, after the one it served last. (DESIGN CHOICE, log 9) -/
def Tile.rotation (x : Tile) : List Nat := (List.range 16).map fun i => (x.copyLast + 1 + i) % 16

/-- The first template of a list that can issues; it is the one served last. -/
def State.issueFirst (s : State) : List Nat → State
  | [] => s
  | n :: l =>
    match s.copyIssue n with
    | (true, s) => s.setTile s.cur.t { s.tile s.cur.t with copyLast := n }
    | (false, s) => State.issueFirst s l

/-- `COPY_ELEMENT_ISSUE`: the stream port issues one sector request, or takes one word, of its active copies, round-robin (R156). -/
def execCopyElementIssue (s : State) : Host.Outcome State Fault Refusal := .next (s.issueFirst (s.tile s.cur.t).rotation)

/-! ## Delivery (R152, R153, R160) -/

/-- An ERR token of the stream port of a tile (R80). -/
def portErr (t cause detail : Nat) : NetWord := ⟨BitVec.ofNat 256 (detail % 2 ^ 32 * 2 ^ 32 + 2 ^ 22 + t * 2 ^ 8 + cause), 0xA⟩

/-- The EOT of a copy (R80, R159). -/
def eotWord (sid n : Nat) : NetWord := ⟨BitVec.ofNat 256 (sid * 2 ^ 16 + n), 6⟩

/-- The word being packed goes to the copy's words, padded with zeros. (DEDUCED, log 43) -/
def Copy.flush (c : Copy) : Copy :=
  if c.pack = [] then c else { c with pack := [], words := c.words ++ [⟨BitVec.ofNat 256 (bytesValue c.pack), 0⟩] }

/-- A copy stops with a fault: what it has issued and not delivered is dropped. (DEDUCED, log 43) -/
def Copy.failed (c : Copy) (e : MErr) : Copy := { c.flush with stopped := true, reads := [], fail := some e }

/-- The leading elements of a list whose data are there, at most `k`, that a test picks. -/
def readyRun (p : CopyRd → Bool) : Nat → List CopyRd → List (CopyRd × Nat)
  | 0, _ => []
  | _, [] => []
  | f + 1, y :: r =>
    match y.got with
    | some (.data v) => if p y then (y, v) :: readyRun p f r else []
    | _ => []

/-- The elements at the front of a copy that its destination's next sector takes in one write (05_consistency.md R94). (DEDUCED, log 42) -/
def Copy.sectorRun (c : Copy) (d : Desc) : List (CopyRd × Nat) :=
  match c.reads with
  | [] => []
  | y :: _ => readyRun (fun z => sameSector (d.dstAddr y.ord) (d.dstAddr z.ord)) d.runCap c.reads

/-- Does the next element behind those belong to the same sector, while its data are certain to come? Then the write waits for it. (DEDUCED,
log 42) -/
def Copy.runGoesOn (c : Copy) (d : Desc) (l : List (CopyRd × Nat)) : Bool :=
  match l.head? with
  | none => false
  | some y =>
    let n := y.1.ord + l.length
    decide (l.length < d.runCap) && decide (n < d.total) && sameSector (d.dstAddr y.1.ord) (d.dstAddr n) &&
    (match c.reads[l.length]? with
      | some z => z.got.isNone
      | none => d.srcKind == 0 && !d.indexed && !c.stopped)

/-- The mask and data of a write of elements of one sector; of two at one place the later stays. -/
def gatherRun (d : Desc) (l : List (CopyRd × Nat)) : BitVec 32 × W256 :=
  l.foldl (fun (acc : BitVec 32 × W256) y =>
    let o := (d.dstAddr y.1.ord).toNat % 32
    (acc.1 ||| byteMask o d.bytes, (acc.2 &&& ~~~(placed (2 ^ (8 * d.bytes) - 1) o)) ||| placed y.2 o)) (0, 0)

/-- The bytes of delivered elements that were read from global memory (23_management.md R390). -/
def Copy.noted (c : Copy) (d : Desc) (l : List (CopyRd × Nat)) : Copy :=
  { c with
    reads := c.reads.drop l.length
    digest := l.foldl (fun g y =>
      if d.srcKind = 0 ∧ winOf y.1.addr = some .global then g ++ valueBytes y.2 d.bytes else g) c.digest }

/-- Deliver the oldest elements of a copy whose outcome is known: those that one sector or one word of its destination takes. A write's
data are bulk data, on VC1 (04_static_network.md R90). (DEDUCED, log 42) -/
def State.copyDeliver (s : State) (n : Nat) : State :=
  let x := s.tmpl n
  match x.active, x.arm.desc with
  | some c, some d =>
    let put (s : State) (c : Copy) : State := s.setTmpl n { x with active := some c }
    match c.reads with
    | [] => s
    | y :: r =>
      match y.got with
      | none => s
      | some (.bad k e a) => put s (c.failed ⟨k, e, a⟩)
      | some .skip =>
        let c := { c with reads := r, skipped := some (c.skipped.getD y.ord) }
        if d.dstKind = 0 then put s c
        else let c := c.flush; put s { c with words := c.words ++ [portErr s.cur.t 0x41 y.ord] }
      | some (.data _) =>
        if d.dstKind = 0 then
          let l := c.sectorRun d
          let a := d.dstAddr y.ord
          let w := gatherRun d l
          let k := s.templateRes s.cur.t n
          if c.runGoesOn d l then s
          else
            match s.copySpot x k a d.bytes true with
            | .wait s => s
            | .bad s e => put s (c.failed ⟨e, a.toNat % 2 ^ 32, a⟩)
            | .home s (.sram key) => put (s.writeSector key w.1 w.2) (c.noted d l)
            | .home s h =>
              let q := s.request s.cur.t k x.arm.who (.copy n y.ord) 1 h a w.1 (d.sid + 2 ^ 62) [w.2] false
              let c := c.noted d l
              put q.2 { c with writes := c.writes ++ [q.1] }
        else
          let l := readyRun (fun _ => true) ((32 - c.pack.length) / d.bytes) c.reads
          let c := c.noted d l
          let c := { c with pack := c.pack ++ l.flatMap fun z => valueBytes z.2 d.bytes }
          put s (if 32 ≤ c.pack.length ∨ d.total ≤ y.ord + l.length then c.flush else c)
  | _, _ => s

/-- Close a copy whose elements have all been delivered, or that has failed: its EOT, or the ERR in its place, stands behind its data
(R159, R160). (DEDUCED, log 43) -/
def State.copyClose (s : State) (n : Nat) : State :=
  let x := s.tmpl n
  match x.active, x.arm.desc with
  | some c, some d =>
    if c.closed ∨ c.reads ≠ [] ∨ (d.dstKind ≠ 0 ∧ 8 ≤ c.words.length) ∨ (c.issue < d.total ∧ c.stopped = false) then s
    else
      let e := match c.fail with | none => eotWord d.sid n | some e => portErr s.cur.t e.cause e.detail
      let c := { c with closed := true, words := if d.dstKind = 0 then c.words else c.words ++ [e] }
      s.setTmpl n { x with active := some c }
  | _, _ => s

/-- Push the oldest word that a copy holds for its queue, when the queue has room. A destination whose bank is an owned FIFO no longer faults with
cause 0x42, detail and address 0; a source or index queue in that state gives no words. (DESIGN CHOICE, log 90) -/
def State.copyPush (s : State) (n : Nat) : State :=
  let x := s.tmpl n
  match x.active, x.arm.desc with
  | some c, some d =>
    match c.words with
    | [] => s
    | w :: r =>
      if d.dstKind ≠ 1 then s
      else
        let q := (d.dword 1).toNat % 8
        let b := s.bank s.cur.t q
        if (s.queueFault s.cur.t (s.templateRes s.cur.t n) q).isSome then
          s.setTmpl n { x with active := some { c.failed ⟨0x42, 0, 0⟩ with words := [], closed := true } }
        else if b.pushTo = .blocked ∨ b.pending ≠ [] then s
        else (s.setBank s.cur.t q (b.push w)).setTmpl n { x with active := some { c with words := r } }
  | _, _ => s

/-- The transaction of a response, if a copy of the tile began it. -/
def State.copyTxn (s : State) (t tid : Nat) : Option (Nat × Nat) :=
  ((s.tile t).txns.find? fun y => y.tid == tid).bind fun y => match y.owner with | .copy n ord => some (n, ord) | _ => none

/-- A read response for a copy: kind 3, or its NACK, kind 5. -/
def State.isCopyRead (s : State) (t : Nat) (p : Packet) : Bool :=
  (p.h.kind == 3 || p.h.kind == 5) &&
  ((s.tile t).txns.any fun y => y.tid == p.h.tid && !y.write && match y.owner with | .copy _ _ => true | _ => false)

/-- A response reaches the element that waits for it; a response that no element waits for is dropped. (DEDUCED, log 43) -/
def State.copyAnswer (s : State) (p : Packet) : State :=
  let t := s.cur.t
  match s.copyTxn t p.h.tid with
  | none => s
  | some (n, _) =>
    let y := s.tile t
    let s := s.setTile t { y with txns := y.txns.filter fun z => z.tid != p.h.tid }
    let x := s.tmpl n
    match x.active, x.arm.desc with
    | some c, some d =>
      let got (a : W64) : CopyGot :=
        if p.h.kind = 3 then .data (cutSector (p.pay.headD 0) (a.toNat % 32) d.bytes)
        else badAddr (if p.h.info.toNat = 0x1A then 0x44 else if winOf a = some .fabric then 0x42 else 0x40) a
      s.setTmpl n { x with active := some { c with
        reads := c.reads.map fun r => if r.tid = some p.h.tid then { r with got := some (got r.addr) } else r } }
    | _, _ => s

/-- `COPY_READ_RETURN`: a response that has arrived reaches its element; then the template named by the place delivers its oldest
element, closes when all are delivered, and pushes a word to its queue (R152, R153). -/
def execCopyReadReturn (s : State) : Host.Outcome State Fault Refusal :=
  .next
    (let t := s.cur.t
    let s :=
      match s.arrived t (s.isCopyRead t) with
      | none => s
      | some p => (s.takeArrived t (s.isCopyRead t)).copyAnswer p
    ((s.copyDeliver s.cur.n).copyClose s.cur.n).copyPush s.cur.n)

/-- An asynchronous record on its way to a context (12_memory_instructions.md R239). -/
def State.sendRecord (s : State) (k : Nat) (r : AsyncRec) : State :=
  s.setSched { s.sched with asyncs := s.sched.asyncs ++ [(k, r)] }

/-- `COPY_COMPLETE`: a closed copy whose words are pushed and whose writes are performed completes (R159, R160). Of several indices skipped its
record names the first. (DESIGN CHOICE, log 90) -/
def execCopyComplete (s : State) : Host.Outcome State Fault Refusal :=
  .next
    (let t := s.cur.t
    let n := s.cur.n
    let x := s.tmpl n
    match x.active, x.arm.desc with
    | some c, some d =>
      if c.closed = false ∨ c.words ≠ [] ∨ c.writes ≠ [] then s
      else
        let r := s.templateRes t n
        let e : Option MErr :=
          match c.fail with
          | some e => some e
          | none => c.skipped.map fun k => ⟨0x41, k % 2 ^ 32, 0⟩
        let y := { x with
          active := none
          completed := x.completed + 1
          cause := match e with | none => x.cause | some e => BitVec.ofNat 8 e.cause }
        let s := s.setTmpl n (if x.disarm then y.disarmed else y)
        let s :=
          if x.disarm then
            (List.range 16).foldl (fun s i =>
              s.withCur (t * 16 + i) fun s => if s.me.wait = .cdis n then s.complete else s) s
          else s
        let s :=
          match d.barrier with
          | some name => s.engineArrive t r name e.isSome
          | none =>
            match e with
            | none => s
            | some e =>
              if d.dstKind ≠ 0 then s
              else
                let k := if x.arm.byCarm then x.arm.who else ((s.findRes r).map Residency.rootKey).getD 0
                s.sendRecord k ⟨3, BitVec.ofNat 32 e.detail, BitVec.ofNat 8 e.cause, e.addr⟩
        if c.digest = [] then s
        else
          let h := (Config.shake256 c.digest).extractLsb' 0 192
          match s.gate t r ⟨captHead 3 n t, h.extractLsb' 0 64, h.extractLsb' 64 64, h.extractLsb' 128 64⟩ true with
          | .pass s => s
          | .hold => s
          | .diverge s => s
    | _, _ => s)

/-! ## Port P (R405, R85) -/

/-- The least of some numbered things. -/
def leastOf {α : Type} (l : List (α × Nat)) : Option α :=
  match l with
  | [] => none
  | y :: r => some (r.foldl (fun m z => if z.2 < m.2 then z else m) y).1

/-- The templates of a context bank whose copies have an end of kind P, the source or the destination. -/
def State.templatesAtP (s : State) (t b : Nat) (isSrc : Bool) : List (Nat × Template) :=
  (s.tile t).templates.filter fun e =>
    e.2.owner == some b && e.2.arm.desc.any fun d => (if isSrc then Desc.srcKind d else Desc.dstKind d) == 2

/-- The template of a bank whose active copy has its end at P in its turn (R152): of those that read P the oldest active one; of those that write
P the one fired first, which the copies fired before it, though not yet started, precede. The oldest is the one with the lowest number of firing,
not the one that started first. (DESIGN CHOICE, log 90) -/
def State.oldestAtP (s : State) (t b : Nat) (isSrc : Bool) : Option Nat :=
  let l := s.templatesAtP t b isSrc
  let active := l.filterMap fun e => e.2.active.map fun c => (some e.1, c.age)
  let waiting := if isSrc then [] else l.flatMap fun e => e.2.fires.map fun f => ((none : Option Nat), f.1)
  (leastOf (active ++ waiting)).join

/-- The word that the stream port offers at P. -/
def State.pHead (s : State) (t b : Nat) : Option NetWord :=
  (s.oldestAtP t b false).bind fun n => (((s.tile t).template n).active).bind fun c => c.words.head?

/-- A switch takes the word offered at P. -/
def State.pTaken (s : State) (t b : Nat) : State :=
  match s.oldestAtP t b false with
  | none => s
  | some n =>
    let x := (s.tile t).template n
    s.setTile t ((s.tile t).setTemplate n { x with active := x.active.map fun c => { c with words := c.words.drop 1 } })

/-- Has every copy of a bank's templates already fired completed (R85)? -/
def State.firedDone (s : State) (t b : Nat) : Bool :=
  (s.tile t).templates.all fun e => e.2.owner != some b || (e.2.active.isNone && e.2.fires == [])

/-- A FLIP whose mask names the stream port. (DEDUCED, log 45) -/
def isPortFlip (w : NetWord) : Bool := w.tag == 8#4 && w.data.getLsbD 1

/-- Does the stream port accept a word at P now (R405)? A FLIP for it waits while the shadow is LOADING, and with one READY for the copies
already fired; with none it is dropped at once (R85). A FLIP whose stream-port bit is clear is dropped where no copy reads P. (DEDUCED, log 45) -/
def State.pRoom (s : State) (t b : Nat) (w : NetWord) : Bool :=
  if isPortFlip w then
    match (s.xbar (t * 4 + b)).shadow with
    | .loading => false
    | .empty => true
    | .ready => (s.tile t).flips.all (fun e => e.1 != b) && s.firedDone t b
  else
    match s.oldestAtP t b true with
    | none => w.tag == 8#4
    | some n =>
      match ((s.tile t).template n).active, ((s.tile t).template n).arm.desc with
      | some c, some d => w.tag == 0#4 && c.unpack == [] && !c.stopped && decide (c.issue < Desc.total d) && c.hasSlack d
      | _, _ => false

/-- The stream port takes a word at P; a FLIP for it that meets no shadow is a stray word (R85). -/
def State.pTake (s : State) (t b : Nat) (w : NetWord) : State :=
  if isPortFlip w then
    if (s.xbar (t * 4 + b)).shadow = .empty then s.countStray t b 8
    else s.setTile t { s.tile t with flips := (s.tile t).flips ++ [(b, w)] }
  else
    match s.oldestAtP t b true with
    | none => s
    | some n =>
      let x := (s.tile t).template n
      s.setTile t ((s.tile t).setTemplate n { x with active := x.active.map fun c => { c with unpack := wordBytes w.data } })

/-- A word that is not DATA stands before P: the oldest copy that reads P faults with it, and it is not accepted (R160). (DEDUCED, log 45) -/
def State.pRefuse (s : State) (t b : Nat) (w : NetWord) : State :=
  if isPortFlip w ∨ w.tag = 0#4 then s
  else
    match s.oldestAtP t b true with
    | none => s
    | some n =>
      let x := (s.tile t).template n
      match x.active, x.arm.desc with
      | some c, some d =>
        if c.unpack = [] ∧ c.stopped = false ∧ c.issue < Desc.total d then
          s.setTile t ((s.tile t).setTemplate n { x with active := some (c.issued none 0 (some (.bad 0x43 w.tag.toNat 0))) })
        else s
      | _, _ => s

/-- `FLIP_AT_STREAM_PORT`: the template set of the bank is exchanged with its shadow and the FLIP is dropped (R85); with an EMPTY
shadow it is a stray word. -/
def execFlipAtStreamPort (s : State) : Host.Outcome State Fault Refusal :=
  .next
    (let t := s.cur.t
    let b := s.cur.b
    let x := s.tile t
    if x.flips.all fun e => e.1 != b then s
    else
      let y := { x with flips := x.flips.filter fun e => e.1 != b }
      match (s.xbar (t * 4 + b)).shadow with
      | .loading => s
      | .empty => (s.setTile t y).countStray t b 8
      | .ready =>
        if s.firedDone t b = false then s else
        s.setTile t { y with templates := y.templates.map fun e =>
          if e.2.owner = some b then (e.1, { e.2 with arm := e.2.shadow, shadow := e.2.arm }) else e })

end Sys2Proof.Machine
end

