-- ==== Sys2Proof/Machine/MatrixNum.lean ====
section
/-! DEFINITION. The arithmetic of a matrix node: A rows, digits, weights and exact terms (06_numerics.md R120 to R125), the words of a
PSUM token (R129). -/

namespace Sys2Proof.Machine

/-! ## A rows (R120 to R122). Formats: 0 I8, 1 I16, 2 B16, 3 F32. -/

/-- Bytes of an element, digits of a field. -/
def aBytes (af : Nat) : Nat := if af = 0 then 1 else if af = 3 then 4 else 2
def aDigits (af : Nat) : Nat := if af = 0 then 4 else if af = 3 then 13 else 8

/-- Network words of a row. -/
def aWords (af : Nat) : Nat := 2 * aBytes af

/-- The elements of a row, as bits. -/
def aElems (af : Nat) (row : List W256) : List Nat :=
  let v := row.foldr (fun w acc => w.toNat + acc * 2 ^ 256) 0
  (List.range 64).map fun k => v / 2 ^ (8 * aBytes af * k) % 2 ^ (8 * aBytes af)

/-- The float value of an element of a B16 or F32 row. -/
def aValue (af x : Nat) : FVal := if af = 2 then fmtB16.read x else fmtF32.read x

/-- floor(log2) of a finite non-zero value. -/
def FVal.exp : FVal → Option Int
  | .num _ m e => if m = 0 then none else some (ilog2 m + e)
  | _ => none

/-- The larger of two optional exponents. -/
def maxExp (a b : Option Int) : Option Int :=
  match a, b with
  | none, y => y
  | x, none => x
  | some x, some y => some (max x y)

/-- The row exponent (R120). -/
def rowExp (af : Nat) (xs : List Nat) : Int :=
  if af < 2 then 0
  else
    match xs.foldl (fun acc x => maxExp acc (aValue af x).exp) none with
    | none => 0
    | some e => e - (if af = 2 then 14 else 24)

/-- The field of an element: its value over 2^er, toward zero (R120). -/
def rowField (af : Nat) (er : Int) (x : Nat) : Int :=
  if af = 0 then sext x 8
  else if af = 1 then sext x 16
  else
    match aValue af x with
    | .num s m e =>
      let q : Nat := if er ≤ e then m * 2 ^ (e - er).toNat else m / 2 ^ (er - e).toNat
      if s then -(q : Int) else q
    | _ => 0

/-- The top D digits of a field (R122). -/
def cutDigits (af d : Nat) (a : Int) : Int :=
  let l := aDigits af - d
  if l = 0 then a else a - sext (low a (2 * l)) (2 * l)

/-! ## Weights (R123) -/

/-- The cells of a slot, or of a pair, at a row and column. -/
def State.weight (s : State) (t slot : Nat) (pair : Bool) (k j : Nat) : Int :=
  let cell (n : Nat) : Nat := (Memory.read s.mem (weightKey t n k j)).toNat
  if pair then sext (cell slot + 256 * cell (slot + 1)) 16 else sext (cell slot) 8

/-- One column of W16 from float sources (R123): NaN bit, exponent, weights. -/
def w16Column (xs : List FVal) : Bool × Int × List Int :=
  if xs.any fun x => match x with | .num _ _ _ => false | _ => true then (true, 0, xs.map fun _ => 0)
  else
    match xs.foldl (fun acc x => maxExp acc x.exp) none with
    | none => (false, 0, xs.map fun _ => 0)
    | some e =>
      let ec := e - 14
      let at_ (ec : Int) (x : FVal) : Int :=
        match x with
        | .num s m e =>
          let q : Nat := if ec ≤ e then m * 2 ^ (e - ec).toNat else (roundShift s m (ec - e).toNat 0).1
          if s then -(q : Int) else q
        | _ => 0
      let ws := xs.map (at_ ec)
      if ws.contains (2 ^ 15) then (false, ec + 1, xs.map (at_ (ec + 1))) else (false, ec, ws)

/-! ## Terms (R121, R125) -/

/-- The 64 terms of a row of A against a slot or pair (R125): its elements as bits, its digits. A column may bear both infinities' marks:
an addition resolves them (R126). -/
def State.rowTerms (s : State) (t slot : Nat) (pair : Bool) (af d : Nat) (row : List W256) : List Elem :=
  let xs := aElems af row
  let er := rowExp af xs
  let as := xs.map fun x => cutDigits af d (rowField af er x)
  let y := (s.node t).slot slot
  let special (x : Nat) : Option FVal :=
    if af < 2 then none else match aValue af x with | .num _ _ _ => none | v => some v
  (List.range 64).map fun j =>
    let ws := (List.range 64).map fun k => s.weight t slot pair k j
    let p := (as.zip ws).foldl (fun (acc : Int) z => acc + z.1 * z.2) 0
    let ec := if pair then y.ec.get 0 j else 0
    let base : Elem := { v := p, e := er + ec, nan := pair && y.nanCol.get false j }
    (xs.zip ws).foldl (fun (acc : Elem) (z : Nat × Int) =>
      match special z.1 with
      | none => acc
      | some (.nan _) => { acc with nan := true }
      | some (.inf neg) =>
        if z.2 = (0 : Int) then { acc with nan := true }
        else if (decide (z.2 < (0 : Int))) != neg then { acc with minf := true } else { acc with pinf := true }
      | some _ => acc) base

/-! ## PSUM tokens (R129, R141) -/

/-- A PSUM header. -/
def psumHeader (acc : Bool) (m slice off mask : Nat) : W256 :=
  BitVec.ofNat 256 (2 ^ 252 + (if acc then 2 ^ 248 else 0) + (m - 1) * 2 ^ 235 + slice * 2 ^ 232 + off * 2 ^ 228 + mask * 2 ^ 208)

/-- The 20 words of a row. -/
def psumRow (x : List Elem) : List W256 :=
  let el (j : Nat) : Elem := x.getD j {}
  (List.range 16).map (fun u => BitVec.ofNat 256 ((List.range 4).foldl (fun acc c => acc + low (el (4 * u + c)).v 64 * 2 ^ (64 * c)) 0)) ++
  (List.range 4).map fun u =>
    BitVec.ofNat 256 ((List.range 16).foldl (fun acc c => acc + (el (16 * u + c)).ef.toNat * 2 ^ (16 * c)) 0)

/-- The elements of a row from its 20 words. -/
def psumElems (ws : List W256) : List Elem :=
  (List.range 64).map fun j =>
    let v := (ws.getD (j / 4) 0).extractLsb' (64 * (j % 4)) 64
    let ef := (ws.getD (16 + j / 16) 0).extractLsb' (16 * (j % 16)) 16
    Elem.ofBits v ef

/-- The poison mask of gathered rows. -/
def poisonMask (rows : List (List Elem × Bool)) : Nat :=
  (rows.foldl (fun (acc : Nat × Nat) x => (acc.1 + (if x.2 then acc.2 else 0), acc.2 * 2)) (0, 1)).1

end Sys2Proof.Machine
end

