-- ==== Sys2Proof/Machine/Meld.lean ====
section
/-! DEFINITION. The matrix node's requests: tokens and their checks (07_matrix_meld.md R135 to R137), admission and groups (R145 to R147),
completion (R138, R144), the accumulator queue (R142, R143), the words of M (04_static_network.md R405). -/

namespace Sys2Proof.Machine

/-! ## The token (R135) -/

abbrev MTok := W256

def MTok.mode (k : MTok) : Nat := (k.extractLsb' 249 3).toNat
def MTok.acc (k : MTok) : Bool := k.getLsbD 248
def MTok.onward (k : MTok) : Bool := k.getLsbD 247
def MTok.prio (k : MTok) : Nat := (k.extractLsb' 245 2).toNat
def MTok.af (k : MTok) : Nat := (k.extractLsb' 243 2).toNat
def MTok.d (k : MTok) : Nat := (k.extractLsb' 239 4).toNat
def MTok.m (k : MTok) : Nat := (k.extractLsb' 235 4).toNat + 1
def MTok.slice (k : MTok) : Nat := (k.extractLsb' 232 3).toNat
def MTok.off (k : MTok) : Nat := (k.extractLsb' 228 4).toNat
def MTok.src (k : MTok) : Nat := (k.extractLsb' 226 2).toNat
def MTok.rf (k : MTok) : Nat := (k.extractLsb' 224 2).toNat
def MTok.barrier (k : MTok) : Option Nat := if k.getLsbD 223 then some (k.extractLsb' 208 15).toNat else none
def MTok.isHandle (k : MTok) : Bool := k.getLsbD 207
def MTok.toQueue (k : MTok) : Bool := k.getLsbD 206
def MTok.handle (k : MTok) : W64 := k.extractLsb' 128 64
/-- The slot: the field of a request by number, or what its handle names (R133). -/
def MTok.slot (k : MTok) : Nat := if k.isHandle then (k.extractLsb' 160 3).toNat else (k.extractLsb' 128 3).toNat
def MTok.addr (k : MTok) : W64 := k.extractLsb' 64 64
def MTok.dst (k : MTok) : W64 := k.extractLsb' 0 64

/-- The token with another priority. -/
def MTok.withPrio (k : MTok) (p : Nat) : MTok :=
  (k &&& ~~~(BitVec.ofNat 256 (3 * 2 ^ 245))) ||| BitVec.ofNat 256 (p % 4 * 2 ^ 245)

/-- The tile that a handle names (R133). -/
def handleTile (h : W64) : Nat := (h.extractLsb' 52 12).toNat

/-- Output class of a mode (R146): 0 L, 1 C, 2 X. -/
def outputClass (mode : Nat) : Nat := if mode = 1 then 1 else if mode = 3 ∨ mode = 4 then 2 else 0

/-- Sectors of a request's A rows. -/
def MTok.sectors (k : MTok) : Nat := k.m * aWords k.af

/-! ## Slots (R131, R132) -/

/-- What a slot's format becomes when its partner is loaded alone: half of a pair becomes EMPTY (R280). -/
def SlotFmt.single (f : SlotFmt) : SlotFmt :=
  match f with
  | .lo => .empty
  | .hi => .empty
  | f => f

/-- The format a slot will hold once every `wload` in the buffer has taken effect, each taken as succeeding (R137). -/
def Node.pendFmt (x : Node) (n : Nat) : SlotFmt :=
  x.wloads.foldl (fun f w =>
    if !w.slots.contains n then f
    else if w.f = 0 then (if n = w.slot then .i8 else f.single)
    else if n = w.slot then .lo else .hi) (x.slot n).fmt

/-- The slots that a load takes its place for: a pair, or a slot with its partner where they are a pair now or a `wload` before it makes them
one; should others fail, they are still a pair when it writes (R132, R280). (DEDUCED, log 26) -/
def Node.loadSlots (x : Node) (f n : Nat) : List Nat :=
  let paired := match (x.slot n).fmt with | .lo => true | .hi => true | _ => false
  if f ≠ 0 ∨ paired = true ∨ (x.wloads.any fun w => w.f != 0 && w.slots.contains n) = true then [n / 2 * 2, n / 2 * 2 + 1] else [n]

/-- Does a residency own a slot of a tile, or a slice (R131)? -/
def State.ownsSlot (s : State) (t r n : Nat) : Bool :=
  match ((s.node t).slot n).owner with
  | none => false
  | some b => s.bankResid t b == some r
def State.ownsSlice (s : State) (t r n : Nat) : Bool :=
  match (s.node t).sliceOwner.find? fun e => e.1 == n with
  | none => false
  | some e => s.bankResid t e.2 == some r

/-! ## The checks of R137 -/

/-- Check 0x30: reserved codes and fields, D, and rows within the slice. An A address field that is not used, with rows on M, must be zero;
the destination field of a mode other than RETURN is not looked at. (DEDUCED, log 24; DESIGN CHOICE, log 82) -/
def MTok.formOk (k : MTok) : Bool :=
  decide (k.mode < 5) && decide (k.src < 3) && decide (k.rf < 3) && k.extractLsb' 192 14 == 0#14 &&
  (k.isHandle || k.extractLsb' 131 61 == 0#61) && (!k.onward || k.mode == 2) &&
  (k.src == 0 || (if k.src = 2 then decide (k.addr.toNat < 8) else decide (k.addr = 0))) &&
  (!(k.mode == 3 && k.toQueue) || decide (k.dst.toNat < 8)) &&
  (!(k.mode == 1 || k.mode == 3) || (decide (k.slice = 0) && decide (k.off = 0))) &&
  decide (1 ≤ k.d) && decide (k.d ≤ aDigits k.af) && decide (k.m + k.off ≤ 16)

/-- Check 0x31: a handle to a slot of this tile with the valid key. -/
def State.handleOk (s : State) (t : Nat) (k : MTok) : Bool :=
  !k.isHandle ||
  (let h := k.handle
  let x := (s.node t).slot k.slot
  handleTile h == t && h.extractLsb' 35 17 == 0#17 && x.expValid && x.expKey == h.extractLsb' 0 32)

/-- Check 0x32: ownership of slot, slice and queues. `home` is the tile of the requester. (DEDUCED, log 25) -/
def State.ownOk (s : State) (t r : Nat) (remote : Bool) (k : MTok) : Bool :=
  (k.isHandle || (s.ownsSlot t r k.slot && (!(k.mode == 0 || k.mode == 2 || k.mode == 4) || s.ownsSlice t r k.slice))) &&
  (remote || k.src != 2 || (s.queueFault t r (k.addr.toNat % 8)).isNone) &&
  (remote || !(k.mode == 3 && k.toQueue) || (s.queueFault t r (k.dst.toNat % 8)).isNone)

/-- Do a format and an A format go together (R137)? -/
def fmtMatch (f : SlotFmt) (af : Nat) : Bool :=
  match f with
  | .i8 => true
  | .lo => decide (2 ≤ af)
  | _ => false

/-- Check 0x34: what a handle or remote request may ask. (DEDUCED, log 25) -/
def MTok.reachOk (k : MTok) : Bool :=
  (k.mode == 4) || (k.mode == 3 && !k.toQueue && (winOf k.dst == some .global || winOf k.dst == some .fabric))

/-- The first check of R137 that a request fails at a node: its cause. -/
def State.mCheck (s : State) (t r : Nat) (remote : Bool) (k : MTok) : Option Nat :=
  if k.formOk = false then some 0x30
  else if s.handleOk t k = false then some 0x31
  else if s.ownOk t r remote k = false then some 0x32
  else if fmtMatch ((s.node t).pendFmt k.slot) k.af = false then some 0x33
  else if (k.isHandle ∨ remote = true) ∧ k.reachOk = false then some 0x34 else none

/-! ## Completion (R138, R140, R144) -/

/-- Operation code of the completion of a matrix request in a write acknowledgement; the manual leaves these header bits open. (DESIGN
CHOICE, log 12) -/
def opMatrixDone : BitVec 32 := 100

/-- A completion reaches its requester: on the barrier, or as an asynchronous record of a failure without one (R138). -/
def State.mDeliver (s : State) (t key r : Nat) (k : MTok) (e : Option MErr) : State :=
  match s.liveRes r with
  | none => s
  | some _ =>
    match k.barrier, e with
    | some name, e => s.engineArrive t r name e.isSome
    | none, none => s
    | none, some e => s.sendRecord key ⟨4, BitVec.ofNat 32 e.detail, BitVec.ofNat 8 e.cause, e.addr⟩

/-- A failure in a completion packet: cause, detail, address. -/
def MErr.bits : Option MErr → W256
  | none => 0
  | some e => BitVec.ofNat 256 (2 ^ 255 + e.cause + e.detail % 2 ^ 32 * 2 ^ 8 + e.addr.toNat * 2 ^ 64)

def MErr.ofBits (w : W256) : Option MErr :=
  if w.getLsbD 255 then
    some { cause := (w.extractLsb' 0 8).toNat, detail := (w.extractLsb' 8 32).toNat, addr := w.extractLsb' 64 64 }
  else none

/-- A request of a node completes: at its own tile at once, for a remote requester or RACC by a write acknowledgement on VC1 (R140). -/
def State.mDone (s : State) (t : Nat) (q : MReq) (e : Option MErr) : State :=
  if q.dead then s
  else if q.remote ∨ MTok.mode q.tok = 4 then
    let hd : Hdr := s.toTile 4 t q.tile q.resid
    s.send t ⟨{ hd with ddev := q.dev, op := opMatrixDone, tid := q.tid, addr := BitVec.ofNat 64 q.key }, [q.tok, MErr.bits e]⟩
  else s.mDeliver t q.key q.resid q.tok e

/-- An ERR token of a matrix node (R144, R80). -/
def nodeErr (t : Nat) (e : MErr) : NetWord :=
  ⟨BitVec.ofNat 256 (e.detail % 2 ^ 32 * 2 ^ 32 + 2 * 2 ^ 22 + t * 2 ^ 8 + e.cause), 0xA⟩

/-- Offer words at M for a context bank (R405). -/
def State.offerM (s : State) (t b : Nat) (ws : List MWord) : State :=
  let x := s.node t
  s.setNode t { x with mOut := x.mOut.set b (x.mOut.get [] b ++ ws) }

/-- Does a request's mode emit a token on M? -/
def MTok.emits (k : MTok) : Bool := k.mode == 1 || (k.mode == 2 && k.onward)

/-- A request fails: an ERR token takes the place of the token it would emit, and it completes with ERR (R144). -/
def State.mFail (s : State) (t : Nat) (q : MReq) (e : MErr) : State :=
  let s := if MTok.emits q.tok ∧ q.dead = false then s.offerM t q.bank [⟨nodeErr t e, none⟩] else s
  s.mDone t q (some e)

/-! ## The accumulator queue (R142) -/

/-- Room for tokens: a row leaving a lane may use all 64 entries, every other token 48. -/
def State.accRoom (s : State) (t : Nat) (isLane : Bool) (n : Nat) : Bool :=
  decide ((s.node t).accQ.length + n ≤ (if isLane then 64 else 48))

def State.pushAcc (s : State) (t : Nat) (k : List AccTok) : State :=
  let x := s.node t
  s.setNode t { x with accQ := x.accQ ++ k }

/-- A token of a residency enters the queue when it has room and, in a replay, when it is its turn (23_management.md R391): none while
it must wait. -/
def State.enterAcc (s : State) (t : Nat) (isLane : Bool) (r core seq slice row : Nat) (k : AccTok) : Option State :=
  if s.accRoom t isLane 1 = false then none
  else
    match s.gate t r ⟨captHead 5 slice t, BitVec.ofNat 64 core, BitVec.ofNat 64 seq, BitVec.ofNat 64 row⟩ true with
    | .pass s => some (s.pushAcc t [k])
    | .hold => none
    | .diverge s => some s

/-! ## Requests in the node -/

/-- Every request that waits in groups or for sending, in admission order. -/
def Node.waiting (x : Node) : List MReq := x.groups.flatMap Group.members ++ x.sending

/-- Change a waiting request. -/
def Node.mapReq (x : Node) (id : Nat) (f : MReq → MReq) : Node :=
  let g (q : MReq) : MReq := if q.id = id then f q else q
  { x with
    groups := x.groups.map fun e => { e with members := e.members.map g }
    sending := x.sending.map g
    chains := x.chains.map fun c => { c with req := g c.req } }

/-- Entries of the meld buffer in use (R145). -/
def Node.load (x : Node) : Nat := (x.groups.foldl (fun n g => n + g.members.length) 0) + x.wloads.length + x.mTok.length

/-- A token taken from M holds its entry until its event admits it. -/
def Node.hasEntry (x : Node) : Bool := decide (x.load < 32)

/-- The oldest waiting request, less than an id, that a test picks. -/
def oldestReq (l : List MReq) : Option MReq :=
  match l with
  | [] => none
  | q :: r => some (r.foldl (fun a b => if b.id < a.id then b else a) q)

/-- The oldest request of a context bank that still takes row words from M (R136). -/
def Node.rowsWanted (x : Node) (b : Nat) : Option MReq :=
  oldestReq (x.waiting.filter fun q =>
    q.bank == b && !q.remote && MTok.src q.tok == 1 && q.err.isNone && decide (q.rows.length < MTok.sectors q.tok))

/-- The oldest CHAINADD request of a context bank whose PSUM token has not all been taken (R139). -/
def Node.chainWanted (x : Node) (b : Nat) : Option ChainIn :=
  x.chains.find? fun c => c.req.bank == b && !c.spoilt && decide (c.words.length < 20 * MTok.m c.req.tok)

/-! ## Admission (R145, R146) -/

/-- A new id of a node. -/
def State.newId (s : State) (t : Nat) : Nat × State :=
  let x := s.node t
  (x.nextId, s.setNode t { x with nextId := x.nextId + 1 })

/-- Rows of a group that count: members whose fetch has faulted are not stacked (R146). -/
def Group.rows (g : Group) : Nat := g.members.foldl (fun n q => if q.err.isSome then n else n + MTok.m q.tok) 0

/-- Is a group ready by what its members are (R147): 64 rows, a trump member, or HOLD 0? -/
def Group.full (g : Group) : Bool := decide (64 ≤ g.rows) || decide (g.prio = 3) || decide (g.hold = 0)

/-- A request joins the open group of its key, or opens one (R146). -/
def State.joinGroup (s : State) (t : Nat) (q : MReq) : State :=
  let x := s.node t
  let k : MTok := q.tok
  let same (g : Group) : Bool :=
    g.isOpen && g.slot == q.slot && g.gen == q.gen && g.af == k.af && g.d == k.d && g.cls == outputClass k.mode
  let fresh : Group :=
    { id := q.id, slot := q.slot, gen := q.gen, af := k.af, d := k.d, cls := outputClass k.mode, members := [q], opened := s.cycle,
      hold := q.hold, prio := k.prio, ready := false, overdue := false, isOpen := true }
  let fresh := { fresh with ready := fresh.full }
  let groups :=
    match x.groups.find? same with
    | none => x.groups ++ [fresh]
    | some g =>
      if g.rows + k.m ≤ 64 then
        x.groups.map fun e =>
          if e.id = g.id then
            let e := { e with members := e.members ++ [q], prio := max e.prio k.prio }
            { e with ready := e.ready || e.full }
          else e
      else (x.groups.map fun e => if e.id = g.id then { e with ready := true, isOpen := false } else e) ++ [fresh]
  let chains := if k.mode = 2 then x.chains ++ [{ req := q }] else x.chains
  s.setNode t { x with groups := groups, chains := chains }

/-- The PRIO in force when a request of a slot is admitted: its context's, or the limit of the export record it comes through (R133, R390). -/
def State.prioOf (s : State) (t : Nat) (q : MReq) : Nat :=
  if MTok.isHandle q.tok then ((s.node t).slot q.slot).expLim else (s.ctx q.key).prio.toNat

/-- Admit a request that has passed its checks: it takes the slot's generation and joins its group; capture notes the values in force
(23_management.md R390). One of this tile whose rows go out in packets gets an id that names it (R141). -/
def State.takeIn (s : State) (t : Nat) (q : MReq) : State :=
  let y := (s.node t).slot q.slot
  let n := if q.remote ∨ MTok.mode q.tok ≠ 4 then (q.tid, s) else s.newTid t
  let i := n.2.newId t
  let q := { q with id := i.1, tid := n.1, gen := y.gen, admitted := s.cycle }
  (i.2.capture q.resid ⟨captHead 2 q.slot t, BitVec.ofNat 64 q.hold, BitVec.ofNat 64 (s.prioOf t q), if y.wc then 1 else 0⟩).joinGroup t q

/-- The priority and HOLD of a request through a handle are the export record's (R133, R135). -/
def State.handleLimits (s : State) (t : Nat) (q : MReq) : MReq :=
  if MTok.isHandle q.tok then
    let y := (s.node t).slot q.slot
    { q with tok := MTok.withPrio q.tok (min (MTok.prio q.tok) y.expLim), hold := y.expHold }
  else q

/-! ## Engine accesses of a node to memory -/

/-- The place of `n` bytes within a sector for the node's work for a context of a residency, which R53 and R54 must allow. (DEDUCED, log 27) -/
def State.nodeSpot (s : State) (t r k : Nat) (c : Ctx) (a : W64) (n : Nat) (wr : Bool) : CSpot :=
  if winOf a ≠ some .global ∧ (s.checkWindow c t a n).isSome then .bad s 0x42 else s.engineHome t r k a n wr

/-- Begin the read of a sector for the work of a node with an id: at once from a bank, else by a request (R136, R280); nothing while it cannot
be reached. `bad` of a piece that has no data is 1. (DEDUCED, log 49) -/
def State.nodeRead (s : State) (t r k id : Nat) (a : W64) : Option Piece × State :=
  match s.nodeSpot t r k (s.ctx k) a 32 false with
  | .wait s => (none, s)
  | .bad s _ => (some { tid := 0, addr := a, off := 0, n := 32, val := none, bad := 1 }, s)
  | .home s (.sram key) =>
    if s.badAt key 32 then (some { tid := 0, addr := a, off := 0, n := 32, val := none, bad := 1 }, s)
    else (some { tid := 0, addr := a, off := 0, n := 32, val := some (s.readSector key).toNat }, s)
  | .home s h =>
    let q := s.request t r k (.node id) 0 h a (byteMask 0 32) 0 [] false
    (some { tid := q.1, addr := a, off := 0, n := 32, val := none }, q.2)

/-- Begin the reads of sectors one after the other, as far as they can be reached and none has failed. -/
def State.nodeReads (s : State) (t r k id : Nat) : List W64 → List Piece × State
  | [] => ([], s)
  | a :: l =>
    match s.nodeRead t r k id a with
    | (none, s) => ([], s)
    | (some p, s) =>
      if p.bad ≠ 0 then ([p], s)
      else
        let y := s.nodeReads t r k id l
        (p :: y.1, y.2)

/-- A fetch goes on: the sectors of the list that are still to be read, behind those begun. -/
def State.nodeFetch (s : State) (t r k id : Nat) (l : List W64) (ps : List Piece) : List Piece × State :=
  if ps.any fun p => p.bad != 0 then (ps, s)
  else
    let y := s.nodeReads t r k id (l.drop ps.length)
    (ps ++ y.1, y.2)

/-- What a fetch has come to: all its sectors, the first that failed, or not yet. -/
inductive Sectors where
  | all (l : List W256)
  | wait
  | bad (a : W64)

/-- The outcome of the pieces of `n` sectors. -/
def fetchOutcome (n : Nat) (ps : List Piece) : Sectors :=
  if ps.any fun p => p.val.isNone && p.bad == 0 then .wait
  else
    match ps.find? fun p => p.bad != 0 with
    | some p => .bad p.addr
    | none => if ps.length < n then .wait else .all (ps.map fun p => BitVec.ofNat 256 (p.val.getD 0))

/-- An answer reaches the fetch of a node's work that waits for it. -/
def State.nodeAnswer (s : State) (t id tid : Nat) (f : Piece → Piece) : State :=
  let x := s.node t
  let x := x.mapReq id fun q => { q with reads := answerPiece tid f q.reads }
  s.setNode t { x with wloads := x.wloads.map fun w => if w.id = id then { w with reads := answerPiece tid f w.reads } else w }

/-! ## PSUM packets of RACC, and members that fail (R141, R146) -/

/-- PSUM packets of a RACC request: rows from an offset on (R141). -/
def State.sendPsum (s : State) (t : Nat) (q : MReq) (first : Nat) (rows : List (List Elem × Bool)) : State :=
  let k : MTok := q.tok
  let hd : Hdr := s.toTile 11 t q.tile q.resid
  if q.dead ∨ rows = [] then s
  else s.send t ⟨{ hd with ddev := q.dev, tid := q.tid, addr := BitVec.ofNat 64 q.key, info := BitVec.ofNat 64 q.seq },
    psumHeader k.acc rows.length k.slice (k.off + first) (poisonMask rows) :: rows.flatMap fun r => psumRow r.1⟩

/-- Poison tokens enter the queue in order, as far as it takes them. -/
def State.enterPoisons (s : State) (t : Nat) : Nat → State
  | 0 => s
  | n + 1 =>
    match (s.node t).poisons with
    | [] => s
    | p :: _ =>
      let k : MTok := p.req.tok
      match s.enterAcc t false p.req.resid (p.req.key / 4) p.req.seq k.slice (k.off + p.row)
          (.poison k.slice (k.off + p.row) (if p.done then some p.req else none)) with
      | none => s
      | some s => State.enterPoisons (s.setNode t { s.node t with poisons := (s.node t).poisons.drop 1 }) t n

/-- The target rows of a request are poisoned by one token each (R146); the last completes it where it has not completed yet. (DEDUCED, log 67) -/
def State.poison (s : State) (t : Nat) (q : MReq) (completes : Bool) : State :=
  let x := s.node t
  let m := MTok.m q.tok
  let l : List PoisonIn := (List.range m).map fun i => ⟨q, i, completes && i + 1 == m⟩
  (s.setNode t { x with poisons := x.poisons ++ l }).enterPoisons t 64

/-- Has a chained request completed without its rows (R139)? Its chain is gone. -/
def Node.chainGone (x : Node) (q : MReq) : Bool := MTok.mode q.tok == 2 && !x.chains.any fun c => c.req.id == q.id

/-- A member whose fetch has faulted completes (R146). -/
def State.mFaulted (s : State) (t : Nat) (q : MReq) : State :=
  let k : MTok := q.tok
  let e := q.err.getD { cause := 0x36, detail := 0 }
  if (s.node t).chainGone q then s
  else if k.mode = 0 ∨ (k.mode = 2 ∧ k.onward = false) then s.poison t q true
  else if k.mode = 4 then
    let row : List Elem × Bool := ((List.range 64).map fun _ => {}, true)
    let s := (List.range ((k.m + 2) / 3)).foldl (fun s i => s.sendPsum t q (3 * i) (List.replicate (min 3 (k.m - 3 * i)) row)) s
    s.mDone t q (some e)
  else s.mFail t q e

/-- A member fails for good before it issues, with a cause of its own; its chain takes no PSUM token any more (R137, R150). One that check
0x33 removes at issue has no row poisoned and pops no token. (DESIGN CHOICE, log 88) -/
def State.mRefused (s : State) (t cause : Nat) (q : MReq) : State :=
  let x := s.node t
  if x.chainGone q then s
  else (s.setNode t { x with chains := x.chains.filter fun c => c.req.id != q.id }).mFail t q { cause := cause, detail := 0 }

/-- A group none of whose members is left to issue: they complete (R146). (DEDUCED, log 67) -/
def State.dissolve (s : State) (t : Nat) : State :=
  let x := s.node t
  let gone := x.groups.filter fun g => g.members.all fun q => q.err.isSome
  let s := s.setNode t { x with groups := x.groups.filter fun g => !(g.members.all fun q => q.err.isSome) }
  gone.foldl (fun s g => g.members.foldl (fun s q => s.mFaulted t q) s) s

/-! ## Port M (R405, R136, R139, R144) -/

/-- Does a PSUM header fit a CHAINADD request (R139)? -/
def headFits (w : NetWord) (c : ChainIn) : Bool :=
  w.tag == 9#4 && w.data.extractLsb' 252 4 == 1#4 && (w.data.extractLsb' 235 4).toNat + 1 == MTok.m c.req.tok

/-- Is a word a request token, kind 0? -/
def isRequest (w : NetWord) : Bool := w.tag == 9#4 && w.data.extractLsb' 252 4 == 0#4

/-- Has a request token been taken at M that is not admitted yet? The words behind it wait. -/
def Node.tokenHeld (x : Node) (b : Nat) : Bool := (x.mTok.find? fun e => e.1 == b).isSome

/-- Does the node accept a word at M for a context bank now? (DEDUCED, log 40) -/
def State.mRoom (s : State) (t b : Nat) (w : NetWord) : Bool :=
  let x := s.node t
  if x.tokenHeld b then false
  else if x.mDrop.get false b ∧ w.tag = 0#4 then true
  else
    match x.rowsWanted b with
    | some _ => w.tag == 0#4
    | none =>
      match x.chainWanted b with
      | some c =>
        if c.head.isSome then w.tag == 0#4 && s.accRoom t false 1
        else if isRequest w then x.hasEntry
        else headFits w c
      | none =>
        if isRequest w then x.hasEntry
        else !(w.tag == 9#4 && w.data.extractLsb' 252 4 == 1#4)

/-- A malformed request word on M is dropped, with the DATA words behind it, and named by an event (R144). (DEDUCED, log 40) -/
def State.dropAtM (s : State) (t b : Nat) : State :=
  let x := s.node t
  (s.setNode t { x with mDrop := x.mDrop.set b true }).tileEvent t (eventWord 0x13 0 0 t 0 b 0) 0 0 none

/-! ## Chains (R139) -/

/-- One step of a chain: its next row whose terms and PSUM words are both there is added, and queued or gathered; a chain of a failed request only
swallows its PSUM token, and stays until its group has issued or dissolved (R146): it completes then. None when nothing can happen now. (DEDUCED,
log 40) -/
def State.chainStep (s : State) (t : Nat) (c : ChainIn) : Option State :=
  let q := c.req
  let k : MTok := q.tok
  let drop (s : State) : State := let x := s.node t; s.setNode t { x with chains := x.chains.filter fun e => e.req.id != q.id }
  if q.err.isSome then
    (if (c.spoilt ∨ 20 * k.m ≤ c.words.length) ∧ ((s.node t).waiting.any fun y => y.id == q.id) = false then some (drop s) else none)
  else
    match c.terms[c.sent]? with
    | none => none
    | some p =>
      let ws := (c.words.drop (20 * c.sent)).take 20
      if ws.length < 20 then none
      else
        let bad := ((c.head.getD 0).getLsbD (208 + c.sent))
        let row := ((psumElems ws).zip p).map fun z => z.1.add z.2
        let last := c.sent + 1 = k.m
        let next (s : State) : State :=
          if last then drop s
          else
            let x := s.node t
            s.setNode t { x with chains := x.chains.map fun e => if e.req.id = q.id then { e with sent := e.sent + 1 } else e }
        if k.onward then
          let x := s.node t
          let old := (x.outs.find? fun o => o.req.id == q.id).getD { req := q }
          let o := { old with rows := old.rows ++ [(row, bad)] }
          if last then
            let words := psumHeader false k.m k.slice k.off (poisonMask o.rows) :: o.rows.flatMap fun r => psumRow r.1
            let n := words.length
            let out : List MWord := (words.zip (List.range n)).map fun z =>
              ⟨⟨z.1, if z.2 = 0 then 9 else 0⟩, if z.2 + 1 = n then some q else none⟩
            let s := s.setNode t { x with outs := x.outs.filter fun o => o.req.id != q.id }
            some (next (if q.dead then s else s.offerM t q.bank out))
          else some (next (s.setNode t { x with outs := (x.outs.filter fun o => o.req.id != q.id) ++ [o] }))
        else
          (s.enterAcc t true q.resid (q.key / 4) q.seq k.slice (k.off + c.sent)
            (.row k.slice (k.off + c.sent) true row bad (if last then some q else none))).map next

/-- Steps of a chain, by id, as far as they go. -/
def State.chainSteps (s : State) (t id : Nat) : Nat → State
  | 0 => s
  | n + 1 =>
    match (s.node t).chains.find? fun c => c.req.id == id with
    | none => s
    | some c =>
      match s.chainStep t c with
      | none => s
      | some s => State.chainSteps s t id n

/-- The chains of a context bank after another go on, as far as their words allow (R139, R142). -/
def State.runChains (s : State) (t : Nat) : State :=
  ((List.range 4).flatMap fun b => (s.node t).chains.filter fun c => c.req.bank == b).foldl (fun s c => s.chainSteps t c.req.id 20) s

/-- The node takes a word at M (R405): its chain goes on in the node's own turn. (DEDUCED, log 40) -/
def State.mTake (s : State) (t b : Nat) (w : NetWord) : State :=
  let x := s.node t
  if x.mDrop.get false b ∧ w.tag = 0#4 then s
  else
    let s := s.setNode t { x with mDrop := x.mDrop.set b false }
    let x := s.node t
    match x.rowsWanted b with
    | some q => s.setNode t (x.mapReq q.id fun q => { q with rows := q.rows ++ [w.data] })
    | none =>
      if isRequest w then s.setNode t { x with mTok := x.mTok.set b w.data }
      else
        match x.chainWanted b with
        | none => s.dropAtM t b
        | some c =>
          let f (e : ChainIn) : ChainIn := if c.head.isSome then { e with words := e.words ++ [w.data] } else { e with head := some w.data }
          s.setNode t { x with chains := x.chains.map fun e => if e.req.id = c.req.id then f e else e }

/-- A chain's PSUM token is malformed (R139): the request completes with cause 0x35, its target rows are poisoned or an ERR token takes
the place of its output; its own rows are not stacked any more. One whose fetch has faulted already takes no more of its token, and
completes with its group (R146). (DEDUCED, log 40) -/
def State.chainBad (s : State) (t : Nat) (c : ChainIn) : State :=
  let q := c.req
  let x := s.node t
  let e : MErr := { cause := 0x35, detail := 0 }
  let gone (x : Node) : Node := { x with
    chains := x.chains.filter fun e => e.req.id != q.id
    outs := x.outs.filter fun o => o.req.id != q.id }
  if q.err.isSome then s.setNode t { x with chains := x.chains.map fun e => if e.req.id = q.id then { e with spoilt := true } else e }
  else
    let s := s.setNode t (gone (x.mapReq q.id fun q => { q with err := some e }))
    let s := if MTok.onward q.tok then s.mFail t q e else (s.poison t q false).mDone t q (some e)
    s.dissolve t

/-- A word stands before M that the node does not take: a fault of the request that wants rows, or a malformed PSUM token (R136,
R139). (DEDUCED, log 40) -/
def State.mRefuse (s : State) (t b : Nat) (w : NetWord) : State :=
  let x := s.node t
  if x.tokenHeld b then s else
  match x.rowsWanted b with
  | some q =>
    if w.tag = 0#4 then s
    else (s.setNode t (x.mapReq q.id fun q => { q with err := some { cause := 0x36, detail := w.tag.toNat } })).dissolve t
  | none =>
    match x.chainWanted b with
    | none => s
    | some c =>
      if (c.head.isSome ∧ w.tag ≠ 0#4) ∨ (c.head.isNone ∧ isRequest w = false ∧ headFits w c = false) then s.chainBad t c else s

/-- The word that the node offers at M, and taking it: the last word of a token completes its request (R138). -/
def State.mHead (s : State) (t b : Nat) : Option NetWord := ((s.node t).mOut.get [] b).head?.map MWord.w

def State.mTaken (s : State) (t b : Nat) : State :=
  let x := s.node t
  match x.mOut.get [] b with
  | [] => s
  | w :: r =>
    let s := s.setNode t { x with mOut := x.mOut.set b r }
    match w.done with
    | none => s
    | some q => s.mDone t q none

end Sys2Proof.Machine
end

