-- ==== Sys2Proof/Machine/Matrix.lean ====
section
/-! DEFINITION. Matrix instructions and the events of a matrix node (15_matrix_system_instructions.md R279 to R285;
07_matrix_meld.md R131 to R150). -/

namespace Sys2Proof.Machine

/-- The matrix-request fault with a cause of R144 (R279). -/
def matrixTrap (cause : Nat) : Trap := ⟨0x24, 0, BitVec.ofNat 64 cause⟩

/-- A matrix instruction of the context whose turn it is counts as one of its requests (23_management.md R390 kind 5). -/
def State.countReq (s : State) : State := s.setMe { s.me with reqSeq := s.me.reqSeq + 1 }

/-! ## wload (R280) -/

/-- The checks of `wload` at issue, in order. -/
def State.wloadFault (s : State) (base pitch : W64) (bar : Option W64) (f n : Nat) : Option Trap :=
  let t := s.cur.t
  let r := s.me.resid.getD 0
  let row := 64 * (if f = 0 then 1 else 2 ^ f)
  if f ≠ 0 ∧ n % 2 = 1 then some (matrixTrap 0x33)
  else if s.ownsSlot t r n = false ∨ (f ≠ 0 ∧ s.ownsSlot t r (n + 1) = false) then some (matrixTrap 0x32)
  else if base.toNat % 32 ≠ 0 ∨ pitch.toNat % 32 ≠ 0 ∨ pitch.toNat < row then some ⟨0x18, base, 0⟩
  else
    match s.walkFault s.me t base [((pitch.toNat : Int), 64)] row with
    | some a => some ⟨0x22, a, 0⟩
    | none =>
      match bar with
      | none => none
      | some name => if (s.barPlace t r name.toNat).isNone then some ⟨0x23, 0, name⟩ else none

/-- `wload` (R280): admitted behind every request of its slots; its admission counts their generations up (R132). -/
def execWload (a b c : BitVec 5) (f : BitVec 2) (v : BitVec 1) (fs : BitVec 3) (s : State) : Host.Outcome State Fault Refusal :=
  .next (s.issueS 8 [] [] fun _ s =>
    let t := s.cur.t
    let base := s.me.s a.toNat
    let pitch := s.me.s b.toNat
    let bar := if v = 1#1 then some (s.me.s c.toNat) else none
    match s.wloadFault base pitch bar f.toNat fs.toNat with
    | some e => .trap e
    | none =>
      if (s.node t).hasEntry = false then .wait
      else
        let w := s.releaseSet s.cur.ctx 1
        let i := s.newId t
        let x := i.2.node t
        let l := x.loadSlots f.toNat fs.toNat
        let q : WReq :=
          { id := i.1, slots := l, slot := fs.toNat, f := f.toNat, base := base, pitch := pitch.toNat,
            bar := bar.map BitVec.toNat, key := s.cur.ctx, resid := s.me.resid.getD 0, waits := w }
        let bump (x : Node) (n : Nat) : Node := x.setSlot n { x.slot n with gen := ((x.slot n).gen + 1) % 2 ^ 16 }
        .ok ((i.2.setNode t (l.foldl bump { x with wloads := x.wloads ++ [q] })).countReq))

/-- Does a `wload` admitted before an id still change one of some slots? -/
def Node.loadAhead (x : Node) (id : Nat) (slots : List Nat) : Bool :=
  x.wloads.any fun w => decide (w.id < id) && w.slots.any slots.contains

/-- The slots that a request of a slot reads, by the format it will hold. -/
def slotsOf (pair : Bool) (n : Nat) : List Nat := if pair then [n, n + 1] else [n]

/-- May a `wload` write now (R132): no older `wload`, waiting request or lane uses its slots. (DEDUCED, log 26) -/
def Node.loadReady (x : Node) (w : WReq) (cycle : Nat) : Bool :=
  !x.loadAhead w.id w.slots && w.waits == [] &&
  x.groups.all (fun g => decide (w.id < g.id) || !(w.slots.contains g.slot)) &&
  x.lanes.all fun e => (e.2.rows == [] && decide (e.2.freeAt ≤ cycle)) || !(e.2.slots.any w.slots.contains)

/-- The sector addresses of a `wload`'s source, row by row. -/
def WReq.sectors (w : WReq) : List W64 :=
  (List.range 64).flatMap fun k =>
    (List.range (2 * (if w.f = 0 then 1 else 2 ^ w.f))).map fun i => w.base + BitVec.ofNat 64 (k * w.pitch + 32 * i)

/-- Is a word of SRAM, by its key over 8, one of the cells of a slot? -/
def isWeightWord (t slot w : Nat) : Bool := decide (weightKey t slot 0 0 / 8 ≤ w) && decide (w < weightKey t slot 0 0 / 8 + 512)

/-- Write the cells of a slot or pair from the sectors of its source (R123, R132); the other half of a pair becomes EMPTY (R280). -/
def State.writeCells (s : State) (t : Nat) (w : WReq) (ws : List W256) : State :=
  let es := if w.f = 0 then 1 else 2 ^ w.f
  let elem (k j : Nat) : Nat := cutSector (ws.getD (k * 2 * es + j * es / 32) 0) (j * es % 32) es
  let cols := (List.range 64).map fun j =>
    if w.f = 0 then (false, (0 : Int), (List.range 64).map fun k => ((elem k j : Nat) : Int))
    else w16Column ((List.range 64).map fun k => (if w.f = 1 then fmtB16 else fmtF32).read (elem k j))
  let put (n sh : Nat) (m : Memory) (k : Nat) : Memory :=
    Memory.writeN m (weightKey t n k 0) 64
      ((List.range 64).foldl (fun acc j => acc + low ((cols.getD j (false, 0, [])).2.2.getD k 0) 16 / 2 ^ sh % 256 * 2 ^ (8 * j)) 0)
  let rows (n sh : Nat) (m : Memory) : Memory := (List.range 64).foldl (put n sh) m
  let x := s.node t
  let s := { s with badWords := s.badWords.filter fun c => !(if w.f = 0 then [w.slot] else [w.slot, w.slot + 1]).any fun n => isWeightWord t n c }
  if w.f = 0 then
    let x := w.slots.foldl (fun x n => x.setSlot n { x.slot n with fmt := if n = w.slot then .i8 else (x.slot n).fmt.single }) x
    { s.setNode t x with mem := rows w.slot 0 s.mem }
  else
    let hi := { x.slot (w.slot + 1) with fmt := .hi }
    let lo := { x.slot w.slot with
      fmt := .lo
      ec := (List.range 64).map fun j => (j, (cols.getD j (false, 0, [])).2.1)
      nanCol := (List.range 64).map fun j => (j, (cols.getD j (false, 0, [])).1) }
    { s.setNode t ((x.setSlot w.slot lo).setSlot (w.slot + 1) hi) with mem := rows (w.slot + 1) 8 (rows w.slot 0 s.mem) }

/-- A `wload` completes: on its barrier, or as an asynchronous record of origin 4 when it has failed without one (R280). -/
def State.loadDone (s : State) (t : Nat) (w : WReq) (e : Option MErr) : State :=
  let x := s.node t
  let s := s.setNode t { x with wloads := x.wloads.filter fun y => y.id != w.id }
  match s.liveRes w.resid with
  | none => s
  | some _ =>
    match w.bar, e with
    | some name, e => s.engineArrive t w.resid name e.isSome
    | none, none => s
    | none, some e => s.sendRecord w.key ⟨4, BitVec.ofNat 32 e.detail, BitVec.ofNat 8 e.cause, e.addr⟩

/-- `WLOAD_WRITE`: the `wload` named by the place reads its source, and when it has all of it writes its slot or pair; a failing read
leaves format and cells (R132, R280). (DEDUCED, log 26) -/
def execWloadWrite (s : State) : Host.Outcome State Fault Refusal :=
  .next
    (let t := s.cur.t
    let x := s.node t
    match x.wloads.find? fun w => w.id == s.cur.n with
    | none => s
    | some w =>
      if x.loadReady w s.cycle = false then s
      else
        let y := s.nodeFetch t w.resid w.key w.id w.sectors w.reads
        match fetchOutcome w.sectors.length y.1 with
        | .wait =>
          let x := y.2.node t
          y.2.setNode t { x with wloads := x.wloads.map fun v => if v.id = w.id then { v with reads := y.1 } else v }
        | .bad a => y.2.loadDone t w (some { cause := 0x38, detail := a.toNat % 2 ^ 32, addr := a })
        | .all ws => (y.2.writeCells t w ws).loadDone t w none)

/-! ## wexport (R281, R133) -/

/-- A key that the node has not issued for the slot: the device's choice, under the bound of R133. (DESIGN CHOICE, log 8) -/
def freshKey (issued : List (BitVec 32)) (k : BitVec 32) : BitVec 32 :=
  if k ≠ 0 ∧ issued.contains k = false then k
  else (((List.range (issued.length + 1)).map fun i => BitVec.ofNat 32 (i + 1)).find? fun j => !issued.contains j).getD 1

/-- The faults of both forms (R281). A slot is W16-HI or not by the format that it will hold once every `wload` before has taken effect, as
requests are judged (R137). (DESIGN CHOICE, log 83) -/
def State.exportFault (s : State) (n : Nat) : Option Trap :=
  if s.ownsSlot s.cur.t (s.me.resid.getD 0) n = false then some (matrixTrap 0x32)
  else if (s.node s.cur.t).pendFmt n = .hi then some (matrixTrap 0x33) else none

/-- `wexport` (R133, R281). -/
def execWexport (a : BitVec 5) (fs : BitVec 3) (s : State) : Host.Outcome State Fault Refusal :=
  .next (s.issueS 8 [] [a] fun _ s =>
    match s.exportFault fs.toNat with
    | some e => .trap e
    | none =>
      let t := s.cur.t
      let x := s.node t
      let y := x.slot fs.toNat
      let k := freshKey y.issued (Config.exportKey s.free)
      let y := { y with
        expValid := true, expKey := k, expLim := s.me.prio.toNat, expHold := s.me.hold.toNat, issued := k :: y.issued }
      let s := { s with free := s.free + 1 }
      .ok ((s.setNode t (x.setSlot fs.toNat y)).put a (BitVec.ofNat 64 (t * 2 ^ 52 + fs.toNat * 2 ^ 32 + k.toNat))))

/-- `wexport.rv` (R133, R281). -/
def execWexportRv (fs : BitVec 3) (s : State) : Host.Outcome State Fault Refusal :=
  .next (s.issueS 8 [] [] fun _ s =>
    match s.exportFault fs.toNat with
    | some e => .trap e
    | none =>
      let x := s.node s.cur.t
      .ok (s.setNode s.cur.t (x.setSlot fs.toNat { x.slot fs.toNat with expValid := false })))

/-! ## mmq (R282, R283) -/

/-- The token that `mmq` builds, with its priority lowered to PRIO (R283). -/
def Ctx.mmqToken (c : Ctx) (a b x d : BitVec 5) (h f v : BitVec 1) (k : BitVec 28) : MTok :=
  let src := k.extractLsb' 2 2
  let isRet := k.extractLsb' 25 3 == 3#3
  let bar : BitVec 15 := if v = 1#1 then (c.s d.toNat).setWidth 15 else 0
  let hd : W64 := if h = 1#1 then c.s a.toNat else a.setWidth 64
  let ad : W64 := if src = 0#2 then c.s b.toNat else if src = 2#2 then (b.extractLsb' 0 3).setWidth 64 else 0
  let ds : W64 := if isRet ∧ f = 0#1 then c.s x.toNat else if f = 1#1 then (x.extractLsb' 0 3).setWidth 64 else 0
  let tok : W256 := 0#4 ++ k ++ v ++ bar ++ h ++ f ++ 0#14 ++ hd ++ ad ++ ds
  MTok.withPrio tok (min (MTok.prio tok) c.prio.toNat)

/-- A request of the context whose turn it is. -/
def State.newReq (s : State) (k : MTok) : MReq :=
  { id := 0, tok := k, dev := s.host.devnum.toNat, tile := s.cur.t, key := s.cur.ctx, bank := s.cur.b, resid := s.me.resid.getD 0,
    remote := false, tid := 0, slot := k.slot, gen := 0,
    hold := s.me.hold.toNat, admitted := 0, waits := s.releaseSet s.cur.ctx 1, rows := [], fetched := false, seq := s.me.reqSeq,
    err := none, dead := false }

/-- The faults of a request at issue (R283): those of a local one, or of one for another tile. (DEDUCED, log 24) -/
def State.mmqFault (s : State) (k : MTok) (bar : Option W64) : Option Trap :=
  let t := s.cur.t
  let r := s.me.resid.getD 0
  let isLocal := !k.isHandle || handleTile k.handle == t
  let c :=
    if isLocal then s.mCheck t r false k
    else if k.formOk = false then some 0x30
    else if k.reachOk = false then some 0x34
    else if 64 < 1 + k.sectors then some 0x30 else none
  match c with
  | some x => some (matrixTrap x)
  | none =>
    if isLocal ∧ k.src = 0 ∧ k.addr.toNat % 32 ≠ 0 then some ⟨0x18, k.addr, 0⟩
    else
      match bar with
      | none => none
      | some name => if (s.barPlace t r name.toNat).isNone then some ⟨0x23, 0, name⟩ else none

/-- `mmq` (R283): admitted here, or sent to the tile of its handle once its rows are fetched (R140); the context waits until the network
has taken the packet. A handle of a tile that is absent has no node to check it: cause 0x31 at once. (DEDUCED, log 84; DESIGN CHOICE,
log 89) -/
def execMmq (a b c d : BitVec 5) (h f v : BitVec 1) (k : BitVec 28) (s : State) : Host.Outcome State Fault Refusal :=
  .next (s.issueS 8 [] [] fun _ s =>
    let t := s.cur.t
    let tok := s.me.mmqToken a b c d h f v k
    match s.mmqFault tok (if v = 1#1 then some (s.me.s d.toNat) else none) with
    | some e => .trap e
    | none =>
      let q := s.newReq tok
      let s := s.countReq
      if MTok.isHandle tok = false ∨ handleTile (MTok.handle tok) = t then
        if (s.node t).hasEntry = false then .wait else .ok (s.takeIn t (s.handleLimits t q))
      else if s.present (handleTile (MTok.handle tok)) = false then .ok (s.mDone t q (some { cause := 0x31, detail := 0 }))
      else
        let i := s.newId t
        let j := i.2.newTid t
        let x := j.2.node t
        let s := j.2.setNode t { x with sending := x.sending ++ [{ q with id := i.1, tid := j.1 }] }
        .hold (s.setMe { s.me with wait := .mmq i.1 }))

/-! ## accrd, accclr (R284, R285) -/

/-- `accrd` (R284): its token enters the queue, and the context waits for the value. -/
def execAccrd (a : BitVec 5) (f : BitVec 2) (fs : BitVec 3) (w : BitVec 4) (c : BitVec 3) (s : State) :
    Host.Outcome State Fault Refusal :=
  .next (s.issueS 8 [] [a] fun _ s =>
    let t := s.cur.t
    let r := s.me.resid.getD 0
    if s.ownsSlice t r fs.toNat = false then .trap (matrixTrap 0x32)
    else
      match s.enterAcc t false r s.cur.core s.me.reqSeq fs.toNat w.toNat
          (.read s.cur.ctx fs.toNat w.toNat c.toNat f.toNat a) with
      | none => .wait
      | some s => .hold ((s.countReq).setMe { s.countReq.me with wait := .accrd a }))

/-- `accclr` (R285): one token that zeroes rows. -/
def execAccclr (fs : BitVec 3) (w c : BitVec 4) (s : State) : Host.Outcome State Fault Refusal :=
  .next (s.issueS 8 [] [] fun _ s =>
    let t := s.cur.t
    let r := s.me.resid.getD 0
    let n := c.toNat + 1
    if 16 < w.toNat + n then .trap (matrixTrap 0x30)
    else if s.ownsSlice t r fs.toNat = false then .trap (matrixTrap 0x32)
    else
      match s.enterAcc t false r s.cur.core s.me.reqSeq fs.toNat w.toNat (.clear fs.toNat w.toNat n) with
      | none => .wait
      | some s => .ok s.countReq)

/-! ## Requests from M and from other tiles (R137, R140, R145) -/

/-- `MATRIX_REQUEST_TOKEN`: a request token taken at M of the place's context bank is admitted, or completes with ERR (R137); a malformed
one, of cause 0x30 or with a barrier that is not the residency's, has no requester to complete and is dropped (R144). Its
context is core 0 of the bank (03_memory_spaces.md R406). (DEDUCED, log 40) -/
def execMatrixRequestToken (s : State) : Host.Outcome State Fault Refusal :=
  .next
    (let t := s.cur.t
    let b := s.cur.b
    let x := s.node t
    match x.mTok.find? fun e => e.1 == b with
    | none => s
    | some (_, tok) =>
      let s := s.setNode t { x with mTok := x.mTok.erase b }
      s.withCur ((t * 4) * 4 + b) fun s =>
        let tok := MTok.withPrio tok (min (MTok.prio tok) s.me.prio.toNat)
        let q := { s.newReq tok with waits := [], key := s.cur.ctx }
        let bar := match MTok.barrier tok with
          | none => true
          | some name => (s.barPlace t q.resid name).isSome
        if MTok.formOk tok = false ∨ bar = false then s.dropAtM t b
        else
        match s.mCheck t q.resid false tok with
        | none => s.countReq.takeIn t (s.handleLimits t q)
        | some c =>
          let s := s.mFail t q { cause := c, detail := 0 }
          if MTok.src tok = 1 then let y := s.node t; s.setNode t { y with mDrop := y.mDrop.set b true } else s)

/-- A packet of a remote matrix request. -/
def isRemoteReq (p : Packet) : Bool := p.h.kind == 10

/-- Has a residency of this device reached step 2 of its discard, or ended? Its requests are in no node (R49, R150). -/
def State.pastRequests (s : State) (dev r : Nat) : Bool :=
  dev == s.host.devnum.toNat && (s.findRes r).all fun x => decide (2 ≤ x.step)

/-- `REMOTE_MATRIX_REQUEST`: a request through a handle reaches the slot's tile with its rows (R140); one whose residency has gone is
dropped (R150), and rows that cannot be read are a fetch fault (22_faults_discard.md R380). -/
def execRemoteMatrixRequest (s : State) : Host.Outcome State Fault Refusal :=
  .next
    (let t := s.cur.t
    match s.arrived t isRemoteReq with
    | none => s
    | some p =>
      if s.pastRequests p.h.sdev p.h.resid then s.takeArrived t isRemoteReq
      else if (s.node t).hasEntry = false then s
      else
        let s := s.takeArrived t isRemoteReq
        let tok : MTok := p.pay.headD 0
        let q : MReq :=
          { id := 0, tok := tok, dev := p.h.sdev, tile := p.h.stile, key := p.h.addr.toNat, bank := 0, resid := p.h.resid, remote := true,
            tid := p.h.tid, slot := tok.slot, gen := 0, hold := 0, admitted := 0, waits := [],
            rows := p.pay.drop 1, fetched := true, seq := p.h.info.toNat, err := none, dead := false }
        let c :=
          if p.h.bad then some 0x36
          else if tok.isHandle = false ∨ tok.extractLsb' 252 4 ≠ 0#4 ∨ (tok.formOk = true ∧ p.pay.length ≠ 1 + tok.sectors) then some 0x30
          else s.mCheck t p.h.resid true tok
        match c with
        | some x => s.mDone t q (some { cause := x, detail := 0 })
        | none => s.takeIn t (s.handleLimits t q))

/-! ## Fetching A (R136, R146) -/

/-- Row words at the head of a queue for a request: the words taken, what is left, and the tag of a word that is not DATA. -/
def takeRows (n : Nat) (l : List NetWord) : List W256 × List NetWord × Option (BitVec 4) :=
  match n, l with
  | 0, l => ([], l, none)
  | _, [] => ([], [], none)
  | n + 1, w :: r =>
    if w.tag = 0#4 then let y := takeRows n r; (w.data :: y.1, y.2) else ([], w :: r, some w.tag)

/-- What fetching gives a waiting request now: the state and the request after it. An address of rows in memory that is not one of a
sector, where no instruction has checked it, is a fetch fault. (DESIGN CHOICE, log 89) -/
def State.fetchRows (s : State) (t : Nat) (q : MReq) : State × MReq :=
  let k : MTok := q.tok
  let need := k.sectors - q.rows.length
  let fail (e : MErr) : State × MReq := (s, { q with err := some e })
  if q.waits ≠ [] ∨ q.fetched ∨ q.err.isSome then (s, q)
  else if k.src = 0 then
    if k.addr.toNat % 32 ≠ 0 then fail { cause := 0x36, detail := k.addr.toNat % 2 ^ 32, addr := k.addr }
    else
      let y := s.nodeFetch t q.resid q.key q.id ((List.range k.sectors).map fun i => k.addr + BitVec.ofNat 64 (32 * i)) q.reads
      match fetchOutcome k.sectors y.1 with
      | .wait => (y.2, { q with reads := y.1 })
      | .bad a => (y.2, { q with reads := [], err := some { cause := 0x36, detail := a.toNat % 2 ^ 32, addr := a } })
      | .all ws => (y.2, { q with reads := [], rows := ws, fetched := true })
  else if k.src = 1 then (s, if need = 0 then { q with fetched := true } else q)
  else
    let n := k.addr.toNat % 8
    let older := (s.node t).waiting.any fun y =>
      decide (y.id < q.id) && !y.remote && MTok.src y.tok == 2 && (MTok.addr y.tok).toNat % 8 == n && !y.fetched && y.err.isNone
    let b := s.bank t n
    if older then (s, q)
    else if (s.queueFault t q.resid n).isSome then fail { cause := 0x36, detail := 0 }
    else if b.pending ≠ [] then (s, q)
    else
      let y := takeRows need b.queue
      let s := s.setBank t n { b with queue := y.2.1 }
      let q := { q with rows := q.rows ++ y.1, fetched := decide (y.1.length = need) }
      (s, match y.2.2 with | some tag => if q.fetched then q else { q with err := some { cause := 0x36, detail := tag.toNat } } | none => q)

/-- The `mmq` of a request for another tile completes (R283). -/
def State.mmqLeaves (s : State) (q : MReq) : State :=
  s.withCur q.key fun s => if s.me.wait = .mmq q.id then s.complete else s

/-- A request for another tile leaves when its rows are fetched, or completes when its fetch has faulted (R140). (DEDUCED, log 84) -/
def State.sendRemote (s : State) (t : Nat) (q : MReq) : State :=
  let x := s.node t
  let gone (s : State) : State := let x := s.node t; s.setNode t { x with sending := x.sending.filter fun y => y.id != q.id }
  if (x.sending.any fun y => y.id == q.id) = false then s
  else
    match q.err with
    | some e => ((gone s).mmqLeaves q).mDeliver t q.key q.resid q.tok (some e)
    | none =>
      if q.fetched = false then s
      else
        let hd : Hdr := s.toTile 10 t (handleTile (MTok.handle q.tok)) q.resid
        ((gone s).send t ⟨{ hd with tid := q.tid, addr := BitVec.ofNat 64 q.key, info := BitVec.ofNat 64 q.seq }, q.tok :: q.rows⟩).mmqLeaves q

/-- `A_FETCH_COMPLETE`: the fetch of the waiting request named by the place goes on: its rows are read, or taken from M or a queue, or
it faults (R136, R146). -/
def execAFetchComplete (s : State) : Host.Outcome State Fault Refusal :=
  .next
    (let t := s.cur.t
    match (s.node t).waiting.find? fun q => q.id == s.cur.n with
    | none => s
    | some q =>
      let y := s.fetchRows t q
      let s := y.1.setNode t ((y.1.node t).mapReq q.id fun _ => y.2)
      (s.dissolve t).sendRemote t y.2)

/-! ## Groups (R147, R148) -/

def Node.lane (x : Node) (n : Nat) : Lane := x.lanes.get {} n
def Node.setLane (x : Node) (n : Nat) (l : Lane) : Node := { x with lanes := x.lanes.set n l }

/-- The lanes that are free in a cycle, ascending (R134): none that holds rows, nor the second of a pair that does. -/
def Node.freeLanes (x : Node) (cycle : Nat) : List Nat :=
  (List.range 4).filter fun n => (x.lane n).rows == [] && decide ((x.lane n).freeAt ≤ cycle) &&
    !(x.lanes.any fun e => e.2.mate == some n && e.2.rows != [])

/-- Does a group's slot hold the low half of a pair? -/
def Node.isPair (x : Node) (n : Nat) : Bool := (x.slot n).fmt == .lo

/-- The lanes that a group needs (R134). -/
def Node.lanesFor (x : Node) (g : Group) : Nat := if x.isPair g.slot then 2 else 1

/-- `GROUP_HOLD_EXPIRY`: the group named by the place becomes ready: its oldest member has waited HOLD cycles, or its slot is
work-conserving, a lane is free and no other group is ready (R147). (DEDUCED, log 67) -/
def execGroupHoldExpiry (s : State) : Host.Outcome State Fault Refusal :=
  .next
    (let t := s.cur.t
    let x := s.node t
    match x.groups.find? fun g => g.id == s.cur.n with
    | none => s
    | some g =>
      let wc := (x.slot g.slot).wc && decide (x.lanesFor g ≤ (x.freeLanes s.cycle).length) && x.groups.all fun h => !h.ready
      if g.opened + g.hold ≤ s.cycle ∨ wc = true ∨ g.full = true then
        s.setNode t { x with groups := x.groups.map fun h => if h.id = g.id then { h with ready := true } else h }
      else s)

/-- `GROUP_OVERDUE`: the oldest member of the group named by the place has waited 4·HOLD cycles: the group rises one level (R148). -/
def execGroupOverdue (s : State) : Host.Outcome State Fault Refusal :=
  .next
    (let t := s.cur.t
    let x := s.node t
    match x.groups.find? fun g => g.id == s.cur.n with
    | none => s
    | some g =>
      if g.overdue = false ∧ g.opened + 4 * g.hold ≤ s.cycle then
        let up (h : Group) : Group :=
          if h.id = g.id then { h with overdue := true, ready := true, prio := min 3 (h.prio + 1) } else h
        s.setNode t { x with groups := x.groups.map up }
      else s)

/-- Does a ready group come before another (R148)? -/
def Group.before (a b : Group) : Bool :=
  if a.overdue != b.overdue then a.overdue
  else if a.overdue || a.prio == b.prio then
    (if a.opened = b.opened then (if a.slot = b.slot then decide (a.id < b.id) else decide (a.slot < b.slot))
    else decide (a.opened < b.opened))
  else decide (b.prio < a.prio)

/-- May a ready group issue, lanes apart: every member fetched or faulted, and no `wload` before it still to write (R147, R132)? (DEDUCED,
log 67) -/
def Node.canIssue (x : Node) (g : Group) : Bool :=
  g.ready && g.members.all (fun q => q.fetched || q.err.isSome) && !x.loadAhead g.id (slotsOf (x.isPair g.slot) g.slot) &&
  !x.loadAhead g.id [g.slot]

/-- The first group in the order of R148. (DEDUCED, log 67) -/
def Node.firstGroup (x : Node) : Option Group :=
  match x.groups.filter x.canIssue with
  | [] => none
  | g :: r => some (r.foldl (fun a b => if b.before a then b else a) g)

/-- Has a weight row of some slots a parity error (21_memory_subsystem.md R368)? (DEDUCED, log 68) -/
def State.weightBad (s : State) (t : Nat) (slots : List Nat) : Bool := s.badWords.any fun w => slots.any fun n => isWeightWord t n w

/-- Requests of a node fail before they are stacked. -/
def Node.failReqs (x : Node) (e : MErr) (l : List MReq) : Node :=
  l.foldl (fun x q => x.mapReq q.id fun q => { q with err := some (q.err.getD e) }) x

/-- `GROUP_ISSUE`: the first ready group takes its lanes and issues, without the members whose fetch has faulted; while it cannot have
its lanes, none issues (R146, R148). Members that do not go with the format the slot holds complete with cause 0x33 (R137), those that read
a weight row with a parity error with cause 0x36 (21_memory_subsystem.md R368). (DEDUCED, log 26; DEDUCED, log 68) -/
def execGroupIssue (s : State) : Host.Outcome State Fault Refusal :=
  .next
    (let t := s.cur.t
    let x := s.node t
    match x.firstGroup with
    | none => s
    | some g =>
      let slots := slotsOf (x.isPair g.slot) g.slot
      let out := g.members.filter fun q => q.err.isSome
      let ok := g.members.filter fun q => q.err.isNone
      let x' := { x with groups := x.groups.filter fun h => h.id != g.id }
      if fmtMatch (x.slot g.slot).fmt g.af = false then
        ok.foldl (fun s q => s.mRefused t 0x33 q) (out.foldl (fun s q => s.mFaulted t q) (s.setNode t x'))
      else if s.weightBad t slots then
        let e : MErr := { cause := 0x36, detail := (Config.weightErrorDetail s.free).toNat }
        (g.members.map fun q => { q with err := some (q.err.getD e) }).foldl (fun s q => s.mFaulted t q)
          ({ s with free := s.free + 1 }.setNode t (x'.failReqs e ok))
      else
        match x.freeLanes s.cycle, x.lanesFor g with
        | [], _ => s
        | n :: more, need =>
          if more.length + 1 < need then s
          else
            let pair := x.isPair g.slot
            let n' := aWords g.af
            let rows := ok.flatMap fun q => (List.range (MTok.m q.tok)).map fun i =>
              (⟨q, i, s.rowTerms t g.slot pair g.af g.d ((q.rows.drop (n' * i)).take n')⟩ : LaneRow)
            let l : Lane :=
              { slots := slots, issued := s.cycle, d := g.d, rows := rows, freeAt := s.cycle + 16 + rows.length * g.d,
                mate := if need = 2 then more.head? else none }
            let x' := x'.setLane n l
            let x' := match l.mate with | none => x' | some m => x'.setLane m { l with rows := [], mate := none }
            out.foldl (fun s q => s.mFaulted t q) (s.setNode t x'))

/-! ## Rows leaving lanes (R134, R138) -/

/-- The bytes of a RETURN row (R138): eight sectors, or four for B16. -/
def returnBytes (rf : Nat) (es : List Elem) : Nat × Nat :=
  let w := if rf = 1 then 16 else 32
  (8 * w, (es.foldr (fun e acc => (e.deliver rf).1 % 2 ^ w + acc * 2 ^ w) 0))

/-- The places of the sectors of a RETURN row: none while one cannot be reached yet; a sector that fails has no home (R138). -/
def State.returnSpots (s : State) (t : Nat) (q : MReq) : List Part → Option (List (Part × Option Home)) × State
  | [] => (some [], s)
  | p :: ps =>
    match s.nodeSpot t q.resid q.key (if q.remote then {} else s.ctx q.key) p.addr p.n true with
    | .wait s => (none, s)
    | .bad s _ =>
      let y := s.returnSpots t q ps
      (y.1.map fun l => (p, none) :: l, y.2)
    | .home s h =>
      let y := s.returnSpots t q ps
      (y.1.map fun l => (p, some h) :: l, y.2)

/-- Write the sectors of a RETURN row with value `v`: at once in a bank, else by posted writes; their transactions, and the first sector
that failed (R138). -/
def State.returnWrite (s : State) (t : Nat) (q : MReq) (v : Nat) (l : List (Part × Option Home)) : State × List Nat × Option W64 :=
  l.foldl (fun (acc : State × List Nat × Option W64) x =>
    let o := x.1.addr.toNat % 32
    let d := placed (v / 2 ^ (8 * x.1.off) % 2 ^ (8 * x.1.n)) o
    match x.2 with
    | none => (acc.1, acc.2.1, some (acc.2.2.getD x.1.addr))
    | some (.sram k) => (acc.1.writeSector k (byteMask o x.1.n) d, acc.2)
    | some h =>
      let y := acc.1.request t q.resid q.key (.node q.id) 1 h x.1.addr (byteMask o x.1.n) 0 [d] false
      (y.2, acc.2.1 ++ [y.1], acc.2.2)) (s, [], none)

/-- The effect of a row that leaves its lane (R138): the state, and how many of its words a full queue has taken when it must wait. -/
inductive Left where
  | gone (s : State)
  | wait (s : State) (pushed : Nat)

/-- A RETURN request is over when its last row has left and its writes are answered (R138). -/
def RetJob.done (x : RetJob) : Bool := x.last && x.tids == []

/-- The failure of a RETURN request: the first sector found failing (R144). -/
def RetJob.failure (x : RetJob) : Option MErr := x.bad.map fun a => { cause := 0x39, detail := a.toNat % 2 ^ 32, addr := a }

/-- Keep what is known of a RETURN request, or complete it. -/
def State.setReturn (s : State) (t : Nat) (j : RetJob) : State :=
  let x := s.node t
  let rest := x.returns.filter fun y => y.req.id != j.req.id
  if j.done then (s.setNode t { x with returns := rest }).mDone t j.req j.failure
  else s.setNode t { x with returns := rest ++ [j] }

/-- A row of a RETURN request has left its lane with some writes under way and the first sector that failed. -/
def State.returnRow (s : State) (t : Nat) (q : MReq) (last : Bool) (tids : List Nat) (bad : Option W64) : State :=
  let j := ((s.node t).returns.find? fun y => y.req.id == q.id).getD { req := q }
  s.setReturn t { j with tids := j.tids ++ tids, bad := if j.bad.isSome then j.bad else bad, last := last }

/-- A write of a RETURN request is answered: performed, or refused at an address (R57, R138). -/
def State.returnOver (s : State) (t tid : Nat) (bad : Option W64) : State :=
  match (s.node t).returns.find? fun y => y.tids.contains tid with
  | none => s
  | some j => s.setReturn t { j with tids := strike tid j.tids, bad := if j.bad.isSome then j.bad else bad }

/-- A RETURN row leaves (R138): to a queue word by word, to memory when all its sectors can be reached. -/
def State.leaveReturn (s : State) (t : Nat) (q : MReq) (i pushed : Nat) (last : Bool) (es : List Elem) : Left :=
  let k : MTok := q.tok
  let b := returnBytes k.rf es
  if q.dead then .gone s
  else if k.toQueue then
    let n := k.dst.toNat % 8
    if (s.queueFault t q.resid n).isSome then .gone (s.returnRow t q last [] (some 0))
    else
      let ws := (List.range (b.1 / 32)).map fun u => BitVec.ofNat 256 (b.2 / 2 ^ (256 * u))
      match ws.drop pushed with
      | [] => .gone (s.returnRow t q last [] none)
      | w :: todo =>
        if (s.bank t n).pushTo = .blocked ∨ (s.bank t n).pending ≠ [] then .wait s pushed
        else
          let s := s.setBank t n ((s.bank t n).push ⟨w, 0⟩)
          if todo = [] then .gone (s.returnRow t q last [] none) else .wait s (pushed + 1)
  else
    match s.returnSpots t q (parts (k.dst + BitVec.ofNat 64 (i * b.1)) b.1) with
    | (none, s) => .wait s pushed
    | (some l, s) =>
      let y := s.returnWrite t q b.2 l
      .gone (y.1.returnRow t q last y.2.1 y.2.2)

/-- Gather a row of a CHAIN or RACC request. -/
def State.gatherRow (s : State) (t : Nat) (q : MReq) (last : Bool) (es : List Elem) : State :=
  let k : MTok := q.tok
  let x := s.node t
  let old := (x.outs.find? fun o => o.req.id == q.id).getD { req := q }
  let o := { old with rows := old.rows ++ [(es, false)] }
  let keep := x.outs.filter fun o => o.req.id != q.id
  if k.mode = 1 then
    if last then
      let words := psumHeader false k.m 0 0 0 :: o.rows.flatMap fun r => psumRow r.1
      let n := words.length
      let out : List MWord := (words.zip (List.range n)).map fun z =>
        ⟨⟨z.1, if z.2 = 0 then 9 else 0⟩, if z.2 + 1 = n then some q else none⟩
      let s := s.setNode t { x with outs := keep }
      if q.dead then s else s.offerM t q.bank out
    else s.setNode t { x with outs := keep ++ [o] }
  else
    let s := s.setNode t { x with outs := if last then keep else if o.rows.length = 3 then
      keep ++ [{ o with rows := [], sent := o.sent + 3 }] else keep ++ [o] }
    let s := if last ∨ o.rows.length = 3 then s.sendPsum t q o.sent o.rows else s
    if last then s.mDone t q none else s

/-- A row leaves its lane. A CHAINADD row whose PSUM row has not come yet leaves too, and waits among its chain's terms: it holds no lane.
(DESIGN CHOICE, log 81) -/
def State.leaveRow (s : State) (t : Nat) (l : Lane) (x : LaneRow) : Left :=
  let q := x.req
  let k : MTok := q.tok
  let i := x.row
  let es := x.terms
  let last := i + 1 == k.m
  match k.mode with
  | 0 =>
    match s.enterAcc t true q.resid (q.key / 4) q.seq k.slice (k.off + i)
        (.row k.slice (k.off + i) k.acc es false (if last then some q else none)) with
    | none => .wait s 0
    | some s => .gone s
  | 2 =>
    let y := s.node t
    match y.chains.find? fun c => c.req.id == q.id with
    | none => .gone s
    | some c =>
      let c := { c with terms := c.terms ++ [es] }
      let s' := s.setNode t { y with chains := y.chains.map fun e => if e.req.id = q.id then c else e }
      if 20 * c.terms.length ≤ c.words.length ∧ c.sent + 1 = c.terms.length then
        match s'.chainStep t c with
        | none => .wait s 0
        | some s => .gone s
      else .gone s'
  | 3 => s.leaveReturn t q i l.pushed last es
  | _ => .gone (s.gatherRow t q last es)

/-- A lane's rows, and its occupancy, stand later by some cycles (R134). -/
def Lane.later (l : Lane) (n : Nat) : Lane := { l with issued := l.issued + n, freeAt := l.freeAt + n }

/-- Put a lane back, and give the second lane of its pair the same occupancy (R134). -/
def Node.setLanes (x : Node) (n : Nat) (l : Lane) : Node :=
  let y := x.setLane n l
  match l.mate with
  | none => y
  | some m => y.setLane m { y.lane m with freeAt := l.freeAt }

/-- `ROW_LEAVE_LANE`: the oldest row of the lane named by the place leaves when its digits are done and its output can take it; each cycle
that it waits adds one to the occupancy of the group's lanes (R134). Poison tokens enter before; at place 4, behind the lanes, chains go on
as far as their words allow (R139, R142). -/
def execRowLeaveLane (s : State) : Host.Outcome State Fault Refusal :=
  .next
    (let t := s.cur.t
    let s := s.enterPoisons t 64
    let s := if s.cur.n = 4 then s.runChains t else s
    let l := (s.node t).lane s.cur.n
    match l.rows with
    | [] => s
    | x :: rest =>
      let due := l.issued + 16 + (l.done + 1) * l.d - 1
      if s.cycle < due then s
      else
        match s.leaveRow t l x with
        | .wait s n => s.setNode t ((s.node t).setLanes s.cur.n { l.later (s.cycle + 1 - due) with pushed := n })
        | .gone s =>
          s.setNode t ((s.node t).setLanes s.cur.n { l.later (s.cycle - due) with rows := rest, done := l.done + 1, pushed := 0 }))

/-! ## The accumulator (R142, R143) -/

def accKey (slice row col : Nat) : Nat := (slice * 16 + row) * 64 + col

/-- The value of `accrd` (R284, R127, R143): column group `g` in format `f`, with its flags. An element with an uncorrectable error has no
value: it is delivered as one of a poisoned row (21_memory_subsystem.md R367, R368). (DEDUCED, log 23; DESIGN CHOICE, log 33) -/
def Node.accValue (x : Node) (slice row g f : Nat) : W256 × BitVec 6 :=
  let w := if f = 1 then 16 else 32
  let n := 256 / w
  let el (l : Nat) : FRes :=
    if x.poison.get false (slice * 16 + row) ∨ x.accBad.contains (accKey slice row (n * g + l)) then poisonDeliver f
    else (x.acc.get {} (accKey slice row (n * g + l))).deliver f
  (vecOf w n fun l => (el l).1, (List.range n).foldl (fun acc l => acc ||| (el l).2) 0)

/-- Zero a row and clear its poison bit. -/
def Node.clearRow (x : Node) (slice row : Nat) : Node :=
  { x with
    acc := x.acc.filter fun e => e.1 / 64 != slice * 16 + row
    poison := x.poison.set (slice * 16 + row) false
    accBad := x.accBad.filter fun e => e / 64 != slice * 16 + row }

/-- Apply a row of terms to a slice row (R126, R142, R143). Adding to an element with an uncorrectable error leaves the error, writing the
element ends it (21_memory_subsystem.md R367, R368). (DESIGN CHOICE, log 33) -/
def Node.applyRow (x : Node) (slice row : Nat) (acc : Bool) (es : List Elem) (poison : Bool) : Node :=
  let k := slice * 16 + row
  let put (m : AMap Elem) (j : Nat) : AMap Elem :=
    let e := es.getD j {}
    m.set (accKey slice row j) (if acc then (m.get {} (accKey slice row j)).add e else e)
  { x with
    acc := (List.range 64).foldl put x.acc
    poison := x.poison.set k ((acc && x.poison.get false k) || poison)
    accBad := if acc then x.accBad else x.accBad.filter fun e => e / 64 != k }

/-- The slice row that a token touches. -/
def AccTok.rowAt (k : AccTok) : Nat :=
  match k with
  | .row sl ro _ _ _ _ => sl * 16 + ro
  | .poison sl ro _ => sl * 16 + ro
  | .clear sl ro _ => sl * 16 + ro
  | .read _ sl ro _ _ _ => sl * 16 + ro

/-- `ACCUMULATOR_APPLY`: the token at the head of the queue is applied (R142). -/
def execAccumulatorApply (s : State) : Host.Outcome State Fault Refusal :=
  .next
    (let t := s.cur.t
    let x := s.node t
    let done (s : State) (q : Option MReq) : State := match q with | none => s | some q => s.mDone t q q.err
    match x.accQ with
    | [] => s
    | k :: r =>
      let x := { x with accQ := r }
      match k with
      | .row sl ro acc es po q => done (s.setNode t (x.applyRow sl ro acc es po)) q
      | .poison sl ro q => done (s.setNode t { x with poison := x.poison.set (sl * 16 + ro) true }) q
      | .clear sl ro n => s.setNode t ((List.range n).foldl (fun x i => x.clearRow sl (ro + i)) x)
      | .read key sl ro g f d =>
        let v := x.accValue sl ro g f
        (s.setNode t x).withCur key fun s =>
          if s.me.wait = .accrd d then ((s.putV d v.1).flags v.2).complete else s)

/-! ## PSUM packets and remote completions (R140, R141) -/

def isPsum (p : Packet) : Bool := p.h.kind == 11

/-- A well-formed PSUM packet (R141). -/
def psumOk (p : Packet) : Bool :=
  match p.pay with
  | [] => false
  | h :: ws =>
    let m := (h.extractLsb' 235 4).toNat + 1
    h.extractLsb' 252 4 == 1#4 && h.extractLsb' 249 3 == 0#3 && h.extractLsb' 239 9 == 0#9 && h.extractLsb' 224 4 == 0#4 &&
    h.extractLsb' 0 208 == 0#208 && decide (ws.length = 20 * m) && decide (m ≤ 3) && decide (m + (h.extractLsb' 228 4).toNat ≤ 16)

/-- Name of a remote request at its requester's tile. -/
def psumName (p : Packet) : Nat := (p.h.sdev * 2 ^ 12 + p.h.stile) * 2 ^ 15 + p.h.tid

/-- A malformed packet is named by an event (22_faults_discard.md R375 kind 0x12). -/
def State.badPacket (s : State) (t : Nat) (h : Hdr) : State :=
  s.tileEvent t (eventWord 0x12 0 0 t 0 0 (h.kind * 2 ^ 12)) (h.bits.extractLsb' 192 64) 0 none

/-- `PSUM_PACKET`: the rows of a packet enter the accumulator queue as LOCAL rows, poisoned where they cannot be read (22_faults_discard.md
R380); a malformed one is dropped (R141). (DEDUCED, log 67) -/
def execPsumPacket (s : State) : Host.Outcome State Fault Refusal :=
  .next
    (let t := s.cur.t
    match s.arrived t isPsum with
    | none => s
    | some p =>
      let h := p.pay.headD 0
      let m := (h.extractLsb' 235 4).toNat + 1
      let slice := (h.extractLsb' 232 3).toNat
      let off := (h.extractLsb' 228 4).toNat
      let taken := s.takeArrived t isPsum
      if psumOk p = false ∨ s.ownsSlice t p.h.resid slice = false then
        let x := taken.node t
        (taken.setNode t { x with badPsum := psumName p :: x.badPsum }).badPacket t p.h
      else if s.accRoom t false m = false then s
      else
        let step (acc : Option State) (i : Nat) : Option State :=
          acc.bind fun s => s.enterAcc t true p.h.resid (p.h.addr.toNat / 4) p.h.info.toNat slice (off + i)
            (.row slice (off + i) (h.getLsbD 248) (psumElems ((p.pay.drop (1 + 20 * i)).take 20)) (h.getLsbD (208 + i) || p.h.bad) none)
        ((List.range m).foldl step (some taken)).getD s)

def isMatrixDone (p : Packet) : Bool := p.h.kind == 4 && p.h.op == opMatrixDone

/-- `REMOTE_COMPLETION`: the completion of a request that ran elsewhere reaches its barrier, behind its PSUM packets (R140, R141). -/
def execRemoteCompletion (s : State) : Host.Outcome State Fault Refusal :=
  .next
    (let t := s.cur.t
    match s.arrived t isMatrixDone with
    | none => s
    | some p =>
      if s.inbox.any fun x => x.node == t && isPsum x.p && psumName x.p == psumName p then s
      else
        let s := s.takeArrived t isMatrixDone
        let x := s.node t
        let bad := x.badPsum.contains (psumName p)
        let s := s.setNode t { x with badPsum := x.badPsum.filter (· != psumName p) }
        let e := if bad then some { cause := 0x35, detail := 0 } else MErr.ofBits (p.pay.getD 1 0)
        s.mDeliver t p.h.addr.toNat p.h.resid (p.pay.headD 0) e)

end Sys2Proof.Machine
end

