-- ==== Sys2Proof/Machine/Scalar.lean ====
section
/-! DEFINITION. Scalar integer, predicate and control instructions (11_scalar_control.md R205 to R222). -/

namespace Sys2Proof.Machine

/-! ## Shapes -/

/-- rd = f(ra, rb). -/
def State.alu2 (s : State) (f : W64 → W64 → W64) (d a b : BitVec 5) : State :=
  s.issueS 4 [rd a, rd b] [d] fun x s => .ok (s.put d (f (x 0) (x 1)))

/-- rd = f(ra). -/
def State.alu1 (s : State) (f : W64 → W64) (d a : BitVec 5) : State :=
  s.issueS 4 [rd a] [d] fun x s => .ok (s.put d (f (x 0)))

/-- A saturating form (R208): the exact result is clamped, and the saturated flag set where it is. -/
def State.aluSat (s : State) (sg : Bool) (f : W64 → W64 → Int) (d a b : BitVec 5) : State :=
  s.issueS 4 [rd a, rd b] [d] fun x s =>
    let r := clampTo sg 64 (f (x 0) (x 1))
    .ok ((s.put d (BitVec.ofInt 64 r.1)).flags r.2)

/-- Write a predicate of the context whose turn it is. -/
def State.putP (s : State) (d : BitVec 3) (v : Bool) : State := s.setMe (s.me.setP d.toNat v)

/-- pd = f(pa, pb). -/
def State.pred2 (s : State) (f : Bool → Bool → Bool) (d a b : BitVec 3) : State :=
  s.issueS 4 [] [] fun _ s => .ok (s.putP d (f (s.me.p a.toNat) (s.me.p b.toNat)))

/-- Sign- and zero-extension of the low n bits. -/
def signExt (n : Nat) (a : W64) : W64 := BitVec.ofInt 64 (sext a.toNat n)
def zeroExt (n : Nat) (a : W64) : W64 := BitVec.ofNat 64 (a.toNat % 2 ^ n)

/-- Count of leading zero bits, from bit `n - 1` down. -/
def leadingZeros (a : W64) : Nat → Nat
  | 0 => 0
  | n + 1 => if a.getLsbD n then 0 else leadingZeros a n + 1

/-- Count of trailing zero bits, `n` bits left. -/
def trailingZeros (a : W64) : Nat → Nat
  | 0 => 0
  | n + 1 => if a.getLsbD (63 - n) then 0 else trailingZeros a n + 1

/-- Count of one bits among the low n. -/
def oneBits (a : W64) : Nat → Nat
  | 0 => 0
  | n + 1 => oneBits a n + (if a.getLsbD n then 1 else 0)

/-- A shift or rotate amount: bits 5:0 (R208). -/
def amount (b : W64) : Nat := (b.extractLsb' 0 6).toNat

/-- The condition codes of R213. -/
def condition (c : BitVec 4) (a b : W64) : Bool :=
  match c.toNat with
  | 0 => a == b
  | 1 => a != b
  | 2 => a.slt b
  | 3 => !a.slt b
  | 4 => a.ult b
  | 5 => !a.ult b
  | 6 => (a &&& b) != 0
  | _ => (a &&& b) == 0

/-- A taken transfer to `t` under R186. -/
def State.transfer (s : State) (t : W64) (effect : State → State) : Res :=
  if s.me.targetOk t then .jump (effect s) t else .trap ⟨0x03, t, 0⟩

/-- A target relative to IP, in words (R185). -/
def State.relative (s : State) (o : Int) : W64 := s.me.ip.setWidth 64 + BitVec.ofInt 64 (o * 4)

/-- A conditional branch (R218). -/
def State.branch (s : State) (sense : Bool) (p : BitVec 3) (o : BitVec 19) : State :=
  s.issueS 4 [] [] fun _ s => if s.me.p p.toNat = sense then s.transfer (s.relative o.toInt) id else .ok s

/-! ## Integer ALU (R208) -/

/-- `add`: a + b (R208). -/
def execAdd (d a b : BitVec 5) (s : State) : Host.Outcome State Fault Refusal := .next (s.alu2 (fun a b => a + b) d a b)

/-- `sub`: a − b (R208). -/
def execSub (d a b : BitVec 5) (s : State) : Host.Outcome State Fault Refusal := .next (s.alu2 (fun a b => a - b) d a b)

/-- `and`: a & b (R208). -/
def execAnd (d a b : BitVec 5) (s : State) : Host.Outcome State Fault Refusal := .next (s.alu2 (fun a b => a &&& b) d a b)

/-- `or`: a | b (R208). -/
def execOr (d a b : BitVec 5) (s : State) : Host.Outcome State Fault Refusal := .next (s.alu2 (fun a b => a ||| b) d a b)

/-- `xor`: a ^ b (R208). -/
def execXor (d a b : BitVec 5) (s : State) : Host.Outcome State Fault Refusal := .next (s.alu2 (fun a b => a ^^^ b) d a b)

/-- `andn`: a & ~b (R208). -/
def execAndn (d a b : BitVec 5) (s : State) : Host.Outcome State Fault Refusal := .next (s.alu2 (fun a b => a &&& ~~~b) d a b)

/-- `shl`: a << b[5:0] (R208). -/
def execShl (d a b : BitVec 5) (s : State) : Host.Outcome State Fault Refusal := .next (s.alu2 (fun a b => a <<< amount b) d a b)

/-- `shr`: un(a) >> b[5:0] (R208). -/
def execShr (d a b : BitVec 5) (s : State) : Host.Outcome State Fault Refusal := .next (s.alu2 (fun a b => a >>> amount b) d a b)

/-- `sar`: sg(a) >> b[5:0] (R208). -/
def execSar (d a b : BitVec 5) (s : State) : Host.Outcome State Fault Refusal := .next (s.alu2 (fun a b => a.sshiftRight (amount b)) d a b)

/-- `rol`: rotate left by b[5:0] (R208). -/
def execRol (d a b : BitVec 5) (s : State) : Host.Outcome State Fault Refusal := .next (s.alu2 (fun a b => a.rotateLeft (amount b)) d a b)

/-- `ror`: rotate right by b[5:0] (R208). -/
def execRor (d a b : BitVec 5) (s : State) : Host.Outcome State Fault Refusal := .next (s.alu2 (fun a b => a.rotateRight (amount b)) d a b)

/-- `min`: the smaller of sg(a) and sg(b) (R208). -/
def execMin (d a b : BitVec 5) (s : State) : Host.Outcome State Fault Refusal := .next (s.alu2 (fun a b => if b.slt a then b else a) d a b)

/-- `max`: the larger of sg(a) and sg(b) (R208). -/
def execMax (d a b : BitVec 5) (s : State) : Host.Outcome State Fault Refusal := .next (s.alu2 (fun a b => if a.slt b then b else a) d a b)

/-- `minu`: the smaller of un(a) and un(b) (R208). -/
def execMinu (d a b : BitVec 5) (s : State) : Host.Outcome State Fault Refusal := .next (s.alu2 (fun a b => if b.ult a then b else a) d a b)

/-- `maxu`: the larger of un(a) and un(b) (R208). -/
def execMaxu (d a b : BitVec 5) (s : State) : Host.Outcome State Fault Refusal := .next (s.alu2 (fun a b => if a.ult b then b else a) d a b)

/-- `adds`: sg(a) + sg(b), saturating (R208). -/
def execAdds (d a b : BitVec 5) (s : State) : Host.Outcome State Fault Refusal :=
  .next (s.aluSat true (fun a b => a.toInt + b.toInt) d a b)

/-- `subs`: sg(a) − sg(b), saturating (R208). -/
def execSubs (d a b : BitVec 5) (s : State) : Host.Outcome State Fault Refusal :=
  .next (s.aluSat true (fun a b => a.toInt - b.toInt) d a b)

/-- `addus`: un(a) + un(b), saturating (R208). -/
def execAddus (d a b : BitVec 5) (s : State) : Host.Outcome State Fault Refusal :=
  .next (s.aluSat false (fun a b => (a.toNat : Int) + b.toNat) d a b)

/-- `subus`: un(a) − un(b), saturating (R208). -/
def execSubus (d a b : BitVec 5) (s : State) : Host.Outcome State Fault Refusal :=
  .next (s.aluSat false (fun a b => (a.toNat : Int) - b.toNat) d a b)

/-- `mov`: a (R208). -/
def execMov (d a : BitVec 5) (s : State) : Host.Outcome State Fault Refusal := .next (s.alu1 (fun a => a) d a)

/-- `sxb`: sext(a, 8) (R208). -/
def execSxb (d a : BitVec 5) (s : State) : Host.Outcome State Fault Refusal := .next (s.alu1 (signExt 8) d a)

/-- `sxh`: sext(a, 16) (R208). -/
def execSxh (d a : BitVec 5) (s : State) : Host.Outcome State Fault Refusal := .next (s.alu1 (signExt 16) d a)

/-- `sxw`: sext(a, 32) (R208). -/
def execSxw (d a : BitVec 5) (s : State) : Host.Outcome State Fault Refusal := .next (s.alu1 (signExt 32) d a)

/-- `zxb`: zext(a, 8) (R208). -/
def execZxb (d a : BitVec 5) (s : State) : Host.Outcome State Fault Refusal := .next (s.alu1 (zeroExt 8) d a)

/-- `zxh`: zext(a, 16) (R208). -/
def execZxh (d a : BitVec 5) (s : State) : Host.Outcome State Fault Refusal := .next (s.alu1 (zeroExt 16) d a)

/-- `zxw`: zext(a, 32) (R208). -/
def execZxw (d a : BitVec 5) (s : State) : Host.Outcome State Fault Refusal := .next (s.alu1 (zeroExt 32) d a)

/-- `clz`: count of leading zero bits (R208). -/
def execClz (d a : BitVec 5) (s : State) : Host.Outcome State Fault Refusal := .next (s.alu1 (fun a => BitVec.ofNat 64 (leadingZeros a 64)) d a)

/-- `ctz`: count of trailing zero bits (R208). -/
def execCtz (d a : BitVec 5) (s : State) : Host.Outcome State Fault Refusal := .next (s.alu1 (fun a => BitVec.ofNat 64 (trailingZeros a 64)) d a)

/-- `pcnt`: count of one bits (R208). -/
def execPcnt (d a : BitVec 5) (s : State) : Host.Outcome State Fault Refusal := .next (s.alu1 (fun a => BitVec.ofNat 64 (oneBits a 64)) d a)

/-! ## Multiply and divide (R212, R114) -/

/-- `mul`: bits 63:0 of a · b (R212). -/
def execMul (d a b : BitVec 5) (s : State) : Host.Outcome State Fault Refusal :=
  .next (s.alu2 (fun a b => a * b) d a b)

/-- `mulh`: bits 127:64 of sg(a) · sg(b) (R212). -/
def execMulh (d a b : BitVec 5) (s : State) : Host.Outcome State Fault Refusal :=
  .next (s.alu2 (fun a b => BitVec.ofInt 64 (Int.fdiv (a.toInt * b.toInt) (2 ^ 64))) d a b)

/-- `mulhu`: bits 127:64 of un(a) · un(b) (R212). -/
def execMulhu (d a b : BitVec 5) (s : State) : Host.Outcome State Fault Refusal :=
  .next (s.alu2 (fun a b => BitVec.ofNat 64 (a.toNat * b.toNat / 2 ^ 64)) d a b)

/-- `mulhsu`: bits 127:64 of sg(a) · un(b) (R212). -/
def execMulhsu (d a b : BitVec 5) (s : State) : Host.Outcome State Fault Refusal :=
  .next (s.alu2 (fun a b => BitVec.ofInt 64 (Int.fdiv (a.toInt * b.toNat) (2 ^ 64))) d a b)

/-- `div`: signed quotient (R212). -/
def execDiv (d a b : BitVec 5) (s : State) : Host.Outcome State Fault Refusal :=
  .next (s.alu2 (fun a b => BitVec.ofInt 64 (divide 64 true a.toInt b.toInt)) d a b)

/-- `divu`: unsigned quotient (R212). -/
def execDivu (d a b : BitVec 5) (s : State) : Host.Outcome State Fault Refusal :=
  .next (s.alu2 (fun a b => BitVec.ofInt 64 (divide 64 false a.toNat b.toNat)) d a b)

/-- `rem`: signed remainder (R212). -/
def execRem (d a b : BitVec 5) (s : State) : Host.Outcome State Fault Refusal :=
  .next (s.alu2 (fun a b => BitVec.ofInt 64 (remainder a.toInt b.toInt)) d a b)

/-- `remu`: unsigned remainder (R212). -/
def execRemu (d a b : BitVec 5) (s : State) : Host.Outcome State Fault Refusal :=
  .next (s.alu2 (fun a b => BitVec.ofInt 64 (remainder a.toNat b.toNat)) d a b)

/-! ## Immediates (R209 to R211) -/

/-- `addi`: get(ra) + sext(imm, 13) (R209). -/
def execAddi (d a : BitVec 5) (i : BitVec 13) (s : State) : Host.Outcome State Fault Refusal :=
  .next (s.alu1 (fun a => a + i.signExtend 64) d a)

/-- `andi`: get(ra) &&& sext(imm, 13) (R209). -/
def execAndi (d a : BitVec 5) (i : BitVec 13) (s : State) : Host.Outcome State Fault Refusal :=
  .next (s.alu1 (fun a => a &&& i.signExtend 64) d a)

/-- `ori`: get(ra) ||| sext(imm, 13) (R209). -/
def execOri (d a : BitVec 5) (i : BitVec 13) (s : State) : Host.Outcome State Fault Refusal :=
  .next (s.alu1 (fun a => a ||| i.signExtend 64) d a)

/-- `xori`: get(ra) ^^^ sext(imm, 13) (R209). -/
def execXori (d a : BitVec 5) (i : BitVec 13) (s : State) : Host.Outcome State Fault Refusal :=
  .next (s.alu1 (fun a => a ^^^ i.signExtend 64) d a)

/-- `shli`: the SALU form with its amount in the instruction (R210). -/
def execShli (d a : BitVec 5) (n : BitVec 6) (s : State) : Host.Outcome State Fault Refusal :=
  .next (s.alu1 (fun a => a <<< n.toNat) d a)

/-- `shri`: the SALU form with its amount in the instruction (R210). -/
def execShri (d a : BitVec 5) (n : BitVec 6) (s : State) : Host.Outcome State Fault Refusal :=
  .next (s.alu1 (fun a => a >>> n.toNat) d a)

/-- `sari`: the SALU form with its amount in the instruction (R210). -/
def execSari (d a : BitVec 5) (n : BitVec 6) (s : State) : Host.Outcome State Fault Refusal :=
  .next (s.alu1 (fun a => a.sshiftRight n.toNat) d a)

/-- `roli`: the SALU form with its amount in the instruction (R210). -/
def execRoli (d a : BitVec 5) (n : BitVec 6) (s : State) : Host.Outcome State Fault Refusal :=
  .next (s.alu1 (fun a => a.rotateLeft n.toNat) d a)

/-- `rori`: the SALU form with its amount in the instruction (R210). -/
def execRori (d a : BitVec 5) (n : BitVec 6) (s : State) : Host.Outcome State Fault Refusal :=
  .next (s.alu1 (fun a => a.rotateRight n.toNat) d a)

/-- `lhi`: chunk c at position h, bits below kept and bits above cleared (R211). -/
def execLhi (d : BitVec 5) (h : BitVec 2) (c : BitVec 16) (s : State) : Host.Outcome State Fault Refusal :=
  .next (s.issueS 4 [] [d] fun _ s =>
    let k := 16 * h.toNat
    .ok (s.put d (BitVec.ofNat 64 ((s.me.s d.toNat).toNat % 2 ^ k + c.toNat * 2 ^ k))))

/-! ## Compares and predicates (R213 to R216) -/

/-- `cmp`: a condition, combined with pd (R213). -/
def execCmp (d : BitVec 3) (a b : BitVec 5) (m : BitVec 2) (c : BitVec 4) (s : State) : Host.Outcome State Fault Refusal :=
  .next (s.issueS 4 [rd a, rd b] [] fun x s =>
    let v := condition c (x 0) (x 1)
    let p := s.me.p d.toNat
    .ok (s.putP d (if m.toNat = 0 then v else if m.toNat = 1 then p && v else p || v)))

/-- `cmpi`: a condition with a 10-bit immediate, signed for codes 0 to 3 (R214). -/
def execCmpi (d : BitVec 3) (a : BitVec 5) (c : BitVec 3) (i : BitVec 10) (s : State) : Host.Outcome State Fault Refusal :=
  .next (s.issueS 4 [rd a] [] fun x s =>
    let b := if c.toNat < 4 then i.signExtend 64 else i.setWidth 64
    .ok (s.putP d (condition (c.setWidth 4) (x 0) b)))

/-- `pand` (R215). -/
def execPand (d a b : BitVec 3) (s : State) : Host.Outcome State Fault Refusal := .next (s.pred2 (fun a b => a && b) d a b)

/-- `por` (R215). -/
def execPor (d a b : BitVec 3) (s : State) : Host.Outcome State Fault Refusal := .next (s.pred2 (fun a b => a || b) d a b)

/-- `pxor` (R215). -/
def execPxor (d a b : BitVec 3) (s : State) : Host.Outcome State Fault Refusal := .next (s.pred2 (fun a b => a != b) d a b)

/-- `pandn` (R215). -/
def execPandn (d a b : BitVec 3) (s : State) : Host.Outcome State Fault Refusal := .next (s.pred2 (fun a b => a && !b) d a b)

/-- `pnot` (R215). -/
def execPnot (d a : BitVec 3) (s : State) : Host.Outcome State Fault Refusal :=
  .next (s.issueS 4 [] [] fun _ s => .ok (s.putP d (!s.me.p a.toNat)))

/-- `prds`: rd = 1 if pa is true, else 0 (R215). -/
def execPrds (d : BitVec 5) (a : BitVec 3) (s : State) : Host.Outcome State Fault Refusal :=
  .next (s.issueS 4 [] [d] fun _ s => .ok (s.put d (if s.me.p a.toNat then 1 else 0)))

/-- `pwrs`: pd = get(ra)[0] (R215). -/
def execPwrs (d : BitVec 3) (a : BitVec 5) (s : State) : Host.Outcome State Fault Refusal :=
  .next (s.issueS 4 [rd a] [] fun x s => .ok (s.putP d ((x 0).getLsbD 0)))

/-- `prdall`: rd[7:0] = p7 … p0 (R215). -/
def execPrdall (d : BitVec 5) (s : State) : Host.Outcome State Fault Refusal :=
  .next (s.issueS 4 [] [d] fun _ s =>
    .ok (s.put d (BitVec.ofNat 64 ((List.range 8).foldl (fun v i => if s.me.p i then v + 2 ^ i else v) 0))))

/-- `pwrall`: p1 … p7 = get(ra)[1] … get(ra)[7] (R215). -/
def execPwrall (a : BitVec 5) (s : State) : Host.Outcome State Fault Refusal :=
  .next (s.issueS 4 [rd a] [] fun x s =>
    .ok (s.setMe ((List.range 8).foldl (fun c i => c.setP i ((x 0).getLsbD i)) s.me)))

/-- `sel`: p[N] ? a : b, both sources read (R216). -/
def execSel (d a b : BitVec 5) (n : BitVec 3) (s : State) : Host.Outcome State Fault Refusal :=
  .next (s.issueS 4 [rd a, rd b] [d] fun x s => .ok (s.put d (if s.me.p n.toNat then x 0 else x 1)))

/-! ## Addresses and transfers of control (R217 to R220) -/

/-- `ipa`: rd = IP + sext(imm, 18) · 4 (R217). -/
def execIpa (d : BitVec 5) (i : BitVec 18) (s : State) : Host.Outcome State Fault Refusal :=
  .next (s.issueS 4 [] [d] fun _ s => .ok (s.put d (s.relative i.toInt)))

/-- `bt`: taken when p is true (R218). -/
def execBt (p : BitVec 3) (o : BitVec 19) (s : State) : Host.Outcome State Fault Refusal := .next (s.branch true p o)

/-- `bf`: taken when p is false (R218). -/
def execBf (p : BitVec 3) (o : BitVec 19) (s : State) : Host.Outcome State Fault Refusal := .next (s.branch false p o)

/-- `jmp` (R219). -/
def execJmp (o : BitVec 25) (s : State) : Host.Outcome State Fault Refusal :=
  .next (s.issueS 4 [] [] fun _ s => s.transfer (s.relative o.toInt) id)

/-- `call`: s26 = IP + 4 (R185, R219). -/
def execCall (o : BitVec 25) (s : State) : Host.Outcome State Fault Refusal :=
  .next (s.issueS 4 [] [] fun _ s => s.transfer (s.relative o.toInt) fun s => s.put 26 (s.me.ip.setWidth 64 + 4))

/-- `jr`: IP = get(ra) (R220). -/
def execJr (a : BitVec 5) (s : State) : Host.Outcome State Fault Refusal :=
  .next (s.issueS 4 [rd a] [] fun x s => s.transfer (x 0) id)

/-- `jalr`: rd = IP + 4, IP = the old get(ra) (R220). -/
def execJalr (d a : BitVec 5) (s : State) : Host.Outcome State Fault Refusal :=
  .next (s.issueS 4 [rd a] [d] fun x s => s.transfer (x 0) fun s => s.put d (s.me.ip.setWidth 64 + 4))

/-- `ret`: IP = s26 (R220). -/
def execRet (s : State) : Host.Outcome State Fault Refusal :=
  .next (s.issueS 4 [] [] fun _ s => s.transfer (s.me.s 26) id)

end Sys2Proof.Machine
end

