-- ==== Sys2Proof/Machine/Stream.lean ====
section
/-! DEFINITION. Token, steering and fibre instructions (14_stream_instructions.md R261 to R277; 09_fibres_progress.md R166 to R175). -/

namespace Sys2Proof.Machine

/-! ## Endpoints (R261) -/

/-- Is an endpoint code a port of the core, and which register number? -/
def epPort (c : BitVec 4) : Option Nat := if 8 ≤ c.toNat ∧ c.toNat ≤ 12 then some (c.toNat + 19) else none

/-- The words at an input endpoint of the context whose turn it is. -/
def State.epWords (s : State) (c : BitVec 4) : List NetWord :=
  match epPort c with
  | some p => s.portIn p
  | none => let b := s.bank s.cur.t c.toNat; if b.mode = .fifo ∧ b.pending = [] then b.queue else []

def State.epPop (s : State) (c : BitVec 4) : State :=
  match epPort c with
  | some p => s.popPort p
  | none => let b := s.bank s.cur.t c.toNat; s.setBank s.cur.t c.toNat { b with queue := b.queue.drop 1 }

/-- Can an output endpoint accept a push now? -/
def State.epRoom (s : State) (c : BitVec 4) : Bool :=
  match epPort c with
  | some p => decide (1 ≤ s.roomAt s.cur.ctx p) && !s.donePending s.cur.ctx false p
  | none => s.queueRoom c.toNat

def State.epPush (s : State) (c : BitVec 4) (w : NetWord) : State :=
  match epPort c with
  | some p => s.pushPort p w
  | none => s.setBank s.cur.t c.toNat ((s.bank s.cur.t c.toNat).push w)

/-- The fault of a queue endpoint (R261). -/
def State.epFault (s : State) (c : BitVec 4) : Option Trap :=
  if c.toNat < 8 then s.queueFault s.cur.t (s.me.resid.getD 0) c.toNat else none

/-! ## The shape of a streaming instruction -/

/-- Inputs, outputs and stop level of a streaming or steering instruction (R266, R267). -/
structure Shape where
  ins : List (BitVec 4)
  outs : List (BitVec 4)
  level : Nat
  deriving DecidableEq, Repr

def shapeOf (i : Instr) : Shape :=
  match i with
  | .steer d a b e l => ⟨[a, b], [d, e], l.toNat⟩
  | .tee d a e l => ⟨[a], [d, e], l.toNat⟩
  | .merge d a b e l => ⟨[a, b, e], [d], l.toNat⟩
  | .fscan l i o _ _ _ => ⟨[i], [o], l.toNat⟩
  | .fisect l i j o => ⟨[i, j], [o], l.toNat⟩
  | .funion l i j o => ⟨[i, j], [o], l.toNat⟩
  | .frep l i j o => ⟨[i, j], [o], l.toNat⟩
  | .fzip l i j o _ _ => ⟨[i, j], [o], l.toNat⟩
  | .fload l i o _ _ _ => ⟨[i], [o], l.toNat⟩
  | .fred l i o _ _ => ⟨[i], [o], l.toNat⟩
  | .fwrite l i o _ _ _ => ⟨[i], if o = 15#4 then [] else [o], l.toNat⟩
  | _ => ⟨[], [], 4⟩

/-- Is every endpoint that the instruction could use ready (R262)? A queue that is no owned FIFO bank does not make it wait. -/
def State.shapeReady (s : State) (h : Shape) : Bool :=
  (h.ins.all fun c => (s.epFault c).isSome || s.epWords c != []) && (h.outs.all fun c => (s.epFault c).isSome || s.epRoom c)

/-- Issue a streaming or steering instruction: it starts once it is ready (R262), and runs step by step from its next turn on. -/
def State.issueStream (s : State) (len : Nat) (i : Instr) (x y z : BitVec 5) (aligned : List (BitVec 5)) : State :=
  let h := shapeOf i
  let srcs := (h.ins.filterMap epPort).map streamRd
  let outs := (h.outs.filterMap epPort).map (BitVec.ofNat 5)
  if (s.ownFault (portsOf srcs) (outPorts outs)).isNone ∧ s.shapeReady h = false then s
  else
    s.issueS len srcs outs fun _ s =>
      match (h.ins ++ h.outs).findSome? s.epFault with
      | some c => .trap c
      | none =>
        match aligned.find? fun r => (s.me.s r.toNat).toNat % 4 ≠ 0 with
        | some r => .trap ⟨0x18, s.me.s r.toNat, 0⟩
        | none =>
          let r : StreamRun := { instr := i, len := len, x := s.me.s x.toNat, y := s.me.s y.toNat, z := s.me.s z.toNat }
          .pause (s.setMe { s.me with stream := some r })

/-! ## Heads (R167) -/

/-- What a fibre input's head is: an element, or a stop of level 0 to 4, 4 for EOS. -/
inductive Head where
  | data (w : W256)
  | stop (k : Nat)
  deriving DecidableEq, Repr

/-- What a step of a running instruction does. -/
inductive StepRes where
  /-- Pop inputs and push words to outputs, when every output has room; `fin` completes the instruction. -/
  | act (pops : List Nat) (push : List (Nat × NetWord)) (r : StreamRun) (fin : Bool)
  /-- Read 32 bits of memory, when every output has room. -/
  | read (a : W64) (r : StreamRun)
  /-- Write 32 bits of memory and pop the first input. -/
  | write (a : W64) (v : Nat) (r : StreamRun)
  /-- Raise an ERR (R170), when every output has room. -/
  | err (cause detail : Nat)
  /-- Forward the ERR at the head of an input (R171), when every output has room. -/
  | forward (i : Nat) (w : NetWord)
  | wait

/-- The tag of a word as a streaming instruction reads it: EOT is EOS (R167). -/
def levelOf (t : BitVec 4) : Option Nat :=
  if 1 ≤ t.toNat ∧ t.toNat ≤ 5 then some (t.toNat - 1) else if t = 6#4 then some 4 else none

/-- The word of a stop level. -/
def stopWord (k : Nat) : NetWord := ⟨0, BitVec.ofNat 4 (k + 1)⟩

/-- Look at the head of an input and go on with it; DONE is consumed and dropped (R167). -/
def withHead (heads : List (Option NetWord)) (r : StreamRun) (i : Nat) (k : Head → StepRes) : StepRes :=
  match heads.getD i none with
  | none => .wait
  | some w =>
    if w.tag = 0xB#4 then .act [i] [] r false
    else if w.tag = 0xA#4 then .forward i w
    else if w.tag = 0#4 then k (.data w.data)
    else match levelOf w.tag with
      | some n => k (.stop n)
      | none => .err 0x24 w.tag.toNat

/-- Fields of an element word (R128). -/
def crd (w : W256) : Nat := (w.extractLsb' 0 32).toNat
def ref0 (w : W256) : Nat := (w.extractLsb' 32 32).toNat
def ref1 (w : W256) : Nat := (w.extractLsb' 64 32).toNat
def val (w : W256) : Nat := (w.extractLsb' 96 32).toNat
def element (c r0 r1 v : Nat) : NetWord :=
  ⟨BitVec.ofNat 256 (c % 2 ^ 32 + r0 % 2 ^ 32 * 2 ^ 32 + r1 % 2 ^ 32 * 2 ^ 64 + v % 2 ^ 32 * 2 ^ 96), 0⟩

/-! ## Steps (R173 to R175, R270 to R275). `dl` is the level that a data word shows where two inputs disagree: the manual gives none. -/

def headTag (h : Head) : Nat := match h with | .data _ => 0 | .stop k => k + 1
def headLevel (dl : Nat) (h : Head) : Nat := match h with | .data _ => dl | .stop k => k

/-- `tee` (R175): every word that R167 admits is copied as it stands, DONE and EOT among them; a word that R167 forbids is malformed.
(DEDUCED, log 30) -/
def stepTee (hd : List (Option NetWord)) (r : StreamRun) (l : Nat) : StepRes :=
  match hd.getD 0 none with
  | none => .wait
  | some w =>
    let copy (fin : Bool) : StepRes := .act [0] [(0, w), (1, w)] r fin
    if w.tag = 0xA#4 then .forward 0 w
    else if w.tag = 0#4 ∨ w.tag = 0xB#4 then copy false
    else match levelOf w.tag with
      | some k => copy (decide (l ≤ k))
      | none => .err 0x24 w.tag.toNat

/-- `steer` (R173). -/
def stepSteer (hd : List (Option NetWord)) (r : StreamRun) (l : Nat) : StepRes :=
  withHead hd r 0 fun a => withHead hd r 1 fun p =>
    match a, p with
    | .data w, .data b => .act [0, 1] [(if b.getLsbD 0 then 1 else 0, ⟨w, 0⟩)] r false
    | .stop j, .stop k =>
      if j = k then .act [0, 1] [(0, stopWord k), (1, stopWord k)] r (decide (l ≤ k))
      else .err 0x26 (headTag p + 16 * headTag a)
    | _, _ => .err 0x26 (headTag p + 16 * headTag a)

/-- `merge`: the predicate names the arm it waits on; a stop must meet its like on both arms (R174). An arm that does not is malformed though
the other is still empty, and the first is named where both are. (DESIGN CHOICE, log 91) -/
def stepMerge (hd : List (Option NetWord)) (r : StreamRun) (l : Nat) : StepRes :=
  withHead hd r 0 fun p =>
    match p with
    | .data b =>
      let arm := if b.getLsbD 0 then 2 else 1
      withHead hd r arm fun a =>
        match a with
        | .data w => .act [0, arm] [(0, ⟨w, 0⟩)] r false
        | .stop _ => .err 0x26 (headTag p + 16 * headTag a)
    | .stop k =>
      let bad (i : Nat) : Option StepRes :=
        match hd.getD i none with
        | none => none
        | some _ =>
          match withHead hd r i fun a => if a = .stop k then .wait else .err 0x26 (headTag p + 16 * headTag a) with
          | .wait => none
          | x => some x
      match bad 1, bad 2 with
      | some x, _ => x
      | none, some x => x
      | none, none =>
        if (hd.getD 1 none).isNone ∨ (hd.getD 2 none).isNone then .wait
        else .act [0, 1, 2] [(0, stopWord k)] r (decide (l ≤ k))

/-- `fscan` (R270): phase 0 looks at the input; 1 and 2 read the segment; 3 emits the children; 4 looks behind the reference. (DEDUCED, log 30) -/
def stepScan (hd : List (Option NetWord)) (r : StreamRun) (l : Nat) : StepRes :=
  withHead hd r 0 fun h =>
    let stop (k : Nat) : StepRes :=
      if k = 3 then .err 0x27 4
      else .act [0] [(0, stopWord (if k = 4 then 4 else k + 1))] { r with phase := 0 } (decide (l ≤ k))
    match h with
    | .stop k => if r.phase = 4 ∧ k = 3 then .err 0x27 4 else stop k
    | .data w =>
      let p := ref0 w
      let addr (b : W64) (i : Nat) : W64 := b + BitVec.ofNat 64 (4 * i)
      if r.phase = 0 then
        (if r.z.toNat ≤ p then .err 0x23 p else .read (addr r.x p) { r with phase := 1 })
      else if r.phase = 4 then .act [] [(0, stopWord 0)] { r with phase := 0 } false
      else
        match r.mem with
        | some none => .err 0x25 ((addr (if r.phase = 3 then r.y else r.x)
            (if r.phase = 1 then p else if r.phase = 2 then p + 1 else r.lo)).toNat % 2 ^ 32)
        | none =>
          if r.phase = 3 then
            (if r.lo < r.hi then .read (addr r.y r.lo) r else .act [0] [] { r with phase := 4 } false)
          else .read (addr r.x (if r.phase = 1 then p else p + 1)) r
        | some (some v) =>
          if r.phase = 1 then .read (addr r.x (p + 1)) { r with lo := v, phase := 2, mem := none }
          else if r.phase = 2 then
            (if v < r.lo then .err 0x28 p else .act [] [] { r with hi := v, phase := 3, mem := none } false)
          else .act [] [(0, element v r.lo p (val w))] { r with lo := r.lo + 1, mem := none } false

/-- Is a coordinate not above the last one of its fibre (R271)? -/
def descends (prev : Option Nat) (c : Nat) : Bool := match prev with | none => false | some p => decide (c ≤ p)

/-- `fisect` and `funion` (R271, R172). -/
def stepIsect (union : Bool) (hd : List (Option NetWord)) (r : StreamRun) (l : Nat) : StepRes :=
  withHead hd r 0 fun a => withHead hd r 1 fun b =>
    let takeA (w : W256) : StepRes :=
      if descends r.prevA (crd w) then .err 0x22 (crd w)
      else .act [0] (if union then [(0, element (crd w) (ref0 w) 0xFFFFFFFF (val w))] else []) { r with prevA := some (crd w) } false
    let takeB (w : W256) : StepRes :=
      if descends r.prevB (crd w) then .err 0x22 (crd w)
      else .act [1] (if union then [(0, element (crd w) 0xFFFFFFFF (ref0 w) (val w))] else []) { r with prevB := some (crd w) } false
    match a, b with
    | .data u, .data v =>
      if crd u = crd v then
        if descends r.prevA (crd u) ∨ descends r.prevB (crd v) then .err 0x22 (crd u)
        else .act [0, 1] [(0, element (crd u) (ref0 u) (ref0 v) (val u))]
          { r with prevA := some (crd u), prevB := some (crd v) } false
      else if crd u < crd v then takeA u else takeB v
    | .data u, .stop _ => takeA u
    | .stop _, .data v => takeB v
    | .stop j, .stop k =>
      if j = k then .act [0, 1] [(0, stopWord k)] { r with prevA := none, prevB := none } (decide (l ≤ k))
      else .err 0x20 (j + 16 * k)

/-- `frep` (R272): a stop above SL0, and an EOS that closes an open fibre, take the repeated element and the stop behind it in one step, which
is ready when both are there (R169); the third head is the word behind that of the repeated input. Where that is no element and no stop, the
element goes first, and in phase 1 its head is looked at. (DEDUCED, log 30) -/
def stepRep (dl : Nat) (hd : List (Option NetWord)) (r : StreamRun) (l : Nat) : StepRes :=
  withHead hd r 0 fun a => withHead hd r 1 fun b =>
    let bad (h : Head) : StepRes := .err 0x20 (headLevel dl a + 16 * headLevel dl h)
    let close (k : Nat) (h : Head) (pops : List Nat) : StepRes :=
      if h = .stop (if k = 4 then 4 else k - 1) then .act pops [(0, stopWord k)] { r with phase := 0, isOpen := false } (decide (l ≤ k))
      else if h = .stop 0 ∧ k < 4 then .err 0x27 1
      else bad h
    match a with
    | .data u =>
      match b with
      | .data v => .act [0] [(0, element (crd u) (ref0 u) (ref0 v) (val v))] { r with isOpen := true } false
      | .stop _ => bad b
    | .stop k =>
      if k = 0 then
        match b with
        | .data _ => .act [1, 0] [(0, stopWord 0)] { r with isOpen := false } (decide (l = 0))
        | .stop _ => bad b
      else if r.phase = 1 ∨ (k = 4 ∧ r.isOpen = false) then close k b [1, 0]
      else
        match b with
        | .stop _ => bad b
        | .data _ =>
          match hd.getD 2 none with
          | none => .wait
          | some w =>
            if w.tag = 0#4 then bad (.data w.data)
            else match levelOf w.tag with
              | some n => close k (.stop n) [1, 1, 0]
              | none => .act [1] [] { r with phase := 1 } false

/-- The value of `fzip` (R273). -/
def zipValue (op t : BitVec 2) (a b : Nat) : FRes :=
  if op = 0#2 then (a, 0)
  else if op = 1#2 then (b, 0)
  else if t = 2#2 then
    let x := fmtF32.read a
    let y := fmtF32.read b
    if op = 2#2 then fAdd fmtF32 x y else fMul fmtF32 x y
  else (if op = 2#2 then (a + b) % 2 ^ 32 else a * b % 2 ^ 32, 0)

/-- `fzip` (R273). Cause 0x21 names its first input as 0 and its second as 1. (DESIGN CHOICE, log 91) -/
def stepZip (op t : BitVec 2) (hd : List (Option NetWord)) (r : StreamRun) (l : Nat) : StepRes :=
  withHead hd r 0 fun a => withHead hd r 1 fun b =>
    match a, b with
    | .data u, .data v =>
      let x := zipValue op t (val u) (val v)
      .act [0, 1] [(0, element (crd u) (ref0 u) (ref0 v) x.1)] { r with flags := r.flags ||| x.2 } false
    | .stop j, .stop k => if j = k then .act [0, 1] [(0, stopWord k)] r (decide (l ≤ k)) else .err 0x20 (j + 16 * k)
    | .stop _, .data _ => .err 0x21 0
    | .data _, .stop _ => .err 0x21 1

/-- `fload` and `fwrite` (R274). What `fload` has read is for the index at its head when it read; for another it reads again. -/
def stepAccess (isLoad : Bool) (sel : BitVec 1) (hd : List (Option NetWord)) (r : StreamRun) (l : Nat) : StepRes :=
  withHead hd r 0 fun h =>
    match h with
    | .stop k => .act [0] [(0, stopWord k)] r (decide (l ≤ k))
    | .data w =>
      let i := if sel = 1#1 then ref1 w else ref0 w
      let a := r.x + BitVec.ofNat 64 (4 * i)
      if r.z.toNat ≤ i then .err 0x23 i
      else
        match r.mem.filter fun _ => !isLoad || r.lo == i with
        | some none => .err 0x25 (a.toNat % 2 ^ 32)
        | some (some v) => .act [0] [(0, element (crd w) (ref0 w) (ref1 w) v)] { r with mem := none } false
        | none => if isLoad then .read a { r with lo := i, mem := none } else .write a (val w) r

/-- The value of `fred` over a fibre (R275). -/
def reduceValue (op t : BitVec 2) (xs : List Nat) : FRes :=
  if op = 0#2 then
    (if t = 2#2 then fSum fmtF32 (xs.map fmtF32.read) else (xs.foldl (fun a b => a + b) 0 % 2 ^ 32, 0))
  else if op = 3#2 then
    (if t = 2#2 then fmtF32.rne false (xs.length % 2 ^ 32) 0 else (xs.length % 2 ^ 32, 0))
  else
    let isMax := op == 1#2
    if t = 2#2 then
      match xs with
      | [] => (fmtF32.inf isMax, 0)
      | x :: r =>
        let v := r.foldl (fun acc y => (fMinMax fmtF32 isMax acc y).1) x
        (if (fmtF32.read v).isNan then fmtF32.nan else v, if xs.any fun y => fmtF32.read y = .nan true then flInvalid else 0)
    else
      let sg := t == 0#2
      let v (x : Nat) : Int := if sg then sext x 32 else x
      (low (xs.foldl (fun acc x => if isMax then max acc (v x) else min acc (v x)) (if isMax then intMin sg 32 else intMax sg 32)) 32, 0)

/-- `fred` (R275): an SL0 is consumed with the element that it gives; phase 1 has emitted the element of the fibre that another stop at the head
closes, which gives a second word. -/
def stepRed (op t : BitVec 2) (hd : List (Option NetWord)) (r : StreamRun) (l : Nat) : StepRes :=
  withHead hd r 0 fun h =>
    match h with
    | .data w => .act [0] [] { r with isOpen := true, vals := r.vals ++ [val w] } false
    | .stop k =>
      if r.phase = 0 ∧ (k < 4 ∨ r.isOpen) then
        let v := reduceValue op t r.vals
        let out := [(0, element r.vals.length 0 0 v.1)]
        let r := { r with isOpen := false, vals := [], flags := r.flags ||| v.2 }
        if k = 0 then .act [0] out r (decide (l = 0)) else .act [] out { r with phase := 1 } false
      else .act [0] (if k = 0 then [] else [(0, stopWord (if k = 4 then 4 else k - 1))]) { r with phase := 0 } (decide (l ≤ k))

/-- One step of a running instruction. -/
def streamStepOf (dl : Nat) (r : StreamRun) (hd : List (Option NetWord)) : StepRes :=
  let l := (shapeOf r.instr).level
  match r.instr with
  | .steer _ _ _ _ _ => stepSteer hd r l
  | .tee _ _ _ _ => stepTee hd r l
  | .merge _ _ _ _ _ => stepMerge hd r l
  | .fscan _ _ _ _ _ _ => stepScan hd r l
  | .fisect _ _ _ _ => stepIsect false hd r l
  | .funion _ _ _ _ => stepIsect true hd r l
  | .frep _ _ _ _ => stepRep dl hd r l
  | .fzip _ _ _ _ t p => stepZip p t hd r l
  | .fload _ _ _ fr _ _ => stepAccess true fr hd r l
  | .fred _ _ _ t p => stepRed p t hd r l
  | .fwrite _ _ _ fr _ _ => stepAccess false fr hd r l
  | _ => .wait

/-- The closing stop of a drained instruction, shifted as the instruction shifts stops (R171). (DEDUCED, log 30) -/
def shiftStop (i : Instr) (k : Nat) : Option Nat :=
  match i with
  | .fscan _ _ _ _ _ _ => some (if 3 ≤ k then 4 else k + 1)
  | .fred _ _ _ _ _ => if k = 4 then some 4 else if k = 0 then none else some (k - 1)
  | _ => some k

/-! ## Running (R169, R171) -/

/-- Count a consumed word: stops raise `top`, and a stop of the instruction's level closes its input. -/
def StreamRun.consumed (r : StreamRun) (l i : Nat) (w : Option NetWord) : StreamRun :=
  match w.bind fun w => levelOf w.tag with
  | none => r
  | some k => { r with top := max r.top k, closed := if l ≤ k ∧ !r.closed.contains i then r.closed ++ [i] else r.closed }

/-- Pop inputs of a running instruction. -/
def State.popInputs (s : State) (h : Shape) (r : StreamRun) : List Nat → State × StreamRun
  | [] => (s, r)
  | i :: is =>
    match h.ins[i]? with
    | none => (s, r)
    | some c => (s.epPop c).popInputs h (r.consumed h.level i (s.epWords c).head?) is

def State.setStream (s : State) (r : Option StreamRun) : State := s.setMe { s.me with stream := r }

/-- The instruction completes: its flags, and the stream-error flag after an ERR (R171), are ORed into FSTAT. (DEDUCED, log 30) -/
def State.finishStream (s : State) (r : StreamRun) (failed : Bool) : State :=
  let s := s.flags (r.flags ||| (if failed then flStream else 0))
  s.setMe { s.me.retire r.len with stream := none }

/-- Can every listed push be made? -/
def State.pushesOk (s : State) (h : Shape) (push : List (Nat × NetWord)) : Bool :=
  push.all fun p => match h.outs[p.1]? with | none => true | some c => s.epRoom c

def State.pushes (s : State) (h : Shape) (push : List (Nat × NetWord)) : State :=
  push.foldl (fun s p => match h.outs[p.1]? with | none => s | some c => s.epPush c p.2) s

/-- An ERR token of this core (R80, R170). -/
def State.errWord (s : State) (cause detail : Nat) : NetWord :=
  ⟨BitVec.ofNat 256 (detail % 2 ^ 32 * 2 ^ 32 + s.cur.q * 2 ^ 20 + s.cur.t * 2 ^ 8 + cause), 0xA⟩

/-- Every output takes the same word. -/
def pushAll (h : Shape) (w : NetWord) : List (Nat × NetWord) := (List.range h.outs.length).map fun i => (i, w)

/-- An ERR goes to every output, which have room, and what gave it is popped; the instruction drains from now on (R171). -/
def State.startDrain (s : State) (h : Shape) (r : StreamRun) (pops : List Nat) (w : NetWord) : State :=
  let x := s.popInputs h r pops
  ((x.1.pushes h (pushAll h w)).setStream (some { x.2 with drain := true })).used

/-- A step after an ERR (R171): drain, close. -/
def State.drainStep (s : State) (h : Shape) (r : StreamRun) : State :=
  let left := (List.range h.ins.length).filter fun i => !r.closed.contains i
  if left = [] then
    match shiftStop r.instr r.top with
    | none => (s.finishStream r true).used
    | some k =>
      let p := pushAll h (stopWord k)
      if s.pushesOk h p then ((s.pushes h p).finishStream r true).used else s
  else
    let now := left.filter fun i => match h.ins[i]? with | none => false | some c => s.epWords c != []
    if now = [] then s
    else let x := s.popInputs h r now; (x.1.setStream (some x.2)).used

/-- Pop and push what a step moves, if every output has room; `fin` completes the instruction. -/
def State.streamAct (s : State) (h : Shape) (pops : List Nat) (push : List (Nat × NetWord)) (r : StreamRun) (fin : Bool) : Option State :=
  if s.pushesOk h push then
    let x := s.popInputs h r pops
    let s' := x.1.pushes h push
    some (if fin then s'.finishStream x.2 false else s'.setStream (some x.2))
  else none

/-- The words at the inputs of a running instruction; for `frep` the word behind that of the repeated input too. -/
def State.streamHeads (s : State) (r : StreamRun) : List (Option NetWord) :=
  ((shapeOf r.instr).ins.map fun c => (s.epWords c).head?) ++
    match r.instr with
    | .frep _ _ j _ => [(s.epWords j)[1]?]
    | _ => []

/-- The next step of a running instruction. -/
def State.streamStep (s : State) (r : StreamRun) : StepRes :=
  streamStepOf (Config.elementLevel s.free).toNat r (s.streamHeads r)

/-- A step whose read has been answered moves its words at once, where there is room: it uses one issue turn (R169). -/
def State.streamOn (s : State) : State :=
  match s.me.stream with
  | none => s
  | some r =>
    if r.drain then s
    else
      match s.streamStep r with
      | .act pops push r' fin => (s.streamAct (shapeOf r.instr) pops push r' fin).getD s
      | _ => s

/-- The answer of a read of the running instruction of the context whose turn it is. -/
def State.streamRead (s : State) (v : Nat) : State :=
  (s.setMe { s.me with stream := s.me.stream.map fun r => { r with mem := some (some v) } }).streamOn

/-- What an access of a running instruction leaves: its answer, or the context waits. -/
def State.streamAccess (s : State) (r : StreamRun) (x : Res) (ok : State → State) : State :=
  match x with
  | .ok s' => (ok s').used
  | .hold s' => (s'.setStream (some r)).used
  | .pause s' => (s'.setStream (some r)).used
  | .trap _ => ((s.setMe { s.me with walkFail := none }).setStream (some { r with mem := some none })).used
  | _ => s

/-- `STREAM_STEP`: one step of the streaming instruction of the context whose turn it is: what it would write must have room before it
consumes or reads anything (R169). -/
def execStreamStep (s : State) : Host.Outcome State Fault Refusal :=
  match s.me.stream with
  | none => .next s
  | some r =>
    let h := shapeOf r.instr
    if r.drain then .next (s.drainStep h r)
    else
      let room := s.pushesOk h (pushAll h (stopWord 0))
      match s.streamStep r with
      | .wait => .next s
      | .act pops push r' fin => .next (((s.streamAct h pops push r' fin).map State.used).getD s)
      | .read a r' =>
        .next (if room then
          s.streamAccess r' ((s.setStream (some r')).load a 4 1 .stream fun s v => .ok (s.streamRead v)) id
        else s)
      | .write a v r' =>
        .next (s.streamAccess r' (s.store a 4 1 v) fun s => let x := s.popInputs h r' [0]; x.1.setStream (some x.2))
      | .err cause detail =>
        .next (if room then { s with free := s.free + 1 }.startDrain h r [] (s.errWord cause detail) else s)
      | .forward i w => .next (if room then s.startDrain h r [i] w else s)

/-! ## Steer, merge, tee and the fibre instructions at issue (R266, R267) -/

/-- `steer` (R173, R266). -/
def execSteer (d a b e : BitVec 4) (l : BitVec 3) (s : State) : Host.Outcome State Fault Refusal :=
  .next (s.issueStream 4 (.steer d a b e l) 0 0 0 [])

/-- `tee` (R175, R266). -/
def execTee (d a e : BitVec 4) (l : BitVec 3) (s : State) : Host.Outcome State Fault Refusal :=
  .next (s.issueStream 4 (.tee d a e l) 0 0 0 [])

/-- `merge` (R174, R266). -/
def execMerge (d a b e : BitVec 4) (l : BitVec 3) (s : State) : Host.Outcome State Fault Refusal :=
  .next (s.issueStream 4 (.merge d a b e l) 0 0 0 [])

/-- `fscan` (R270). -/
def execFscan (l : BitVec 3) (i o : BitVec 4) (x y z : BitVec 5) (s : State) : Host.Outcome State Fault Refusal :=
  .next (s.issueStream 8 (.fscan l i o x y z) x y z [x, y])

/-- `fisect` (R271). -/
def execFisect (l : BitVec 3) (i j o : BitVec 4) (s : State) : Host.Outcome State Fault Refusal :=
  .next (s.issueStream 8 (.fisect l i j o) 0 0 0 [])

/-- `funion` (R271). -/
def execFunion (l : BitVec 3) (i j o : BitVec 4) (s : State) : Host.Outcome State Fault Refusal :=
  .next (s.issueStream 8 (.funion l i j o) 0 0 0 [])

/-- `frep` (R272). -/
def execFrep (l : BitVec 3) (i j o : BitVec 4) (s : State) : Host.Outcome State Fault Refusal :=
  .next (s.issueStream 8 (.frep l i j o) 0 0 0 [])

/-- `fzip` (R273). -/
def execFzip (l : BitVec 3) (i j o : BitVec 4) (t p : BitVec 2) (s : State) : Host.Outcome State Fault Refusal :=
  .next (s.issueStream 8 (.fzip l i j o t p) 0 0 0 [])

/-- `fload` (R274). -/
def execFload (l : BitVec 3) (i o : BitVec 4) (r : BitVec 1) (x z : BitVec 5) (s : State) : Host.Outcome State Fault Refusal :=
  .next (s.issueStream 8 (.fload l i o r x z) x 0 z [x])

/-- `fred` (R275). -/
def execFred (l : BitVec 3) (i o : BitVec 4) (t p : BitVec 2) (s : State) : Host.Outcome State Fault Refusal :=
  .next (s.issueStream 8 (.fred l i o t p) 0 0 0 [])

/-- `fwrite` (R274). -/
def execFwrite (l : BitVec 3) (i o : BitVec 4) (r : BitVec 1) (x z : BitVec 5) (s : State) : Host.Outcome State Fault Refusal :=
  .next (s.issueStream 8 (.fwrite l i o r x z) x 0 z [x])

/-! ## Token instructions (R263, R264) -/

/-- The word that `tkpeek` reads of a head (R263). -/
def peekWord (l : List NetWord) : W64 :=
  match l with
  | [] => 0x10
  | w :: _ => BitVec.ofNat 64 (w.tag.toNat + w.data.toNat % 2 ^ 32 * 2 ^ 32)

/-- `tkpeek` (R263). -/
def execTkpeek (d a : BitVec 5) (s : State) : Host.Outcome State Fault Refusal :=
  .next (s.issueS 4 [lookAt a false] [d] fun _ s => .ok (s.put d (peekWord (s.portIn a.toNat))))

/-- `tkpeek.q` (R263). -/
def execTkpeekQ (d : BitVec 5) (q : BitVec 3) (s : State) : Host.Outcome State Fault Refusal :=
  .next (s.issueS 4 [] [d] fun _ s => s.onQueue q fun b => .ok (s.put d (peekWord b.queue)))

/-- Pop the head of a queue whatever its tag. -/
def State.queueTake (s : State) (q : BitVec 3) (f : State → NetWord → State) : Res :=
  s.onQueue q fun b =>
    match b.queue with
    | [] => .wait
    | w :: r => if b.pending ≠ [] then .wait else .ok (f (s.setBank s.cur.t q.toNat { b with queue := r }) w)

/-- `tkpop` (R263, R264). -/
def execTkpop (d a : BitVec 5) (s : State) : Host.Outcome State Fault Refusal :=
  .next (s.issueS 4 [rawRd a] [d] fun x s => .ok (s.put d (x 0)))

/-- `tkpop.q` (R263). -/
def execTkpopQ (d : BitVec 5) (q : BitVec 3) (s : State) : Host.Outcome State Fault Refusal :=
  .next (s.issueS 4 [] [d] fun _ s => s.queueTake q fun s w => s.put d (w.data.setWidth 64))

/-- `tkpopv` (R263). -/
def execTkpopv (d a : BitVec 5) (s : State) : Host.Outcome State Fault Refusal :=
  .next (s.issue 4 [rawRd a] (fun _ => true) [d] (fun _ => false) fun x s => .ok (s.putV d (x 0)))

/-- `tkpopv.q` (R263). -/
def execTkpopvQ (d : BitVec 5) (q : BitVec 3) (s : State) : Host.Outcome State Fault Refusal :=
  .next (s.issueS 4 [] [d] fun _ s => s.queueTake q fun s w => s.putV d w.data)

/-- `tksend` (R263, R264). -/
def execTksend (d a : BitVec 5) (t : BitVec 4) (s : State) : Host.Outcome State Fault Refusal :=
  .next (s.issueS 4 [rawRd a] [d] fun x s => .ok (s.pushPort d.toNat ⟨(x 0).setWidth 256, t⟩))

/-- Push a word of any tag to a queue. -/
def State.queueSend (s : State) (q : BitVec 3) (w : NetWord) : Res :=
  s.onQueue q fun b => if s.queueRoom q.toNat then .ok (s.setBank s.cur.t q.toNat (b.push w)) else .wait

/-- `tksend.q` (R263). -/
def execTksendQ (q : BitVec 3) (a : BitVec 5) (t : BitVec 4) (s : State) : Host.Outcome State Fault Refusal :=
  .next (s.forQueue q.toNat [rawRd a] [] (s.issueS 4 [rawRd a] [] fun x s => s.queueSend q ⟨(x 0).setWidth 256, t⟩))

/-- `tksendv` (R263). -/
def execTksendv (d a : BitVec 5) (t : BitVec 4) (s : State) : Host.Outcome State Fault Refusal :=
  .next (s.issue 4 [rawRd a] (fun _ => true) [d] (fun _ => false) fun x s => .ok (s.pushPort d.toNat ⟨x 0, t⟩))

/-- `tksendv.q` (R263). -/
def execTksendvQ (q : BitVec 3) (a : BitVec 5) (t : BitVec 4) (s : State) : Host.Outcome State Fault Refusal :=
  .next (s.forQueue q.toNat [rawRd a] [] (s.issue 4 [rawRd a] (fun _ => true) [] (fun _ => false) fun x s => s.queueSend q ⟨x 0, t⟩))

/-! ## Branch on head tag (R265) -/

/-- The condition of R265 on a head. -/
def tagCondition (c : BitVec 4) (l : List NetWord) : Bool :=
  match l with
  | [] => c == 0xF#4
  | w :: _ =>
    if c.toNat < 12 then w.tag == c
    else if c = 0xC#4 then decide (1 ≤ w.tag.toNat) && decide (w.tag.toNat ≤ 5)
    else if c = 0xD#4 then w.tag != 0#4 else false

/-- Did a FIFO hold a word when the cycle began (R277, R72)? A lane's FIFO takes its words before the cores' turns, the core's own FIFO
from the switch and a queue may take one in the same cycle. (DESIGN CHOICE, log 76) -/
def State.portHeld (s : State) (p : Nat) : Bool :=
  if p = 31 then s.atStart.contains (2 * (4 * s.cur.tb + s.cur.q)) else s.portIn p != []
def State.queueHeld (s : State) (q : Nat) : Bool := s.atStart.contains (2 * (8 * s.cur.t + q) + 1)

/-- A branch to get(rd) when the condition holds: `empty` is that of the FIFO as the cycle began. -/
def State.tagBranch (s : State) (d : BitVec 5) (c : BitVec 4) (l : List NetWord) (held : Bool) : Res :=
  if (if c = 0xF#4 then !held else tagCondition c l) then s.transfer (s.me.s d.toNat) id else .ok s

/-- `btag` on a port (R265). -/
def execBtag (d a : BitVec 5) (c : BitVec 4) (s : State) : Host.Outcome State Fault Refusal :=
  .next (s.issueS 4 [lookAt a (c != 0xF#4)] [] fun _ s => s.tagBranch d c (s.portIn a.toNat) (s.portHeld a.toNat))

/-- `btag` on a queue (R265). -/
def execBtagQ (d : BitVec 5) (q : BitVec 3) (c : BitVec 4) (s : State) : Host.Outcome State Fault Refusal :=
  .next (s.issueS 4 [] [] fun _ s => s.onQueue q fun b =>
    if b.queue = [] ∧ c ≠ 0xF#4 then .wait else s.tagBranch d c b.queue (s.queueHeld q.toNat))

end Sys2Proof.Machine
end

