-- ==== Sys2Proof/Machine/Network.lean ====
section
/-! DEFINITION. The dynamic network and what its packets do at a tile: routing and peer links (04_static_network.md R89 to R92;
20_host_launch.md R351, R352), responses, acknowledgements and refusals (03_memory_spaces.md R57, R65; 05_consistency.md R99, R106;
12_memory_instructions.md R223, R224), stores to another residency's queue (R237, R238), and page walks (21_memory_subsystem.md R358). -/

namespace Sys2Proof.Machine

/-! ## Sending answers -/

/-- Put a packet on the mesh as it is. (DESIGN CHOICE, log 10) -/
def State.relay (s : State) (t : Nat) (p : Packet) : State := { s with net := s.net ++ [⟨t, p⟩] }

/-- Answer a request from a router: kind, payload, address and the kind-specific dword. (DEDUCED, log 51) -/
def State.answer (s : State) (src : Nat) (q : Hdr) (kind : Nat) (pay : List W256) (a info : W64) : State :=
  let hd : Hdr := s.toTile kind src q.stile q.resid
  s.send src ⟨{ hd with ddev := q.sdev, dq := q.sq, dfold := q.sfold, tid := q.tid, addr := a, info := info, via := q.via }, pay⟩

/-- Is a packet an `stq` (12_memory_instructions.md R236)? -/
def Packet.isStq (p : Packet) : Bool := p.h.kind == 1 && p.h.info.getLsbD 63

/-! ## What waits on a tile's writes -/

/-- Contexts of a tile whose writes are performed go on (05_consistency.md R99 to R103). -/
def State.ackWake (s : State) (t : Nat) : State :=
  (List.range 16).foldl (fun s i =>
    s.withCur (t * 16 + i) fun s =>
      match s.me.wait with
      | .acks [] .retire => s.complete
      | .acks [] .again => s.setMe { s.me with wait := .none }
      | _ => s) s

/-- A write of a tile is over: performed, or refused for good. -/
def State.writeOver (s : State) (t tid : Nat) : State := ((s.performed t tid).returnOver t tid none).ackWake t

/-- The transaction of a tile with an id. -/
def State.txn (s : State) (t tid : Nat) : Option Txn := (s.tile t).txns.find? fun x => x.tid == tid

/-- Strike a read's transaction. -/
def State.dropTxn (s : State) (t tid : Nat) : State :=
  s.setTile t { s.tile t with txns := (s.tile t).txns.filter fun x => x.tid != tid }

/-- Does a transaction still belong to the residency that its context runs? -/
def State.stillOwned (s : State) (x : Txn) (k : Nat) : Bool := (s.ctx k).resid == some x.resid

/-! ## `stq` answers (R238) -/

/-- An answer reaches the sender: performed, or refused with a cause and address. -/
def State.stqResult (s : State) (t tid : Nat) (refused : Option (Nat × W64)) : State :=
  match (s.txn t tid).filter Txn.stq with
  | none => s
  | some x =>
    let k := x.key
    if s.stillOwned x k = false then s.writeOver t tid
    else
      let waits := (s.ctx k).wait == .stq tid
      let s := match refused with
        | none => if waits then (s.dropStq t x).withCur k State.complete else s.dropStq t x
        | some c => s.stqRefused k tid waits c.1 c.2
      s.writeOver t tid

/-- An answer to an `stq` of the tile. -/
def State.isStqAnswer (s : State) (t : Nat) (p : Packet) : Bool :=
  (p.h.kind == 4 || p.h.kind == 5) && p.h.op != opMatrixDone && ((s.txn t p.h.tid).any Txn.stq)

/-- `STQ_ANSWER` (R238). -/
def execStqAnswer (s : State) : Host.Outcome State Fault Refusal :=
  .next
    (let t := s.cur.t
    match s.arrived t (s.isStqAnswer t) with
    | none => s
    | some p =>
      (s.takeArrived t (s.isStqAnswer t)).stqResult t p.h.tid
        (if p.h.kind = 4 then none else some (p.h.info.toNat % 256, p.h.addr)))

/-! ## Routing (R90, R91, R352) -/

/-- The next router on the X-first route. (DESIGN CHOICE, log 10) -/
def hopTo (a b : Nat) : Nat :=
  if colOf a < colOf b then a + 1 else if colOf b < colOf a then a - 1
  else if rowOf a < rowOf b then a + 48 else a - 48

/-- Hops of the X-first route. -/
def hops (a b : Nat) : Nat :=
  ((colOf a : Int) - colOf b).natAbs + ((rowOf a : Int) - rowOf b).natAbs

/-- Width of a peer link: 0 ×8, 1 ×4, 2 ×2, 3 retired (24_fleet_operation.md R399, R401). -/
def State.peerWidth (s : State) (l : Nat) : Nat := s.conf.peers.get 0 l

/-- The peer link by which packets from a tile to a device leave (R352): of those its route names, the nearest. (DEDUCED, log 51) -/
def State.peerLink (s : State) (src dev : Nat) : Option Nat :=
  let m := s.host.route.get 0 dev
  let ls := (List.range 8).filter fun l => m.getLsbD l && s.peerWidth l != 3
  match ls with
  | [] => none
  | l :: r => some (r.foldl (fun a b => if hops src (linkTile b) < hops src (linkTile a) then b else a) l)

/-- Does a router drop the header (R90)? -/
def Packet.malformed (p : Packet) : Bool :=
  decide (13 < p.h.kind) || p.h.vc != p.h.channel || decide (2 < p.h.dcls) || decide (64 < p.h.len) || p.pay.length != p.h.len

/-- A packet for another device without a route: an `stq` is refused, every other packet is dropped with an event (R352). -/
def State.noRoute (s : State) (t : Nat) (p : Packet) : State :=
  if p.isStq then s.stqResult p.h.stile p.h.tid (some (5, 0)) else s.dropMessage t 2 p

/-- The host's side of the CXL link serves a read or a write of host memory (R338); data that have an uncorrectable error poison what they are
written to, and a read of it is one that failed (22_faults_discard.md R380). (DESIGN CHOICE, log 33; DESIGN CHOICE, log 48) -/
def State.serveHost (s : State) (p : Packet) : State :=
  let k := p.h.addr.toNat
  if p.h.kind = 0 then (if s.badMask k p.h.op then s.answer 0 p.h 5 [] p.h.addr 0x1A else s.answer 0 p.h 3 [s.readSector k] p.h.addr 0)
  else if p.h.kind = 1 then (s.writeOrSpoil k p.h.op (p.pay.headD 0) p.h.bad).answer 0 p.h 4 [] p.h.addr 0
  else s

/-- A packet whose payload has an uncorrectable error, as its receiver sees it (22_faults_discard.md R380): the data of a read are a read that
failed. (DESIGN CHOICE, log 33) -/
def Packet.received (p : Packet) : Packet :=
  if p.h.bad = true ∧ p.h.kind = 3 then ⟨{ p.h with kind := 5, info := 0x1A, len := 0 }, []⟩ else p

/-- A packet of tasks, or the completion of a matrix request, whose records cannot be read: its residency is faulted, as for an error in its
registers. (DESIGN CHOICE, log 33) -/
def Packet.lost (p : Packet) : Bool := p.h.bad && (p.h.kind == 6 || p.h.kind == 8 || isMatrixDone p)

/-- A fault report whose payload cannot be read, and an event that names a residency in its header, is a report with reason 7 of that
residency; another event is dropped. (DESIGN CHOICE, log 33) -/
def Packet.reported (p : Packet) : Option Packet :=
  if p.h.bad = false ∨ (isFault p = false ∧ isEvent p = false) then some p
  else if isEvent p = true ∧ p.h.op ≠ 1 then none
  else some ⟨{ p.h with kind := 12, op := opFault, bad := false }, [eventWord 0x10 7 p.h.resid p.h.stile p.h.sq 0 0 ++ 0#64 ++ 0#64 ++ 0#64]⟩

/-- A packet is delivered at its node. -/
def State.deliverAt (s : State) (n : Nat) (p : Packet) : State :=
  if n < 2048 ∧ p.lost = true then s.reportTile n p.h.resid 7
  else if n = 4096 then s.serveHost p
  else if n < 2048 ∧ s.present n = false then
    (if p.isStq then s.answer n p.h 5 [] 0 3 else s.dropMessage n 1 p)
  else if n = 4097 then { s with inbox := s.inbox ++ p.reported.toList.map fun q => ⟨n, q.received⟩ }
  else { s with inbox := s.inbox ++ [⟨n, p.received⟩] }

/-- `ROUTER_PACKET`: the packet at the head of the mesh's list goes one hop on, leaves by its peer link, or is delivered; a malformed
header is dropped (R90 to R92). (DESIGN CHOICE, log 10) -/
def execRouterPacket (s : State) : Host.Outcome State Fault Refusal :=
  .next
    (match s.net with
    | [] => s
    | f :: r =>
      let s := { s with net := r }
      let h := f.p.h
      let move (dst : Nat) : State := { s with net := s.net ++ [⟨hopTo f.at_ dst, f.p⟩] }
      if f.p.malformed then s.badPacket f.at_ h
      else if h.ddev ≠ s.host.devnum.toNat then
        match (if h.via = 0 then s.peerLink h.stile h.ddev else some (h.via - 1)) with
        | none => s.noRoute f.at_ f.p
        | some l => if linkTile l = f.at_ then { s with peerOut := s.peerOut ++ [(l, f.p)] } else move (linkTile l)
      else if nodeTile h.node = f.at_ then s.deliverAt h.node f.p
      else move (nodeTile h.node))

/-- `PEER_PACKET_ARRIVAL`: a packet comes in on the peer link that the place names (R352): one for another device is dropped, one for an
absent tile or a residency that is not live is refused, and every other goes to its node. (DEDUCED, log 51) -/
def execPeerPacketArrival (hdr : BitVec 256) (payload : List (BitVec 256)) (s : State) : Host.Outcome State Fault Refusal :=
  .next
    (let l := s.cur.n
    let t := linkTile l
    let h : Hdr := { Hdr.ofBits hdr with via := l + 1 }
    let h : Hdr := if h.kind = 6 then { h with op := opInject } else h
    let p : Packet := ⟨h, payload⟩
    if p.malformed then s.badPacket t h
    else if h.ddev ≠ s.host.devnum.toNat then s.dropMessage t 3 p
    else if p.isStq then
      if h.dcls = 0 ∧ s.present h.dst = false then s.answer t h 5 [] 0 3 else s.relay t p
    else if h.kind ≤ 2 ∧ (s.liveRes h.resid).isNone then s.answer t h 5 [] h.addr 0x1B
    else s.relay t p)

/-! ## Reads that come back (R65, R224) -/

/-- A waiting access has all its answers: it completes, or faults with the first that failed (R223, R228). (DEDUCED, log 49; DEDUCED, log 50) -/
def State.memDone (s : State) (fin : Fin) (ps : List Piece) : State :=
  let v := pieceValue ps
  match ps.find? fun p => p.bad ≠ 0 with
  | some p =>
    let a := ((ps.find? fun q => q.off = 0).getD p).addr
    match fin with
    | .stream => s.setMe { s.me with wait := .none, stream := s.me.stream.map fun r => { r with mem := some none } }
    | .gather _ _ w => s.failHeld ⟨p.bad, p.addr, BitVec.ofNat 64 (p.off / (w / 8))⟩
    | _ => s.failHeld ⟨p.bad, a, 0⟩
  | none =>
    match fin with
    | .load d => (s.put d (BitVec.ofNat 64 v)).complete
    | .vload d => (s.putV d (BitVec.ofNat 256 v)).complete
    | .gather d lanes w => (s.putV d (s.gathered d lanes w v)).complete
    | .atomic d => (s.put d (BitVec.ofNat 64 v)).complete
    | .carm n =>
      match s.arming n (BitVec.ofNat 512 v) with
      | .ok s => s.complete
      | .trap c => s.failHeld c
      | _ => s
    | .stream => (s.setMe { s.me with wait := .none }).streamRead v
    | .store => s.complete

/-- The answer of a read of a context reaches the piece that waits for it. -/
def State.pieceAnswer (s : State) (k tid : Nat) (f : Piece → Piece) : State :=
  s.withCur k fun s =>
    match s.me.wait with
    | .mem fin ps =>
      if ps.any fun p => p.tid == tid && p.val.isNone && p.bad == 0 then
        let ps := answerPiece tid f ps
        if allAnswered ps then s.memDone fin ps else s.setMe { s.me with wait := .mem fin ps }
      else s
    | _ => s

/-- The answer of a read of a bank's refill or of a context's deque reaches the piece that waits for it. -/
def State.engineAnswer (s : State) (t : Nat) (o : Owner) (tid : Nat) (f : Piece → Piece) : State :=
  match o with
  | .bank n => let b := s.bank t n; s.setBank t n { b with fetch := answerPiece tid f b.fetch }
  | .deque k =>
    let c := s.ctx k
    s.setCtx k { c with ring := { c.ring with refill := answerPiece tid f c.ring.refill, theft := answerPiece tid f c.ring.theft } }
  | _ => s

/-- A read response, or the refusal of a read of memory: no copy's and no `stq`'s. -/
def State.isLoadAnswer (s : State) (t : Nat) (p : Packet) : Bool :=
  (p.h.kind == 3 || (p.h.kind == 5 && p.h.info.toNat % 256 == 0x1A)) && !s.isCopyRead t p && !s.isStqAnswer t p &&
  !((s.txn t p.h.tid).any Txn.write && p.h.kind == 5)

/-- `LOAD_RESPONSE`: the oldest response fills the tile cache if its fill may still become valid, and reaches the access that waits for
it (R65, R106, R224). (DEDUCED, log 50) -/
def execLoadResponse (s : State) : Host.Outcome State Fault Refusal :=
  .next
    (let t := s.cur.t
    match s.arrived t (s.isLoadAnswer t) with
    | none => s
    | some p =>
      let s := s.takeArrived t (s.isLoadAnswer t)
      match s.txn t p.h.tid with
      | none => s
      | some x =>
        let s := if x.write then s.writeOver t x.tid else s.dropTxn t x.tid
        let d := p.pay.headD 0
        let s := if x.fill ∧ p.h.kind = 3 then s.fillSector t x.resid x.pa d else s
        match x.owner with
        | .ctx k =>
          if s.stillOwned x k = false then s
          else if p.h.kind = 3 then
            s.pieceAnswer k x.tid fun q => { q with val := some (cutSector d (q.addr.toNat % 32) q.n) }
          else s.pieceAnswer k x.tid fun q => { q with bad := 0x1A }
        | .node id => s.nodeAnswer t id x.tid fun q => if p.h.kind = 3 then { q with val := some d.toNat } else { q with bad := 1 }
        | o => s.engineAnswer t o x.tid fun q => if p.h.kind = 3 then { q with val := some (cutSector d (q.addr.toNat % 32) q.n) } else { q with bad := 1 })

/-! ## Acknowledgements and refusals (R57, R99) -/

/-- An acknowledgement of a plain write. -/
def State.isWriteAck (s : State) (t : Nat) (p : Packet) : Bool :=
  p.h.kind == 4 && p.h.op != opMatrixDone && !s.isStqAnswer t p

/-- `WRITE_ACKNOWLEDGEMENT`: the write is performed, and what waited for it goes on (R99). -/
def execWriteAcknowledgement (s : State) : Host.Outcome State Fault Refusal :=
  .next
    (let t := s.cur.t
    match s.arrived t (s.isWriteAck t) with
    | none => s
    | some p => (s.takeArrived t (s.isWriteAck t)).writeOver t p.h.tid)

/-- A refusal that is no read error, no copy's read and no `stq`'s. -/
def State.isNack (s : State) (t : Nat) (p : Packet) : Bool :=
  p.h.kind == 5 && p.h.op != opMatrixDone && !s.isLoadAnswer t p && !s.isCopyRead t p && !s.isStqAnswer t p

/-- `FABRIC_NACK`: a waiting read faults; a posted store raises an asynchronous record, a copy's write fails its copy, and then nothing
waits for the write any more; a read of a matrix node's fetch fails it, a write of a RETURN row is named by its request (R57, R99, R160,
07_matrix_meld.md R138, R146). A store of `fwrite` raises that record and emits no ERR. (DEDUCED, log 50; DESIGN CHOICE, log 91) -/
def execFabricNack (s : State) : Host.Outcome State Fault Refusal :=
  .next
    (let t := s.cur.t
    match s.arrived t (s.isNack t) with
    | none => s
    | some p =>
      let s := s.takeArrived t (s.isNack t)
      match s.txn t p.h.tid with
      | none => s
      | some x =>
        match x.owner, x.write with
        | .ctx k, true =>
          let waiting := match (s.ctx k).wait with | .mem _ ps => ps.any fun q => q.tid == x.tid | _ => false
          let s :=
            if s.stillOwned x k = false then s
            else if waiting then s.pieceAnswer k x.tid fun q => { q with bad := if p.h.info.toNat % 256 = 0x1A then 0x1A else 0x1B }
            else s.queueRecord k ⟨1, 0, 0x1B, BitVec.ofNat 64 (x.addr.toNat / 32 * 32)⟩
          s.writeOver t x.tid
        | .ctx k, false =>
          let s := s.dropTxn t x.tid
          if s.stillOwned x k then s.pieceAnswer k x.tid fun q => { q with bad := 0x1B } else s
        | .copy n _, _ =>
          let y := (s.tile t).template n
          let f (c : Copy) : Copy := if c.writes.contains x.tid then c.failed ⟨0x42, x.addr.toNat % 2 ^ 32, x.addr⟩ else c
          (s.setTile t ((s.tile t).setTemplate n { y with active := y.active.map f })).writeOver t x.tid
        | .node _, true => (s.returnOver t x.tid (some x.addr)).writeOver t x.tid
        | .node id, false => (s.dropTxn t x.tid).nodeAnswer t id x.tid fun q => { q with bad := 1 }
        | _, true => s.writeOver t x.tid
        | o, false => (s.dropTxn t x.tid).engineAnswer t o x.tid fun q => { q with bad := 1 })

/-! ## Requests at their target tile (R57, R232) -/

/-- A fabric request. -/
def isFabricRequest (p : Packet) : Bool := decide (p.h.kind ≤ 2) && !p.isStq

/-- Does a request read bytes that are uncorrectable, in its sector or in its own payload (R367; 22_faults_discard.md R380)? -/
def State.unreadable (s : State) (key : Nat) (p : Packet) : Bool :=
  if p.h.kind = 0 then s.badMask key p.h.op else p.h.bad || s.badAt key (if (AOp.ofBits p.h.op).word then 4 else 8)

/-- Perform an access at a home key and answer it from a router: an uncorrectable sector refuses a read or an atomic (R367). -/
def State.serve (s : State) (src key : Nat) (p : Packet) : State :=
  if p.h.kind = 1 then (s.writeOrSpoil key p.h.op (p.pay.headD 0) p.h.bad).answer src p.h 4 [] p.h.addr 0
  else if s.unreadable key p then s.answer src p.h 5 [] p.h.addr 0x1A
  else if p.h.kind = 0 then s.answer src p.h 3 [s.readSector key] p.h.addr 0
  else
    let w := p.pay.headD 0
    let r := s.atomicAt key (AOp.ofBits p.h.op) (w.extractLsb' 0 64) (w.extractLsb' 64 64)
    r.2.answer src p.h 3 [placed r.1.toNat (key % 32)] p.h.addr 0

/-- `FABRIC_REQUEST`: the target checks that the bank is in SCRATCH mode and owned by the requester's residency, and answers or refuses
(R57). (DEDUCED, log 75) -/
def execFabricRequest (s : State) : Host.Outcome State Fault Refusal :=
  .next
    (let t := s.cur.t
    match s.arrived t isFabricRequest with
    | none => s
    | some p =>
      let off := (p.h.addr.extractLsb' 0 17).toNat
      let h := scratchHome (s.tile t) off
      if (s.bank t h.1).pending ≠ [] then s
      else
        let s := s.takeArrived t isFabricRequest
        if (s.bank t h.1).mode ≠ .scratch ∨ s.ownsBank p.h.resid t h.1 = false then s.answer t p.h 5 [] p.h.addr 0x1B
        else s.serve t (sramKey t h.1 h.2) p)

/-! ## `stq` at its target (R237) -/

/-- The notice word. -/
def noticeWord (p : Packet) : NetWord :=
  ⟨BitVec.ofNat 256 ((p.pay.length - 1) * 2 ^ 116 + p.h.sdev * 2 ^ 108 + p.h.stile * 2 ^ 96 +
    p.h.info.toNat % 2 ^ 32 * 2 ^ 64 + p.h.addr.toNat), 0⟩

/-- The cause of step 1 of R237 for an `stq` packet at its handling tile. -/
def State.stqCheck (s : State) (t : Nat) (p : Packet) (q : Option Nat) : Option Nat :=
  let r := p.h.resid
  match s.liveRes r with
  | none => some 2
  | some x =>
    if s.inResidency x (t * 4) 0 = false then some 2
    else
      match q with
      | none => none
      | some n => if (s.queueFault t r n).isSome then some 3 else if (s.bank t n).pushTo = .blocked then some 4 else none

/-- Does the packet wait: the queue's bank is about to change its mode (03_memory_spaces.md R63)? -/
def State.stqWaits (s : State) (t : Nat) (q : Option Nat) : Bool := q.any fun n => (s.bank t n).pending != []

/-- The queue that an `stq` packet names. -/
def Packet.stqQueue (p : Packet) : Option Nat :=
  if p.h.info.getLsbD 35 then some (p.h.info.extractLsb' 32 3).toNat else none

/-- A queue's entry is reserved for a notice (R237). -/
def State.reserveNotice (s : State) (t : Nat) (q : Option Nat) : State :=
  match q with
  | none => s
  | some n => s.setBank t n { s.bank t n with reserved := (s.bank t n).reserved + 1 }

/-- The bytes of an `stq` packet. -/
def Packet.bytes (p : Packet) : Nat := p.pay.foldr (fun w acc => w.toNat + acc * 2 ^ 256) 0

/-- `STQ_PACKET`: the scheduler (place number 1) forwards a packet without a queue to the root tile of its residency; the handling tile
checks, translates by its own TLBs and writes, or refuses it whole; until it can do either the packet waits (R237). (DEDUCED, log 32) -/
def execStqPacket (s : State) : Host.Outcome State Fault Refusal :=
  .next
    (let t := s.cur.t
    let node := if s.cur.n = 1 then 4097 else t
    let take (s : State) : State := s.takeArrived node Packet.isStq
    match s.arrived node Packet.isStq with
    | none => s
    | some p =>
      if s.cur.n = 1 then
        match s.liveRes p.h.resid with
        | none => (take s).answer 0 p.h 5 [] 0 2
        | some r => (take s).relay 0 { p with h := { p.h with dcls := 0, dst := r.rootTile } }
      else if s.stqWaits t p.stqQueue then s
      else
        match s.stqCheck t p p.stqQueue with
        | some c => (take s).answer t p.h 5 [] 0 (BitVec.ofNat 64 c)
        | none =>
          match s.move t p.h.resid .engine p.h.addr (32 * p.pay.length) (some p.bytes) p.h.bad with
          | .wait s => s
          | .miss s a => (take s).answer t p.h 5 [] a 1
          | .begun s ps =>
            let s := (take s).reserveNotice t p.stqQueue
            s.setTile t { s.tile t with stqJobs := (s.tile t).stqJobs ++ [⟨p, p.stqQueue, ps.map Piece.tid⟩] })

/-- `STQ_NOTIFY`: the writes of a handled packet, the oldest of those, are performed: its notice enters the queue, and the sender is told
(R237). -/
def execStqNotify (s : State) : Host.Outcome State Fault Refusal :=
  .next
    (let t := s.cur.t
    match (s.tile t).stqJobs.find? fun j => j.tids == [] with
    | none => s
    | some j =>
      let s := s.setTile t { s.tile t with stqJobs := (s.tile t).stqJobs.erase j }
      let s := match j.queue with
        | none => s
        | some n =>
          if (s.queueFault t j.p.h.resid n).isSome ∨ (s.bank t n).reserved = 0 then s
          else s.setBank t n ((s.bank t n).pushReserved (noticeWord j.p))
      s.answer t j.p.h 4 [] j.p.h.addr 0)

/-! ## Page walks (21_memory_subsystem.md R355 to R358) -/

/-- A context's walk is over. (DEDUCED, log 28) -/
def State.walkOver (s : State) (w : Walk) (ok : Bool) : State :=
  let c := s.ctx w.key
  if c.wait = .walk w.va w.wr then
    s.setCtx w.key { c with wait := .none, walkFail := if ok then c.walkFail else some w.va }
  else s

/-- A walk ends for one that waits for it, by what the tables give its kind of access: the translation is installed for its tile, cluster and
die, or nothing is (R356, R358). (DEDUCED, log 27; DEDUCED, log 28) -/
def State.walkEnds (s : State) (v : Walk) (x : Option (Nat × Nat × Bool)) : State :=
  match x.filter fun y => !v.wr || y.2.2 with
  | none =>
    match v.use_ with
    | .access => s.walkOver v false
    | .engine => s.setTile v.tile { s.tile v.tile with
      walkFails := ((s.tile v.tile).walkFails.filter fun f => decide (s.cycle < f.2 + failCycles)) ++ [(v, s.cycle)] }
    | .fetch _ => s
  | some y =>
    let s := s.tlbFill v.tile (v.asid, v.root) v.va.toNat y
    match v.use_ with
    | .access => s.walkOver v true
    | .engine => s
    | .fetch l =>
      s.withCur v.key fun s => s.prefetchAll v.tile (s.me.resid.getD 0) (l.map fun va => y.1 + va.toNat % 2 ^ y.2.1)

/-- A walker serves the page of a walk: it ends for all that wait for the page, or stays at the entry that is held (R358). -/
def State.walkPage (s : State) (w : Walk) : State :=
  let p := w.at_.getD (0, w.root)
  match s.walkOn w.va.toNat (5 - p.1) p.1 p.2 with
  | (.held n tb, s) => { s with walks := s.walks.map fun v => if v.same w then { v with at_ := some (n, tb) } else v }
  | (.ended x, s) => (s.walks.filter fun v => v.same w).foldl (fun s v => s.walkEnds v x) { s with walks := s.walks.filter fun v => !v.same w }

/-- The walkers of a die (R358). -/
def walkers : Nat := 8

/-- `TLB_WALK_COMPLETE`: the eight walkers of the die that the place names serve its oldest pages; a page whose entry is held keeps its walker
(R358). (DEDUCED, log 28) -/
def execTlbWalkComplete (s : State) : Host.Outcome State Fault Refusal :=
  .next (((walkPages (s.walks.filter fun w => w.die == s.cur.n)).take walkers).foldl State.walkPage s)

end Sys2Proof.Machine
end

