-- ==== Sys2Proof/Machine/Dram.lean ====
section
/-! DEFINITION. The memory ports and the care of DRAM: admission by slot table (08_copies_barriers.md R161, R162), reads and writes with
their check (21_memory_subsystem.md R363, R366, R367), precharge and refresh (R370, R408), scrubbing (R368), lane margins (R365),
and the host's reads and writes (05_consistency.md R107; 20_host_launch.md R338). -/

namespace Sys2Proof.Machine

/-! ## Rows (R369, R370, R408) -/

/-- `ROW_PRECHARGE`: the bank that the place names closes its row after 64 idle cycles (R370); a request to another row closes it when it
is admitted. -/
def execRowPrecharge (s : State) : Host.Outcome State Fault Refusal :=
  .next
    (let o := s.openRows.get {} s.cur.n
    if o.row.isSome ∧ o.used + 64 ≤ s.cycle then s.closeRow s.cur.n else s)

/-- `PERIODIC_REFRESH`: the row that the place names is refreshed and its counter becomes zero (R369, R408). (DESIGN CHOICE, log 56) -/
def execPeriodicRefresh (s : State) : Host.Outcome State Fault Refusal :=
  .next { s with rows := s.rows.set s.cur.n 0, rowBad := s.rowBad.filter (· != s.cur.n) }

/-! ## Requests (R363, R366, R367) -/

/-- Does a request change memory where every write is dropped (24_fleet_operation.md R401)? -/
def State.dropsWrite (s : State) (pa : Nat) (p : Packet) : Bool := s.inDescriptor pa && p.h.kind == 1

/-- What a read of the host finds: an address, the data, and whether they are poisoned. -/
def State.hostReply (s : State) (a : Nat) (d : W256) (bad : Bool) : State := { s with host := { s.host with lastRead := some (a, d, bad) } }

/-- Perform a request of the host at a home key: a write needs no answer here (R107, R338). (DESIGN CHOICE, log 48) -/
def State.serveHostRequest (s : State) (key : Nat) (p : Packet) : State :=
  if p.h.kind = 1 then s.writeSector key p.h.op (p.pay.headD 0)
  else if s.badAt key 32 then s.hostReply p.h.addr.toNat 0 true
  else s.hostReply p.h.addr.toNat (s.readSector key) false

/-- A request that misses: a write is answered as done, a read has no data (R363). (DEDUCED, log 47) -/
def State.serveMiss (s : State) (src : Nat) (p : Packet) : State :=
  let s := s.decodeMiss p.h.addr.toNat
  if p.h.host then (if p.h.kind = 1 then s else s.hostReply p.h.addr.toNat 0 true)
  else if p.h.kind = 1 then s.answer src p.h 4 [] p.h.addr 0
  else s.answer src p.h 5 [] p.h.addr 0x1A

/-- Perform a request of a port at its sector. (DEDUCED, log 47) -/
def State.servePort (s : State) (port : Nat) (p : Packet) : State :=
  let pa := p.h.addr.toNat
  let src := portTile port
  match s.dramCoord pa with
  | none => s.serveMiss src p
  | some c =>
    if s.dropsWrite pa p then (if p.h.host then s else s.answer src p.h 4 [] p.h.addr 0)
    else
      let s := s.checkTouch c pa (if p.h.kind = 1 then touchOf p.h.op else .read)
      if p.h.host then s.serveHostRequest (c * 32 + pa % 32) p
      else
        let p := if s.inDescriptor pa ∧ p.h.kind = 2 then { p with h := { p.h with kind := 0 } } else p
        s.serve src (c * 32 + pa % 32) p

/-! ## Admission (R162) -/

/-- The requests that wait at a port, oldest first. -/
def State.portWaiting (s : State) (port : Nat) : List Packet :=
  (s.inbox.filter fun x => x.node == 2048 + port).map Arrived.p

/-- The slot-table id that serves a request: its stream id if the table holds it, else 0; a request of a peer has id 0 (R161). -/
def Port.idOf (y : Port) (p : Packet) : Nat :=
  let n := p.h.info.toNat % 2 ^ 16
  if p.h.via = 0 ∧ (y.slots.any fun e => e.2 == n) = true then n else 0

/-- Is the request's bank blocked by a mitigation? Does its channel retrain? (DEDUCED, log 11) -/
def State.bankHeld (s : State) (p : Packet) : Bool := (s.dramCoord p.h.addr.toNat).any s.blockedAt
def State.channelHeld (s : State) (p : Packet) : Bool := (s.dramCoord p.h.addr.toNat).any s.trainingAt

/-- The request that a port admits in this cycle: from entry cycle mod 64 on, the oldest request of the first id that has one which is not
held. -/
def State.admits (s : State) (port : Nat) : Option Packet :=
  let y := s.port port
  let ready := (s.portWaiting port).filter fun p => !s.bankHeld p && !s.channelHeld p
  (List.range 64).findSome? fun i =>
    let id := y.slots.get 0 ((s.cycle + i) % 64)
    ready.find? fun p => y.idOf p == id

/-- The request-cycles held are counted (R365, R370). (DEDUCED, log 11) -/
def State.countHeld (s : State) (port : Nat) : State :=
  let y := s.port port
  let l := s.portWaiting port
  let a := (l.filter s.bankHeld).length
  let b := (l.filter s.channelHeld).length
  if a = 0 ∧ b = 0 then s else s.setPort port { y with mitStall := y.mitStall + a, trainStall := y.trainStall + b }

/-- A port turns to a request: it is performed, unless the row that it must close first blocks the bank (R370); false when it waits on. -/
def State.portTry (s : State) (port : Nat) (p : Packet) : Bool × State :=
  let s := match s.dramCoord p.h.addr.toNat with | none => s | some c => s.openRow c p.h.addr.toNat
  let y := s.port port
  if s.bankHeld p then (false, s.setPort port { y with mitStall := y.mitStall + 1 })
  else (true, (s.setPort port { y with last := some s.cycle }).servePort port p)

/-- `MEMORY_PORT_ADMIT`: the port that the place names admits at most one request in a cycle and performs it (R162). -/
def execMemoryPortAdmit (s : State) : Host.Outcome State Fault Refusal :=
  .next
    (let port := s.cur.n
    if (s.port port).last = some s.cycle then s
    else
      let s := s.countHeld port
      match s.admits port with
      | none => s
      | some p =>
        match s.portTry port p with
        | (false, s) => s
        | (true, s) => { s with inbox := s.inbox.eraseP fun x => x.node == 2048 + port && x.p == p })

/-! ## The host's reads and writes (R107, R338) -/

/-- A request of the host to the memory port of its sector: of the default class (R161), it is performed at once when the port is free, and
else waits with the others. (DESIGN CHOICE, log 48) -/
def State.hostAccess (s : State) (kind a : Nat) (mask : BitVec 32) (pay : List W256) : State :=
  let port := s.portFor a
  let p : Packet := ⟨{ kind := kind, op := mask, addr := BitVec.ofNat 64 a, host := true }, pay⟩
  let wait (s : State) : State := { s with inbox := s.inbox ++ [⟨2048 + port, p⟩] }
  if s.portWaiting port ≠ [] ∨ (s.port port).last = some s.cycle ∨ s.heldAt a = true then wait s
  else
    match s.portTry port p with
    | (true, s) => s
    | (false, s) => wait s

/-- `HOST_MEM_WRITE`: performed at the memory port of its sector; dropped on a decode miss and in the configuration descriptor (R107, R363,
24_fleet_operation.md R401). (DESIGN CHOICE, log 48) -/
def execHostMemWrite (pa : BitVec 41) (mask : BitVec 32) (data : BitVec 256) (s : State) : Host.Outcome State Fault Refusal :=
  .next
    (let a := pa.toNat / 32 * 32
    if s.booted = false ∨ 2 ^ 40 ≤ a then s else s.hostAccess 1 a mask [data])

/-- `HOST_MEM_READ`: the sector goes to the host, poisoned on a decode miss or an uncorrectable error (R363, R367). (DESIGN CHOICE, log 48) -/
def execHostMemRead (pa : BitVec 41) (s : State) : Host.Outcome State Fault Refusal :=
  .next
    (let a := pa.toNat / 32 * 32
    if s.booted = false ∨ 2 ^ 40 ≤ a then s else s.hostAccess 0 a (BitVec.allOnes 32) [])

/-- `HOST_SNOOP`: the device answers every snoop with a miss (R338). (DESIGN CHOICE, log 48) -/
def execHostSnoop (addr : BitVec 64) (s : State) : Host.Outcome State Fault Refusal :=
  .next { s with host := { s.host with lastSnoop := some addr } }

/-- One column of an elimination over a region's matrix: `done` holds the pivot rows by column, `rest` the others; bit 35 of a row is the
bit of the coordinate that it makes. -/
def pivotStep (x : List (Nat × BitVec 36) × List (BitVec 36)) (j : Nat) : List (Nat × BitVec 36) × List (BitVec 36) :=
  match x.2.find? fun r => r.getLsbD j with
  | none => x
  | some p =>
    let clear (r : BitVec 36) : BitVec 36 := if r.getLsbD j then r ^^^ p else r
    ((j, p) :: x.1.map fun e => (e.1, clear e.2), (x.2.erase p).map clear)

/-- The sector number that a region's matrix takes to a coordinate (R361), if it is regular. -/
def Region.sectorOf (r : Region) (c : Nat) : Nat :=
  let rows := (r.rows.zip (List.range 35)).map fun x => BitVec.ofBool (c.testBit x.2) ++ x.1
  (((List.range 35).foldl pivotStep ([], rows)).1.map fun e => if e.2.getLsbD 35 then 2 ^ e.1 else 0).foldl (· + ·) 0

/-- The physical address of the sector of a coordinate, if a region maps one to it. -/
def State.addressOf (s : State) (c : Nat) : Option Nat :=
  s.regions.findSome? fun r =>
    let pa := r.sectorOf c * 32
    if r.valid = true ∧ s.coordOf pa = some c then some pa else none

/-- `PATROL_SCRUB`: the sector whose coordinate is the place's number is read, checked and, where corrected, written back, whether a region
maps it or not (R368); its events name its physical address, or the coordinate where it has none (R371). (DESIGN CHOICE, log 56) -/
def execPatrolScrub (s : State) : Host.Outcome State Fault Refusal :=
  .next
    (let c := s.cur.n
    if s.conf.channels.contains (channelOf c) then s else (s.checkSector c ((s.addressOf c).getD c)).2)

/-! ## Lane margins (R365). A channel is named by 32·stack + channel. -/

def State.channel (s : State) (n : Nat) : Channel := s.channels.get {} n
def State.setChannel (s : State) (n : Nat) (c : Channel) : State := { s with channels := s.channels.set n c }

/-- Is a pair of margins below a channel's thresholds? -/
def Channel.below (c : Channel) (tm vm : Nat) : Bool := decide (tm < c.thT) || decide (vm < c.thV)

/-- A lane's margins are sampled: last value and minimum since reset. -/
def Channel.sample (c : Channel) (lane tm vm : Nat) : Channel :=
  let m := match c.minima.find? fun e => e.1 == lane with
    | none => (tm, vm)
    | some e => (min e.2.1 tm, min e.2.2 vm)
  { c with margins := c.margins.set lane (tm, vm), minima := c.minima.set lane m }

/-- A lane's name in an event: the coordinate of its channel with the lane in bits 7:0 (R371). (DEDUCED, log 52) -/
def laneName (n lane : Nat) : W64 := BitVec.ofNat 64 (n * 2 ^ 26 + lane)

/-- The cycle in which a channel's retraining can begin: when the mitigations of its banks are complete (R372). -/
def State.trainingStart (s : State) (n : Nat) : Nat :=
  s.openRows.foldl (fun b e => if e.1 / 32 = n then max b e.2.blocked else b) s.cycle

/-- `EYE_MARGIN_LOW`: a lane of the place's channel shows margins below a threshold: event 0x23, and with automatic care the channel
retrains, behind the mitigations of its banks (R365, R372). (DESIGN CHOICE, log 17; DEDUCED, log 52) -/
def execEyeMarginLow (lane : BitVec 7) (tm vm : BitVec 8) (s : State) : Host.Outcome State Fault Refusal :=
  .next
    (let n := s.cur.n
    let c := (s.channel n).sample lane.toNat tm.toNat vm.toNat
    if c.below tm.toNat vm.toNat then
      (s.setChannel n { c with training := if c.auto ∧ c.training = none then some (s.trainingStart n) else c.training }).memEvent 0x23
        (laneName n lane.toNat) (n / 4)
    else s.setChannel n c)

/-- The Almanac object of a repaired lane (24_fleet_operation.md R394). -/
def laneObject (n lane spare : Nat) : BitVec 48 :=
  BitVec.ofNat 4 (n / 32) ++ BitVec.ofNat 5 (n % 32) ++ BitVec.ofNat 7 lane ++ BitVec.ofNat 1 spare ++ 0#31

/-- A lane that fails goes onto a spare of its channel: its record is appended, event 0x27 posted, and spares in use are grade G1
(24_fleet_operation.md R400), and its margins are those of the spare from then on; with no spare left the channel is marked failing (R365,
24_fleet_operation.md R398). -/
def State.repairLane (s : State) (n lane cause : Nat) : State :=
  let c := s.channel n
  if c.spares < 2 then
    let s := (s.setChannel n { c with spares := c.spares + 1, margins := c.margins.erase lane }).almanacAppend 4 cause (laneObject n lane c.spares)
    { s with conf := { s.conf with grade := max s.conf.grade 1 } }.memEvent 0x27 (laneName n lane) (n / 4)
  else s.setChannel n { c with failing := true }

/-- `CHANNEL_RETRAIN_COMPLETE`: retraining of the place's channel ends, with new margins of one of its lanes; every lane still below its
threshold is repaired (R365). (DESIGN CHOICE, log 17) -/
def execChannelRetrainComplete (lane : BitVec 7) (tm vm : BitVec 8) (s : State) : Host.Outcome State Fault Refusal :=
  .next
    (let n := s.cur.n
    let c := s.channel n
    if (c.training.any fun b => decide (b ≤ s.cycle)) = false then s
    else
      let c := { c.sample lane.toNat tm.toNat vm.toNat with training := none }
      let low := (c.margins.filter fun m => c.below m.2.1 m.2.2).map Prod.fst
      low.foldl (fun s l => s.repairLane n l 4) (s.setChannel n c))

end Sys2Proof.Machine
end

