-- ==== Sys2Proof/Machine/Switch.lean ====
section
/-! DEFINITION. The switch of a tile and the words on its lanes (04_static_network.md R71 to R87; 16_switch_image.md R298 to R301). The
switch instruction that executes is latched in `State.word`; the turn's place names tile and context bank. -/

namespace Sys2Proof.Machine

/-! ## The fields of a switch instruction (R298, R300) -/

/-- The source code of destination `i`: 0 N, 1 S, 2 E, 3 W, 4 to 7 C0 to C3, 8 M, 9 P, 10 h0, 11 h1. -/
def State.routeCode (s : State) (i : Nat) : Nat := (s.word.extractLsb' (60 - 4 * i) 4).toNat

/-- The routes: destination and source of each destination that is named. -/
def State.routes (s : State) : List (Nat × Nat) :=
  ((List.range 12).map fun i => (i, s.routeCode i)).filter fun r => r.2 ≠ 0

/-- Operand fields: target, loop counter number, loop count, tested source, condition, skip. -/
def State.swTarget (s : State) : BitVec 9 := s.word.extractLsb' 0 9
def State.swCounter (s : State) : Bool := s.word.getLsbD 10
def State.swCount (s : State) : BitVec 10 := s.word.extractLsb' 0 10
def State.swSource (s : State) : Nat := (s.word.extractLsb' 7 4).toNat
def State.swCond (s : State) : BitVec 4 := s.word.extractLsb' 3 4
def State.swSkip (s : State) : BitVec 9 := (s.word.extractLsb' 0 3).setWidth 9 + 1

/-! ## Ports (R74, R405) -/

/-- The word at the head of a source code. -/
def State.swHead (s : State) (c : Nat) : Option NetWord :=
  let y := s.xbar s.cur.tb
  if c = 0 then none
  else if c ≤ 4 then (y.rx.get [] (c - 1)).head?
  else if c ≤ 8 then (y.fromCore.get [] (c - 5)).head?
  else if c = 9 then s.mHead s.cur.t s.cur.b
  else if c = 10 then s.pHead s.cur.t s.cur.b
  else if c = 11 then y.h0
  else if c = 12 then y.h1 else none

/-- Has a destination room for a word? -/
def State.swRoom (s : State) (d : Nat) (w : NetWord) : Bool :=
  let y := s.xbar s.cur.tb
  if d < 4 then decide (1 ≤ y.credits.get 0 d)
  else if d < 8 then decide ((y.toCore.get [] (d - 4)).length < 4)
  else if d = 8 then s.mRoom s.cur.t s.cur.b w
  else if d = 9 then s.pRoom s.cur.t s.cur.b w
  else true

/-- Pop a source; a hold register keeps its word. -/
def State.swPop (s : State) (c : Nat) : State :=
  if c = 0 then s
  else if c ≤ 4 then s.popLane s.cur.t s.cur.b (c - 1)
  else if c ≤ 8 then
    let y := s.xbar s.cur.tb
    s.setXbar s.cur.tb { y with fromCore := y.fromCore.set (c - 5) ((y.fromCore.get [] (c - 5)).drop 1) }
  else if c = 9 then s.mTaken s.cur.t s.cur.b
  else if c = 10 then s.pTaken s.cur.t s.cur.b
  else s

/-- Write a word to a destination. -/
def State.swPush (s : State) (d : Nat) (w : NetWord) : State :=
  let y := s.xbar s.cur.tb
  if d < 4 then s.pushLane s.cur.t s.cur.b d w
  else if d < 8 then s.setXbar s.cur.tb { y with toCore := y.toCore.set (d - 4) (y.toCore.get [] (d - 4) ++ [w]) }
  else if d = 8 then s.mTake s.cur.t s.cur.b w
  else if d = 9 then s.pTake s.cur.t s.cur.b w
  else if d = 10 then s.setXbar s.cur.tb { y with h0 := some w }
  else s.setXbar s.cur.tb { y with h1 := some w }

/-! ## Firing (R75, R299) -/

/-- Every source named holds a word and every destination named has room for it. -/
def State.swReady (s : State) : Bool :=
  s.routes.all fun r => match s.swHead r.2 with | none => false | some w => s.swRoom r.1 w

/-- Move the words of the routes: every destination receives the head of its source, but for the source `drop`, whose word goes nowhere;
every source named, and `drop` or `also`, is popped once. -/
def State.swMove (s : State) (drop also : Option Nat) : State :=
  let rs := s.routes
  let moved := rs.filterMap fun r => if drop = some r.2 then none else (s.swHead r.2).map fun w => (r.1, w)
  let pops := uniq (rs.map Prod.snd ++ also.toList)
  moved.foldl (fun s m => s.swPush m.1 m.2) (pops.foldl State.swPop s)

/-- The state in which a switch instruction that cannot fire leaves its engines: a word before M or P that the engine refuses may be
what a request or a copy faults with (07_matrix_meld.md R136, R139; 08_copies_barriers.md R160). -/
def State.swStall (s : State) : State :=
  let stand (d : Nat) : Option NetWord := (s.routes.find? fun r => r.1 == d).bind fun r => s.swHead r.2
  let s' := match stand 8 with
    | some w => if s.mRoom s.cur.t s.cur.b w then s else s.mRefuse s.cur.t s.cur.b w
    | none => s
  match stand 9 with
  | some w => if s.pRoom s.cur.t s.cur.b w then s' else s'.pRefuse s.cur.t s.cur.b w
  | none => s'

/-- Fire a switch instruction when its extra condition holds: its words move, then its operation acts on the switch's registers. -/
def State.fire (s : State) (cond : Bool) (after : Xbar → Xbar) : State :=
  if s.swReady = false then s.swStall
  else if cond = false then s
  else
    let s := s.swMove none none
    s.setXbar s.cur.tb (after (s.xbar s.cur.tb))

/-- Does the tested source's head meet the condition (R300, R265)? -/
def State.swTest (s : State) : Bool :=
  match s.swHead s.swSource with
  | none => false
  | some w => tagCondition s.swCond [w]

/-- `snext` (R300). -/
def execSnext (s : State) : Host.Outcome State Fault Refusal := .next (s.fire true fun x => { x with pc := x.pc + 1 })

/-- `sjump t` (R300). -/
def execSjump (s : State) : Host.Outcome State Fault Refusal := .next (s.fire true fun x => { x with pc := s.swTarget })

/-- `sloop lcN, n` (R300). -/
def execSloop (s : State) : Host.Outcome State Fault Refusal :=
  .next (s.fire true fun x =>
    if s.swCounter then { x with lc1 := s.swCount, pc := x.pc + 1 } else { x with lc0 := s.swCount, pc := x.pc + 1 })

/-- `sdbr lcN, t` (R300). -/
def execSdbr (s : State) : Host.Outcome State Fault Refusal :=
  .next (s.fire true fun x =>
    let n := if s.swCounter then x.lc1 else x.lc0
    let m : BitVec 10 := if 1 < n.toNat then n - 1 else 0
    let pc := if 1 < n.toNat then s.swTarget else x.pc + 1
    if s.swCounter then { x with lc1 := m, pc := pc } else { x with lc0 := m, pc := pc })

/-- `sbtag.c x, k` (R300). -/
def execSbtag (s : State) : Host.Outcome State Fault Refusal :=
  .next (s.fire (s.swHead s.swSource).isSome fun x =>
    { x with pc := if s.swTest then x.pc + 1 + s.swSkip else x.pc + 1 })

/-- `swait.c x` (R300). -/
def execSwait (s : State) : Host.Outcome State Fault Refusal := .next (s.fire s.swTest fun x => { x with pc := x.pc + 1 })

/-- `shalt` (R300). -/
def execShalt (s : State) : Host.Outcome State Fault Refusal := .next (s.fire true fun x => { x with halted := true })

/-- The switch program and link table change places with the shadow's, and the switch resumes at word 0 (R85, R301); a program without
a SWITCH frame is halted (R306). -/
def Xbar.flip (x : Xbar) : Xbar :=
  { x with
    pc := 0, store := 1 - x.store, halted := !x.shHasProg
    linkIn := x.shLinkIn, linkOut := x.shLinkOut, xctl := x.shXctl, hasProg := x.shHasProg
    shLinkIn := x.linkIn, shLinkOut := x.linkOut, shXctl := x.xctl, shHasProg := x.hasProg }

/-- `sflip x` (R301): a FLIP whose switch bit is clear passes as any token (R85). (DEDUCED, log 45) -/
def execSflip (s : State) : Host.Outcome State Fault Refusal :=
  .next
    (let tb := s.cur.tb
    let c := s.swSource
    if s.swReady = false then s.swStall
    else
      match s.swHead c with
      | none => s
      | some w =>
        let x := s.xbar tb
        if w.tag ≠ 8#4 ∨ x.shadow = .loading then s
        else
          let go (s : State) (f : Xbar → Xbar) : State := s.setXbar tb (f (s.xbar tb))
          if w.data.getLsbD 0 = false then go (s.swMove none (some c)) fun x => { x with pc := x.pc + 1 }
          else if x.shadow = .ready then go (s.swMove none (some c)) Xbar.flip
          else (go (s.swMove (some c) (some c)) fun x => { x with pc := x.pc + 1 }).countStray s.cur.t s.cur.b 8)

/-! ## Words and credits on the lanes (R71, R72, R81, R86, R87) -/

/-- A word as a receive FIFO stores it: a reserved tag becomes an ERR token of its link (R81). -/
def storedWord (t : Nat) (w : NetWord) : NetWord :=
  if 0xC ≤ w.tag.toNat then
    ⟨BitVec.ofNat 256 (w.tag.toNat * 2 ^ 32 + 3 * 2 ^ 22 + t * 2 ^ 8 + 1), 0xA⟩
  else w

/-- The credit of a word that is dropped goes back to the lane that sent it, if its bank still runs the residency (R86). -/
def State.refund (s : State) (t : Nat) (y : OnLink) : State :=
  let u := y.src / 4
  if s.bankResid u (y.src % 4) = some y.resid then
    let x := s.xbar y.src
    let k : LinkKind := if y.loop then .loop else if crossesEdge u t then .edge else .inner
    s.setXbar y.src { x with creditBack := x.creditBack ++ [(opposite y.dir, s.cycle + s.creditDelay k t u)] }
  else s

/-- `STATIC_WORD_ARRIVAL`: the oldest word due on the lane that the place names (its number is the direction) reaches the receive FIFO; at
a die edge the crossing buffer ahead of it is part of the same queue (R87). The link notes the lane that it has served (R71). A bank that
holds no configuration drops the word, and its credit goes back (R86). (DEDUCED, log 46) -/
def execStaticWordArrival (s : State) : Host.Outcome State Fault Refusal :=
  .next
    (let t := s.cur.t
    let b := s.cur.b
    let x := s.xbar s.cur.tb
    let due (y : OnLink) : Bool := y.dir == s.cur.n && decide (y.at_ ≤ s.cycle)
    match x.flight.find? due with
    | none => s
    | some y =>
      let s := s.setXbar s.cur.tb { x with flight := x.flight.eraseP due }
      let s := if y.loop then s else s.setTile t { s.tile t with linkLast := (s.tile t).linkLast.set y.dir b }
      match s.bankResid t b with
      | none => (s.refund t y).countStray t b y.w.tag
      | some _ =>
        let x := s.xbar s.cur.tb
        let s := s.setXbar s.cur.tb { x with rx := x.rx.set y.dir (x.rx.get [] y.dir ++ [storedWord t y.w]) }
        if 0xC ≤ y.w.tag.toNat then s.setTile t { s.tile t with malformed := (s.tile t).malformed + 1 } else s)

/-- `CREDIT_RETURN`: the oldest credit due at the place reaches its sender (R72, R87). (DEDUCED, log 46) -/
def execCreditReturn (s : State) : Host.Outcome State Fault Refusal :=
  .next
    (let x := s.xbar s.cur.tb
    let due (y : Nat × Nat) : Bool := decide (y.2 ≤ s.cycle)
    match x.creditBack.find? due with
    | none => s
    | some y =>
      s.setXbar s.cur.tb { x with
        creditBack := x.creditBack.eraseP due
        credits := x.credits.set y.1 (x.credits.get 0 y.1 + 1) })

end Sys2Proof.Machine
end

