-- ==== Sys2Proof/Machine/Free.lean ====
section
/-! DEFINITION. The end of residencies: completion records (20_host_launch.md R349), what a tile gives up (03_memory_spaces.md R63;
07_matrix_meld.md R131; 08_copies_barriers.md R154, R163, R165), the steps of a discard (22_faults_discard.md R376), faults of a
residency (R377, R380), its watchdog (02_execution_model.md R50) and its normal end (R51). -/

namespace Sys2Proof.Machine

/-! ## Records -/

/-- Host tag, completion queue and retry limit of a launch record (R342). -/
def Cand.tag (c : Cand) : Nat := ((c.dwords.getD 0 0).extractLsb' 48 16).toNat
def Cand.queue (c : Cand) : Nat := ((c.dwords.getD 0 0).extractLsb' 22 4).toNat
def Cand.retryLimit (c : Cand) : Nat := ((c.dwords.getD 0 0).extractLsb' 16 6).toNat
def Cand.watchdog (c : Cand) : Nat := (c.dwords.getD 2 0).toNat

/-- Post a completion record (R349). (DEDUCED, log 31) -/
def State.completion (s : State) (c : Cand) (status detail num : Nat) (d1 d2 : W64) : State :=
  s.post ⟨c.queue, BitVec.ofNat 8 1 ++ BitVec.ofNat 8 status ++ BitVec.ofNat 8 detail ++ BitVec.ofNat 8 c.retry ++
    BitVec.ofNat 16 num ++ BitVec.ofNat 16 c.tag, d1, d2⟩

/-- CYCLE of a residency now (R32), or 0 if it has not started. -/
def State.cycleSince (s : State) (r : Residency) : W64 := if r.started then BitVec.ofNat 64 (s.cycle - r.startCycle) else 0

/-! ## What a residency holds on a tile -/

/-- Is a context bank of a tile the residency's? An owner of a bank, slot, slice or template names the bank. -/
def State.ownerIs (s : State) (r t : Nat) (o : Option Nat) : Bool :=
  match o with
  | none => false
  | some b => s.bankResid t b == some r

/-- Its SRAM banks, weight slots, slices and templates. -/
def State.banksHeld (s : State) (r t : Nat) : List Nat := (List.range 8).filter fun n => s.ownerIs r t (s.bank t n).owner
def State.slotsHeld (s : State) (r t : Nat) : List Nat := (List.range 8).filter fun n => s.ownerIs r t ((s.node t).slot n).owner
def State.slicesHeld (s : State) (r t : Nat) : List Nat :=
  (List.range 8).filter fun n => s.ownerIs r t (((s.node t).sliceOwner.find? fun e => e.1 == n).map Prod.snd)
def State.templatesHeld (s : State) (r t : Nat) : List Nat := (List.range 16).filter fun n => s.ownerIs r t ((s.tile t).template n).owner

/-- Its context banks on the tile. -/
def State.ctxBanks (s : State) (r t : Nat) : List Nat := (List.range 4).filter fun b => s.bankResid t b == some r

/-- A bank becomes free: it is cleared, with its lines of the cache, its queue and its spill settings (R63, R60). -/
def State.freeBank (s : State) (t n : Nat) : State := ((s.clearBank t n).dropWay t n).setBank t n {}

/-- A slot becomes free: its cells are cleared, its export record is gone, its generation stays (R131). -/
def State.freeSlot (s : State) (t n : Nat) : State :=
  let k := weightKey t n 0 0
  let s := { s with
    mem := Memory.clear s.mem k 4096
    badWords := s.badWords.filter fun c => !isWeightWord t n c }
  s.setNode t ((s.node t).setSlot n { gen := ((s.node t).slot n).gen })

/-- A slice becomes free and reads zero (R131). -/
def State.freeSlice (s : State) (t n : Nat) : State :=
  let x := s.node t
  s.setNode t { x with
    sliceOwner := x.sliceOwner.erase n
    acc := x.acc.filter fun e => e.1 / 1024 != n
    poison := x.poison.filter fun e => e.1 / 16 != n
    accBad := x.accBad.filter fun e => e / 1024 != n }

/-- The barriers of a residency's shares on a tile return to the reset state, and arrivals on their way to them are dropped (R163, R165). -/
def State.freeBarriers (s : State) (r t : Nat) : State :=
  let mine (core idx : Nat) : Bool :=
    core / 4 == t && (List.range 4).any fun b => (s.ctx (core * 4 + b)).resid == some r && (s.ctx (core * 4 + b)).holdsBar idx
  { s with
    cores := s.cores.map fun e => (e.1, { e.2 with barriers := e.2.barriers.filter fun x => !mine e.1 x.1 })
    tiles := s.tiles.map fun e => (e.1, { e.2 with arrivals := e.2.arrivals.filter fun a => !mine a.core a.idx }) }

/-! ## Requests of a residency that ends (R49, R150) -/

/-- A matrix request of a tile of the residency. -/
def State.ownReq (s : State) (r t : Nat) (q : MReq) : Bool := q.resid == r && q.tile == t && q.dev == s.host.devnum.toNat

/-- A group after some of its members have left: its first and oldest member, priority and age are those of the members that remain
(07_matrix_meld.md R147, R148). (DEDUCED, log 67) -/
def Group.left (g : Group) (cycle : Nat) (l : List MReq) : Group :=
  if l.length = g.members.length then g
  else
    match l with
    | [] => { g with members := [] }
    | q :: _ =>
      let late := g.overdue && decide (q.admitted + 4 * q.hold ≤ cycle)
      { g with
        members := l, opened := q.admitted, hold := q.hold, overdue := late
        prio := min 3 (l.foldl (fun n q => max n (MTok.prio q.tok)) 0 + if late then 1 else 0) }

/-- A node without the unissued requests that a test picks: they leave groups, sending, `wload`s and chains; issued ones are marked, so
that they deliver nothing. -/
def Node.without (x : Node) (cycle : Nat) (p : MReq → Bool) (pw : WReq → Bool) : Node :=
  let mark (q : MReq) : MReq := if p q then { q with dead := true } else q
  let issued (id : Nat) : Bool := x.lanes.any fun e => e.2.rows.any fun w => w.req.id == id
  { x with
    groups := (x.groups.map fun g => g.left cycle (g.members.filter fun q => !p q)).filter fun g => g.members != []
    sending := x.sending.filter fun q => !p q
    wloads := x.wloads.filter fun w => !pw w
    chains := (x.chains.filter fun c => !p c.req || issued c.req.id).map fun c => { c with req := mark c.req }
    lanes := x.lanes.map fun e => (e.1, { e.2 with rows := e.2.rows.map fun w => { w with req := mark w.req } })
    outs := x.outs.map fun o => { o with req := mark o.req }
    returns := x.returns.filter fun j => !p j.req
    poisons := x.poisons.map fun k => { k with req := mark k.req }
    accQ := x.accQ.map fun k =>
      match k with
      | .row a b c d e q => .row a b c d e (q.map mark)
      | .poison a b q => .poison a b (q.map mark)
      | k => k
    mOut := x.mOut.map fun e => (e.1, e.2.map fun w => { w with done := w.done.map mark }) }

/-- The unissued members of a tile's requests leave every node; the issued ones deliver nothing outside it (R150). -/
def State.removeMembers (s : State) (r t : Nat) : State :=
  { s with nodes := s.nodes.map fun e => (e.1, e.2.without s.cycle (s.ownReq r t) fun w => e.1 == t && w.resid == r) }

/-- Does a row of the tile's requests still stand in a lane? -/
def State.rowsIssued (s : State) (r t : Nat) : Bool :=
  s.nodes.any fun e => e.2.lanes.any fun l => l.2.rows.any fun w => s.ownReq r t w.req

/-- Unissued members of other residencies for the slots of a tile complete with cause 0x37 (R150). -/
def State.failMembers (s : State) (r t : Nat) : State :=
  let held := s.slotsHeld r t
  let x := s.node t
  let out := (x.groups.filter fun g => held.contains g.slot).flatMap Group.members
  let s := s.setNode t { x with groups := x.groups.filter fun g => !held.contains g.slot }
  out.foldl (fun s q => s.mRefused t 0x37 q) s

/-! ## Giving up a tile (R376 step 6, R51) -/

/-- What a context bank of a tile loses: words, switch program and tables; words on their way to it stay on the links (R86). Words
that a load which fails finds at its receive FIFOs go with the rest, uncounted. (DESIGN CHOICE, log 87) -/
def State.freePorts (s : State) (t b : Nat) : State :=
  let x := s.node t
  let s := s.setNode t { x with mTok := x.mTok.erase b, mDrop := x.mDrop.erase b, mOut := x.mOut.erase b }
  s.setXbar (t * 4 + b) { flight := (s.xbar (t * 4 + b)).flight }

/-- What a node still holds of requests of the residency's tile is gone: rows in lanes, chains and outputs under way, and the tokens of its
slices. -/
def Node.emptied (x : Node) (mine : MReq → Bool) (slices : List Nat) : Node :=
  { x with
    lanes := x.lanes.map fun e => (e.1, { e.2 with rows := e.2.rows.filter fun w => !mine w.req })
    chains := x.chains.filter fun c => !mine c.req
    outs := x.outs.filter fun o => !mine o.req
    returns := x.returns.filter fun j => !mine j.req
    poisons := x.poisons.filter fun k => !mine k.req
    accQ := x.accQ.filter fun k => !slices.contains (k.rowAt / 16) }

/-- The tile frees what the residency holds there. -/
def State.freeTile (s : State) (r t : Nat) : State :=
  let bs := s.ctxBanks r t
  let s := (s.failMembers r t).freeBarriers r t
  let slices := s.slicesHeld r t
  let s := s.setNode t ((s.node t).emptied (s.ownReq r t) slices)
  let s := (s.templatesHeld r t).foldl (fun s n => s.setTile t ((s.tile t).setTemplate n {})) s
  let s := (s.slotsHeld r t).foldl (fun s n => s.freeSlot t n) s
  let s := slices.foldl (fun s n => s.freeSlice t n) s
  let s := (s.banksHeld r t).foldl (fun s n => s.freeBank t n) s
  let y := s.tile t
  let s := s.setTile t { y with
    aggs := y.aggs.filter fun a => a.resid != r
    flips := y.flips.filter fun f => !bs.contains f.1
    deferred := y.deferred.filter fun d =>
      match d.act with
      | .donePort k _ _ => (s.ctx k).resid != some r
      | .doneQueue k _ _ => (s.ctx k).resid != some r
      | .units n _ => n != r
      | .packet _ => true
    txns := y.txns.filter fun x => x.resid != r || x.write
    stopping := y.stopping.filter fun z => z.1 / 8 != r }
  bs.foldl (fun s b => (List.range 4).foldl (fun s q => s.setCtx ((t * 4 + q) * 4 + b) {}) (s.freePorts t b)) s

/-- A shadow load of a residency that has ended is abandoned with status 0x09 (R353). (DEDUCED, log 54) -/
def State.dropLoads (s : State) (r : Nat) : State :=
  let gone := s.sched.loads.filter fun j => j.resid == r && j.shadow
  gone.foldl (fun s j => s.completion j.cand 9 0 0 0 0)
    (s.setSched { s.sched with loads := s.sched.loads.filter fun j => j.resid != r })

/-- The slot-table entries of a residency return to id 0, and the requests that wait for them are dropped (R161, R165). -/
def State.unbind (s : State) (r : Residency) : State :=
  let ids (p : Nat) : List Nat := (r.binds.filter fun e => e.1 == p).map fun e => (s.port p).slots.get 0 e.2
  let gone (x : Arrived) : Bool :=
    decide (2048 ≤ x.node) && decide (x.node < 2176) && x.p.h.resid == r.num &&
    (ids (x.node - 2048)).contains ((s.port (x.node - 2048)).idOf x.p)
  r.binds.foldl (fun s e => s.setPort e.1 { s.port e.1 with slots := (s.port e.1).slots.erase e.2 })
    { s with inbox := s.inbox.filter fun x => !gone x }

/-- The residency is gone: its tiles are free, its slot-table entries return to id 0 (R161), its requests for spill service and its
records under way are withdrawn, and its entry is free (R374). (DEDUCED, log 70) -/
def State.freeRes (s : State) (r : Residency) : State :=
  let s := (s.regionTiles r).foldl (fun s t => (s.removeMembers r.num t).freeTile r.num t) s
  let s := (s.unbind r).dropLoads r.num
  s.setSched { s.sched with
    res := s.sched.res.filter fun x => x.num != r.num
    spills := s.sched.spills.filter fun x => x.resid != r.num }

/-! ## The steps of a discard on a tile (R376) -/

/-- Step 1: issue stops and switch programs halt; records of its contexts are dropped and its spill requests withdrawn. -/
def State.stopTile (s : State) (r t : Nat) : State :=
  let mine (k : Nat) : Bool := k / 16 == t && (s.ctx k).resid == some r
  let s := { s with
    ctxs := s.ctxs.map fun (e : Nat × Ctx) => if mine e.1 then (e.1, { e.2 with run := .stopped, wait := .none, async := [] }) else e
    sched := { s.sched with
      asyncs := s.sched.asyncs.filter fun a => !mine a.1
      spills := s.sched.spills.filter fun x => !(x.resid == r && x.tile == t) }
    walks := s.walks.filter fun w => w.use_ == WalkUse.engine || !mine w.key }
  (s.ctxBanks r t).foldl (fun s b => s.setXbar (t * 4 + b) { s.xbar (t * 4 + b) with halted := true }) s

/-- Step 4: its copies stop and its templates are disarmed (R165). -/
def State.stopCopies (s : State) (r t : Nat) : State :=
  (s.templatesHeld r t).foldl (fun s n =>
    s.setTile t ((s.tile t).setTemplate n { (s.tile t).template n with active := none, arm := {}, shadow := {}, fires := [] })) s

/-- Step 5: its barriers, and at the root tile its pot, are reset. -/
def State.resetBarriers (s : State) (r t : Nat) : State :=
  let s := s.freeBarriers r t
  match s.findRes r with
  | none => s
  | some x => if x.rootTile = t then s.setRes { x with potValid := false, pot := 0, total := 0 } else s

/-- What a tile does when a step reaches it. (DEDUCED, log 70) -/
def State.discardStep (s : State) (r t step : Nat) : State :=
  if step = 1 then s.stopTile r t
  else if step = 2 then s.removeMembers r t
  else if step = 4 then s.stopCopies r t
  else if step = 5 then s.resetBarriers r t
  else s

/-- Is a step, begun at a cycle, over on a tile: the rows have left their lanes, the writes are answered, every read that is cancelled has
come back, and clearing takes 512 cycles? (DEDUCED, log 70) -/
def State.stepDone (s : State) (r t step since : Nat) : Bool :=
  if step = 2 then !s.rowsIssued r t
  else if step = 3 then !((s.tile t).txns.any fun x => x.resid == r && x.write)
  else if step = 4 then !((s.tile t).txns.any fun x => x.resid == r)
  else if step = 6 then decide (since + 512 ≤ s.cycle)
  else true

def isDiscard (p : Packet) : Bool := p.h.kind == 12 && p.h.op == opDiscard
def isStepDone (p : Packet) : Bool := p.h.kind == 12 && p.h.op == opStepDone

/-- A tile reports a step that is over; what step 6 clears is free then (R376). -/
def State.reportStep (s : State) (t z : Nat) : State :=
  let s := if z % 8 = 6 then s.freeTile (z / 8) t else s
  let hd : Hdr := s.toAttach 12 t 1 (z / 8)
  s.send t ⟨{ hd with op := opStepDone, info := BitVec.ofNat 64 (z % 8) }, []⟩

/-- `DISCARD_ARRIVAL`: DISCARD reaches the tile, or the next step does, and the tile acts; when a step that it runs is over, it reports
done (R376). -/
def execDiscardArrival (s : State) : Host.Outcome State Fault Refusal :=
  .next
    (let t := s.cur.t
    let s :=
      match s.arrived t isDiscard with
      | none => s
      | some p =>
        let s := s.takeArrived t isDiscard
        let n := p.h.info.toNat % 8
        let s := s.discardStep p.h.resid t n
        s.setTile t { s.tile t with stopping := (s.tile t).stopping ++ [(p.h.resid * 8 + n, s.cycle)] }
    let x := s.tile t
    let isOver (z : Nat × Nat) : Bool := s.stepDone (z.1 / 8) t (z.1 % 8) z.2
    (x.stopping.filter isOver).foldl (fun s z => s.reportStep t z.1)
      (s.setTile t { x with stopping := x.stopping.filter fun z => !isOver z }))

/-- The scheduler sends a step to every tile of the region. (DEDUCED, log 70) -/
def State.sendStep (s : State) (r : Residency) (step : Nat) : State :=
  let s := s.setRes { r with step := step, reported := [] }
  (s.regionTiles r).foldl (fun s t =>
    let hd : Hdr := s.toTile 12 0 t r.num
    s.send 0 ⟨{ hd with op := opDiscard, info := BitVec.ofNat 64 step }, []⟩) s

/-- Is the buffer of event records full? What posts an event of kind 0x10, 0x16, 0x17 or 0x1F then waits (R375). (DEDUCED, log 31) -/
def State.bufferFull (s : State) : Bool := decide (64 ≤ s.sched.buffer.length)

/-- `DISCARD`: the residency that the place names, which the scheduler has decided to discard or to fault, begins step 1, behind the record
of its fault, which waits for room (R49, R375, R376, R377). -/
def execDiscard (s : State) : Host.Outcome State Fault Refusal :=
  .next
    (match s.findRes s.cur.n with
    | none => s
    | some r =>
      if (r.state = .discarding ∨ r.state = .faulting) ∧ r.step = 0 then
        match r.event with
        | none => s.sendStep r 1
        | some e => if s.bufferFull then s else (s.post e).sendStep { r with event := none } 1
      else s)

/-- The scheduler's event for a residency: kind and byte, the root tile's place. -/
def Residency.eventHead (r : Residency) (kind byte low : Nat) : W64 :=
  eventWord kind byte r.num r.rootTile 0 r.rootBank low

/-- A requeued record stands ahead of its queue with its age (R345), in the order of age. -/
def Sched.requeue (x : Sched) (c : Cand) : Sched :=
  { x with requeued := (x.requeued.filter fun d => decide (d.age < c.age)) ++ [c] ++ x.requeued.filter fun d => decide (c.age ≤ d.age) }

/-- Step 7: the entry is free; the record is requeued, completed with its retry limit exceeded, or completed as stopped, and event 0x17
posted (R376, R49); a faulted residency completes with its fault word (R377). (DEDUCED, log 70) -/
def State.discardEnd (s : State) (r : Residency) : State :=
  let c := r.cand
  let now := s.cycleSince r
  let q := s.queueOf r.num
  let s := s.freeRes r
  if r.state = .faulting then
    s.completion c 6 (if r.reason = 5 then 1 else if r.reason = 6 then 2 else 0) r.num r.faultWord now
  else
    let c : Cand := if r.reason = 3 then c else { c with retry := c.retry + 1, last := r.num, prio := some r.prio }
    let s :=
      if r.reason = 3 then s.completion c 7 0 r.num 0 now
      else if c.retryLimit < c.retry then s.completion c 5 0 r.num 0 now
      else s.setSched (s.sched.requeue c)
    s.post ⟨q, r.eventHead 0x17 r.reason c.retry, BitVec.ofNat 64 c.tag, now⟩

/-- `DISCARD_STEP_DONE`: a tile's report reaches the scheduler; when every tile of the region has reported, the next step begins, and behind
step 6 the scheduler's own, once event 0x17 has room (R376). (DEDUCED, log 70) -/
def execDiscardStepDone (s : State) : Host.Outcome State Fault Refusal :=
  .next
    (let s :=
      match s.arrived 4097 isStepDone with
      | none => s
      | some p =>
        let s := s.takeArrived 4097 isStepDone
        match s.findRes p.h.resid with
        | none => s
        | some r => if r.step = p.h.info.toNat then s.setRes { r with reported := p.h.stile :: r.reported } else s
    match s.findRes s.cur.n with
    | none => s
    | some r =>
      if r.step = 0 ∨ (r.state ≠ .discarding ∧ r.state ≠ .faulting) then s
      else if (s.regionTiles r).all r.reported.contains = false then s
      else if r.step = 6 then (if r.state = .faulting ∨ s.bufferFull = false then s.discardEnd r else s)
      else s.sendStep r (r.step + 1))

/-! ## Decisions of the scheduler (R374) -/

/-- An uncommitted residency is to be discarded, for a reason: 1 pre-emption, 2 watchdog, 3 stop. -/
def State.decideDiscard (s : State) (r : Residency) (reason : Nat) : State :=
  s.setRes { r with state := .discarding, reason := reason, step := 0 }

/-- A residency is faulted (R377): the fault word of its completion, and event 0x10 with its dword 0, now or when the buffer has room; a load
that has not ended is abandoned. -/
def State.decideFault (s : State) (r : Residency) (reason : Nat) (d0 d1 d2 : W64) : State :=
  let e : EventRec := ⟨r.cand.queue, d0, d1, d2⟩
  let x : Residency := { r with
    state := .faulting, reason := reason, step := 0, faultWord := d0 &&& 0x00FFFFFFFFFFFFFF#64
    event := if s.bufferFull then some e else none }
  let s := s.setRes x
  let s := s.setSched { s.sched with loads := s.sched.loads.filter fun j => j.resid != r.num || j.shadow }
  if s.bufferFull then s else s.post e

/-- Is it live and running: uncommitted or committed? -/
def Residency.running (r : Residency) : Bool := r.state == .uncommitted || r.state == .committed

/-- `FAULT_REPORT`: the report of the residency of the oldest is recorded: of those that have arrived in the same cycle, that of the lowest tile
(R381); the residency is faulted. Further reports, and those for a residency that does not run, are ignored (R374, R377). -/
def execFaultReport (s : State) : Host.Outcome State Fault Refusal :=
  .next
    (match s.arrived 4097 isFault with
    | none => s
    | some p =>
      let same := (s.inbox.filter fun x => x.node == 4097 && isFault x.p && x.p.h.resid == p.h.resid).map Arrived.p
      let q := same.foldl (fun a b => if b.h.stile < a.h.stile then b else a) p
      let s := { s with inbox := s.inbox.filter fun x => !(x.node == 4097 && isFault x.p && x.p.h.resid == p.h.resid) }
      match (s.findRes p.h.resid).filter Residency.running with
      | none => s
      | some r =>
        let w := q.pay.headD 0
        let d0 := w.extractLsb' 192 64
        s.decideFault r (d0.extractLsb' 48 8).toNat d0 (w.extractLsb' 128 64) (w.extractLsb' 64 64))

/-- `WATCHDOG_EXPIRY`: the count of the residency that the place names reaches its limit: uncommitted it is discarded, committed it is
faulted (R50, R374). -/
def execWatchdogExpiry (s : State) : Host.Outcome State Fault Refusal :=
  .next
    (match (s.findRes s.cur.n).filter Residency.running with
    | none => s
    | some r =>
      if r.cand.watchdog = 0 ∨ s.cycle < r.startCycle + r.cand.watchdog then s
      else if r.state = .committed then s.decideFault r 5 (r.eventHead 0x10 5 0) 0 0
      else s.decideDiscard r 2)

/-! ## The end of a launch (R51) -/

/-- The four conditions of R51. -/
def State.ended (s : State) (r : Residency) : Bool :=
  let ts := s.regionTiles r
  (ts.all fun t => (s.ctxsOf t r).all fun k =>
    let c := s.ctx k
    c.resid != some r.num || c.run == .halted || (c.run == .idle && c.deque == [] && c.ring.count == 0)) &&
  (!r.potValid || r.pot == r.total) &&
  (ts.all fun t => (s.banksHeld r.num t).all fun n => !(s.bank t n).sink || (s.bank t n).sawEnd) &&
  (ts.all fun t => !((s.tile t).txns.any fun x => x.resid == r.num && x.write))

/-- `RESIDENCY_END`: the residency that the place names ends, its banks are free, and its completion is posted (R51). (DEDUCED, log 70) -/
def execResidencyEnd (s : State) : Host.Outcome State Fault Refusal :=
  .next
    (match (s.findRes s.cur.n).filter Residency.running with
    | none => s
    | some r => if s.ended r then (s.freeRes r).completion r.cand 0 0 r.num 0 (s.cycleSince r) else s)

/-! ## Commit (R48) -/

def isCommit (p : Packet) : Bool := p.h.kind == 12 && p.h.op == opCommit
def isCommitReply (p : Packet) : Bool := p.h.kind == 12 && p.h.op == opCommitReply

/-- `COMMIT_REQUEST`: the scheduler marks the residency committed and replies; a request of a residency that is being discarded or faulted
is never answered (R48, R374). -/
def execCommitRequest (s : State) : Host.Outcome State Fault Refusal :=
  .next
    (match s.arrived 4097 isCommit with
    | none => s
    | some p =>
      let s := s.takeArrived 4097 isCommit
      match (s.findRes p.h.resid).filter Residency.running with
      | none => s
      | some r =>
        let hd : Hdr := s.toTile 12 0 p.h.stile r.num
        (s.setRes { r with state := .committed }).send 0 ⟨{ hd with op := opCommitReply, info := p.h.info }, []⟩)

/-- `COMMIT_REPLY`: the reply reaches the root context and `commit` completes (R48). -/
def execCommitReply (s : State) : Host.Outcome State Fault Refusal :=
  .next
    (match s.arrived s.cur.t isCommitReply with
    | none => s
    | some p =>
      (s.takeArrived s.cur.t isCommitReply).withCur p.h.info.toNat fun s =>
        if s.me.wait = .commit ∧ s.me.resid = some p.h.resid then s.complete else s)

/-! ## Device error (R380) -/

/-- Is it an entry that a device error faults: every live one, those that load among them? -/
def Residency.faultable (r : Residency) : Bool := r.running || r.state == .loading

/-- The device-error state: every live residency is faulted with reason 0x07, and event 0x1F names a unit, whose code the manual leaves
open, as soon as the scheduler's buffer has room (R375). (DEDUCED, log 59) -/
def State.failDevice (s : State) : State :=
  let s := { s with deviceError := true }
  let s :=
    if s.unownedError = false ∨ s.bufferFull = true then s
    else ({ s with unownedError := false, free := s.free + 1 }).post ⟨0, eventWord 0x1F 0 0 0 0 0 0, Config.unitCode s.free, 0⟩
  (s.sched.res.filter Residency.faultable).foldl (fun s r => s.decideFault r 7 (r.eventHead 0x10 7 0) 0 0) s

end Sys2Proof.Machine
end

