-- ==== Sys2Proof/Machine/Loader.lean ====
section
/-! DEFINITION. The loader (16_switch_image.md R303 to R308; 20_host_launch.md R344): one meaning per frame, which checks and writes it,
and the end of a load. The frame is latched in `State.word`, the turn's place names the load. -/

namespace Sys2Proof.Machine

/-! ## Loads -/

def State.putJob (s : State) (j : LoadJob) : State :=
  s.setSched { s.sched with loads := s.sched.loads.map fun k => if k.id = j.id then j else k }

def State.dropJob (s : State) (id : Nat) : State := s.setSched { s.sched with loads := s.sched.loads.filter fun k => k.id != id }

/-- The tile and context banks of a residency. -/
def State.places (s : State) (r : Residency) : List (Nat × Nat) := (s.regionTiles r).flatMap fun t => r.banks.map fun b => (t, b)

/-- The region of the instruction store of a context bank (R305). (DEDUCED, log 55) -/
def regionBase (b : Nat) : Nat := b * 2 ^ 14

/-- Clear the instruction store region and the switch program of a bank: what no frame writes reads zero. (DESIGN CHOICE, log 2) -/
def State.clearStores (s : State) (t b : Nat) : State :=
  (s.wipe (storeKey t (regionBase b)) (2 ^ 14)).wipe (switchKey t b 0 0) 8192

/-- The shadow of a context bank is EMPTY and holds nothing (04_static_network.md R84). (DEDUCED, log 54) -/
def State.emptyShadow (s : State) (t b : Nat) : State :=
  let x := s.xbar (t * 4 + b)
  let s := s.setXbar (t * 4 + b) { x with shadow := .empty, shLinkIn := [], shLinkOut := [], shXctl := 0, shHasProg := false }
  let y := s.tile t
  let s := s.setTile t { y with templates := y.templates.map fun e => (e.1, if e.2.owner = some b then { e.2 with shadow := {} } else e.2) }
  (List.range 4).foldl (fun s q =>
    let k := (t * 4 + q) * 4 + b
    s.setCtx k { s.ctx k with shadowCode := {} }) s

/-- A check fails (R307): nothing that the image wrote survives, what it claimed is free, and its record completes with status 0x04, the
check code and the frame index. -/
def State.failLoad (s : State) (j : LoadJob) (code idx : Nat) : State :=
  match s.findRes j.resid with
  | none => s.dropJob j.id
  | some r =>
    let i := BitVec.ofNat 64 idx
    if j.shadow then
      let s := if j.next = 0 then s else
        let s := j.claimed.foldl (fun s k => s.setTile (k / 16) ((s.tile (k / 16)).setTemplate (k % 16) {})) s
        (s.places r).foldl (fun s p => s.emptyShadow p.1 p.2) s
      (s.dropJob j.id).completion j.cand 4 code 0 i 0
    else
      let s := (s.places r).foldl (fun s p => s.clearStores p.1 p.2) s
      (s.freeRes r).completion j.cand 4 code r.num i 0

/-! ## Frames (R303) -/

/-- A virtual tile that a frame selects, with the tile and context bank that hold it. -/
structure Spot where
  vx : Nat
  vy : Nat
  t : Nat
  b : Nat
  deriving DecidableEq, Repr

def Spot.tb (x : Spot) : Nat := x.t * 4 + x.b
def Spot.ctx (x : Spot) (q : Nat) : Nat := (x.t * 4 + q) * 4 + x.b

/-- Fields of the frame: `n` bits from a bit on. -/
def State.field (s : State) (lo n : Nat) : Nat := (s.word.extractLsb' lo n).toNat

/-- The cores that the mask names. -/
def State.frameCores (s : State) : List Nat := (List.range 4).filter fun q => s.word.getLsbD (240 + q)

/-- The selected virtual tiles, or none where the selection breaks check 0x05. -/
def State.frameSpots (s : State) (r : Residency) : Option (List Spot) :=
  let x0 := s.field 234 6
  let x1 := s.field 228 6
  let y0 := s.field 222 6
  let y1 := s.field 216 6
  let w := x1 + 1 - x0
  if x1 < x0 ∨ y1 < y0 ∨ r.shape.1 ≤ x1 ∨ r.shape.2 ≤ y1 then none
  else some ((List.range (w * (y1 + 1 - y0))).map fun i =>
    let vx := x0 + i % w
    let vy := y0 + i / w
    let p := r.physicalOf vx vy
    ⟨vx, vy, p.1, r.banks.getD p.2 0⟩)

/-- What a frame's own checks and writes give: the state and the load, or a check code. -/
abbrev Wrote := Except Nat (State × LoadJob)

/-- The cores that the image's class admits (24_fleet_operation.md R397). -/
def LoadJob.cores (j : LoadJob) : Nat := 4 - j.cls

/-! ## Descriptors (R307, 08_copies_barriers.md R155) -/

/-- The parts that a load has read of a template, its descriptor, and the templates whose descriptors it has read whole. -/
def LoadJob.partsOf (j : LoadJob) (key : Nat) : List Nat := (j.parts.filter fun x => x.1 == key).map Prod.snd
def LoadJob.desc (j : LoadJob) (key : Nat) : Desc :=
  BitVec.ofNat 512 ((List.range 8).foldl (fun v i => v + (j.words.get 0 (key * 8 + i)).toNat * 2 ^ (64 * i)) 0)
def LoadJob.described (j : LoadJob) : List Nat := (uniq (j.parts.map Prod.fst)).filter fun key => (j.partsOf key).length == 3

/-- The checks of R155 that need no other frame: form and alignment. (DEDUCED, log 53) -/
def descForm (d : Desc) : Bool :=
  d.formOk && (d.srcKind != 0 || endAligned (d.dword 0) d.srcWalk d.bytes) && (d.dstKind != 0 || endAligned (d.dword 1) d.dstWalk d.bytes)

/-- Does a whole descriptor fail R155 by what is decided so far (R307)? What a later frame may still claim is decided when that frame is
read, or with the last: a queue no frame has claimed, a private area before its START frame, a barrier share. A shadow load claims nothing,
so all is decided. (DEDUCED, log 53) -/
def State.descFails (s : State) (r : Residency) (j : LoadJob) (last : Bool) (key : Nat) : Bool :=
  let t := key / 16
  let d := j.desc key
  let who := t * 16 + ((s.tile t).template (key % 16)).owner.getD 0
  let firm := last || j.shadow
  let queueBad (q : Nat) : Bool :=
    if firm then (s.queueFault t r.num q).isSome else s.ownerIs r.num t (s.bank t q).owner && (s.bank t q).mode != .fifo
  let shared := j.described.any fun k => k != key && k / 16 == t && d.pulls.any fun q => (j.desc k).pulls.contains q
  let endBad (kind : Nat) (base : W64) (walk : List (Int × Nat)) : Bool :=
    kind == 0 && (firm || winOf (BitVec.ofInt 64 (walkLow base walk)) != some .priv || j.starts.contains who) &&
    (s.walkFault (s.ctx who) t base walk d.bytes).isSome
  let held (name : Nat) : Bool :=
    let c := name / 1024
    decide (c < 24) && (s.regionTiles r).contains (clusterTile (clusterOf t) (c / 4))
  let barBad (name : Nat) : Bool := if firm then (s.barPlace t r.num name).isNone else !held name
  !descForm d || d.queues.any queueBad || shared || endBad d.srcKind (d.dword 0) d.srcWalk || endBad d.dstKind (d.dword 1) d.dstWalk ||
  d.barrier.any barBad

/-- A frame other than HEADER: the checks that every frame has, in the table's order, then its own; a frame other than START must not
follow one, and a descriptor may fail by what it says (R307). (DEDUCED, log 53) -/
def State.frame (s : State) (formOk isStart : Bool) (body : State → Residency → LoadJob → List Spot → Wrote) : State :=
  match s.sched.loads.find? fun j => j.id == s.cur.n with
  | none => s
  | some j =>
    match s.findRes j.resid with
    | none => s
    | some r =>
      if formOk = false ∨ s.word.getLsbD 247 ≠ j.shadow then s.failLoad j 1 j.next
      else if j.next = 0 then s.failLoad j 2 0
      else if s.frameCores.any fun q => j.cores ≤ q then s.failLoad j 4 j.next
      else
        match s.frameSpots r with
        | none => s.failLoad j 5 j.next
        | some l =>
          match body s r j l with
          | .error c => s.failLoad j c j.next
          | .ok (s', j') =>
            if j'.described.any (s'.descFails r j' false) then s.failLoad j 0x0A j.next
            else if j.started ∧ isStart = false then s.failLoad j 0x0C j.next
            else s'.putJob { j' with next := j.next + 1 }

/-- One write per selected tile, or the first check that fails. -/
def eachSpot (l : List Spot) (x : State × LoadJob) (f : State → LoadJob → Spot → Wrote) : Wrote :=
  l.foldl (fun acc p => match acc with | .error c => .error c | .ok y => f y.1 y.2 p) (.ok x)

/-! ## HEADER (R304) -/

/-- Bytes of a partition with its rounding (R305). (DEDUCED, log 55) -/
def round64 (n : Nat) : Nat := (n + 63) / 64 * 64

/-- Where four partitions of given sizes lie from a base on. (DEDUCED, log 55) -/
def partitions (base : Nat) (sizes : List Nat) : List Code :=
  (sizes.foldl (fun (acc : Nat × List Code) n => (acc.1 + round64 n, acc.2 ++ [⟨acc.1, n, acc.1⟩])) (base, [])).2

/-- Places for partitions of given sizes between two bounds, clear of the ranges in use and of each other: the lowest that there are (R305).
(DEDUCED, log 55) -/
def packed (lo hi : Nat) : List (Nat × Nat) → List Nat → Option (List Nat)
  | _, [] => some []
  | busy, n :: l =>
    (lo :: busy.map fun e => e.1 + e.2).findSome? fun x =>
      if x + n ≤ hi ∧ (busy.all fun e => decide (x + n ≤ e.1) || decide (e.1 + e.2 ≤ x)) = true then
        (packed lo hi ((x, n) :: busy) l).map fun r => x :: r
      else none

/-- Where a shadow's partitions lie: together at the end of the region if that is free, else wherever they fit beside the live ones (R305).
(DEDUCED, log 55) -/
def State.shadowPlaces (s : State) (t b : Nat) (sizes : List Nat) : Option (List Code) :=
  let live := ((List.range 4).map fun q => (s.ctx ((t * 4 + q) * 4 + b)).code).filter fun c => c.size != 0
  let busy := live.map fun c => (c.base, round64 c.size)
  let total := sizes.foldl (fun n x => n + round64 x) 0
  let lo := regionBase b + 64
  let hi := regionBase b + 2 ^ 14
  if lo + total ≤ hi ∧ (busy.all fun e => decide (e.1 + e.2 ≤ hi - total)) = true then some (partitions (hi - total) sizes)
  else (packed lo hi busy (sizes.map round64)).map fun l => (l.zip sizes).map fun e => ⟨e.1, e.2, e.1⟩

/-- The partitions of one bank of a tile are laid out, and its stores are clear. (DEDUCED, log 55) -/
def State.layOut (s : State) (shadow : Bool) (sizes : List Nat) (t b : Nat) : Option State :=
  let put (s : State) (l : List Code) : State :=
    (List.range 4).foldl (fun s q =>
      let k := (t * 4 + q) * 4 + b
      let c := l.getD q {}
      let x := s.ctx k
      if x.resid = none then s else s.setCtx k (if shadow then { x with shadowCode := c } else { x with code := c })) s
  if shadow then
    match s.shadowPlaces t b sizes with
    | none => none
    | some l =>
      let s := put (s.emptyShadow t b) l
      let x := s.xbar (t * 4 + b)
      let s := s.setXbar (t * 4 + b) { x with shadow := .loading }
      some ((l.foldl (fun s c => s.wipe (storeKey t c.base) (round64 c.size)) s).wipe (switchKey t b (1 - x.store) 0) 4096)
  else if 2 ^ 14 - 64 < sizes.foldl (fun n x => n + round64 x) 0 then none
  else some (put (s.clearStores t b) (partitions (regionBase b + 64) sizes))

/-- `HEADER`: version, class, shape, fold, frame count and partition sizes (R304 to R307). A shadow load's shape and class are checked
against the live residency's record; its shadows become LOADING. (DEDUCED, log 54) -/
def execHeader (s : State) : Host.Outcome State Fault Refusal :=
  .next
    (match s.sched.loads.find? fun j => j.id == s.cur.n with
    | none => s
    | some j =>
      match s.findRes j.resid with
      | none => s
      | some r =>
        let d := r.cand.dwords.getD 0 0
        let count := s.field 160 32
        let cls := s.field 206 2
        let sizes := (List.range 4).map fun q => 4 * s.field (146 - 14 * q) 14
        if s.word.getLsbD 247 ≠ j.shadow then s.failLoad j 1 j.next
        else if j.next ≠ 0 ∨ s.field 208 8 ≠ 1 ∨ count = 0 ∨ 2 ^ 40 < j.image + 32 * count then s.failLoad j 2 j.next
        else if s.field 200 6 ≠ (d.extractLsb' 42 6).toNat ∨ s.field 194 6 ≠ (d.extractLsb' 36 6).toNat ∨
            s.field 192 2 ≠ (d.extractLsb' 34 2).toNat then s.failLoad j 3 0
        else if cls < (d.extractLsb' 32 2).toNat then s.failLoad j 4 0
        else
          let laid := (s.places r).foldl (fun (acc : Option State) p => acc.bind fun s => s.layOut j.shadow sizes p.1 p.2) (some s)
          match laid with
          | none => s.failLoad j 6 0
          | some s => s.putJob { j with next := 1, total := count, cls := cls, sizes := sizes })

/-! ## CODE (R304, R305) -/

/-- A word with its relocation: none when the word is not LHI with h = 0 or the sum leaves the partition. -/
def relocated (c : Code) (w : BitVec 32) (reloc : Bool) : Option (BitVec 32) :=
  if reloc = false then some w
  else
    let v := (w.extractLsb' 3 16).toNat + c.base
    if w.extractLsb' 26 6 ≠ 0x07#6 ∨ w.extractLsb' 19 2 ≠ 0#2 ∨ c.base + c.size ≤ v then none
    else some (w.extractLsb' 19 13 ++ BitVec.ofNat 16 v ++ w.extractLsb' 0 3)

/-- `CODE`: up to six instruction words (R304, R305). -/
def execCode (s : State) : Host.Outcome State Fault Refusal :=
  .next
    (let n := s.field 199 3
    let idx := s.field 202 14
    s.frame (decide (s.field 0 192 < 2 ^ (32 * n)) && decide (s.field 193 6 < 2 ^ n)) false fun s r j l =>
      eachSpot l (s, j) fun s j p =>
        s.frameCores.foldl (fun (acc : Wrote) q =>
          match acc with
          | .error c => .error c
          | .ok (s, j) =>
            let c := if j.shadow then (s.ctx (p.ctx q)).shadowCode else (s.ctx (p.ctx q)).code
            if c.size < 4 * (idx + n) then .error 6
            else
              (List.range n).foldl (fun (acc : Wrote) i =>
                match acc with
                | .error c => .error c
                | .ok (s, j) =>
                  match relocated c (s.word.extractLsb' (32 * i) 32) (s.word.getLsbD (193 + i)) with
                  | none => .error 6
                  | some w =>
                    .ok ({ s with mem := Memory.writeN s.mem (storeKey p.t (c.base + 4 * (idx + i))) 4 w.toNat }, j)) (.ok (s, j)))
          (.ok (s, j)))

/-! ## SWITCH and LINK (R304, 04_static_network.md R73, R76) -/

/-- The routes of a switch instruction, destination and source, with a tested source as destination 12 (R298, R300). -/
def routesOf (w : BitVec 64) : List (Nat × Nat) :=
  let op := (w.extractLsb' 11 5).toNat
  (((List.range 12).map fun i => (i, (w.extractLsb' (60 - 4 * i) 4).toNat)) ++
    (if 4 ≤ op ∧ op ≤ 6 then [(12, (w.extractLsb' 7 4).toNat)] else [])).filter fun r => r.2 ≠ 0

/-- Does a route name a core that the class lacks? -/
def lacksCore (cores : Nat) (r : Nat × Nat) : Bool :=
  (decide (4 ≤ r.1 ∧ r.1 < 8) && decide (cores ≤ r.1 - 4)) || (decide (5 ≤ r.2 ∧ r.2 < 9) && decide (cores ≤ r.2 - 5))

/-- Are the directions that a route names the switch's in a link table? -/
def linksOk (ins outs : AMap (BitVec 4)) (r : Nat × Nat) : Bool :=
  (decide (4 ≤ r.1) || outs.get 0 r.1 &&& 7#4 == 1#4) && (decide (r.2 = 0 ∨ 4 < r.2) || ins.get 0 (r.2 - 1) &&& 7#4 == 1#4)

/-- The link table that a load writes, of a context bank of a tile. -/
def State.tableOk (s : State) (shadow : Bool) (tb : Nat) (r : Nat × Nat) : Bool :=
  let x := s.xbar tb
  if shadow then linksOk x.shLinkIn x.shLinkOut r else linksOk x.linkIn x.linkOut r

/-- Does a direction of a virtual tile leave the region (R73)? -/
def Residency.closed (r : Residency) (vx vy d : Nat) : Bool :=
  if d = 0 then vy == 0 else if d = 1 then decide (r.shape.2 ≤ vy + 1) else if d = 2 then decide (r.shape.1 ≤ vx + 1) else vx == 0

/-- Does a route of a virtual tile name a direction that leaves the region? -/
def Residency.routeClosed (r : Residency) (vx vy : Nat) (z : Nat × Nat) : Bool :=
  (decide (z.1 < 4) && r.closed vx vy z.1) || (decide (0 < z.2 ∧ z.2 < 5) && r.closed vx vy (z.2 - 1))

/-- `SWITCH`: up to three switch instructions (R304); one at an index that an earlier frame wrote replaces its routes. (DEDUCED, log 53) -/
def execSwitch (s : State) : Host.Outcome State Fault Refusal :=
  .next
    (let n := s.field 205 2
    let idx := s.field 207 9
    let ws := (List.range n).map fun i => s.word.extractLsb' (64 * i) 64
    let rs := ws.flatMap routesOf
    s.frame (decide (s.field 0 192 < 2 ^ (64 * n))) false fun s r j l =>
      if 512 < idx + n ∨ (ws.any fun w => (decodeSwitch w).isNone) ∨ (rs.any (lacksCore j.cores)) then .error 7
      else
        eachSpot l (s, j) fun s j p =>
          if (rs.any (r.routeClosed p.vx p.vy)) ∨ (j.links.contains p.tb ∧ rs.all (s.tableOk j.shadow p.tb) = false) then .error 7
          else
            let x := s.xbar p.tb
            let half := if j.shadow then 1 - x.store else x.store
            let s := s.setXbar p.tb (if j.shadow then { x with shHasProg := true } else { x with hasProg := true })
            .ok ({ s with mem := Memory.writeN s.mem (switchKey p.t p.b half idx) (8 * n) (s.field 0 192) },
              { j with routes := (j.routes.filter fun z => z.1 != p.tb || decide (z.2.1 < idx) || decide (idx + n ≤ z.2.1)) ++
                (ws.zip (List.range n)).flatMap fun e => (routesOf e.1).map fun r => (p.tb, idx + e.2, r) }))

/-- Entry `i` of a LINK frame: direction i/2, its input for even i. -/
def State.linkEntry (s : State) (i : Nat) : BitVec 4 := s.word.extractLsb' (212 - 4 * i) 4

/-- The check of a LINK entry (check 0x08). (DEDUCED, log 53) -/
def State.linkFits (s : State) (r : Residency) (cores vx vy i : Nat) : Bool :=
  let e := s.linkEntry i
  let o := (e &&& 7#4).toNat
  !(decide (4 ≤ o ∧ cores ≤ o - 4)) && !(decide (o ≠ 0) && r.closed vx vy (i / 2)) && !(e.getLsbD 3 && (decide (i % 2 = 1) || decide (o < 4)))

/-- `LINK`: the owner and in-band configuration of each direction (R304, R76). (DEDUCED, log 53) -/
def execLink (s : State) : Host.Outcome State Fault Refusal :=
  .next
    (let ins : AMap (BitVec 4) := (List.range 4).map fun d => (d, s.linkEntry (2 * d))
    let outs : AMap (BitVec 4) := (List.range 4).map fun d => (d, s.linkEntry (2 * d + 1))
    let xc : BitVec 4 := s.word.extractLsb' 180 4
    s.frame true false fun s r j l =>
      eachSpot l (s, j) fun s j p =>
        if (List.range 8).all (s.linkFits r j.cores p.vx p.vy) = false ∨ 2 ^ j.cores ≤ xc.toNat then .error 8
        else
          let x := s.xbar p.tb
          let s := s.setXbar p.tb
            (if j.shadow then { x with shLinkIn := ins, shLinkOut := outs, shXctl := xc }
             else { x with linkIn := ins, linkOut := outs, xctl := xc })
          if j.routes.any fun z => z.1 == p.tb && !s.tableOk j.shadow p.tb z.2.2 then .error 7
          else .ok (s, { j with links := p.tb :: j.links }))

/-! ## BANK (R304, 03_memory_spaces.md R60, R61) -/

/-- The mode code of a claim. -/
def modeOf (c : Nat) : BankMode := if c = 0 then .scratch else if c = 1 then .cache else .fifo

/-- Two banks that the residency holds, one of which is in the other's interleave group, agree (R61). -/
def groupsAgree (a b : Bank) (na nb : Nat) : Bool :=
  let w := 2 ^ max a.il b.il
  decide (na / w ≠ nb / w) || (a.mode == b.mode && a.il == b.il)

/-- A barrier share of a claim frame: the cores' ranges must not meet a share that another frame or residency holds (check 0x09). (DEDUCED,
log 53) -/
def State.claimShare (s : State) (r : Residency) (j : LoadJob) (l : List Spot) : Wrote :=
  let base := s.field 190 10
  let count := s.field 179 11
  let meets (t q : Nat) : Bool :=
    (List.range 4).any fun b => (s.ctx ((t * 4 + q) * 4 + b)).bars.any fun x => decide (base < x.1 + x.2) && decide (x.1 < base + count)
  if 1024 < base + count ∨ (l.any fun p => s.frameCores.any fun q => meets p.t q) then .error 9
  else .ok (l.foldl (fun s p => s.frameCores.foldl (fun s q =>
    s.setCtx (p.ctx q) { s.ctx (p.ctx q) with bars := (s.ctx (p.ctx q)).bars ++ [(base, count)] }) s) s, j)

/-- `BANK_CLAIM`: a bank in a mode, or a barrier share (R304). A bank that the residency holds already, by a frame that says the same,
stays as it is. (DEDUCED, log 53) -/
def execBankClaim (s : State) : Host.Outcome State Fault Refusal :=
  .next
    (let n := s.field 212 3
    let mode := modeOf (s.field 210 2)
    let fifo := mode == .fifo
    let new (b : Nat) : Bank :=
      { owner := some b, mode := mode, il := s.field 208 2
        spillBase := if fifo then BitVec.ofNat 64 (s.field 144 56) else 0
        spillSize := if fifo then s.field 112 32 else 0
        spillEn := fifo && s.word.getLsbD 207
        sink := s.word.getLsbD 206 }
    s.frame (!s.word.getLsbD 247) false fun s r j l =>
      if s.field 210 2 = 3 then s.claimShare r j l
      else if (s.field 208 2 ≠ 0 ∧ mode ≠ .scratch) ∨ s.field 144 56 % 32 ≠ 0 ∨ s.field 112 32 % 1056 ≠ 0 ∨
          (s.word.getLsbD 206 = true ∧ fifo = false) then .error 9
      else
        eachSpot l (s, j) fun s j p =>
          let old := s.bank p.t n
          let y := new p.b
          match old.owner with
          | some _ => if s.ownerIs r.num p.t old.owner ∧ { y with owner := old.owner } = old then .ok (s, j) else .error 9
          | none =>
            if (s.banksHeld r.num p.t).all (fun m => groupsAgree y (s.bank p.t m) n m) = false then .error 9
            else .ok (s.setBank p.t n y, j))

/-- Is a scratch offset of a tile in a bank that the residency claims in SCRATCH mode? -/
def State.inScratch (s : State) (r t off : Nat) : Bool :=
  decide (off < 2 ^ 17) &&
  let b := s.bank t (scratchHome (s.tile t) off).1
  b.mode == .scratch && s.ownerIs r t b.owner

/-- Write bytes from a scratch offset on. -/
def State.writeScratch (s : State) (t off n v : Nat) : State :=
  (List.range n).foldl (fun s i => { s with mem := Memory.write s.mem (s.scratchKey t (off + i)) (BitVec.ofNat 8 (v / 2 ^ (8 * i))) }) s

/-- `BANK_DATA`: up to 24 bytes of scratch (R304). -/
def execBankData (s : State) : Host.Outcome State Fault Refusal :=
  .next
    (let off := s.field 198 17
    let n := s.field 193 5 + 1
    s.frame (!s.word.getLsbD 247 && decide (s.field 0 192 < 2 ^ (8 * n))) false fun s r j l =>
      eachSpot l (s, j) fun s j p =>
        if (List.range n).all (fun i => s.inScratch r.num p.t (off + i)) = false then .error 9
        else .ok (s.writeScratch p.t off n (s.field 0 192), j))

/-! ## TEMPLATE and MATRIX (R304, 08_copies_barriers.md R154, 07_matrix_meld.md R131) -/

/-- `TEMPLATE`: a part of a descriptor, or a claim without one (R154). (DEDUCED, log 53) -/
def execTemplate (s : State) : Host.Outcome State Fault Refusal :=
  .next
    (let n := s.field 212 4
    let part := s.field 210 2
    let words := if part = 2 then 2 else if part = 3 then 0 else 3
    s.frame (decide (s.field 0 192 < 2 ^ (64 * words))) false fun s r j l =>
      eachSpot l (s, j) fun s j p =>
        let key := p.t * 16 + n
        let have_ := j.partsOf key
        let x := (s.tile p.t).template n
        if have_.contains part ∨ (have_ ≠ [] ∧ (part = 3 ∨ have_.contains 3 = true)) ∨ (x.owner.isSome ∧ s.ownerIs r.num p.t x.owner = false) then
          .error 0x0A
        else
          let fresh := x.owner.isNone
          let s := if fresh then s.setTile p.t ((s.tile p.t).setTemplate n { x with owner := some p.b }) else s
          .ok (s, { j with
            parts := j.parts ++ [(key, part)]
            claimed := if fresh then key :: j.claimed else j.claimed
            words := (List.range words).foldl (fun m i => m.set (key * 8 + 3 * part + i) (s.word.extractLsb' (64 * i) 64)) j.words }))

/-- `MATRIX`: a slot, a pair or a slice (R131). -/
def execMatrix (s : State) : Host.Outcome State Fault Refusal :=
  .next
    (let n := s.field 212 3
    let pair := s.word.getLsbD 211
    s.frame (!s.word.getLsbD 247) false fun s r j l =>
      eachSpot l (s, j) fun s j p =>
        let x := s.node p.t
        if s.word.getLsbD 215 then
          match x.sliceOwner.find? fun e => e.1 == n with
          | none => .ok (s.setNode p.t { x with sliceOwner := x.sliceOwner.set n p.b }, j)
          | some e => if s.ownerIs r.num p.t (some e.2) then .ok (s, j) else .error 0x0B
        else
          let ns := slotsOf pair n
          if (pair = true ∧ n % 2 = 1) ∨ (ns.any fun m => (x.slot m).owner.isSome && !s.ownerIs r.num p.t (x.slot m).owner) then .error 0x0B
          else
            .ok (s.setNode p.t (ns.foldl (fun x m =>
              x.setSlot m { x.slot m with owner := some ((x.slot m).owner.getD p.b), wc := s.word.getLsbD 210 }) x), j))

/-! ## START (R304, R306) -/

/-- `START`: entry or worker, TRAPVEC, private area and deque spill area of each core named (R304, R305). In a shadow load it sets the
entry of the shadow alone (R306). A private area that breaks R55, be it by its size, fails check 0x09, which stands before 0x0C. (DEDUCED,
log 53) -/
def execStart (s : State) : Host.Outcome State Fault Refusal :=
  .next
    (let worker := s.word.getLsbD 215
    let entry := 4 * s.field 201 14
    let tv := 4 * s.field 187 14
    let start := 1024 * s.field 180 7
    let size := 1024 * s.field 173 7
    s.frame (!(worker && s.word.getLsbD 247)) true fun s r j l =>
      eachSpot l (s, { j with started := true }) fun s j p =>
        s.frameCores.foldl (fun (acc : Wrote) q =>
          match acc with
          | .error c => .error c
          | .ok (s, j) =>
            let k := p.ctx q
            let c := s.ctx k
            let code := if j.shadow then c.shadowCode else c.code
            let areaOk := decide (size ≤ 2 ^ 16) && decide (start + size ≤ 2 ^ 17) &&
              (List.range (size / 32)).all fun i => s.inScratch r.num p.t (start + 32 * i)
            if areaOk = false then .error 9
            else if j.starts.contains k ∨ (worker = false ∧ code.size ≤ entry) ∨ (tv ≠ 0 ∧ code.size ≤ tv) ∨ s.coresOn p.t ≤ q then .error 0x0C
            else if j.shadow then
              .ok (s.setCtx k { c with shadowCode := { code with entry := code.base + entry } }, { j with starts := k :: j.starts })
            else
              .ok (s.setCtx k { c with
                  starts := true, worker := worker
                  code := { code with entry := code.base + entry }
                  trapvec := if tv = 0 then 0 else BitVec.ofNat 16 (code.base + tv)
                  privStart := start, privSize := size
                  ring := { base := BitVec.ofNat 64 (s.field 117 56), size := 1024 * s.field 97 20 } },
                { j with starts := k :: j.starts })) (.ok (s, j)))

/-! ## The end of a load (R306 to R308, R344) -/

/-- Every interleave group of a tile is complete (R61). (DEDUCED, log 53) -/
def State.groupsWhole (s : State) (r t : Nat) : Bool :=
  let held := s.banksHeld r t
  held.all fun n =>
    let b := s.bank t n
    let w := 2 ^ b.il
    (List.range w).all fun i =>
      let m := n / w * w + i
      held.contains m && (s.bank t m).mode == b.mode && (s.bank t m).il == b.il

/-- Arm the templates whose descriptors the image carries; none when a part is missing or a descriptor fails (check 0x0A). -/
def State.armAll (s : State) (r : Residency) (j : LoadJob) : Option State :=
  let keys := (uniq (j.parts.map Prod.fst)).filter fun key => j.partsOf key != [3]
  if keys.any fun key => (j.partsOf key).length != 3 || s.descFails r j true key then none
  else
    some (keys.foldl (fun s key =>
      let t := key / 16
      let x := (s.tile t).template (key % 16)
      let a : Arm := { desc := some (j.desc key), who := t * 16 + x.owner.getD 0 }
      s.setTile t ((s.tile t).setTemplate (key % 16) (if j.shadow then { x with shadow := a } else { x with arm := a }))) s)

/-- Is there a cycle among M, P, h0 and h1 of one bank, whose routes all count 0 slots (R308)? Every other cycle passes a lane or a FIFO of
a core. -/
def zeroCycle (l : List (Nat × Nat)) : Bool :=
  let es := (l.filter fun r => decide (8 ≤ r.1) && decide (r.1 < 12) && decide (9 ≤ r.2)).map fun r => (r.2 - 9, r.1 - 8)
  let grow (v : List Nat) : List Nat := v ++ (es.filter fun e => v.contains e.1).map Prod.snd
  (List.range 4).any fun a =>
    let first := (es.filter fun e => e.1 == a).map Prod.snd
    (grow (grow (grow first))).contains a

/-- The checks that need every frame, and what the loader writes last: the templates armed, and the arguments (R307, R308, R344). The image of
a shadow claims no bank, so its record can hold no arguments. (DEDUCED, log 53; DEDUCED, log 54) -/
def State.lastChecks (s : State) (r : Residency) (j : LoadJob) : Except Nat State :=
  let tbs := uniq (j.routes.map Prod.fst)
  let d := j.cand.dwords.getD 0 0
  let off := ((j.cand.dwords.getD 4 0).extractLsb' 0 17).toNat
  let args := d.getLsbD 26
  if j.routes.any fun z => !s.tableOk j.shadow z.1 z.2.2 then .error 7
  else if (s.regionTiles r).all (s.groupsWhole r.num) = false then .error 9
  else
    match s.armAll r j with
    | none => .error 0x0A
    | some s =>
      if tbs.any fun tb => zeroCycle ((j.routes.filter fun z => z.1 == tb).map fun z => z.2.2) then .error 0x0D
      else if args = true ∧ (j.shadow = true ∨ (s.regionTiles r).all (fun t => s.inScratch r.num t off) = false) then .error 0x0E
      else if args then
        let v := (j.cand.dwords.getD 5 0).toNat + (j.cand.dwords.getD 6 0).toNat * 2 ^ 64
        .ok ((s.regionTiles r).foldl (fun s t => s.writeScratch t off 16 v) s)
      else .ok s

/-- A context starts (R306, R32): at its entry, as an idle worker, or it counts as halted. -/
def Ctx.begin (c : Ctx) (limit : Nat) : Ctx :=
  let c := { c with prio := BitVec.ofNat 2 limit }
  if c.starts = false then { c with run := .halted }
  else if c.worker then { c with run := .idle, steal := .start }
  else { c with run := .live, ip := BitVec.ofNat 16 c.code.entry }

/-- Every context and switch program of a residency starts, and its CYCLE is 0 (R306). -/
def State.startAll (s : State) (r : Residency) : State :=
  let s : State := { s with ctxs := s.ctxs.map fun (e : Nat × Ctx) => if e.2.resid = some r.num then (e.1, e.2.begin r.prioLimit) else e }
  let s := (s.places r).foldl (fun s p =>
    let x := s.xbar (p.1 * 4 + p.2)
    s.setXbar (p.1 * 4 + p.2) { x with pc := 0, lc0 := 0, lc1 := 0, h0 := none, h1 := none, halted := !x.hasProg }) s
  s.setRes { r with state := .uncommitted, started := true, startCycle := s.cycle }

/-- `LOAD_COMPLETE`: every frame of the load that the place names is written: the contexts start, or the shadow is READY (R306, R84, R347).
(DEDUCED, log 53) -/
def execLoadComplete (s : State) : Host.Outcome State Fault Refusal :=
  .next
    (match s.sched.loads.find? fun j => j.id == s.cur.n with
    | none => s
    | some j =>
      match s.findRes j.resid with
      | none => s
      | some r =>
        if j.next = 0 ∨ j.next < j.total then s
        else
          match s.lastChecks r j with
          | .error c => s.failLoad j c j.total
          | .ok s =>
            let s := s.dropJob j.id
            if j.shadow then
              ((s.places r).foldl (fun s p =>
                s.setXbar (p.1 * 4 + p.2) { s.xbar (p.1 * 4 + p.2) with shadow := .ready }) s).completion j.cand 0 0 0 0 0
            else s.startAll r)

end Sys2Proof.Machine
end

