-- ==== Sys2Proof/Machine/Scheduler.lean ====
section
/-! DEFINITION. The Residency Scheduler: candidates, placement and pre-emption (20_host_launch.md R342 to R347; 02_execution_model.md R26 to
R28), and the posting of event records (R348). -/

namespace Sys2Proof.Machine

/-! ## Launch records (R340 to R343) -/

def Cand.d (c : Cand) (i : Nat) : W64 := c.dwords.getD i 0
def Cand.field (c : Cand) (i lo n : Nat) : Nat := ((c.d i).extractLsb' lo n).toNat

/-- Kind, virtual shape and fold of a record (R342, R28). -/
def Cand.kind (c : Cand) : Nat := c.field 0 28 2
def Cand.width (c : Cand) : Nat := c.field 0 42 6 + 1
def Cand.height (c : Cand) : Nat := c.field 0 36 6 + 1
def Cand.fold (c : Cand) : Nat := if c.field 0 34 2 = 1 then 2 else if c.field 0 34 2 = 2 then 4 else 1
def Cand.cls (c : Cand) : Nat := c.field 0 32 2
def Cand.target (c : Cand) : Nat := c.field 4 32 16
def Cand.bindCount (c : Cand) : Nat := c.field 4 48 7

/-- Width and height of the physical region (R28). -/
def Cand.size (c : Cand) : Nat × Nat :=
  (if c.fold = 1 then c.width else c.width / 2, if c.fold = 4 then c.height / 2 else c.height)

def State.launchQueue (s : State) (q : Nat) : LaunchQueue := s.sched.lq.get {} q
def State.setLaunchQueue (s : State) (q : Nat) (x : LaunchQueue) : State := s.setSched { s.sched with lq := s.sched.lq.set q x }

/-- A ring's record from the sectors read; one that cannot be read is taken as a record with a reserved code. (DEDUCED, log 57) -/
def recordOf (got : AMap (Option W256)) (pa : Nat) : List W64 :=
  if (got.get none pa).isNone || (got.get none (pa + 32)).isNone then [BitVec.ofNat 64 (3 * 2 ^ 28)]
  else (List.range 8).map fun i => (sectorOf got (pa + 32 * (i / 4))).extractLsb' (64 * (i % 4)) 64

/-- The record that stands first in an enabled queue (R345): a requeued one, or that at HEAD, with its place in memory, which gives its dwords. -/
def State.firstRecord (s : State) (q : Nat) : Option (Cand × Option Nat) :=
  let x := s.launchQueue q
  if x.enable = false then none
  else
    match s.sched.requeued.find? fun c => c.lq == q with
    | some c => some (c, none)
    | none =>
      match x.avail with
      | [] => none
      | (i, age, since) :: _ => some ({ lq := q, dwords := [], age := age, since := since }, some (x.base.toNat + 64 * (i % 2 ^ x.size)))

/-- The sectors of the binding table of a record, and its entries' two dwords (R343). -/
def Cand.table (c : Cand) : List Nat := (List.range ((c.bindCount + 1) / 2)).map fun i => ((c.d 3).toNat + 16 * (2 * i)) / 32 * 32
def Cand.bindings (c : Cand) (got : AMap (Option W256)) : List (W64 × W64) :=
  (List.range c.bindCount).map fun i =>
    let a := (c.d 3).toNat + 16 * i
    let w := sectorOf got (a / 32 * 32)
    (w.extractLsb' (8 * (a % 32)) 64, w.extractLsb' (8 * (a % 32) + 64) 64)

/-- The sectors of an image behind its HEADER, which a record of kind 0 is placed by (R26): none where the HEADER's count is not one. -/
def Cand.imageSectors (c : Cand) (got : AMap (Option W256)) : List Nat :=
  let image := (c.d 1).toNat
  let n := ((sectorOf got image).extractLsb' 160 32).toNat
  if c.kind ≠ 0 ∨ 2 ^ 40 < image + 32 * n then [] else (List.range (n - 1)).map fun i => image + 32 * (i + 1)

/-- What a record at a place in memory is read from, one part after the other, as far as nothing holds it: its own sectors, its binding table and
the HEADER of its image, and the image's other frames. The candidate once all are read, what has been read, and the state. A sector without
data reads as zero. (DEDUCED, log 57) -/
def State.readRecord (s : State) (c : Cand) (at_ : Option Nat) (got : AMap (Option W256)) : Option Cand × AMap (Option W256) × State :=
  match s.readSectors got (at_.toList.flatMap fun pa => [pa, pa + 32]) with
  | (false, got, s) => (none, got, s)
  | (true, got, s) =>
    let c := match at_ with | none => c | some pa => { c with dwords := recordOf got pa }
    match s.readSectors got (c.table ++ if c.kind = 0 then [(c.d 1).toNat] else []) with
    | (false, got, s) => (none, got, s)
    | (true, got, s) =>
      match s.readSectors got (c.imageSectors got) with
      | (false, got, s) => (none, got, s)
      | (true, got, s) => (some { c with binds := c.bindings got, frames := (c.imageSectors got).map (sectorOf got) }, got, s)

/-- A record becomes its queue's candidate (R345) once the scheduler has read it, its bindings and the frames of its image; a sector that is
held is read in a later cycle (21_memory_subsystem.md R365, R370). (DEDUCED, log 11; DEDUCED, log 57) -/
def State.readCandidate (s : State) (q : Nat) : State :=
  let x := s.launchQueue q
  match s.firstRecord q with
  | none => s.setLaunchQueue q { x with held := none, got := [] }
  | some (c, at_) =>
    if x.held.any fun h => h.age == c.age then s
    else
      match s.readRecord c at_ (if x.gotAge = c.age then x.got else []) with
      | (none, got, s) => s.setLaunchQueue q { x with held := none, got := got, gotAge := c.age }
      | (some c, _, s) => s.setLaunchQueue q { x with held := some c, got := [] }

/-- The candidate of a queue (R345), once it is read. -/
def State.candidate (s : State) (q : Nat) : Option Cand :=
  match s.firstRecord q with
  | none => none
  | some (c, _) => (s.launchQueue q).held.filter fun h => h.age == c.age

/-- A record leaves its queue. -/
def State.takeCand (s : State) (c : Cand) : State :=
  let x := s.launchQueue c.lq
  let again := s.sched.requeued.any fun d => d.age == c.age
  let x := if again then x else { x with head := x.head + 1, avail := x.avail.drop 1 }
  (s.setSched { s.sched with requeued := s.sched.requeued.filter fun d => d.age != c.age }).setLaunchQueue c.lq
    { x with held := none, got := [], overdue := false, lastPreempt := 0 }

/-- Ports, entries and stream ids that a record claims. -/
def Cand.claims (c : Cand) : List (Nat × Nat × Nat) :=
  c.binds.flatMap fun b => ((List.range 64).filter b.2.getLsbD).map fun e => ((b.1.extractLsb' 16 7).toNat, e, (b.1.extractLsb' 0 16).toNat)

/-- Is a memory port absent: are all its channels retired (24_fleet_operation.md R396, R398)? (DEDUCED, log 73) -/
def State.portAbsent (s : State) (p : Nat) : Bool := (List.range 4).all fun i => s.conf.channels.contains (4 * p + i)

/-- Does a record break its layout (status 0x01)? (DEDUCED, log 57) -/
def Cand.malformed (c : Cand) : Bool :=
  let n := c.bindCount
  let a := (c.d 3).toNat
  let image := (c.d 1).toNat
  c.field 0 0 16 != 0 || c.field 0 34 2 == 3 || c.field 0 32 2 == 3 || c.kind == 3 || c.field 4 55 9 != 0 || c.field 4 29 3 != 0 ||
  c.field 4 0 17 % 16 != 0 ||
  (if c.kind = 2 then image != 0 else image % 32 != 0 || decide (2 ^ 40 ≤ image)) ||
  decide (64 < n) || a % 16 != 0 || decide (2 ^ 40 < a + 16 * n) || (n == 0 && a != 0) ||
  c.field 7 40 8 != 0 || c.field 7 0 11 != 0 ||
  c.binds.any fun b => b.1.extractLsb' 23 41 != 0#41 || b.1.extractLsb' 0 16 == 0#16

/-! ## Rectangles (24_fleet_operation.md R401) -/

/-- Tiles that meet a class on a row, as bits. -/
def State.rowBits (s : State) (cls y : Nat) : Nat :=
  (List.range 48).foldl (fun m x => if s.present (y * 48 + x) && decide (s.conf.classes.get 0 (y * 48 + x) ≤ cls) then m + 2 ^ x else m) 0

/-- Does a rectangle span a failed edge (R399)? (DEDUCED, log 73) -/
def State.spansFailed (s : State) (x0 x1 y0 y1 : Nat) : Bool :=
  let f (e : Nat) : Bool := s.conf.edgeFailed.contains e
  let v := decide (x0 < 24 ∧ 24 ≤ x1)
  let h := decide (y0 < 20 ∧ 20 ≤ y1)
  (f 0 && v && decide (y0 < 20)) || (f 1 && v && decide (20 ≤ y1)) || (f 2 && h && decide (x0 < 24)) || (f 3 && h && decide (24 ≤ x1))

/-- Is a rectangle one of present tiles of the class that a region may cover, given the rows' bits? (DEDUCED, log 73) -/
def State.rectOk (s : State) (rows : List Nat) (x0 x1 y0 y1 : Nat) : Bool :=
  let m := 2 ^ (x1 + 1) - 2 ^ x0
  ((rows.drop y0).take (y1 + 1 - y0)).all (fun b => b &&& m == m) && !s.spansFailed x0 x1 y0 y1

/-- The runs of columns that rows y0 to y1 allow, widest first from each left end. -/
def State.runs (s : State) (rows : List Nat) (y0 y1 : Nat) : List (Nat × Nat) :=
  let ok (x0 x1 : Nat) : Bool := s.rectOk rows x0 x1 y0 y1
  let ends := (List.range 48).foldl (fun (acc : List (Nat × Nat)) x =>
    match acc with
    | (a, b) :: r => if b + 1 = x ∧ ok a x = true then (a, x) :: r else if ok x x then (x, x) :: acc else acc
    | [] => if ok x x then [(x, x)] else []) []
  ends.reverse

/-- The maximal rectangles of a class, as columns and rows. -/
def State.maximal (s : State) (cls : Nat) : List (Nat × Nat × Nat × Nat) :=
  let rows := (List.range 40).map (s.rowBits cls)
  (List.range 40).flatMap fun y0 =>
    ((List.range (40 - y0)).map fun i => y0 + i).flatMap fun y1 =>
      ((s.runs rows y0 y1).filter fun r =>
        (y0 = 0 ∨ s.rectOk rows r.1 r.2 (y0 - 1) y1 = false) ∧ (y1 = 39 ∨ s.rectOk rows r.1 r.2 y0 (y1 + 1) = false)).map fun r =>
          (r.1, r.2, y0, y1)

/-- Does a shape fit into a rectangle of the class (R401, R349 status 0x03)? -/
def State.shapeFits (s : State) (c : Cand) : Bool :=
  (s.maximal c.cls).any fun r => decide (c.size.1 ≤ r.2.1 + 1 - r.1) && decide (c.size.2 ≤ r.2.2.2 + 1 - r.2.2.1)

/-- The status that a record gets when it becomes a candidate (R349): 0 if it may be placed. -/
def State.verdict (s : State) (c : Cand) : Nat :=
  if c.malformed then 1
  else if c.kind ≠ 0 then 0
  else if (c.fold ≠ 1 ∧ c.width % 2 = 1) ∨ (c.fold = 4 ∧ c.height % 2 = 1) then 2
  else
    let cl := c.claims
    if s.shapeFits c = false ∨ (c.binds.any fun b => s.portAbsent (b.1.extractLsb' 16 7).toNat) ∨
        (cl.any fun e => decide (48 < (uniq ((cl.filter fun f => f.1 == e.1).map fun f => f.2.1)).length)) then 3
    else 0

/-! ## Placement (R26, R27) -/

/-- What an image claims on a tile (R26): a bank, a template, a weight slot, an accumulator slice, or barriers of a core from an index on. -/
inductive Claim where
  | bank (n : Nat)
  | template (n : Nat)
  | slot (n : Nat)
  | slice (n : Nat)
  | bars (q base count : Nat)
  deriving DecidableEq, Repr

/-- What a frame claims on each tile it selects. -/
def claimsOf (w : W256) : List Claim :=
  let f (lo n : Nat) : Nat := (w.extractLsb' lo n).toNat
  match decodeFrame w with
  | some .bankClaim =>
    if f 210 2 = 3 then ((List.range 4).filter fun q => w.getLsbD (240 + q)).map fun q => .bars q (f 190 10) (f 179 11) else [.bank (f 212 3)]
  | some .template => [.template (f 212 4)]
  | some .matrix => if w.getLsbD 215 then [.slice (f 212 3)] else (slotsOf (w.getLsbD 211) (f 212 3)).map .slot
  | _ => []

/-- Does a frame select a virtual tile? -/
def selects (w : W256) (vx vy : Nat) : Bool :=
  let f (lo : Nat) : Nat := (w.extractLsb' lo 6).toNat
  decide (f 234 ≤ vx) && decide (vx ≤ f 228) && decide (f 222 ≤ vy) && decide (vy ≤ f 216)

/-- What a residency's image claims on a tile of its region. -/
def Residency.claimsOn (r : Residency) (t : Nat) : List Claim :=
  (List.range r.fold).flatMap fun k =>
    let v := r.virtualOf t k
    (r.cand.frames.filter fun w => selects w v.1 v.2).flatMap claimsOf

/-- Do two claims on one tile meet? -/
def Claim.meets (a b : Claim) : Bool :=
  match a, b with
  | .bars q i n, .bars p j m => q == p && decide (i < j + m) && decide (j < i + n)
  | _, _ => a == b

/-- Does a residency own what is claimed on a tile? One that loads owns what its image claims from its placement on. (DEDUCED, log 57) -/
def State.claimTaken (s : State) (t : Nat) (k : Claim) : Bool :=
  (match k with
  | .bank n => (s.bank t n).owner.isSome
  | .template n => ((s.tile t).template n).owner.isSome
  | .slot n => ((s.node t).slot n).owner.isSome
  | .slice n => (s.node t).sliceOwner.any fun e => e.1 == n
  | .bars q base count => (List.range 4).any fun b =>
    (s.ctx ((t * 4 + q) * 4 + b)).bars.any fun x => decide (base < x.1 + x.2) && decide (x.1 < base + count)) ||
  s.sched.res.any fun r => r.state == .loading && (s.regionTiles r).contains t && (r.claimsOn t).any k.meets

/-- A residency as it would stand at an origin with context banks. -/
def Cand.at_ (c : Cand) (num x y : Nat) (banks : List Nat) : Residency :=
  { num := num, cand := c, x := x, y := y, w := c.size.1, h := c.size.2, fold := c.fold, banks := banks }

/-- The context banks that a record gets at an origin, if it can be placed there (R26, R27). -/
def State.banksAt (s : State) (c : Cand) (o : Nat) : Option (List Nat) :=
  let x := colOf o
  let y := rowOf o
  let r := c.at_ 0 x y []
  let ts := (List.range (r.w * r.h)).map fun i => (y + i / r.w) * 48 + x + i % r.w
  if 48 < x + r.w ∨ 40 < y + r.h then none
  else if s.spansFailed x (x + r.w - 1) y (y + r.h - 1) then none
  else if ts.all (fun t => s.present t && decide (s.conf.classes.get 0 t ≤ c.cls) && !s.conf.fenced.contains t) = false then none
  else
    let free := (List.range 4).filter fun b => ts.all fun t => (s.bankResid t b).isNone
    let clear := ts.all fun t => (r.claimsOn t).all fun k => !s.claimTaken t k
    if free.length < c.fold ∨ clear = false then none else some (free.take c.fold)

/-- Are the slot-table entries that a record claims free, with no port above 48 (R343, R161)? -/
def State.bindingsFree (s : State) (c : Cand) : Bool :=
  let cl := c.claims
  cl.all fun e =>
    let used := ((s.port e.1).slots.filter fun x => x.2 != 0).map Prod.fst
    !used.contains e.2.1 && decide ((uniq (used ++ (cl.filter fun f => f.1 == e.1).map fun f => f.2.1)).length ≤ 48)

/-- The first origin at which a record can be placed, in ascending tile number; a replay record is tried at its pinned origin only (R26,
R345). -/
def State.fit (s : State) (c : Cand) : Option (Nat × List Nat) :=
  if s.bindingsFree c = false then none
  else
    let origins := if (c.d 0).getLsbD 27 then [c.field 4 17 12] else List.range 1920
    origins.findSome? fun o => if o < 1920 then (s.banksAt c o).map fun b => (o, b) else none

/-- What taking a candidate now would be: where it goes, or nothing yet. -/
def State.takes (s : State) (c : Cand) : Option (Nat × List Nat) :=
  if c.kind = 0 then
    if s.deviceError ∨ s.recovery ∨ 4 ≤ s.sched.loads.length then none else s.fit c
  else if c.kind = 1 ∧ 4 ≤ s.sched.loads.length then none
  else some (0, [])

/-- Insert into a list in the scheduler's order (R345 step 3): priority, highest first, then age, oldest first. -/
def insertCand (y : Nat × Cand) : List (Nat × Cand) → List (Nat × Cand)
  | [] => [y]
  | z :: l => if z.1 < y.1 ∨ (z.1 = y.1 ∧ y.2.age < z.2.age) then y :: z :: l else z :: insertCand y l

/-- The priority of a candidate: that of its queue, or the original one of a record that was requeued (02_execution_model.md R49). -/
def State.candPrio (s : State) (c : Cand) : Nat := c.prio.getD (s.launchQueue c.lq).prio

/-- Is a queue's candidate overdue in this cycle (R345 step 1)? -/
def State.isOverdue (s : State) (q : Nat) : Bool :=
  let x := s.launchQueue q
  (s.candidate q).any fun c => decide (x.starve ≠ 0) && decide (c.since + x.starve * 1024 ≤ s.cycle)

/-- A queue marks whether its candidate is overdue. -/
def State.markOverdue (s : State) (q : Nat) : State := s.setLaunchQueue q { s.launchQueue q with overdue := s.isOverdue q }

/-- The candidates considered, in order (R345 steps 1 to 3). (DEDUCED, log 57) -/
def State.considered (s : State) : List Cand :=
  let all := (List.range 16).filterMap s.candidate
  let late := all.filter fun c => (s.launchQueue c.lq).overdue
  ((if late = [] then all else late).foldl (fun l c => insertCand (s.candPrio c, c) l) []).map Prod.snd

/-- Complete the records that are found wanting as they become candidates (R349), while the buffer of event records has room (R348).
(DEDUCED, log 57) -/
def State.reject (s : State) : State :=
  (List.range 16).foldl (fun s q =>
    match s.candidate q with
    | none => s
    | some c => if s.verdict c = 0 ∨ s.bufferFull = true then s else (s.takeCand c).completion c (s.verdict c) 0 c.last 0 0) s

/-- The scheduler's look at its queues: what stands first in each becomes the candidate, is rejected if found wanting, and marked if it is
overdue. -/
def State.look (s : State) : State :=
  let queues := s.sched.lq.map Prod.fst
  queues.foldl State.markOverdue ((queues.foldl State.readCandidate s).reject)

/-- `SCHEDULER_PLACEMENT`: the first candidate considered that can be placed leaves its queue, at most one every 16 cycles; none while the
buffer of event records is full (R345, R348). -/
def execSchedulerPlacement (s : State) : Host.Outcome State Fault Refusal :=
  .next
    (if s.booted = false ∨ s.bufferFull = true ∨ s.sched.picked.isSome then s
    else
      let s := s.look
      let early := match s.sched.lastPlace with | none => false | some c => decide (s.cycle < c + 16)
      if early || s.bufferFull then s
      else
        match s.considered.findSome? fun c => if s.verdict c = 0 then (s.takes c).map fun p => (c, p) else none with
        | none => s
        | some (c, o, banks) =>
          let s := s.takeCand c
          s.setSched { s.sched with picked := some (c, colOf o, rowOf o, banks), lastPlace := some s.cycle })

/-- `CANDIDATE_OVERDUE`: the queue that the place names marks whether its candidate has been available for STARVE·1,024 cycles (R345).
(DEDUCED, log 57) -/
def execCandidateOverdue (s : State) : Host.Outcome State Fault Refusal :=
  .next (s.markOverdue s.cur.n)

/-- The youngest uncommitted residency of a priority below one: the one whose record is youngest (R346, R341). (DEDUCED, log 57) -/
def State.youngest (s : State) (prio : Nat) : Option Residency :=
  match s.sched.res.filter fun r => r.state == .uncommitted && decide (r.prio < prio) with
  | [] => none
  | r :: l => some (l.foldl (fun a b => if a.cand.age < b.cand.age then b else a) r)

/-- `PREEMPT_DISCARD`: for the overdue candidate of the queue that the place names, which cannot be placed, the youngest uncommitted
residency of lower priority is discarded, again after 4,096 cycles (R346). -/
def execPreemptDiscard (s : State) : Host.Outcome State Fault Refusal :=
  .next
    (let x := s.launchQueue s.cur.n
    match s.candidate s.cur.n with
    | none => s
    | some c =>
      if s.isOverdue s.cur.n = false ∨ x.preempt = false ∨ c.kind ≠ 0 ∨ s.verdict c ≠ 0 ∨
          (x.lastPreempt ≠ 0 ∧ s.cycle < x.lastPreempt + 4096) ∨ (s.fit c).isSome = true then s
      else
        match s.youngest (s.candPrio c) with
        | none => s
        | some r => (s.setLaunchQueue s.cur.n { x with lastPreempt := s.cycle }).decideDiscard r 1)

/-! ## What taking a record does (R345, R347) -/

/-- A residency number that is free, not 0 and not that of the last placement: the device's choice (R32, R49). (DESIGN CHOICE, log 8) -/
def freshNumber (used : List Nat) (k : Nat) : Nat :=
  if used.contains k = false then k else ((List.range (used.length + 1)).find? fun j => !used.contains j).getD 0

/-- The lanes of a region have their credits (04_static_network.md R72, R87), and words that wait at its ports go. -/
def State.openLanes (s : State) (r : Residency) : State :=
  (s.places r).foldl (fun s p =>
    let x := s.xbar (p.1 * 4 + p.2)
    let c := (List.range 4).filterMap fun d => (s.neighbour p.1 p.2 d).map fun n => (d, lanesCredits n.2.2)
    s.setXbar (p.1 * 4 + p.2) { flight := x.flight, credits := c }) s

/-- The slot-table entries of a record are written (R343). -/
def State.bind (s : State) (l : List (Nat × Nat × Nat)) : State :=
  l.foldl (fun s e => s.setPort e.1 { s.port e.1 with slots := (s.port e.1).slots.set e.2.1 e.2.2 }) s

/-- A new load (R306). -/
def State.newLoad (s : State) (r : Nat) (shadow : Bool) (c : Cand) : State :=
  s.setSched { s.sched with
    jobCount := s.sched.jobCount + 1
    loads := s.sched.loads ++ [{ id := s.sched.jobCount, resid := r, shadow := shadow, cand := c, image := (c.d 1).toNat }] }

/-- The run that a record with the replay bit replays (R391): the first of its host tag in the capture that is bound to that, read as far as
nothing holds it and once what capture has still to write is there. No answer while it is read; no run for a record that replays nothing.
(DESIGN CHOICE, log 41) -/
def State.readRun (s : State) (c : Cand) : Option (Option (Bool × List (Nat × W256))) × State :=
  match (s.mgmt.replay.find? fun e => e.1 == c.tag).filter fun _ => (c.d 0).getLsbD 27 with
  | none => (some none, s)
  | some (_, a, n) =>
    let keep (got : AMap (Option W256)) (s : State) : State := s.setSched { s.sched with got := got }
    if s.mgmt.captWrites ≠ [] then (none, s)
    else
      match s.readSectors s.sched.got [a] with
      | (false, got, s) => (none, keep got s)
      | (true, got, s) =>
        let l := captSectors a n (sectorOf got a)
        match s.readSectors got l with
        | (false, got, s) => (none, keep got s)
        | (true, got, s) =>
          (some (some (runOf (BitVec.ofNat 64 c.tag) ((List.range l.length).zip (l.map (sectorOf got))))), keep [] s)

/-- The run of a residency that has taken its region begins: its first entry goes to its capture buffer (R390), and a run that a full buffer
has cut is not replayed: its replay diverges at once (R392). (DESIGN CHOICE, log 41) -/
def State.beginRun (s : State) (n : Nat) (cut : Bool) : State :=
  match s.findRes n with
  | none => s
  | some r =>
    let s := s.capture n ⟨captHead 1 0 r.rootTile, BitVec.ofNat 64 r.cand.tag, BitVec.ofNat 64 n, 0⟩
    let r := { r with captAt := match (s.captureOf n).filter fun k => !k.full with | none => 0 | some k => k.used }
    let s := s.setRes r
    if cut then
      (s.post ⟨r.cand.queue, eventWord 0x36 5 n 0 0 0 0, 0, BitVec.ofNat 64 r.cand.tag⟩).decideFault r 8 (r.eventHead 0x10 8 0) 0 0
    else s

/-- A residency takes its region (R26, R27): its contexts are placed, its lanes open, its slot-table entries written, and its image begins
to load. -/
def State.place (s : State) (c : Cand) (x y : Nat) (banks : List Nat) (run : Option (Bool × List (Nat × W256))) : State :=
  let n := freshNumber (0 :: c.last :: s.sched.res.map Residency.num) (Config.residencyNumber s.free).toNat
  let cl := c.claims
  let cap := (s.mgmt.captures.find? fun k => k.lq == c.lq && !k.full).map Capture.addr
  let r : Residency := { c.at_ n x y banks with
    prio := s.candPrio c, binds := cl.map fun e => (e.1, e.2.1), capture := cap, replay := run.map Prod.snd }
  let s := { s with free := s.free + 1, sched := { s.sched with res := s.sched.res ++ [r] } }
  let s := (s.regionTiles r).foldl (fun s t =>
    (List.range (s.coresOn t)).foldl (fun s q =>
      (List.range banks.length).foldl (fun s k =>
        s.setCtx ((t * 4 + q) * 4 + banks.getD k 0) { run := .placed, resid := some n, fold := k }) s) s) s
  let s := { s with ctxErrors := s.ctxErrors.filter fun k => (s.ctx k).resid != some n }
  (((s.openLanes r).bind cl).newLoad n false c).beginRun n (run.any Prod.fst)

def State.unpick (s : State) : State := s.setSched { s.sched with picked := none }

/-- `LAUNCH`: the record of kind 0 that the scheduler has picked is placed and begins to load (R345, R26), once the run that it replays is
read (R391) and while the buffer of event records has room (R348). -/
def execLaunch (s : State) : Host.Outcome State Fault Refusal :=
  .next
    (match s.sched.picked with
    | none => s
    | some (c, x, y, banks) =>
      if c.kind ≠ 0 ∨ s.bufferFull = true then s
      else
        match s.readRun c with
        | (none, s) => s
        | (some run, s) => s.unpick.place c x y banks run)

/-- `SHADOW_LOAD`: the record of kind 1 that the scheduler has picked begins to load for a live residency, or completes with status 0x09
(R347). (DEDUCED, log 54) -/
def execShadowLoad (s : State) : Host.Outcome State Fault Refusal :=
  .next
    (match s.sched.picked with
    | none => s
    | some (c, _, _, _) =>
      if c.kind ≠ 1 then s
      else
        match (s.findRes c.target).filter Residency.running with
        | none => s.unpick.completion c 9 0 0 0 0
        | some r => s.unpick.newLoad r.num true c)

/-- `STOP`: the record of kind 2 that the scheduler has picked discards an uncommitted residency or faults a committed one (R347). (DEDUCED,
log 54) -/
def execStop (s : State) : Host.Outcome State Fault Refusal :=
  .next
    (match s.sched.picked with
    | none => s
    | some (c, _, _, _) =>
      if c.kind ≠ 2 then s
      else
        match (s.findRes c.target).filter Residency.running with
        | none => s.unpick.completion c 9 0 0 0 0
        | some r =>
          let s := s.unpick
          (if r.state = .committed then s.decideFault r 6 (r.eventHead 0x10 6 0) 0 0 else s.decideDiscard r 3).completion c 0 0 0 0 0)

/-! ## Event records (R348) -/

def State.eventQueue (s : State) (e : Nat) : EventQueue := s.sched.eq.get {} e
def State.setEventQueue (s : State) (e : Nat) (x : EventQueue) : State := s.setSched { s.sched with eq := s.sched.eq.set e x }

/-- Is a vector masked: bit 0 of its control dword, which is 1 at reset (R339)? (PRESUMED, log 71) -/
def HostIf.masked (h : HostIf) (v : Nat) : Bool := (h.msixTable.get (BitVec.twoPow 64 32) (2 * v + 1)).getLsbD 32

/-- A vector is signalled, or pending while it is masked (R339, R348). (PRESUMED, log 71) -/
def HostIf.raise (h : HostIf) (v : Nat) : HostIf :=
  if h.masked v then { h with pba := h.pba ||| BitVec.twoPow 32 v } else { h with msix := h.msix ++ [v] }

/-- The pending vectors that are masked no more are signalled (R339). (PRESUMED, log 71) -/
def HostIf.deliver (h : HostIf) : HostIf :=
  let l := (List.range 32).filter fun v => h.pba.getLsbD v && !h.masked v
  { h with msix := h.msix ++ l, pba := l.foldl (fun p v => p &&& ~~~(BitVec.twoPow 32 v)) h.pba }

/-- Can a queue's ring take a record? -/
def EventQueue.room (x : EventQueue) : Bool := x.enable && decide ((x.posted - x.consumed).toNat < 2 ^ x.size)

/-- Kinds whose events are dropped and counted while the scheduler's buffer is full; the others wait (22_faults_discard.md R375). -/
def rateKind (kind : Nat) : Bool := decide (0x11 ≤ kind ∧ kind ≤ 0x15)

/-- The oldest event of a tile that reaches the scheduler enters its buffer, for the completion queue of the residency it names; with the
buffer full, one of kinds 0x11 to 0x15 is suppressed and counted in its tile's next, and another waits (22_faults_discard.md R375).
(DEDUCED, log 31) -/
def State.takeEvent (s : State) : State :=
  match s.arrived 4097 isEvent with
  | none => s
  | some p =>
    let w := p.pay.headD 0
    let d0 := w.extractLsb' 192 64
    let kind := (d0.extractLsb' 56 8).toNat
    if s.bufferFull = false then
      (s.takeArrived 4097 isEvent).post ⟨if p.h.op = 1 then s.queueOf p.h.resid else 0, d0, w.extractLsb' 128 64, w.extractLsb' 64 64⟩
    else if rateKind kind then
      let x := s.tile p.h.stile
      let v := x.rates.get ⟨0, 0⟩ kind
      (s.takeArrived 4097 isEvent).setTile p.h.stile { x with
        rates := x.rates.set kind ⟨v.last, v.suppressed + 1 + (w.extractLsb' 64 64).toNat⟩ }
    else s

/-- `EVENT_RECORD_POST`: at place 1 the oldest event of a tile enters the scheduler's buffer; at place 0 the oldest record whose ring has room
and can be written is written with its sequence and phase, and signalled (R348, R349). (DEDUCED, log 11) -/
def execEventRecordPost (s : State) : Host.Outcome State Fault Refusal :=
  .next
    (let ok (e : EventRec) : Bool := (s.eventQueue e.queue).room
    if s.cur.n = 1 then s.takeEvent
    else
      match s.sched.buffer.find? ok with
      | none => s
      | some e =>
        let x := s.eventQueue e.queue
        let n := x.posted.toNat
        let phase := if n / 2 ^ x.size % 2 = 0 then 1 else 0
        let v := e.d0.toNat + e.d1.toNat * 2 ^ 64 + e.d2.toNat * 2 ^ 128 + (n * 2 ^ 32 + phase) * 2 ^ 192
        let pa := x.base.toNat + 32 * (n % 2 ^ x.size)
        match s.physWrite pa 32 v with
        | (false, s) => s
        | (true, s) =>
          let s := s.setSched { s.sched with buffer := s.sched.buffer.eraseP ok }
          let signal := x.irq && !x.signalled
          let s := s.setEventQueue e.queue { x with posted := x.posted + 1, signalled := x.signalled || signal }
          if signal then { s with host := s.host.raise x.vector } else s)

end Sys2Proof.Machine
end

