-- ==== Sys2Proof/Machine/HostIf.lean ====
section
/-! DEFINITION. The host's writes to BAR0 (20_host_launch.md R339 to R341, R348, R350, R352, R407; 23_management.md R386). -/

namespace Sys2Proof.Machine

/-! ## Signals and launch queues (R340, R341) -/

/-- Signal a queue's vector, if its interrupts are enabled (R340). (PRESUMED, log 71) -/
def State.signalQueue0 (s : State) : State :=
  if (s.eventQueue 0).irq then { s with host := s.host.raise (s.eventQueue 0).vector } else s

/-- A queue error disables the queue and sets STATUS (R340). (DEDUCED, log 57) -/
def State.queueError (s : State) (q code : Nat) : State :=
  (s.setLaunchQueue q { s.launchQueue q with enable := false, err := true, code := code }).signalQueue0

/-- A doorbell sets TAIL and makes records available in index order, or raises a queue error (R341). (DEDUCED, log 57) -/
def State.ringDoorbell (s : State) (q : Nat) (v : BitVec 32) : State :=
  let x := s.launchQueue q
  let ahead := (v - x.head).toNat
  let old := (x.tail - x.head).toNat
  if ahead < old then s.queueError q 1
  else if 2 ^ x.size < ahead then s.queueError q 2
  else
    let n := ahead - old
    let new := (List.range n).map fun i => ((x.tail + BitVec.ofNat 32 i).toNat, s.sched.ageCount + i, s.cycle)
    (s.setSched { s.sched with ageCount := s.sched.ageCount + n }).setLaunchQueue q { x with tail := v, avail := x.avail ++ new }

/-- May a queue's ring be enabled: within DRAM, with 2^4 to 2^16 entries of a size? (DEDUCED, log 57) -/
def ringOk (base : W64) (size entry : Nat) : Bool :=
  decide (4 ≤ size) && decide (size ≤ 16) && decide (base.toNat + entry * 2 ^ size ≤ 2 ^ 40)

/-- A write of a launch queue's CTRL (R340, R353). -/
def State.launchCtrl (s : State) (q : Nat) (v : BitVec 32) : State :=
  let x := s.launchQueue q
  let y : LaunchQueue := { x with
    prio := (v.extractLsb' 1 2).toNat, preempt := v.getLsbD 3, starve := (v.extractLsb' 8 24).toNat }
  if v.getLsbD 0 = false then s.setLaunchQueue q { y with enable := false }
  else
    let y : LaunchQueue := if x.err then { y with head := 0, tail := 0, avail := [] } else y
    let y : LaunchQueue := { y with err := false, code := 0 }
    if ringOk x.base x.size 64 then s.setLaunchQueue q { y with enable := true } else (s.setLaunchQueue q y).queueError q 3

/-- `DOORBELL` (R341). -/
def execDoorbell (q : BitVec 4) (v : BitVec 32) (s : State) : Host.Outcome State Fault Refusal := .next (s.ringDoorbell q.toNat v)

/-- `LAUNCH_QUEUE_ENABLE`: a write of CTRL with enable set (R340). -/
def execLaunchQueueEnable (q : BitVec 4) (v : BitVec 32) (s : State) : Host.Outcome State Fault Refusal :=
  .next (s.launchCtrl q.toNat (v ||| 1#32))

/-- `LAUNCH_QUEUE_DISABLE`: a write of CTRL with enable clear (R353). -/
def execLaunchQueueDisable (q : BitVec 4) (v : BitVec 32) (s : State) : Host.Outcome State Fault Refusal :=
  .next (s.launchCtrl q.toNat (v &&& ~~~1#32))

/-! ## Event queues (R348) -/

/-- A write of an event queue's CTRL: enabling a ring that is not aligned, not within DRAM or of a wrong size leaves it disabled. -/
def State.eventCtrl (s : State) (e : Nat) (v : BitVec 32) : State :=
  let x := s.eventQueue e
  s.setEventQueue e { x with
    enable := v.getLsbD 0 && ringOk x.base x.size 32 && decide (x.base.toNat % 32 = 0)
    irq := v.getLsbD 1, vector := (v.extractLsb' 8 5).toNat }

/-- A write of CONSUMED frees room and arms the signal again. -/
def State.writeConsumed (s : State) (e : Nat) (v : BitVec 32) : State :=
  s.setEventQueue e { s.eventQueue e with consumed := v, signalled := false }

/-- `EVENT_QUEUE_ENABLE` (R348). -/
def execEventQueueEnable (e : BitVec 4) (v : BitVec 32) (s : State) : Host.Outcome State Fault Refusal :=
  .next (s.eventCtrl e.toNat (v ||| 1#32))

/-- `EVENT_QUEUE_DISABLE` (R348). -/
def execEventQueueDisable (e : BitVec 4) (v : BitVec 32) (s : State) : Host.Outcome State Fault Refusal :=
  .next (s.eventCtrl e.toNat (v &&& ~~~1#32))

/-- `CONSUMED_WRITE` (R348). -/
def execConsumedWrite (e : BitVec 4) (v : BitVec 32) (s : State) : Host.Outcome State Fault Refusal := .next (s.writeConsumed e.toNat v)

/-! ## DEVNUM and ROUTE (R352, R407) -/

/-- Is any residency live? -/
def State.anyLive (s : State) : Bool := s.sched.res != []

def State.writeDevnum (s : State) (v : BitVec 8) : State :=
  if s.anyLive = true ∨ v = 255#8 then s else { s with host := { s.host with devnum := v } }

def State.writeRoute (s : State) (d : Nat) (v : BitVec 8) : State :=
  if s.anyLive then s else { s with host := { s.host with route := s.host.route.set d v } }

/-- `DEVNUM_WRITE` (R352). -/
def execDevnumWrite (v : BitVec 8) (s : State) : Host.Outcome State Fault Refusal := .next (s.writeDevnum v)

/-- `ROUTE_WRITE` (R352). -/
def execRouteWrite (dev v : BitVec 8) (s : State) : Host.Outcome State Fault Refusal := .next (s.writeRoute dev.toNat v)

/-! ## Injection (R350) -/

/-- `INJECTION_SUBMIT`: a write of a window's submit register (R350). -/
def execInjectionSubmit (w v : BitVec 4) (s : State) : Host.Outcome State Fault Refusal := .next (s.submit w.toNat v.toNat)

/-! ## The mailbox's registers (R386) -/

/-- The codes of the mailbox, and those that recovery accepts (R383). (DESIGN CHOICE, log 13) -/
def mailboxCodes : List Nat := [1, 2, 3, 4, 5, 0x10, 0x11, 0x12, 0x20, 0x21, 0x30]

/-- The code of the command that runs: COMMAND is taken at GO. -/
def State.mailboxCode (s : State) : Nat := (s.host.running.extractLsb' 48 16).toNat
def State.mailboxBusy (s : State) : Bool := s.host.status.extractLsb' 0 2 == 1#2

/-- A command is done: STATUS with its error, and event 0x30 when event queue 0 has interrupts enabled. (PRESUMED, log 71) -/
def State.mailboxDone (s : State) (err : Nat) : State :=
  let st : W64 := s.host.running.extractLsb' 0 32 ++ 0#16 ++ BitVec.ofNat 8 err ++ 2#8
  let s := { s with host := { s.host with status := st } }
  if (s.eventQueue 0).irq then s.mgmtEvent 0x30 0 s.mailboxCode st 0 else s

/-- GO: COMMAND is taken and begins unless one is busy; an unknown code, or one that recovery does not accept, is done at once with error
0xFF. (DESIGN CHOICE, log 13) -/
def State.go (s : State) : State :=
  if s.mailboxBusy then s
  else
    let s := { s with host := { s.host with running := s.host.command } }
    if mailboxCodes.contains s.mailboxCode = false ∨ (s.recovery = true ∧ s.mailboxCode ≠ 0x11) then s.mailboxDone 0xFF
    else { s with host := { s.host with status := s.host.running.extractLsb' 0 32 ++ 1#32 } }

/-! ## BAR0 (R339) -/

/-- A register of `n` bytes after a write of some of its bytes from one of them on. -/
def merged (old : W64) (o n : Nat) (v : W64) : W64 :=
  let m : W64 := BitVec.ofNat 64 ((2 ^ (8 * n) - 1) * 2 ^ (8 * o))
  (old &&& ~~~m) ||| ((v <<< (8 * o)) &&& m)

/-- A write of up to four bytes within a launch queue's registers. -/
def State.launchRegister (s : State) (q o n : Nat) (v : W64) : State :=
  let x := s.launchQueue q
  if o < 8 then
    if x.enable then s else s.setLaunchQueue q { x with base := merged x.base o n v &&& 0x1FFFFFFFFC0#64 }
  else if o < 12 then
    if x.enable then s else s.setLaunchQueue q { x with size := (merged (BitVec.ofNat 64 x.size) (o - 8) n v).toNat % 32 }
  else if o = 12 then s.launchCtrl q (v.setWidth 32)
  else s

/-- A write of up to four bytes within an event queue's registers; SIZE keeps bits 4:0 alone, as a launch queue's does (R340). (DESIGN CHOICE,
log 72) -/
def State.eventRegister (s : State) (e o n : Nat) (v : W64) : State :=
  let x := s.eventQueue e
  if o < 8 then (if x.enable then s else s.setEventQueue e { x with base := merged x.base o n v })
  else if o < 12 then
    if x.enable then s else s.setEventQueue e { x with size := (merged (BitVec.ofNat 64 x.size) (o - 8) n v).toNat % 32 }
  else if o = 12 then s.eventCtrl e (v.setWidth 32)
  else if o = 0x14 then s.writeConsumed e (v.setWidth 32)
  else s

/-- A write within an injection window's page. -/
def State.windowRegister (s : State) (w o n : Nat) (v : W64) : State :=
  let x := s.host.windows.get {} w
  let put (x : Window) : State := { s with host := { s.host with windows := s.host.windows.set w x } }
  if o < 8 then put { x with target := merged x.target o n v }
  else if o < 16 then put { x with a0 := merged x.a0 (o - 8) n v }
  else if o < 24 then put { x with a1 := merged x.a1 (o - 16) n v }
  else if o = 24 then s.submit w (v.toNat % 16)
  else s

/-- A table of dwords after a write of some bytes at an offset. -/
def tablePut (m : AMap W64) (o n : Nat) (v : W64) : AMap W64 := m.set (o / 8) (merged (m.get 0 (o / 8)) (o % 8) n v)

/-- The MSI-X table after a write of some bytes: 32 entries of 16 bytes, each with its mask set at reset. (PRESUMED, log 71) -/
def HostIf.msixWrite (h : HostIf) (o n : Nat) (v : W64) : AMap W64 :=
  let i := o / 8
  h.msixTable.set i (merged (h.msixTable.get (if i % 2 = 1 then BitVec.twoPow 64 32 else 0) i) (o % 8) n v)

/-- A write of up to eight bytes within one dword of BAR0: registers, tables and buffers; anything else is ignored (R7, R339). Of the 16 KiB
of the MSI-X table and pending bits, the first 512 bytes are the table, written and read as they stand, the dword at 0x2000 the pending
bits, which a write leaves, and the rest is ignored and reads as zero. (DESIGN CHOICE, log 72; PRESUMED, log 71) -/
def State.barWrite (s : State) (off n : Nat) (v : W64) : State :=
  let h := s.host
  if off < 0x1000 then (if off = 0x10 then s.writeDevnum (v.setWidth 8) else s)
  else if off < 0x1400 then s.launchRegister ((off - 0x1000) / 64) (off % 64) n v
  else if 0x2000 ≤ off ∧ off < 0x2400 then s.eventRegister ((off - 0x2000) / 64) (off % 64) n v
  else if 0x3000 ≤ off ∧ off < 0x3100 then
    (List.range n).foldl (fun s i => s.writeRoute (off - 0x3000 + i) (v.extractLsb' (8 * i) 8)) s
  else if 0x10000 ≤ off ∧ off < 0x20000 then
    if off % 0x1000 = 0 then s.ringDoorbell ((off - 0x10000) / 0x1000) (v.setWidth 32) else s
  else if 0x20000 ≤ off ∧ off < 0x30000 then s.windowRegister ((off - 0x20000) / 0x1000) (off % 0x1000) n v
  else if 0x30000 ≤ off ∧ off < 0x30200 then { s with host := { h with msixTable := s.host.msixWrite (off - 0x30000) n v }.deliver }
  else if 0x100000 ≤ off ∧ off < 0x140000 then { s with host := { h with cmdBuf := tablePut h.cmdBuf (off - 0x100000) n v } }
  else if 0x1FF000 ≤ off ∧ off < 0x1FF008 then { s with host := { h with command := merged h.command (off % 8) n v } }
  else if 0x1FF008 ≤ off ∧ off < 0x1FF010 then s.go
  else s

/-- Does an offset hold 32-bit registers, so that a write of eight bytes is two of four? -/
def narrow (off : Nat) : Bool :=
  (decide (0x1000 ≤ off ∧ off < 0x1400) || decide (0x2000 ≤ off ∧ off < 0x2400)) && decide (8 ≤ off % 64)

/-- `HOST_REGISTER_WRITE`: a host's write of 1 to 8 bytes to BAR0, within one dword (R339). -/
def execHostRegisterWrite (off : BitVec 21) (size : BitVec 4) (v : BitVec 64) (s : State) : Host.Outcome State Fault Refusal :=
  .next
    (let o := off.toNat
    let n := min size.toNat (8 - o % 8)
    if n = 0 then s
    else if narrow o = true ∧ 4 < n then (s.barWrite o 4 v).barWrite (o + 4) (n - 4) (v >>> 32)
    else s.barWrite o n v)

/-- Why no candidate is placed in this cycle (R339): 0 none waits, 1 the buffer of records is full, 2 device error or recovery, 3 four loads
are in progress, 4 within 16 cycles of a placement, 5 none fits. (DESIGN CHOICE, log 72) -/
def State.stallReason (s : State) : Nat :=
  if s.considered = [] then 0
  else if s.bufferFull then 1
  else if s.deviceError || s.recovery then 2
  else if 4 ≤ s.sched.loads.length then 3
  else if s.sched.lastPlace.any fun c => decide (s.cycle < c + 16) then 4
  else if s.considered.all fun c => (s.takes c).isNone then 5 else 0

/-- The scheduler's status page (R339): from offset 0 the records that each of the 16 queues holds, from 0x80 the context banks that are free
on each of the four dies, at 0xA0 the reason of a stall. (DESIGN CHOICE, log 72) -/
def State.statusPage (s : State) (o : Nat) : W64 :=
  let i := o / 8
  if i < 16 then
    BitVec.ofNat 64 ((s.launchQueue i).avail.length + (s.sched.requeued.filter fun c => c.lq == i).length)
  else if i < 20 then
    BitVec.ofNat 64 ((((List.range 1920).filter fun t => dieOf t == i - 16 && s.present t).flatMap fun t =>
      (List.range 4).filter fun b => (s.bankResid t b).isNone).length)
  else if i = 20 then BitVec.ofNat 64 s.stallReason
  else 0

/-- What a host's read of a dword of BAR0 gives (R339, R340, R348, R386, R407): registers read as they stand, everything else as zero.
(DESIGN CHOICE, log 72) -/
def State.barRead (s : State) (off : Nat) : W64 :=
  let o := off / 8 * 8
  let h := s.host
  let m := s.mgmt
  if o = 0 then BitVec.ofNat 47 0 ++ Config.form ++ Config.stepping ++ 0x54#8
  else if o = 8 then
    BitVec.ofNat 8 s.conf.grade ++ BitVec.ofNat 1 (if 2 ≤ s.conf.grade then 1 else 0) ++ 0#23 ++ BitVec.ofNat 32 m.almA.length
  else if o = 0x10 then h.devnum.setWidth 64
  else if o = 0x18 then BitVec.ofNat 64 s.conf.addr
  else if 0x1000 ≤ o ∧ o < 0x1400 then
    let x := s.launchQueue ((o - 0x1000) / 64)
    let ctrl : BitVec 32 := BitVec.ofNat 24 x.starve ++ 0#4 ++ BitVec.ofBool x.preempt ++ BitVec.ofNat 2 x.prio ++ BitVec.ofBool x.enable
    let k := o % 64 / 8
    if k = 0 then x.base else if k = 1 then ctrl ++ BitVec.ofNat 32 x.size else if k = 2 then x.tail ++ x.head
    else if k = 3 then BitVec.ofNat 64 (x.code * 16 + if x.err then 1 else 0) else 0
  else if 0x2000 ≤ o ∧ o < 0x2400 then
    let x := s.eventQueue ((o - 0x2000) / 64)
    let ctrl : BitVec 32 := BitVec.ofNat 24 x.vector ++ 0#6 ++ BitVec.ofBool x.irq ++ BitVec.ofBool x.enable
    let k := o % 64 / 8
    if k = 0 then x.base else if k = 1 then ctrl ++ BitVec.ofNat 32 x.size else if k = 2 then x.consumed ++ x.posted else 0
  else if 0x3000 ≤ o ∧ o < 0x3100 then
    BitVec.ofNat 64 ((List.range 8).foldl (fun v i => v + (h.route.get 0 (o - 0x3000 + i)).toNat * 2 ^ (8 * i)) 0)
  else if 0x4000 ≤ o ∧ o < 0x5000 then s.statusPage (o - 0x4000)
  else if 0x20000 ≤ o ∧ o < 0x30000 then
    let x := h.windows.get {} ((o - 0x20000) / 0x1000)
    let k := o % 0x1000
    if k = 0 then x.target else if k = 8 then x.a0 else if k = 16 then x.a1 else 0
  else if 0x30000 ≤ o ∧ o < 0x30200 then
    h.msixTable.get (if o / 8 % 2 = 1 then BitVec.twoPow 64 32 else 0) ((o - 0x30000) / 8)
  else if o = 0x32000 then h.pba.setWidth 64
  else if 0x100000 ≤ o ∧ o < 0x140000 then h.cmdBuf.get 0 ((o - 0x100000) / 8)
  else if 0x140000 ≤ o ∧ o < 0x180000 then h.rspBuf.get 0 ((o - 0x140000) / 8)
  else if o = 0x1FF000 then h.command
  else if o = 0x1FF010 then h.status
  else 0

end Sys2Proof.Machine
end

