-- ==== Sys2Proof/Machine/Boot.lean ====
section
/-! DEFINITION. Reset and power (23_management.md R382, R383; 24_fleet_operation.md R395 to R403): firmware, training, the Almanac, the
mapping of tiles, rows, memory and links, the configuration descriptor, and fences while running. -/

namespace Sys2Proof.Machine

/-! ## Firmware (R383, R384). Stage 1 is the root stage, 2 the runtime; slot 0 is A, 1 is B. -/

def fwKey (stage slot : Nat) : Nat := stage * 2 + slot
def Mgmt.image (m : Mgmt) (stage slot : Nat) : Firmware := m.fw.get {} (fwKey stage slot)

/-- Bytes of a dword, little-endian. -/
def dwordBytes (x : W64) : List (BitVec 8) := (List.range 8).map fun i => x.extractLsb' (8 * i) 8

/-- The digest of an image's header, which holds its security version, and body. -/
def Firmware.digest (f : Firmware) : BitVec 512 := Config.shake256 (dwordBytes (BitVec.ofNat 64 f.sec) ++ f.body)

/-- The first check that an image fails: 1 signature, 2 security version; 0 if none (R383, R388). -/
def Firmware.check (f : Firmware) (fuse : Nat) : Nat :=
  if Config.falconVerify f.digest f.sig = false then 1 else if f.sec < fuse then 2 else 0

/-- A measurement register that is extended with a digest: from zero it holds the digest, else the digest of both. (DEDUCED, log 58) -/
def extended (m d : BitVec 512) : BitVec 512 :=
  let bytes (x : BitVec 512) : List (BitVec 8) := (List.range 64).map fun i => x.extractLsb' (8 * i) 8
  if m = 0 then d else Config.shake256 (bytes m ++ bytes d)

/-- What verifying a stage gives: the slot that passes, the failures (slot, check), and its measurement. -/
structure Verified where
  slot : Option Nat
  fails : List (Nat × Nat) := []
  meas : BitVec 512 := 0

/-- Verify a stage: the active slot, then the other (R383). -/
def Mgmt.verify (m : Mgmt) (stage : Nat) : Verified :=
  let a := m.active.get 0 stage
  let b := 1 - a
  let x := m.image stage a
  let y := m.image stage b
  let ma := extended 0 x.digest
  if x.check m.fuse = 0 then { slot := some a, meas := ma }
  else
    let mb := extended ma y.digest
    if y.check m.fuse = 0 then { slot := some b, fails := [(a, x.check m.fuse)], meas := mb }
    else { slot := none, fails := [(a, x.check m.fuse), (b, y.check m.fuse)], meas := mb }

/-- Post the failures of a stage's slots (R383, R388 event 0x31). -/
def State.slotEvents (s : State) (stage : Nat) (l : List (Nat × Nat)) : State :=
  l.foldl (fun s f => s.mgmtEvent 0x31 stage (f.1 + f.2 * 16) (BitVec.ofNat 64 (s.mgmt.image stage f.1).sec) 0) s

/-- An image has booted without fault: the first time, the fuse counter rises to its version (R384). -/
def Mgmt.booted (m : Mgmt) (stage slot : Nat) : Mgmt :=
  let f := m.image stage slot
  if f.bootedOnce then m
  else { m with fw := m.fw.set (fwKey stage slot) { f with bootedOnce := true }, fuse := max m.fuse f.sec }

/-! ## The Almanac at boot (R395) -/

/-- The longer valid prefix is the Almanac, and both copies are brought level. -/
def Mgmt.readAlmanac (m : Mgmt) : Mgmt :=
  let a := validPrefix [] m.almA
  let b := validPrefix [] m.almB
  let l := if a.length < b.length then b else a
  { m with almA := l, almB := l, extra := [] }

/-- Insert a defect in ascending object order (R402). (DEDUCED, log 58) -/
def insertDefect (x : BitVec 64) : List (BitVec 64) → List (BitVec 64)
  | [] => [x]
  | y :: r => if (x.extractLsb' 0 48).toNat < (y.extractLsb' 0 48).toNat then x :: y :: r else y :: insertDefect x r

/-- Self-test and training append one object that they find dead; a lane is repaired first, unless a spare serves it already (R364, R393).
(DEDUCED, log 58) -/
def State.appendDefect (s : State) (x : BitVec 64) : State :=
  let kind := (x.extractLsb' 56 8).toNat
  let cause := (x.extractLsb' 48 8).toNat
  let o := x.extractLsb' 0 48
  if kind = 4 then
    if s.mgmt.retired.any fun k => k.extractLsb' 56 8 == 4#8 && k.extractLsb' 32 16 == x.extractLsb' 32 16 then s
    else s.repairLane (((o.extractLsb' 44 4).toNat) * 32 + (o.extractLsb' 39 5).toNat) (o.extractLsb' 32 7).toNat cause
  else s.almanacAppend kind cause o

/-- What is found dead is appended in ascending object order; a channel marked failing is retired (R365, R398). (DEDUCED, log 58) -/
def State.appendDefects (s : State) (failing : List Nat) : State :=
  let mark (n : Nat) : BitVec 64 := 3#8 ++ 4#8 ++ BitVec.ofNat 4 (n / 32) ++ BitVec.ofNat 5 (n % 32) ++ 0#39
  ((s.defects ++ failing.map mark).foldl (fun l x => insertDefect x l) []).foldl State.appendDefect s

/-! ## What the Almanac takes away (R394, R396 to R400) -/

/-- The retired objects of a kind. -/
def Mgmt.objects (m : Mgmt) (kind : Nat) : List (BitVec 48) :=
  (m.retired.filter fun k => (k.extractLsb' 56 8).toNat == kind).map fun k => k.extractLsb' 0 48

/-- Die, physical column and physical row of a position's object. -/
def objPosition (o : BitVec 48) : Nat × Nat × Nat :=
  ((o.extractLsb' 46 2).toNat, (o.extractLsb' 41 5).toNat, (o.extractLsb' 36 5).toNat)

/-- Physical cores of a position that are retired. -/
def Mgmt.deadCores (m : Mgmt) (d p r : Nat) : Nat :=
  (uniq (((m.objects 2).filter fun o => objPosition o == (d, p, r)).map fun o => (o.extractLsb' 34 2).toNat)).length

/-- A dead position (R396): retired itself, or with fewer than two working cores. -/
def Mgmt.deadPosition (m : Mgmt) (d p r : Nat) : Bool :=
  ((m.objects 1).any fun o => objPosition o == (d, p, r)) || decide (3 ≤ m.deadCores d p r)

/-- The dead positions of a die row. -/
def Mgmt.deadIn (m : Mgmt) (d r : Nat) : List Nat := (List.range 25).filter fun p => m.deadPosition d p r

/-- Die row of a tile and its physical column, given the row's dead position (R396). -/
def rowKey (t : Nat) : Nat := 20 * dieOf t + rowOf t % 20
def physicalCol (dead : Option Nat) (c : Nat) : Nat := match dead with | some p => if p ≤ c then c + 1 else c | none => c

/-- Has a link one whole group of `w` aligned lanes without a retired one? -/
def groupWhole (lanes w : Nat) (dead : List Nat) : Bool :=
  (List.range (lanes / w)).any fun g => !(dead.any fun l => l / w == g)

/-- What remains of the machine (R396 to R400). (DEDUCED, log 73) -/
def Mgmt.conf (m : Mgmt) : Conf :=
  let rowDead : List (Nat × List Nat) := (List.range 80).map fun k => (k, m.deadIn (k / 20) (k % 20))
  let deadOf (k : Nat) : List Nat := (rowDead.find? fun e => e.1 == k).elim [] Prod.snd
  let rows : List Nat := (rowDead.filter fun e => 2 ≤ e.2.length).map Prod.fst
  let spare : AMap Nat := (rowDead.filter fun e => e.2.length == 1).map fun e => (e.1, e.2.headD 0)
  let absent := (List.range 1920).filter fun t => rows.contains (rowKey t)
  let cores (t : Nat) : Nat :=
    m.deadCores (dieOf t) (physicalCol ((deadOf (rowKey t)).head?) (colOf t % 24)) (rowOf t % 20)
  let classes : AMap Nat := ((List.range 1920).filter fun t => !absent.contains t && cores t != 0).map fun t => (t, cores t)
  let lost (t : Nat) : Bool := rows.contains (rowKey t) && (deadOf (rowKey t)).contains (colOf t % 24)
  let ports := (List.range 128).filter fun p => lost (portTile p)
  let channels : List Nat := uniq (((m.objects 3).map fun o => (o.extractLsb' 44 4).toNat * 32 + (o.extractLsb' 39 5).toNat) ++
    ports.flatMap fun p => (List.range 4).map fun i => 4 * p + i)
  let ucie (e : Nat) : List Nat := ((m.objects 5).filter fun o => (o.extractLsb' 46 2).toNat == e).map fun o => (o.extractLsb' 38 8).toNat
  let worn : List Nat := (List.range 4).filter fun e => decide (Config.ucieSpares < (uniq (ucie e)).length)
  let half : List Nat := worn.filter fun e => groupWhole Config.ucieLanes (Config.ucieLanes / 2) (ucie e)
  let cxlDead : List Nat := (m.objects 6).map fun o => (o.extractLsb' 44 4).toNat
  let cxl : Nat := if cxlDead.isEmpty then 0 else if groupWhole 16 8 cxlDead then 1 else if groupWhole 16 4 cxlDead then 2 else 3
  let peer (l : Nat) : Nat :=
    let dead : List Nat := ((m.objects 7).filter fun o => (o.extractLsb' 45 3).toNat == l).map fun o => (o.extractLsb' 42 3).toNat
    if lost (linkTile l) then 3 else if dead.isEmpty then 0 else if groupWhole 8 4 dead then 1 else if groupWhole 8 2 dead then 2 else 3
  let peers : AMap Nat := ((List.range 8).map fun l => (l, peer l)).filter fun e => e.2 != 0
  let spares := (spare.any fun e => e.2 != 24) || m.objects 4 != [] || m.objects 5 != []
  let grade : Nat :=
    if !worn.isEmpty || cxl != 0 || !peers.isEmpty then 4
    else if !channels.isEmpty then 3
    else if !classes.isEmpty || !rows.isEmpty then 2
    else if spares then 1 else 0
  { absent := absent, classes := classes, rows := rows, channels := channels, cxl := cxl, peers := peers, edgeHalf := half
    edgeFailed := worn.filter fun e => !half.contains e, spare := spare, grade := grade }

/-- The channels with spares in use, by the records of kind 0x04 (R398). -/
def Mgmt.laneSpares (m : Mgmt) : AMap Channel :=
  let of_ (o : BitVec 48) : Nat := (o.extractLsb' 44 4).toNat * 32 + (o.extractLsb' 39 5).toNat
  let l := (m.objects 4).map of_
  (uniq l).foldl (fun (c : AMap Channel) n => c.set n { spares := (l.filter (· == n)).length }) []

/-- Can the device present no configuration (R403): router (0, 0), the Residency Scheduler or the CXL link is lost, or no channel is left? -/
def Conf.unserviceable (c : Conf) (m : Mgmt) (schedLost : Bool) : Bool :=
  schedLost || (c.rows.contains 0 && m.deadPosition 0 0 0) || c.cxl == 3 || decide (512 ≤ c.channels.length)

/-! ## The configuration descriptor (R401) -/

/-- The descriptor's address: the last 16 KiB of the highest granule present under the tables of reset. -/
def Conf.place (c : Conf) : Nat :=
  match ((List.range 512).reverse).find? fun g => !c.channels.contains g with
  | none => 0
  | some g => (g + 1) * 2 ^ 31 - 2 ^ 14

/-- Bits of a list of numbers. -/
def bitsOf (l : List Nat) : Nat := (uniq l).foldl (fun v i => v + 2 ^ i) 0

/-- Number of tiles of a class. -/
def State.classCount (s : State) (cls : Nat) : Nat :=
  ((List.range 1920).filter fun t => s.present t && s.conf.classes.get 0 t == cls).length

/-- The rectangles of the descriptor: class by class, at most 1,024. (DESIGN CHOICE, log 14) -/
def State.rectangles (s : State) : List W64 :=
  ([0, 1, 2].flatMap fun cls => (s.maximal cls).map fun r =>
    BitVec.ofNat 2 cls ++ BitVec.ofNat 12 (r.2.2.1 * 48 + r.1) ++ BitVec.ofNat 6 (r.2.1 - r.1) ++ BitVec.ofNat 6 (r.2.2.2 - r.2.2.1) ++
      0#38).take 1024

/-- The descriptor's contents as pieces: offset, bytes, value. (DESIGN CHOICE, log 14) -/
def State.descriptor (s : State) : List (Nat × Nat × Nat) :=
  let c := s.conf
  let present := (List.range 1920).filter s.present
  let rects := s.rectangles
  let linkWord := (c.cxl % 4) + (List.range 8).foldl (fun v l => v + c.peers.get 0 l * 2 ^ (2 + 2 * l)) 0 +
    bitsOf c.edgeHalf * 2 ^ 18 + bitsOf c.edgeFailed * 2 ^ 22
  let classOf (t : Nat) : Nat := if s.present t then c.classes.get 0 t else 3
  [(0, 8, 2 ^ 56 + c.grade * 2 ^ 48 + (if 2 ≤ c.grade then 2 ^ 47 else 0) + s.mgmt.almA.length),
   (8, 8, present.length + s.classCount 1 * 2 ^ 16 + s.classCount 2 * 2 ^ 32),
   (0x10, 8, linkWord),
   (0x18, 8, (512 - c.channels.length) * 2 ^ 31),
   (0x20, 240, bitsOf present),
   (0x110, 480, (List.range 1920).foldl (fun v t => v + classOf t * 4 ^ t) 0),
   (0x2F0, 64, bitsOf c.channels),
   (0x330, 16, bitsOf c.rows),
   (0x340, 8, rects.length)] ++
  (rects.zip (List.range rects.length)).map fun z => (0x348 + 8 * z.2, 8, z.1.toNat)

/-- The bytes of the descriptor. (DESIGN CHOICE, log 14) -/
def State.descriptorBytes (s : State) : List (BitVec 8) :=
  s.descriptor.flatMap fun p => (List.range p.2.1).map fun i => BitVec.ofNat 8 (p.2.2 / 256 ^ i)

/-- The root stage writes the descriptor. -/
def State.writeDescriptor (s : State) : State :=
  { s with mem := s.descriptor.foldl (fun m p => Memory.writeN m (s.conf.addr + p.1) p.2.1 p.2.2) s.mem }

/-! ## Reset (R383) -/

/-- The machine with its flash, fuses, failing marks and what the outside holds, all else as reset leaves it: SRAM, registers, queues and
device memory are as at power-on; host memory is the host's. (DEDUCED, log 58) -/
def State.restarted (s : State) : State :=
  let m := s.mgmt
  { State.reset with
    agenda := []
    inputs := s.inputs
    free := s.free
    mem := s.mem.filter fun c => decide (2 ^ 40 ≤ c.1) && decide (c.1 < 2 ^ 41)
    mgmt := { fw := m.fw, fuse := m.fuse, almA := m.almA, almB := m.almB, log := m.log, logCount := m.logCount
              hours := BitVec.ofNat 32 s.hoursNow, active := [1, 2].map fun st => (st, m.next.get (m.active.get 0 st) st) }
    channels := (s.channels.filter fun e => e.2.failing).map fun e => (e.1, { failing := true })
    defects := s.defects
    schedLost := s.schedLost }

/-- Verify both stages: the root stage, then the runtime (R383 steps 1 and 2). -/
def State.verifyBoth (s : State) : Verified × Verified :=
  let a := s.mgmt.verify 1
  (a, if a.slot.isSome then s.mgmt.verify 2 else { slot := none })

/-- The device reports itself unserviceable in the event log and stays in recovery (R403). (DESIGN CHOICE, log 8) -/
def State.reportUnserviceable (s : State) : State :=
  let m := s.mgmt
  let f := Config.unserviceableEntry s.free
  { s with
    recovery := true, free := s.free + 1
    mgmt := { m with
      log := m.log.set (m.logCount % 65536) [f 0, f 1, f 2, BitVec.ofNat 64 (s.cycle / 1250000)]
      logCount := m.logCount + 1 } }

/-- The measurements of what has run: the ROM, then each stage that the one before has verified (R383). (DEDUCED, log 58) -/
def Mgmt.measured (m : Mgmt) (a b : Verified) : AMap (BitVec 512) :=
  let root : Bool := a.slot.isSome
  [(1, Config.romVersion), (2, a.meas)] ++ (if root then [(3, b.meas)] else []) ++ [(4, BitVec.ofNat 512 m.fuse)] ++
    if root then [(5, Config.shake256 (m.almA.flatMap recBytes))] else []

/-- The boot from verified firmware on: training, Almanac, mapping, descriptor, link-up (R383 step 3, R395 to R401). (DEDUCED, log 58) -/
def State.bootFrom (s : State) (a b : Verified) : State :=
  let failing := (s.channels.filter fun e => e.2.failing).map Prod.fst
  let s := ({ s with channels := s.mgmt.laneSpares }).appendDefects failing
  let c := s.mgmt.conf
  if c.unserviceable s.mgmt s.schedLost then s.reportUnserviceable
  else
    let s := { s with conf := { c with addr := c.place }, booted := true }
    let m := (s.mgmt.booted 1 (a.slot.getD 0)).booted 2 (b.slot.getD 0)
    let m := { m with
      active := [(1, a.slot.getD 0), (2, b.slot.getD 0)]
      meas := m.meas.set 6 (Config.shake256 s.descriptorBytes) }
    let s := ({ s with mgmt := m }).writeDescriptor
    let s := (s.slotEvents 1 a.fails).slotEvents 2 b.fails
    if 2 ≤ c.grade then
      ({ s with mgmt := { s.mgmt with asked37 := true } }).mgmtEvent 0x37 c.grade 0 (BitVec.ofNat 64 s.mgmt.almA.length)
        (BitVec.ofNat 64 s.hoursNow)
    else s

/-- `DEVICE_RESET`: power-on or reset (R383). If both slots of a stage fail the device is in recovery: no residency can be placed. (DESIGN
CHOICE, log 6; DEDUCED, log 58) -/
def execDeviceReset (s : State) : Host.Outcome State Fault Refusal :=
  .next
    (let s := s.restarted
    let v := s.verifyBoth
    let m := if v.1.slot.isSome then s.mgmt.readAlmanac else s.mgmt
    let s := { s with mgmt := { m with meas := m.measured v.1 v.2 } }
    if v.1.slot.isNone ∨ v.2.slot.isNone then
      (({ s with recovery := true }).slotEvents 1 v.1.fails).slotEvents 2 v.2.fails
    else s.bootFrom v.1 v.2)

/-- `POWER_LOSS`: the supply is lost; an append under way may leave a torn record in copy A (R395). (DEDUCED, log 74) -/
def execPowerLoss (torn : Option (BitVec 256)) (s : State) : Host.Outcome State Fault Refusal :=
  .next
    (let m := s.mgmt
    { s with
      powered := false, booted := false, agenda := [], cycle := 0
      mgmt := { m with hours := BitVec.ofNat 32 s.hoursNow, almA := m.almA ++ torn.toList } })

/-! ## Faults found while running (R402) -/

/-- The logical tile at a physical position, if one lies there. -/
def State.tileAt (s : State) (d p r : Nat) : Option Nat :=
  let key := 20 * d + r
  let c : Option Nat := match s.conf.spare.find? fun e => e.1 == key with
    | none => some p
    | some e => if p < e.2 then some p else if p = e.2 then none else some (p - 1)
  (c.filter fun c => decide (c < 24) && decide (r < 20) && !s.conf.rows.contains key).map fun c =>
    (20 * (d / 2) + r) * 48 + 24 * (d % 2) + c

/-- The uncorrectable SRAM errors that stand: tile, and a name of the word or accumulator element. -/
def State.sramMarks (s : State) : List (Nat × Nat) :=
  (s.badWords.map fun w => (sramTile (8 * w), w)) ++ s.nodes.flatMap fun e => e.2.accBad.map fun r => (e.1, 2 ^ 60 + r)

/-- A correctable error of a word of SRAM is corrected, and counted at its position (21_memory_subsystem.md R368). (DESIGN CHOICE, log 33) -/
def State.correctWord (s : State) (w : Nat) : State :=
  let t := sramTile (8 * w)
  s.setTile t { s.tile t with softFixed := (s.tile t).softFixed + 1 }

/-- The errors that have appeared since the last cycle are counted, for 24 hours (R402), and correctable ones corrected. (DESIGN CHOICE,
log 33) -/
def State.noteErrors (s : State) : State :=
  let s := { s.softWords.foldl State.correctWord s with softWords := [] }
  let marks := s.sramMarks
  let new := marks.filter fun e => !s.mgmt.marksSeen.contains e
  { s with mgmt := { s.mgmt with
    marksSeen := marks
    sramErrors := (s.mgmt.sramErrors.filter fun e => decide (s.cycle < e.2 + 24 * cyclesPerHour)) ++ new.map fun e => (e.1, s.cycle) } }

/-- The position that a logical tile has, as a defect of a cause (R394). -/
def State.positionOf (s : State) (t cause : Nat) : BitVec 64 :=
  let dead := (s.conf.spare.find? fun e => e.1 == rowKey t).map Prod.snd
  1#8 ++ BitVec.ofNat 8 cause ++ BitVec.ofNat 2 (dieOf t) ++ BitVec.ofNat 5 (physicalCol dead (colOf t % 24)) ++ BitVec.ofNat 5 (rowOf t % 20) ++
    0#36

/-- The positions with three errors that are not yet retired (R402). (DESIGN CHOICE, log 33) -/
def State.fencesDue (s : State) : List (BitVec 64) :=
  let tiles := s.mgmt.sramErrors.map Prod.fst
  (((uniq tiles).filter fun t => decide (3 ≤ (tiles.filter (· == t)).length) && s.present t).map fun t => s.positionOf t 3).filter
    fun o => !s.mgmt.retired.contains (objectKey 1 (o.extractLsb' 0 48))

/-- `POSITION_FENCE`: a position or a core is retired: the record is appended, and nothing further is placed on its tile (R402). (DESIGN
CHOICE, log 33; DEDUCED, log 73) -/
def execPositionFence (obj : BitVec 64) (s : State) : Host.Outcome State Fault Refusal :=
  .next
    (let kind := (obj.extractLsb' 56 8).toNat
    if kind ≠ 1 ∧ kind ≠ 2 then s
    else
      let o := obj.extractLsb' 0 48
      let s := s.almanacAppend kind (obj.extractLsb' 48 8).toNat o
      let p := objPosition o
      match s.tileAt p.1 p.2.1 p.2.2 with
      | none => s
      | some t => { s with conf := { s.conf with fenced := if s.conf.fenced.contains t then s.conf.fenced else t :: s.conf.fenced } })

end Sys2Proof.Machine
end

