-- ==== Sys2Proof/Machine/Mgmt.lean ====
section
/-! DEFINITION. The Holko management controller's runtime and root stage at work: mailbox commands (23_management.md R386 to R391;
21_memory_subsystem.md R359, R362, R365, R369; 22_faults_discard.md R378; 24_fleet_operation.md R395), firmware update and attestation
(R384, R385), sensors and power (R387, R389). -/

namespace Sys2Proof.Machine

/-! ## Commands (R386): dword `i` of the payload lies at offset 8·i of the command buffer -/

/-- Run the busy command if its code is the one given: a length other than the command's is answered with 0xFE. (DESIGN CHOICE, log 13) -/
def State.command (s : State) (code len : Nat) (f : State → (Nat → W64) → State) : State :=
  if s.mailboxBusy = false ∨ s.mailboxCode ≠ code then s
  else if (s.host.running.extractLsb' 32 16).toNat ≠ len then s.mailboxDone 0xFE
  else f s fun i => s.host.cmdBuf.get 0 i

/-- Done with dwords in the response buffer. (DESIGN CHOICE, log 13) -/
def State.respond (s : State) (l : List W64) : State :=
  ({ s with host := { s.host with rspBuf := (List.range l.length).zip l } }).mailboxDone 0

/-- Refuse a command with an error whose code no rule gives. (DESIGN CHOICE, log 13) -/
def State.refuse (s : State) : State :=
  let e := Config.mailboxError s.free
  ({ s with free := s.free + 1 }).mailboxDone (if e = 0 then 1 else e.toNat)

/-! ## TLBINV (R359): scope, address-space identifier, virtual address, count of 64 KiB pages -/

/-- Does a range of bytes of an address space fall under the command? (DESIGN CHOICE, log 13) -/
def shotDown (scope asid lo hi a from_ until_ : Nat) : Bool :=
  scope == 3 || (a == asid && (scope == 2 || (decide (from_ < hi) && decide (lo < until_))))

/-- Invalidate matching entries everywhere, and note the accesses under way that used one. -/
def State.shootDown (s : State) (scope asid lo hi : Nat) : State :=
  let hits (e : TlbEntry) : Bool := shotDown scope asid lo hi e.asid (e.vpn * 2 ^ e.size) ((e.vpn + 1) * 2 ^ e.size)
  let old := s.tiles.flatMap fun x => (x.2.txns.filter fun y =>
    winOf y.addr == some .global && shotDown scope asid lo hi (s.rootOf y.resid).1 y.addr.toNat (y.addr.toNat + 32)).map fun y => (x.1, y.tid)
  { s with tlbs := s.tlbs.filter fun e => !hits e, mgmt := { s.mgmt with shoot := some old } }

/-- `TLBINV`: entries are invalidated, and the command is done once every access that used one is performed (R359). (DESIGN CHOICE, log 13) -/
def execTlbinv (s : State) : Host.Outcome State Fault Refusal :=
  .next (s.command 1 1 fun s d =>
    match s.mgmt.shoot with
    | none =>
      let scope := (d 0).toNat
      let n := (d 3).toNat
      if 3 < scope ∨ 2 ^ 16 ≤ (d 1).toNat ∨ (scope ≤ 1 ∧ (n = 0 ∨ 65536 < n)) then s.refuse
      else
        let lo := (d 2).toNat / 2 ^ 16 * 2 ^ 16
        s.shootDown scope (d 1).toNat lo (lo + n * 2 ^ 16)
    | some l =>
      let left := l.filter fun e => (s.tile e.1).txns.any fun y => y.tid == e.2
      if left = [] then ({ s with mgmt := { s.mgmt with shoot := none } }).mailboxDone 0
      else { s with mgmt := { s.mgmt with shoot := some left } })

/-! ## REGLOAD (R361, R362): eight entries of 36 dwords -/

/-- An entry from its dwords. -/
def readRegion (d : Nat → W64) : Region where
  valid := (d 0).getLsbD 63
  g0 := ((d 0).extractLsb' 0 10).toNat
  g1 := ((d 0).extractLsb' 16 10).toNat
  rows := (List.range 35).map fun i => (d (i + 1)).extractLsb' 0 35

/-- One step of the elimination over GF(2): a row with bit `b` set clears it in the others and is put aside. -/
def eliminate (b : Nat) (l : List (BitVec 35)) : Option (List (BitVec 35)) :=
  match l.find? fun r => r.getLsbD b with
  | none => none
  | some p => some ((l.eraseP fun r => r.getLsbD b).map fun r => if r.getLsbD b then r ^^^ p else r)

/-- Is a matrix singular over GF(2) (R362)? -/
def singular (l : List (BitVec 35)) : Bool :=
  ((List.range 35).foldl (fun (acc : Option (List (BitVec 35))) b => acc.bind (eliminate b)) (some l)).isNone

/-- The check that entry `i` of a list fails against those before it: 0 if none. Only the second looks at valid entries alone. -/
def regionCheck (d : Nat → W64) (l : List Region) (i : Nat) : Nat :=
  let x := l.getD i {}
  let e (j : Nat) : W64 := d (36 * i + j)
  let zeros := (e 0).extractLsb' 26 37 != 0#37 || (e 0).extractLsb' 10 6 != 0#6 ||
    (List.range 35).any fun j => (e (j + 1)).extractLsb' 35 29 != 0#29
  if zeros = true ∨ x.g1 < x.g0 ∨ 511 < x.g1 then 1
  else if (l.take i).any fun y => x.valid && y.valid && decide (y.g0 ≤ x.g1) && decide (x.g0 ≤ y.g1) then 2
  else if singular x.rows then 3 else 0

/-- Is a CXL.mem request outstanding: does one of the host's wait at a memory port? (DESIGN CHOICE, log 48) -/
def State.memOutstanding (s : State) : Bool := s.inbox.any fun x => x.p.h.host

/-- Has every memory port served its requests? -/
def State.portsDrained (s : State) : Bool := !s.inbox.any fun x => decide (2048 ≤ x.node) && decide (x.node < 2176)

/-- `REGLOAD`: all eight entries, checked in order, while no residency is live; the old tables stay when one fails, and the answer names it.
The new ones govern once the memory ports are drained; the command is busy until then (R362). (DESIGN CHOICE, log 13) -/
def execRegload (s : State) : Host.Outcome State Fault Refusal :=
  .next (s.command 2 72 fun s d =>
    let l := (List.range 8).map fun i => readRegion fun j => d (36 * i + j)
    if s.anyLive ∨ s.memOutstanding then s.refuse
    else
      match (List.range 8).find? fun i => regionCheck d l i != 0 with
      | some i =>
        ({ s with host := { s.host with rspBuf := [(0, BitVec.ofNat 64 i)] } }).mailboxDone (regionCheck d l i)
      | none => if s.portsDrained then ({ s with regions := l }).mailboxDone 0 else s)

/-! ## SPILLRESUME (22_faults_discard.md R378): residency, tile, tag, verdict -/

/-- The party of a request goes on: it writes again when its turn comes. -/
def State.resumeSpill (s : State) (x : SpillReq) : State :=
  let s := s.setSched { s.sched with spills := s.sched.spills.filter fun y => y != x }
  if x.party = 1 then
    let c := s.ctx x.key
    if c.wait = .spill then s.setCtx x.key { c with wait := .none } else s
  else if x.party = 2 then s.setBank x.tile x.queue { s.bank x.tile x.queue with spillFaulted := false }
  else s

/-- `SPILLRESUME`: an outstanding request is retried, or its residency is faulted with reason 0x04 (R378). (DESIGN CHOICE, log 13) -/
def execSpillresume (s : State) : Host.Outcome State Fault Refusal :=
  .next (s.command 3 1 fun s d =>
    let mine (x : SpillReq) : Bool :=
      x.resid == (d 0).toNat && x.tile == (d 1).toNat && x.tag == some (d 2).toNat
    match s.sched.spills.find? mine, (s.findRes (d 0).toNat).filter Residency.running with
    | some x, some r =>
      if d 3 = 0 then (s.resumeSpill x).mailboxDone 0
      else if d 3 = 1 then
        let p : Cur := if x.party = 2 then {} else placeOf x.key
        (s.decideFault r 4 (eventWord 0x10 4 r.num x.tile p.q p.b 0) 0 0).mailboxDone 0
      else s.refuse
    | _, _ => s.refuse)

/-! ## ROWTHRESH, EYECFG, POWERCAP -/

/-- `ROWTHRESH`: MGMT, MIT and radius of port p in dwords 3·p on; a value out of bounds changes no port (R369). (DESIGN CHOICE, log 13) -/
def execRowthresh (s : State) : Host.Outcome State Fault Refusal :=
  .next (s.command 4 96 fun s d =>
    let v (p j : Nat) : Nat := (d (3 * p + j)).toNat
    let ok (p : Nat) : Bool := decide (2 ≤ v p 0 ∧ v p 0 < v p 1 ∧ v p 0 ≤ 4096 ∧ v p 1 ≤ 8192) && (v p 2 == 1 || v p 2 == 2)
    if (List.range 128).all ok = false then s.mailboxDone 1
    else ((List.range 128).foldl (fun s p => s.setPort p { s.port p with mgmt := v p 0, mit := v p 1, radius := v p 2 }) s).mailboxDone 0)

/-- `EYECFG`: a channel, its two thresholds and automatic care (R365). (DESIGN CHOICE, log 13) -/
def execEyecfg (s : State) : Host.Outcome State Fault Refusal :=
  .next (s.command 5 1 fun s d =>
    if 512 ≤ (d 0).toNat ∨ 2 ^ 8 ≤ (d 1).toNat ∨ 2 ^ 8 ≤ (d 2).toNat ∨ 2 ≤ (d 3).toNat then s.refuse
    else
      let n := (d 0).toNat
      (s.setChannel n { s.channel n with thT := (d 1).toNat, thV := (d 2).toNat, auto := decide (d 3 = 1) }).mailboxDone 0)

/-- `POWERCAP`: the module cap in watts, 400 to 2,400 (R389). (DESIGN CHOICE, log 13) -/
def execPowercap (s : State) : Host.Outcome State Fault Refusal :=
  .next (s.command 0x10 1 fun s d =>
    if (d 0).toNat < 400 ∨ 2400 < (d 0).toNat then s.refuse
    else ({ s with mgmt := { s.mgmt with cap := (d 0).toNat } }).mailboxDone 0)

/-! ## SENSORREAD, LOGREAD, ALMANACREAD -/

/-- The sensors: 16·die + point, 64 + stack, 80 module power, 81 and 82 coolant inlet temperature and flow, 83 + 2·rail and 84 + 2·rail its
voltage and current (R387). (DESIGN CHOICE, log 17) -/
def powerSensor : Nat := 80
def sensorCount : Nat := 83 + 2 * Config.rails

/-- A sensor as SENSORREAD shows it; one not yet sampled shows what it reads at power-on. (DESIGN CHOICE, log 17) -/
def State.sensorWords (s : State) (i : Nat) : List W64 :=
  let x := s.mgmt.sensors.get {} i
  let first := Config.reading i 0
  BitVec.ofNat 64 i ::
    (if x.seen then [x.now, x.lo, x.hi] else [first, first, first]).map (BitVec.setWidth 64)

/-- The lanes of a channel, 64 for data, 8 for check and 2 spare (R364). -/
def lanesPerChannel : Nat := 74

/-- Last margins and minima of a lane: 8 bits each, timing before voltage (R365). (DESIGN CHOICE, log 17) -/
def Channel.laneWord (c : Channel) (n lane : Nat) : Nat :=
  let e := Config.eyeMargin n lane
  let first := ((e.extractLsb' 8 8).toNat, (e.extractLsb' 0 8).toNat)
  let m := c.margins.get first lane
  let b := c.minima.get first lane
  m.1 * 2 ^ 24 + m.2 * 2 ^ 16 + b.1 * 2 ^ 8 + b.2

/-- A channel as SENSORREAD shows it: spares left and the failing mark, then its lanes, two to a dword. (DESIGN CHOICE, log 17) -/
def State.channelWords (s : State) (n : Nat) : List W64 :=
  let c := s.channel n
  BitVec.ofNat 64 ((2 - c.spares) + if c.failing then 256 else 0) ::
    (List.range (lanesPerChannel / 2)).map fun i =>
      BitVec.ofNat 64 (c.laneWord n (2 * i + 1) * 2 ^ 32 + c.laneWord n (2 * i))

/-- A memory port as SENSORREAD shows it: corrected errors, mitigation stalls and training stalls (R365, R367, R370). (DESIGN CHOICE, log 17) -/
def State.portWords (s : State) (p : Nat) : List W64 :=
  let y := s.port p
  [BitVec.ofNat 64 y.corrected, BitVec.ofNat 64 y.mitStall, BitVec.ofNat 64 y.trainStall]

/-- The SRAM errors corrected at the tiles, in ascending number (R368). (DESIGN CHOICE, log 17) -/
def State.softWordsFixed (s : State) : List W64 := (List.range 1920).map fun t => BitVec.ofNat 64 (s.tile t).softFixed

/-- `SENSORREAD`: latest value, lowest and highest of each sensor, in ascending number, then the telemetry of the memory (R387, R365, R370,
24_fleet_operation.md R404). (DESIGN CHOICE, log 13) -/
def execSensorread (s : State) : Host.Outcome State Fault Refusal :=
  .next (s.command 0x11 0 fun s _ =>
    s.respond ((List.range sensorCount).flatMap s.sensorWords ++ (List.range 128).flatMap s.portWords ++
      (List.range 512).flatMap s.channelWords ++ s.softWordsFixed))

/-- The entries of the event log from an index on, as far as it is held and the response buffer reaches, 64 bytes each. -/
def State.logFrom (s : State) (i : Nat) : List W64 :=
  let m := s.mgmt
  let first := max i (m.logCount - 65536)
  (List.range (min 4096 (m.logCount - first))).flatMap fun j => m.log.get [] ((first + j) % 65536) ++ [0, 0, 0, 0]

/-- `LOGREAD` (R387). (DESIGN CHOICE, log 13) -/
def execLogread (s : State) : Host.Outcome State Fault Refusal :=
  .next (s.command 0x12 1 fun s d => s.respond (s.logFrom (d 0).toNat))

/-- The four dwords of a record. -/
def recDwords (r : W256) : List W64 := [r.extractLsb' 0 64, r.extractLsb' 64 64, r.extractLsb' 128 64, r.extractLsb' 192 64]

/-- `ALMANACREAD`: the records from a sequence number on (24_fleet_operation.md R395). (DESIGN CHOICE, log 13) -/
def execAlmanacread (s : State) : Host.Outcome State Fault Refusal :=
  .next (s.command 0x30 1 fun s d => s.respond ((s.mgmt.almA.drop (d 0).toNat).flatMap recDwords))

/-! ## Replay (R390, R391) -/

/-- `REPLAYCFG`: launch queue, buffer address and size in entries; the buffer starts empty, and the captures of other queues go on
(R390). (DESIGN CHOICE, log 13) -/
def execReplaycfg (s : State) : Host.Outcome State Fault Refusal :=
  .next (s.command 0x20 1 fun s d =>
    let a := (d 1).toNat
    if 16 ≤ (d 0).toNat ∨ a % 32 ≠ 0 ∨ 2 ^ 40 < a + 32 * (d 2).toNat ∨ d 2 = 0 then s.refuse
    else
      let c : Capture := { lq := (d 0).toNat, addr := a, size := (d 2).toNat }
      let s := { s with mgmt := { s.mgmt with captures := (s.mgmt.captures.filter fun (x : Capture) => x.lq != c.lq && x.addr != a) ++ [c] } }
      (s.captWrite [(a, 16, 0)]).mailboxDone 0)

/-- `REPLAYLOAD`: host tag, address and size in entries of a capture (R391); whether its run can be replayed is seen when the record is placed
(R392). (DESIGN CHOICE, log 13) -/
def execReplayload (s : State) : Host.Outcome State Fault Refusal :=
  .next (s.command 0x21 1 fun s d =>
    let a := (d 1).toNat
    if 2 ^ 16 ≤ (d 0).toNat ∨ a % 32 ≠ 0 ∨ 2 ^ 40 < a + 32 * (d 2).toNat then s.refuse
    else
      let l := s.mgmt.replay.filter fun e => e.1 != (d 0).toNat
      ({ s with mgmt := { s.mgmt with replay := ((d 0).toNat, a, (d 2).toNat) :: l } }).mailboxDone 0)

/-! ## Firmware update (R384) -/

/-- Bytes that a slot of a stage holds (R382, 24_fleet_operation.md R404). (DESIGN CHOICE, log 14) -/
def slotBytes (stage : Nat) : Nat := if stage = 1 then 65536 else 4194304

/-- `FIRMWARE_UPDATE`: an image goes into the inactive slot of its component and, once verified, is the one the next reset takes (R384). -/
def execFirmwareUpdate (comp : BitVec 2) (sec : BitVec 64) (body : List (BitVec 8)) (sig : BitVec 64) (s : State) :
    Host.Outcome State Fault Refusal :=
  .next
    (let m := s.mgmt
    let st := comp.toNat
    let f : Firmware := { sec := sec.toNat, body := body, sig := sig }
    if (st ≠ 1 ∧ st ≠ 2) ∨ sec.toNat < m.fuse ∨ slotBytes st < 8 + body.length then s
    else
      let slot := 1 - m.active.get 0 st
      let m : Mgmt := { m with fw := m.fw.set (fwKey st slot) f }
      { s with mgmt := { m with next := m.next.set st (if f.check m.fuse = 0 then slot else m.active.get 0 st) } })

/-! ## Attestation (R385): the reply as dwords, the first its code; each exchange joins the transcript -/

/-- Codes of the responses of SPDM 1.2. (PRESUMED, log 16) -/
def spdmVersion : W64 := 0x04
def spdmCapabilities : W64 := 0x61
def spdmAlgorithms : W64 := 0x63
def spdmDigests : W64 := 0x01
def spdmCertificate : W64 := 0x02
def spdmChallengeAuth : W64 := 0x03
def spdmMeasurements : W64 := 0x60
def spdmError : W64 := 0x7F

/-- A request and its reply. (PRESUMED, log 16) -/
def State.spdm (s : State) (req reply : List W64) : State :=
  { s with mgmt := { s.mgmt with spdmReply := reply, spdmTranscript := s.mgmt.spdmTranscript ++ req ++ reply } }

/-- Are version and algorithms agreed? -/
def State.negotiated (s : State) : Bool := s.mgmt.spdmVersion && s.mgmt.spdmAlgs != 0

/-- The dwords of a digest or a nonce. -/
def wideDwords {n : Nat} (d : BitVec n) : List W64 := (List.range (n / 64)).map fun i => d.extractLsb' (64 * i) 64

/-- A reply with the signature over the SHA3-512 hash of the transcript so far, the request and the reply (R385). (PRESUMED, log 16) -/
def State.signed (s : State) (req reply : List W64) : List W64 :=
  reply ++ [Config.falconSign (Config.sha3 ((s.mgmt.spdmTranscript ++ req ++ reply).flatMap dwordBytes))]

/-- The certificate chain of slot 0. -/
def certBytes (off len : Nat) : List (BitVec 8) :=
  (List.range (min len (Config.certificateLength - off))).map fun i => Config.certificate (off + i)

/-- `GET_VERSION`: version 1.2; a new exchange begins. (PRESUMED, log 16) -/
def execGetVersion (s : State) : Host.Outcome State Fault Refusal :=
  .next
    (let s := { s with mgmt := { s.mgmt with spdmVersion := true, spdmAlgs := 0, spdmTranscript := [] } }
    s.spdm [0x84] [spdmVersion, 0x12])

/-- `GET_CAPABILITIES`: certificates, challenge, and measurements with signature. (PRESUMED, log 16) -/
def execGetCapabilities (s : State) : Host.Outcome State Fault Refusal :=
  .next (s.spdm [0xE1] (if s.mgmt.spdmVersion then [spdmCapabilities, 0x16] else [spdmError]))

/-- `NEGOTIATE_ALGORITHMS`: Falcon-1024 (bit 0 of the offer) and SHA3-512 (bit 1), or none. (PRESUMED, log 16) -/
def execNegotiateAlgorithms (algs : BitVec 32) (s : State) : Host.Outcome State Fault Refusal :=
  .next
    (let req : List W64 := [0xE3, algs.setWidth 64]
    if s.mgmt.spdmVersion = true ∧ algs &&& 3 = 3 then
      ({ s with mgmt := { s.mgmt with spdmAlgs := 3 } }).spdm req [spdmAlgorithms, 3]
    else s.spdm req [spdmError])

/-- `GET_DIGESTS`: the digest of the chain of slot 0. (PRESUMED, log 16) -/
def execGetDigests (s : State) : Host.Outcome State Fault Refusal :=
  .next (s.spdm [0x81] (if s.negotiated then
    [spdmDigests, 1] ++ wideDwords (Config.sha3 (certBytes 0 Config.certificateLength)) else [spdmError]))

/-- `GET_CERTIFICATE`: bytes of the chain of slot 0. (PRESUMED, log 16) -/
def execGetCertificate (slot : BitVec 8) (off len : BitVec 16) (s : State) : Host.Outcome State Fault Refusal :=
  .next
    (let req : List W64 := [0x82, slot.setWidth 64, off.setWidth 64, len.setWidth 64]
    s.spdm req (if s.negotiated = true ∧ slot = 0 then
      [spdmCertificate, 0] ++ (certBytes off.toNat len.toNat).map (BitVec.setWidth 64) else [spdmError]))

/-- `CHALLENGE`: a signed response. (PRESUMED, log 16) -/
def execChallenge (slot : BitVec 8) (nonce : BitVec 256) (s : State) : Host.Outcome State Fault Refusal :=
  .next
    (let req : List W64 := [0x83, slot.setWidth 64] ++ wideDwords nonce
    s.spdm req (if s.negotiated = true ∧ slot = 0 then
      s.signed req ([spdmChallengeAuth, 0] ++ wideDwords (Config.sha3 (certBytes 0 Config.certificateLength))) else [spdmError]))

/-- The measurement blocks that an operation names: all for 0xFF, else the one. (PRESUMED, log 16) -/
def State.measBlocks (s : State) (op : Nat) : List W64 :=
  ((List.range 6).filter fun i => op = 0xFF ∨ op = i + 1).flatMap fun i =>
    BitVec.ofNat 64 (i + 1) :: wideDwords (s.mgmt.meas.get 0 (i + 1))

/-- `GET_MEASUREMENTS`: their number for operation 0, else signed blocks; an index without a block is an error. (PRESUMED, log 16) -/
def execGetMeasurements (op : BitVec 8) (nonce : BitVec 256) (s : State) : Host.Outcome State Fault Refusal :=
  .next
    (let req : List W64 := [0xE0, op.setWidth 64] ++ wideDwords nonce
    let known := op = 0 ∨ op = 0xFF ∨ op.toNat ≤ 6
    s.spdm req (if s.negotiated = true ∧ known then s.signed req ([spdmMeasurements, 6] ++ s.measBlocks op.toNat) else [spdmError]))

/-! ## Sensors and power (R387, R389) -/

def State.sensorNow (s : State) (i : Nat) : Nat := (s.mgmt.sensors.get {} i).now.toNat

/-- A sample of a sensor: latest value and extremes since reset. -/
def Sensor.sample (x : Sensor) (v : BitVec 32) : Sensor :=
  if x.seen then { now := v, lo := if v.ult x.lo then v else x.lo, hi := if x.hi.ult v then v else x.hi, seen := true }
  else { now := v, lo := v, hi := v, seen := true }

/-- What the sensors show now, where no input gives it (R387). (DESIGN CHOICE, log 17) -/
def State.readings (s : State) : List (BitVec 32) := (List.range sensorCount).map fun i => Config.reading i (s.cycle / cyclesPerMs)

/-- `SENSOR_SAMPLE`: every sensor is sampled, in ascending number, in a cycle that begins a millisecond; those that the input does not give show
what they read (R387). (DESIGN CHOICE, log 17) -/
def execSensorSample (vals : List (BitVec 32)) (s : State) : Host.Outcome State Fault Refusal :=
  .next
    (if s.cycle % cyclesPerMs ≠ 0 then s
    else
      let vals := vals ++ s.readings.drop vals.length
      { s with mgmt := { s.mgmt with
      sensors := ((List.range vals.length).zip vals).foldl (fun (m : AMap Sensor) v => m.set v.1 ((m.get {} v.1).sample v.2)) s.mgmt.sensors } })

/-- The throttle level that the loop sets (R389). (DEDUCED, log 69) -/
def nextLevel (n power cap : Nat) : Nat :=
  if cap < power then max (n - 1) 2 else if power * 100 < 95 * cap then min (n + 1) 16 else n

/-- The level in force on a die. (DEDUCED, log 69) -/
def State.dieThrottle (s : State) (d : Nat) : Nat := min s.mgmt.level (s.mgmt.dieLevel.get 16 d)

/-- The first point of a die at or above a temperature, in 1/16 degrees. (DESIGN CHOICE, log 17) -/
def State.hotPoint (s : State) (d t : Nat) : Option Nat := (List.range 16).find? fun i => decide (t ≤ s.sensorNow (16 * d + i))

/-- A thermal event of a die (R388). -/
def State.heatEvent (s : State) (kind d : Nat) (p : Option Nat) : State :=
  match p with
  | none => s
  | some i => s.mgmtEvent kind d i (BitVec.ofNat 64 (s.sensorNow (16 * d + i))) 0

/-- Event 0x32 for a changed level, of all dies or else of the first die whose own level changed, at most once a second (R389). (DEDUCED,
log 69) -/
def State.levelEvent (s : State) (old : Nat) (dies : List Nat) : State :=
  let recent := match s.mgmt.lastLevelEvent with | none => false | some c => decide (s.cycle < c + 1000 * cyclesPerMs)
  let changed : Option (Nat × Nat) :=
    if old ≠ s.mgmt.level then some (s.mgmt.level, 0xF) else dies.head?.map fun d => (s.dieThrottle d, d)
  match changed with
  | none => s
  | some (n, d) =>
    if recent then s
    else
      ({ s with mgmt := { s.mgmt with lastLevelEvent := some s.cycle } }).mgmtEvent 0x32 n d
        (BitVec.ofNat 64 (s.sensorNow powerSensor)) (BitVec.ofNat 64 s.mgmt.cap)

/-- `THROTTLE_UPDATE`: the level follows module power and cap; a die at 105 °C is held to 4; one at 120 °C trips: device error, and the
tiles' supplies go off (R389). (DESIGN CHOICE, log 17) -/
def execThrottleUpdate (s : State) : Host.Outcome State Fault Refusal :=
  .next
    (let m := s.mgmt
    let n := nextLevel m.level (s.sensorNow powerSensor) m.cap
    let hot := (List.range 4).filter fun d => (s.hotPoint d 1680).isSome
    let s' := { s with mgmt := { m with level := n, dieLevel := hot.map fun d => (d, min n 4) } }
    let dies := (List.range 4).filter fun d => s'.dieThrottle d != s.dieThrottle d
    let s' := hot.foldl (fun s d => s.heatEvent 0x33 d (s.hotPoint d 1680)) (s'.levelEvent m.level dies)
    let trips := (List.range 4).filter fun d => (s.hotPoint d 1920).isSome
    if trips = [] then s'
    else
      let u := trips.foldl (fun s d => s.heatEvent 0x34 d (s.hotPoint d 1920)) s'
      { { u with unownedError := u.unownedError || !u.deviceError }.failDevice with tilesOff := true })

end Sys2Proof.Machine
end

