-- ==== Sys2Proof/Machine/Vector.lean ====
section
/-! DEFINITION. Vector instructions (13_vector_instructions.md R243 to R260). -/

namespace Sys2Proof.Machine

/-! ## Shapes -/

/-- The width fault of a type at VCFG.W (R112, R246). -/
def typeFault (t : BitVec 2) (c : Ctx) : Bool := (etyOf t.toNat c.laneW).isNone

/-- The value of a lane as a signed or unsigned integer (R243). -/
def laneVal (sg : Bool) (w x : Nat) : Int := if sg then sext x w else x

/-- An operation on integer lanes: width, signedness, operands; result bits and flags. -/
abbrev IntOp := Nat → Bool → Nat → Nat → FRes

/-- A form that computes an exact integer and wraps. -/
def wrapOp (f : Int → Int → Int) : IntOp := fun w sg a b => (low (f (laneVal sg w a) (laneVal sg w b)) w, 0)

/-- A form that saturates (R248). -/
def satOp (f : Int → Int → Int) : IntOp := fun w sg a b =>
  let r := clampTo sg w (f (laneVal sg w a) (laneVal sg w b))
  (low r.1 w, r.2)

/-- A form on bits. -/
def bitOp (f : Nat → Nat → Nat → Nat) : IntOp := fun w _ a b => (f w a b % 2 ^ w, 0)

/-- Write the masked result of a lane function and OR the flags of its active lanes. -/
def State.putLanes (s : State) (d : BitVec 5) (k : BitVec 3) (g : Nat → FRes) : Res :=
  let w := s.me.laneW
  let n := s.me.laneN
  .ok ((s.putV d (s.masked d k w n fun l => (g l).1)).flags (laneFlags (s.me.k k.toNat) (fun l => (g l).2) n))

/-- vd = f(va, vb) by lane (R248). -/
def State.vint2 (s : State) (f : IntOp) (d a b : BitVec 5) (k : BitVec 3) (t : BitVec 2) : State :=
  s.issue 4 [rd a, rd b] (fun _ => true) [d] (typeFault t) fun x s =>
    let w := s.me.laneW
    s.putLanes d k fun l => f w (t == 0#2) (lane (x 0) w l) (lane (x 1) w l)

/-- vd = f(va) by lane (R248). -/
def State.vint1 (s : State) (f : IntOp) (d a : BitVec 5) (k : BitVec 3) (t : BitVec 2) : State :=
  s.issue 4 [rd a] (fun _ => true) [d] (typeFault t) fun x s =>
    let w := s.me.laneW
    s.putLanes d k fun l => f w (t == 0#2) (lane (x 0) w l) 0

/-- The VALUS form (R249): one scalar or immediate serves every lane. -/
def State.vint2s (s : State) (f : IntOp) (d a b : BitVec 5) (im : BitVec 1) (k : BitVec 3) (t : BitVec 2) : State :=
  if im = 1#1 then
    s.issue 4 [rd a] (fun _ => true) [d] (typeFault t) fun x s =>
      let w := s.me.laneW
      let v := if t = 0#2 then low b.toInt w else b.toNat
      s.putLanes d k fun l => f w (t == 0#2) (lane (x 0) w l) v
  else
    s.issue 4 [rd a, rd b] (fun i => i == 0) [d] (typeFault t) fun x s =>
      let w := s.me.laneW
      s.putLanes d k fun l => f w (t == 0#2) (lane (x 0) w l) (lane (x 1) w 0)

/-- The float format of a type code at a lane width (R112). -/
def fmtOf (t : BitVec 2) (w : Nat) : Fmt := if t = 3#2 then fmtB16 else if w = 16 then fmtF16 else fmtF32

/-- vd = f(va, vb) by float lane (R250). -/
def State.vflt2 (s : State) (f : Fmt → Nat → Nat → FRes) (d a b : BitVec 5) (k : BitVec 3) (t : BitVec 2) : State :=
  s.issue 4 [rd a, rd b] (fun _ => true) [d] (typeFault t) fun x s =>
    let w := s.me.laneW
    s.putLanes d k fun l => f (fmtOf t w) (lane (x 0) w l) (lane (x 1) w l)

/-- vd = f(va) by float lane (R250). -/
def State.vflt1 (s : State) (f : Fmt → Nat → FRes) (d a : BitVec 5) (k : BitVec 3) (t : BitVec 2) : State :=
  s.issue 4 [rd a] (fun _ => true) [d] (typeFault t) fun x s =>
    let w := s.me.laneW
    s.putLanes d k fun l => f (fmtOf t w) (lane (x 0) w l)

/-- vd = va·vb ± vc by float lane, rounded once (R251). -/
def State.vflt3 (s : State) (sub : Bool) (d a b c : BitVec 5) (k : BitVec 3) (t : BitVec 2) : State :=
  s.issue 4 [rd a, rd b, rd c] (fun _ => true) [d] (typeFault t) fun x s =>
    let w := s.me.laneW
    let f := fmtOf t w
    s.putLanes d k fun l =>
      let z := f.read (lane (x 2) w l)
      fMulAdd f (f.read (lane (x 0) w l)) (f.read (lane (x 1) w l)) (if sub then z.neg else z)

/-- An untyped form that selects, for each destination lane, a value from two operands (R254, R257, R258). -/
def State.vpick (s : State) (srcs : List Src) (vec : Nat → Bool) (d : BitVec 5) (k : BitVec 3) (f : Nat → Nat → (Nat → W256) → Nat → Nat) :
    State :=
  s.issue 4 srcs vec [d] (fun _ => false) fun x s => s.putLanes d k fun l => (f s.me.laneW s.me.laneN x l, 0)

/-- A slide by `n` lanes up or down (R254). -/
def slid (up : Bool) (v : W256) (w n m l : Nat) : Nat :=
  if up then (if m ≤ l then lane v w (l - m) else 0) else if l + m < n then lane v w (l + m) else 0

/-- The active lanes of a mask at the present width, ascending. -/
def State.lanesOn (s : State) (k : BitVec 3) : List Nat := (List.range s.me.laneN).filter fun l => (s.me.k k.toNat).getLsbD l

/-- The operand lanes that a reduction takes (R255). -/
def State.reduced (s : State) (x : W256) (k : BitVec 3) : List Nat :=
  (s.lanesOn k).map (lane x s.me.laneW)

/-- A reduction into lane 0; every other bit is zero (R255). -/
def State.vreduce (s : State) (f : Nat → BitVec 2 → List Nat → FRes) (d a : BitVec 5) (k : BitVec 3) (t : BitVec 2) : State :=
  s.issue 4 [rd a] (fun _ => true) [d] (typeFault t) fun x s =>
    let r := f s.me.laneW t (s.reduced (x 0) k)
    .ok ((s.putV d (BitVec.ofNat 256 r.1)).flags r.2)

/-- The smallest or largest of the active lanes (R255). -/
def extreme (isMax : Bool) (w : Nat) (t : BitVec 2) (xs : List Nat) : FRes :=
  if t.toNat < 2 then
    let sg := t == 0#2
    let start : Int := if isMax then intMin sg w else intMax sg w
    (low (xs.foldl (fun acc x => let v := laneVal sg w x; if isMax then max acc v else min acc v) start) w, 0)
  else
    let f := fmtOf t w
    match xs with
    | [] => (f.inf isMax, 0)
    | x :: r =>
      let v := r.foldl (fun acc y => (fMinMax f isMax acc y).1) x
      (if (f.read v).isNan then f.nan else v, if xs.any fun y => f.read y = .nan true then flInvalid else 0)

/-- Mask registers: kd = f(ka, kb) (R256). -/
def State.mask2 (s : State) (f : BitVec 32 → BitVec 32 → BitVec 32) (d a b : BitVec 3) : State :=
  s.issueS 4 [] [] fun _ s => .ok (s.setMe (s.me.setK d.toNat (f (s.me.k a.toNat) (s.me.k b.toNat))))

/-- The comparison of a condition code of R259 on two lanes, with its flags. -/
def compareLanes (c : BitVec 3) (w : Nat) (t : BitVec 2) (a b : Nat) : Bool × BitVec 6 :=
  if t.toNat < 2 then
    let sg := t == 0#2
    let x := laneVal sg w a
    let y := laneVal sg w b
    (match c.toNat with
      | 0 => decide (x = y) | 1 => decide (x ≠ y) | 2 => decide (x < y) | 3 => decide (x ≤ y) | 4 => decide (y < x)
      | _ => decide (y ≤ x), 0)
  else
    let f := fmtOf t w
    let x := f.read a
    let y := f.read b
    let un := x.isNan || y.isNan
    let r := fCmp x y
    (match c.toNat with
      | 0 => !un && decide (r = 0) | 1 => un || decide (r ≠ 0) | 2 => !un && decide (r < 0) | 3 => !un && decide (r ≤ 0)
      | 4 => !un && decide (0 < r) | 5 => !un && decide (0 ≤ r) | _ => un,
     if sigFlag x y y ≠ 0 ∨ (un = true ∧ 2 ≤ c.toNat ∧ c.toNat ≤ 5) then flInvalid else 0)

/-! ## Integer arithmetic (R248, R249) -/

/-- The lane operation of `vadd`: fit(a + b) (R248). -/
def opVadd : IntOp := wrapOp fun a b => a + b

/-- The lane operation of `vsub`: fit(a − b) (R248). -/
def opVsub : IntOp := wrapOp fun a b => a - b

/-- The lane operation of `vmul`: fit(a · b) (R248). -/
def opVmul : IntOp := wrapOp fun a b => a * b

/-- The lane operation of `vmulh`: bits 2w − 1 to w of a · b (R248). -/
def opVmulh : IntOp := fun w sg a b => (low (Int.fdiv (laneVal sg w a * laneVal sg w b) (2 ^ w : Nat)) w, 0)

/-- The lane operation of `vmin`: the smaller (R248). -/
def opVmin : IntOp := wrapOp fun a b => min a b

/-- The lane operation of `vmax`: the larger (R248). -/
def opVmax : IntOp := wrapOp fun a b => max a b

/-- The lane operation of `vadds`: a + b, saturating (R248). -/
def opVadds : IntOp := satOp fun a b => a + b

/-- The lane operation of `vsubs`: a − b, saturating (R248). -/
def opVsubs : IntOp := satOp fun a b => a - b

/-- The lane operation of `vavg`: floor((a + b + 1) / 2) (R248). -/
def opVavg : IntOp := wrapOp fun a b => Int.fdiv (a + b + 1) 2

/-- The lane operation of `vabsd`: fit(|a − b|) (R248). -/
def opVabsd : IntOp := wrapOp fun a b => (a - b).natAbs

/-- The lane operation of `vand`: a & b (R248). -/
def opVand : IntOp := bitOp fun _ a b => a &&& b

/-- The lane operation of `vor`: a | b (R248). -/
def opVor : IntOp := bitOp fun _ a b => a ||| b

/-- The lane operation of `vxor`: a ^ b (R248). -/
def opVxor : IntOp := bitOp fun _ a b => a ^^^ b

/-- The lane operation of `vandn`: a & ~b (R248). -/
def opVandn : IntOp := bitOp fun w a b => a &&& (2 ^ w - 1 - b)

/-- The lane operation of `vshl`: fit(a · 2^s) (R248). -/
def opVshl : IntOp := bitOp fun w a b => a * 2 ^ (b % w)

/-- The lane operation of `vshr`: floor(a / 2^s) (R248). -/
def opVshr : IntOp := fun w sg a b => (low (Int.fdiv (laneVal sg w a) (2 ^ (b % w) : Nat)) w, 0)

/-- The lane operation of `vdiv`: quotient under R114 (R248). -/
def opVdiv : IntOp := fun w sg a b => (low (divide w sg (laneVal sg w a) (laneVal sg w b)) w, 0)

/-- The lane operation of `vrem`: remainder under R114 (R248). -/
def opVrem : IntOp := wrapOp fun a b => remainder a b

/-- The lane operation of `vmuls`: a · b, saturating (R248). -/
def opVmuls : IntOp := satOp fun a b => a * b

/-- `vadd` (R248). -/
def execVadd (d a b : BitVec 5) (k : BitVec 3) (t : BitVec 2) (s : State) : Host.Outcome State Fault Refusal := .next (s.vint2 opVadd d a b k t)

/-- `vsub` (R248). -/
def execVsub (d a b : BitVec 5) (k : BitVec 3) (t : BitVec 2) (s : State) : Host.Outcome State Fault Refusal := .next (s.vint2 opVsub d a b k t)

/-- `vmul` (R248). -/
def execVmul (d a b : BitVec 5) (k : BitVec 3) (t : BitVec 2) (s : State) : Host.Outcome State Fault Refusal := .next (s.vint2 opVmul d a b k t)

/-- `vmulh` (R248). -/
def execVmulh (d a b : BitVec 5) (k : BitVec 3) (t : BitVec 2) (s : State) : Host.Outcome State Fault Refusal := .next (s.vint2 opVmulh d a b k t)

/-- `vmin` (R248). -/
def execVmin (d a b : BitVec 5) (k : BitVec 3) (t : BitVec 2) (s : State) : Host.Outcome State Fault Refusal := .next (s.vint2 opVmin d a b k t)

/-- `vmax` (R248). -/
def execVmax (d a b : BitVec 5) (k : BitVec 3) (t : BitVec 2) (s : State) : Host.Outcome State Fault Refusal := .next (s.vint2 opVmax d a b k t)

/-- `vadds` (R248). -/
def execVadds (d a b : BitVec 5) (k : BitVec 3) (t : BitVec 2) (s : State) : Host.Outcome State Fault Refusal := .next (s.vint2 opVadds d a b k t)

/-- `vsubs` (R248). -/
def execVsubs (d a b : BitVec 5) (k : BitVec 3) (t : BitVec 2) (s : State) : Host.Outcome State Fault Refusal := .next (s.vint2 opVsubs d a b k t)

/-- `vavg` (R248). -/
def execVavg (d a b : BitVec 5) (k : BitVec 3) (t : BitVec 2) (s : State) : Host.Outcome State Fault Refusal := .next (s.vint2 opVavg d a b k t)

/-- `vabsd` (R248). -/
def execVabsd (d a b : BitVec 5) (k : BitVec 3) (t : BitVec 2) (s : State) : Host.Outcome State Fault Refusal := .next (s.vint2 opVabsd d a b k t)

/-- `vand` (R248). -/
def execVand (d a b : BitVec 5) (k : BitVec 3) (t : BitVec 2) (s : State) : Host.Outcome State Fault Refusal := .next (s.vint2 opVand d a b k t)

/-- `vor` (R248). -/
def execVor (d a b : BitVec 5) (k : BitVec 3) (t : BitVec 2) (s : State) : Host.Outcome State Fault Refusal := .next (s.vint2 opVor d a b k t)

/-- `vxor` (R248). -/
def execVxor (d a b : BitVec 5) (k : BitVec 3) (t : BitVec 2) (s : State) : Host.Outcome State Fault Refusal := .next (s.vint2 opVxor d a b k t)

/-- `vandn` (R248). -/
def execVandn (d a b : BitVec 5) (k : BitVec 3) (t : BitVec 2) (s : State) : Host.Outcome State Fault Refusal := .next (s.vint2 opVandn d a b k t)

/-- `vshl` (R248). -/
def execVshl (d a b : BitVec 5) (k : BitVec 3) (t : BitVec 2) (s : State) : Host.Outcome State Fault Refusal := .next (s.vint2 opVshl d a b k t)

/-- `vshr` (R248). -/
def execVshr (d a b : BitVec 5) (k : BitVec 3) (t : BitVec 2) (s : State) : Host.Outcome State Fault Refusal := .next (s.vint2 opVshr d a b k t)

/-- `vdiv` (R248). -/
def execVdiv (d a b : BitVec 5) (k : BitVec 3) (t : BitVec 2) (s : State) : Host.Outcome State Fault Refusal := .next (s.vint2 opVdiv d a b k t)

/-- `vrem` (R248). -/
def execVrem (d a b : BitVec 5) (k : BitVec 3) (t : BitVec 2) (s : State) : Host.Outcome State Fault Refusal := .next (s.vint2 opVrem d a b k t)

/-- `vneg`: fit(−a) (R248). -/
def execVneg (d a : BitVec 5) (k : BitVec 3) (t : BitVec 2) (s : State) : Host.Outcome State Fault Refusal := .next (s.vint1 (wrapOp fun a _ => -a) d a k t)

/-- `vabs`: fit(|a|) (R248). -/
def execVabs (d a : BitVec 5) (k : BitVec 3) (t : BitVec 2) (s : State) : Host.Outcome State Fault Refusal := .next (s.vint1 (wrapOp fun a _ => a.natAbs) d a k t)

/-- `vmuls` (R248). -/
def execVmuls (d a b : BitVec 5) (k : BitVec 3) (t : BitVec 2) (s : State) : Host.Outcome State Fault Refusal := .next (s.vint2 opVmuls d a b k t)

/-- `vadd.sc` and `vadd.im` (R249). -/
def execValusVadd (d a b : BitVec 5) (x : BitVec 1) (k : BitVec 3) (t : BitVec 2) (s : State) : Host.Outcome State Fault Refusal :=
  .next (s.vint2s opVadd d a b x k t)

/-- `vsub.sc` and `vsub.im` (R249). -/
def execValusVsub (d a b : BitVec 5) (x : BitVec 1) (k : BitVec 3) (t : BitVec 2) (s : State) : Host.Outcome State Fault Refusal :=
  .next (s.vint2s opVsub d a b x k t)

/-- `vmul.sc` and `vmul.im` (R249). -/
def execValusVmul (d a b : BitVec 5) (x : BitVec 1) (k : BitVec 3) (t : BitVec 2) (s : State) : Host.Outcome State Fault Refusal :=
  .next (s.vint2s opVmul d a b x k t)

/-- `vmulh.sc` and `vmulh.im` (R249). -/
def execValusVmulh (d a b : BitVec 5) (x : BitVec 1) (k : BitVec 3) (t : BitVec 2) (s : State) : Host.Outcome State Fault Refusal :=
  .next (s.vint2s opVmulh d a b x k t)

/-- `vmin.sc` and `vmin.im` (R249). -/
def execValusVmin (d a b : BitVec 5) (x : BitVec 1) (k : BitVec 3) (t : BitVec 2) (s : State) : Host.Outcome State Fault Refusal :=
  .next (s.vint2s opVmin d a b x k t)

/-- `vmax.sc` and `vmax.im` (R249). -/
def execValusVmax (d a b : BitVec 5) (x : BitVec 1) (k : BitVec 3) (t : BitVec 2) (s : State) : Host.Outcome State Fault Refusal :=
  .next (s.vint2s opVmax d a b x k t)

/-- `vadds.sc` and `vadds.im` (R249). -/
def execValusVadds (d a b : BitVec 5) (x : BitVec 1) (k : BitVec 3) (t : BitVec 2) (s : State) : Host.Outcome State Fault Refusal :=
  .next (s.vint2s opVadds d a b x k t)

/-- `vsubs.sc` and `vsubs.im` (R249). -/
def execValusVsubs (d a b : BitVec 5) (x : BitVec 1) (k : BitVec 3) (t : BitVec 2) (s : State) : Host.Outcome State Fault Refusal :=
  .next (s.vint2s opVsubs d a b x k t)

/-- `vavg.sc` and `vavg.im` (R249). -/
def execValusVavg (d a b : BitVec 5) (x : BitVec 1) (k : BitVec 3) (t : BitVec 2) (s : State) : Host.Outcome State Fault Refusal :=
  .next (s.vint2s opVavg d a b x k t)

/-- `vabsd.sc` and `vabsd.im` (R249). -/
def execValusVabsd (d a b : BitVec 5) (x : BitVec 1) (k : BitVec 3) (t : BitVec 2) (s : State) : Host.Outcome State Fault Refusal :=
  .next (s.vint2s opVabsd d a b x k t)

/-- `vand.sc` and `vand.im` (R249). -/
def execValusVand (d a b : BitVec 5) (x : BitVec 1) (k : BitVec 3) (t : BitVec 2) (s : State) : Host.Outcome State Fault Refusal :=
  .next (s.vint2s opVand d a b x k t)

/-- `vor.sc` and `vor.im` (R249). -/
def execValusVor (d a b : BitVec 5) (x : BitVec 1) (k : BitVec 3) (t : BitVec 2) (s : State) : Host.Outcome State Fault Refusal :=
  .next (s.vint2s opVor d a b x k t)

/-- `vxor.sc` and `vxor.im` (R249). -/
def execValusVxor (d a b : BitVec 5) (x : BitVec 1) (k : BitVec 3) (t : BitVec 2) (s : State) : Host.Outcome State Fault Refusal :=
  .next (s.vint2s opVxor d a b x k t)

/-- `vandn.sc` and `vandn.im` (R249). -/
def execValusVandn (d a b : BitVec 5) (x : BitVec 1) (k : BitVec 3) (t : BitVec 2) (s : State) : Host.Outcome State Fault Refusal :=
  .next (s.vint2s opVandn d a b x k t)

/-- `vshl.sc` and `vshl.im` (R249). -/
def execValusVshl (d a b : BitVec 5) (x : BitVec 1) (k : BitVec 3) (t : BitVec 2) (s : State) : Host.Outcome State Fault Refusal :=
  .next (s.vint2s opVshl d a b x k t)

/-- `vshr.sc` and `vshr.im` (R249). -/
def execValusVshr (d a b : BitVec 5) (x : BitVec 1) (k : BitVec 3) (t : BitVec 2) (s : State) : Host.Outcome State Fault Refusal :=
  .next (s.vint2s opVshr d a b x k t)

/-- `vdiv.sc` and `vdiv.im` (R249). -/
def execValusVdiv (d a b : BitVec 5) (x : BitVec 1) (k : BitVec 3) (t : BitVec 2) (s : State) : Host.Outcome State Fault Refusal :=
  .next (s.vint2s opVdiv d a b x k t)

/-- `vrem.sc` and `vrem.im` (R249). -/
def execValusVrem (d a b : BitVec 5) (x : BitVec 1) (k : BitVec 3) (t : BitVec 2) (s : State) : Host.Outcome State Fault Refusal :=
  .next (s.vint2s opVrem d a b x k t)

/-- `vmuls.sc` and `vmuls.im` (R249). -/
def execValusVmuls (d a b : BitVec 5) (x : BitVec 1) (k : BitVec 3) (t : BitVec 2) (s : State) : Host.Outcome State Fault Refusal :=
  .next (s.vint2s opVmuls d a b x k t)

/-! ## Float arithmetic (R250, R251) -/

/-- `vfadd` (R250). -/
def execVfadd (d a b : BitVec 5) (k : BitVec 3) (t : BitVec 2) (s : State) : Host.Outcome State Fault Refusal :=
  .next (s.vflt2 (fun f a b => fAdd f (f.read a) (f.read b)) d a b k t)

/-- `vfsub` (R250). -/
def execVfsub (d a b : BitVec 5) (k : BitVec 3) (t : BitVec 2) (s : State) : Host.Outcome State Fault Refusal :=
  .next (s.vflt2 (fun f a b => fAdd f (f.read a) (f.read b).neg) d a b k t)

/-- `vfmul` (R250). -/
def execVfmul (d a b : BitVec 5) (k : BitVec 3) (t : BitVec 2) (s : State) : Host.Outcome State Fault Refusal :=
  .next (s.vflt2 (fun f a b => fMul f (f.read a) (f.read b)) d a b k t)

/-- `vfdiv` (R250). -/
def execVfdiv (d a b : BitVec 5) (k : BitVec 3) (t : BitVec 2) (s : State) : Host.Outcome State Fault Refusal :=
  .next (s.vflt2 (fun f a b => fDiv f (f.read a) (f.read b)) d a b k t)

/-- `vfmin` (R250). -/
def execVfmin (d a b : BitVec 5) (k : BitVec 3) (t : BitVec 2) (s : State) : Host.Outcome State Fault Refusal :=
  .next (s.vflt2 (fun f a b => fMinMax f false a b) d a b k t)

/-- `vfmax` (R250). -/
def execVfmax (d a b : BitVec 5) (k : BitVec 3) (t : BitVec 2) (s : State) : Host.Outcome State Fault Refusal :=
  .next (s.vflt2 (fun f a b => fMinMax f true a b) d a b k t)

/-- `vfsqrt` (R250). -/
def execVfsqrt (d a : BitVec 5) (k : BitVec 3) (t : BitVec 2) (s : State) : Host.Outcome State Fault Refusal :=
  .next (s.vflt1 (fun f a => fSqrt f (f.read a)) d a k t)

/-- `vfrcp` (R250). -/
def execVfrcp (d a : BitVec 5) (k : BitVec 3) (t : BitVec 2) (s : State) : Host.Outcome State Fault Refusal :=
  .next (s.vflt1 (fun f a => fDiv f (.num false 1 0) (f.read a)) d a k t)

/-- `vfrsqrt` (R250). -/
def execVfrsqrt (d a : BitVec 5) (k : BitVec 3) (t : BitVec 2) (s : State) : Host.Outcome State Fault Refusal :=
  .next (s.vflt1 (fun f a => fRsqrt f (f.read a)) d a k t)

/-- `vfexp2` (R250). -/
def execVfexp2 (d a : BitVec 5) (k : BitVec 3) (t : BitVec 2) (s : State) : Host.Outcome State Fault Refusal :=
  .next (s.vflt1 (fun f a => fExp2 f (f.read a)) d a k t)

/-- `vflog2` (R250). -/
def execVflog2 (d a : BitVec 5) (k : BitVec 3) (t : BitVec 2) (s : State) : Host.Outcome State Fault Refusal :=
  .next (s.vflt1 (fun f a => fLog2 f (f.read a)) d a k t)

/-- `vfabs` (R250). -/
def execVfabs (d a : BitVec 5) (k : BitVec 3) (t : BitVec 2) (s : State) : Host.Outcome State Fault Refusal :=
  .next (s.vflt1 (fun f a => fSign f a false) d a k t)

/-- `vfneg` (R250). -/
def execVfneg (d a : BitVec 5) (k : BitVec 3) (t : BitVec 2) (s : State) : Host.Outcome State Fault Refusal :=
  .next (s.vflt1 (fun f a => fSign f a (decide (a < 2 ^ (f.eb + f.fb)))) d a k t)

/-- `vfsgnj`: a with the sign bit of lane(vb, l) (R250). -/
def execVfsgnj (d a b : BitVec 5) (k : BitVec 3) (t : BitVec 2) (s : State) : Host.Outcome State Fault Refusal :=
  .next (s.vflt2 (fun f a b => fSign f a (decide (2 ^ (f.eb + f.fb) ≤ b))) d a b k t)

/-- `vfma` (R251). -/
def execVfma (d a b c : BitVec 5) (k : BitVec 3) (t : BitVec 2) (s : State) : Host.Outcome State Fault Refusal := .next (s.vflt3 false d a b c k t)

/-- `vfms` (R251). -/
def execVfms (d a b c : BitVec 5) (k : BitVec 3) (t : BitVec 2) (s : State) : Host.Outcome State Fault Refusal := .next (s.vflt3 true d a b c k t)

/-! ## Integer multiply-accumulate and dot (R252) -/

/-- `vmac`: fit(c + a · b) (R252). -/
def execVmac (d a b c : BitVec 5) (k : BitVec 3) (t : BitVec 2) (s : State) : Host.Outcome State Fault Refusal :=
  .next (s.issue 4 [rd a, rd b, rd c] (fun _ => true) [d] (typeFault t) fun x s =>
    let w := s.me.laneW
    let v (i l : Nat) : Int := laneVal (t == 0#2) w (lane (x i) w l)
    s.putLanes d k fun l => (low (v 2 l + v 0 l * v 1 l) w, 0))

/-- `vdot`: products of the active source lanes, accumulated into eight 32-bit lanes (R252). -/
def execVdot (d a b c : BitVec 5) (k : BitVec 3) (t : BitVec 2) (s : State) : Host.Outcome State Fault Refusal :=
  .next (s.issue 4 [rd a, rd b, rd c] (fun _ => true) [d] (fun c => typeFault t c || c.laneW == 32) fun x s =>
    let w := s.me.laneW
    let g := 32 / w
    let m := s.me.k k.toNat
    let sg := t == 0#2
    .ok (s.putV d (vecOf 32 8 fun j =>
      low ((List.range g).foldl (fun acc i =>
        let l := g * j + i
        if m.getLsbD l then acc + laneVal sg w (lane (x 0) w l) * laneVal sg w (lane (x 1) w l) else acc)
        (laneVal sg 32 (lane (x 2) 32 j))) 32)))

/-! ## Conversions (R253) -/

/-- Is a type code legal at a width (R112, R253)? -/
def convType (code w : Nat) : Bool := (w == 8 || w == 16 || w == 32) && (etyOf code w).isSome

/-- One conversion between type codes at widths. -/
def convertAs (c : Conv) (src ws tgt wt x : Nat) : FRes :=
  convert c ((etyOf src ws).getD (.int true 8)) ((etyOf tgt wt).getD (.int true 8)) x

/-- `vcvt`, the same shape (R253). -/
def execVcvt (d a : BitVec 5) (x : BitVec 2) (k : BitVec 3) (t : BitVec 2) (s : State) : Host.Outcome State Fault Refusal :=
  .next (s.issue 4 [rd a] (fun _ => true) [d] (fun c => !convType t.toNat c.laneW || !convType x.toNat c.laneW) fun y s =>
    let w := s.me.laneW
    s.putLanes d k fun l => convertAs (convOf s.me.conv) t.toNat w x.toNat w (lane (y 0) w l))

/-- `vcvtn`, the narrow shape: half h of vd is written, the other keeps its value (R253). -/
def execVcvtn (d a : BitVec 5) (x : BitVec 2) (h : BitVec 1) (k : BitVec 3) (t : BitVec 2) (s : State) : Host.Outcome State Fault Refusal :=
  .next (s.issue 4 [rd a] (fun _ => true) [d] (fun c => !convType t.toNat c.laneW || !convType x.toNat (c.laneW / 2)) fun y s =>
    let w := s.me.laneW
    let n := s.me.laneN
    let m := s.me.k k.toNat
    let g (l : Nat) : FRes := convertAs (convOf s.me.conv) t.toNat w x.toNat (w / 2) (lane (y 0) w l)
    let v := vecOf (w / 2) (2 * n) fun j =>
      let l := j - h.toNat * n
      if h.toNat * n ≤ j ∧ l < n then (if m.getLsbD l then (g l).1 else s.keepLane d (w / 2) j) else lane (s.oldV d) (w / 2) j
    .ok ((s.putV d v).flags (laneFlags m (fun l => (g l).2) n)))

/-- `vcvtw`, the widen shape: the source is half h of va (R253). -/
def execVcvtw (d a : BitVec 5) (x : BitVec 2) (h : BitVec 1) (k : BitVec 3) (t : BitVec 2) (s : State) : Host.Outcome State Fault Refusal :=
  .next (s.issue 4 [rd a] (fun _ => true) [d] (fun c => !convType t.toNat (c.laneW / 2) || !convType x.toNat c.laneW) fun y s =>
    let w := s.me.laneW
    s.putLanes d k fun l =>
      convertAs (convOf s.me.conv) t.toNat (w / 2) x.toNat w (lane (y 0) (w / 2) (h.toNat * s.me.laneN + l)))

/-! ## Permute, slide and zip (R254) -/

/-- `vperm` (R254). -/
def execVperm (d a b : BitVec 5) (k : BitVec 3) (s : State) : Host.Outcome State Fault Refusal :=
  .next (s.vpick [rd a, rd b] (fun _ => true) d k fun w n x l => lane (x 0) w (lane (x 1) w l % n))

/-- `vslup` (R254). -/
def execVslup (d a b : BitVec 5) (k : BitVec 3) (s : State) : Host.Outcome State Fault Refusal :=
  .next (s.vpick [rd a, rd b] (fun i => i == 0) d k fun w n x l => slid true (x 0) w n ((x 1).toNat % 2 ^ 64) l)

/-- `vsldn` (R254). -/
def execVsldn (d a b : BitVec 5) (k : BitVec 3) (s : State) : Host.Outcome State Fault Refusal :=
  .next (s.vpick [rd a, rd b] (fun i => i == 0) d k fun w n x l => slid false (x 0) w n ((x 1).toNat % 2 ^ 64) l)

/-- `vslup.im` (R254). -/
def execVslupIm (d a i : BitVec 5) (k : BitVec 3) (s : State) : Host.Outcome State Fault Refusal :=
  .next (s.vpick [rd a] (fun _ => true) d k fun w n x l => slid true (x 0) w n i.toNat l)

/-- `vsldn.im` (R254). -/
def execVsldnIm (d a i : BitVec 5) (k : BitVec 3) (s : State) : Host.Outcome State Fault Refusal :=
  .next (s.vpick [rd a] (fun _ => true) d k fun w n x l => slid false (x 0) w n i.toNat l)

/-- `vzipl` (R254). -/
def execVzipl (d a b : BitVec 5) (k : BitVec 3) (s : State) : Host.Outcome State Fault Refusal :=
  .next (s.vpick [rd a, rd b] (fun _ => true) d k fun w _ x l => lane (x (l % 2)) w (l / 2))

/-- `vziph` (R254). -/
def execVziph (d a b : BitVec 5) (k : BitVec 3) (s : State) : Host.Outcome State Fault Refusal :=
  .next (s.vpick [rd a, rd b] (fun _ => true) d k fun w n x l => lane (x (l % 2)) w (n / 2 + l / 2))

/-- `vunzpe` (R254). -/
def execVunzpe (d a b : BitVec 5) (k : BitVec 3) (s : State) : Host.Outcome State Fault Refusal :=
  .next (s.vpick [rd a, rd b] (fun _ => true) d k fun w n x l =>
    if l < n / 2 then lane (x 0) w (2 * l) else lane (x 1) w (2 * l - n))

/-- `vunzpo` (R254). -/
def execVunzpo (d a b : BitVec 5) (k : BitVec 3) (s : State) : Host.Outcome State Fault Refusal :=
  .next (s.vpick [rd a, rd b] (fun _ => true) d k fun w n x l =>
    if l < n / 2 then lane (x 0) w (2 * l + 1) else lane (x 1) w (2 * l + 1 - n))

/-! ## Reductions (R255) -/

/-- The exact sum of lanes as integers. -/
def laneSum (w : Nat) (t : BitVec 2) (xs : List Nat) : Int := xs.foldl (fun acc x => acc + laneVal (t == 0#2) w x) 0

/-- `vrsum` (R255). -/
def execVrsum (d a : BitVec 5) (k : BitVec 3) (t : BitVec 2) (s : State) : Host.Outcome State Fault Refusal :=
  .next (s.vreduce (fun w t xs => (low (laneSum w t xs) w, 0)) d a k t)

/-- `vrmin` (R255). -/
def execVrmin (d a : BitVec 5) (k : BitVec 3) (t : BitVec 2) (s : State) : Host.Outcome State Fault Refusal :=
  .next (s.vreduce (extreme false) d a k t)

/-- `vrmax` (R255). -/
def execVrmax (d a : BitVec 5) (k : BitVec 3) (t : BitVec 2) (s : State) : Host.Outcome State Fault Refusal :=
  .next (s.vreduce (extreme true) d a k t)

/-- `vrand` (R255). -/
def execVrand (d a : BitVec 5) (k : BitVec 3) (t : BitVec 2) (s : State) : Host.Outcome State Fault Refusal :=
  .next (s.vreduce (fun w _ xs => (xs.foldl (fun a b => a &&& b) (2 ^ w - 1), 0)) d a k t)

/-- `vror` (R255). -/
def execVror (d a : BitVec 5) (k : BitVec 3) (t : BitVec 2) (s : State) : Host.Outcome State Fault Refusal :=
  .next (s.vreduce (fun _ _ xs => (xs.foldl (fun a b => a ||| b) 0, 0)) d a k t)

/-- `vrxor` (R255). -/
def execVrxor (d a : BitVec 5) (k : BitVec 3) (t : BitVec 2) (s : State) : Host.Outcome State Fault Refusal :=
  .next (s.vreduce (fun _ _ xs => (xs.foldl (fun a b => a ^^^ b) 0, 0)) d a k t)

/-- `vrfsum` (R255). -/
def execVrfsum (d a : BitVec 5) (k : BitVec 3) (t : BitVec 2) (s : State) : Host.Outcome State Fault Refusal :=
  .next (s.vreduce (fun w t xs => fSum (fmtOf t w) (xs.map (fmtOf t w).read)) d a k t)

/-- `vrsumw` (R255). -/
def execVrsumw (d a : BitVec 5) (k : BitVec 3) (t : BitVec 2) (s : State) : Host.Outcome State Fault Refusal :=
  .next (s.vreduce (fun w t xs => (low (laneSum w t xs) 64, 0)) d a k t)

/-! ## Masks, compress and expand (R256, R257) -/

/-- `kand` (R256). -/
def execKand (d a b : BitVec 3) (s : State) : Host.Outcome State Fault Refusal := .next (s.mask2 (fun a b => a &&& b) d a b)

/-- `kor` (R256). -/
def execKor (d a b : BitVec 3) (s : State) : Host.Outcome State Fault Refusal := .next (s.mask2 (fun a b => a ||| b) d a b)

/-- `kxor` (R256). -/
def execKxor (d a b : BitVec 3) (s : State) : Host.Outcome State Fault Refusal := .next (s.mask2 (fun a b => a ^^^ b) d a b)

/-- `kandn` (R256). -/
def execKandn (d a b : BitVec 3) (s : State) : Host.Outcome State Fault Refusal := .next (s.mask2 (fun a b => a &&& ~~~b) d a b)

/-- `knot` (R256). -/
def execKnot (d a : BitVec 3) (s : State) : Host.Outcome State Fault Refusal :=
  .next (s.issueS 4 [] [] fun _ s => .ok (s.setMe (s.me.setK d.toNat (~~~(s.me.k a.toNat)))))

/-- `kset` (R256). -/
def execKset (d : BitVec 3) (a : BitVec 5) (s : State) : Host.Outcome State Fault Refusal :=
  .next (s.issueS 4 [rd a] [] fun x s => .ok (s.setMe (s.me.setK d.toNat ((x 0).setWidth 32))))

/-- `kget` (R256). -/
def execKget (d : BitVec 5) (a : BitVec 3) (s : State) : Host.Outcome State Fault Refusal :=
  .next (s.issueS 4 [] [d] fun _ s => .ok (s.put d ((s.me.k a.toNat).setWidth 64)))

/-- `kcnt`: one bits among the first n of ka (R256). -/
def execKcnt (d : BitVec 5) (a : BitVec 3) (s : State) : Host.Outcome State Fault Refusal :=
  .next (s.issueS 4 [] [d] fun _ s => .ok (s.put d (BitVec.ofNat 64 (s.lanesOn a).length)))

/-- `vcomp`: the active lanes packed from lane 0, their count to a scalar (R257). -/
def execVcomp (d a b : BitVec 5) (k : BitVec 3) (s : State) : Host.Outcome State Fault Refusal :=
  .next (s.issue 4 [rd a] (fun _ => true) [d, b] (fun _ => false) fun x s =>
    let xs := s.reduced (x 0) k
    .ok ((s.putV d (vecOf s.me.laneW s.me.laneN fun l => xs.getD l 0)).put b (BitVec.ofNat 64 xs.length)))

/-- `vexp`: each active lane receives the lane numbered by the active lanes below it (R257). -/
def execVexp (d a : BitVec 5) (k : BitVec 3) (s : State) : Host.Outcome State Fault Refusal :=
  .next (s.issue 4 [rd a] (fun _ => true) [d] (fun _ => false) fun x s =>
    s.putLanes d k fun l => (lane (x 0) s.me.laneW ((s.lanesOn k).filter (· < l)).length, 0))

/-! ## Moves, insert, extract and configuration (R258) -/

/-- `vmov` (R258). -/
def execVmov (d a : BitVec 5) (k : BitVec 3) (s : State) : Host.Outcome State Fault Refusal :=
  .next (s.vpick [rd a] (fun _ => true) d k fun w _ x l => lane (x 0) w l)

/-- `vsplat` (R258). -/
def execVsplat (d a : BitVec 5) (k : BitVec 3) (s : State) : Host.Outcome State Fault Refusal :=
  .next (s.vpick [rd a] (fun _ => false) d k fun w _ x _ => lane (x 0) w 0)

/-- `vsplati` (R258). -/
def execVsplati (d : BitVec 5) (i : BitVec 10) (k : BitVec 3) (s : State) : Host.Outcome State Fault Refusal :=
  .next (s.vpick [] (fun _ => false) d k fun w _ _ _ => low i.toInt w)

/-- `vins`: lane idx mod n is written, the others keep their values (R258). -/
def execVins (d a x : BitVec 5) (s : State) : Host.Outcome State Fault Refusal :=
  .next (s.issue 4 [rd a] (fun _ => false) [d] (fun _ => false) fun y s =>
    let w := s.me.laneW
    let n := s.me.laneN
    .ok (s.putV d (vecOf w n fun l => if l = x.toNat % n then lane (y 0) w 0 else lane (s.me.v d.toNat) w l)))

/-- `vext`: lane idx mod n, sign-extended for I (R258). -/
def execVext (d a x : BitVec 5) (t : BitVec 2) (s : State) : Host.Outcome State Fault Refusal :=
  .next (s.issue 4 [rd a] (fun _ => true) [d] (typeFault t) fun y s =>
    let w := s.me.laneW
    .ok (s.put d (BitVec.ofInt 64 (laneVal (t == 0#2) w (lane (y 0) w (x.toNat % s.me.laneN))))))

/-- `vcfg`: VCFG = zm·4 + w (R258, R244). -/
def execVcfg (z : BitVec 1) (w : BitVec 2) (s : State) : Host.Outcome State Fault Refusal :=
  .next (s.issueS 4 [] [] fun _ s =>
    if w = 3#2 then .trap ⟨0x07, 0, 5⟩
    else .ok (s.setMe { s.me with vcfg := BitVec.ofNat 64 (z.toNat * 4 + w.toNat) }))

/-! ## Compare to mask (R259) -/

/-- `vcmp` (R259). -/
def execVcmp (d : BitVec 3) (a b : BitVec 5) (c : BitVec 3) (m : BitVec 2) (k : BitVec 3) (t : BitVec 2) (s : State) : Host.Outcome State Fault Refusal :=
  .next (s.issue 4 [rd a, rd b] (fun _ => true) [] (typeFault t) fun x s =>
    let w := s.me.laneW
    let n := s.me.laneN
    let mask := s.me.k k.toNat
    let old := s.me.k d.toNat
    let g (l : Nat) := compareLanes c w t (lane (x 0) w l) (lane (x 1) w l)
    let bit (l : Nat) : Bool :=
      if mask.getLsbD l then
        (if m.toNat = 0 then (g l).1 else if m.toNat = 1 then old.getLsbD l && (g l).1 else old.getLsbD l || (g l).1)
      else !s.me.zm && old.getLsbD l
    let v := (List.range n).foldl (fun acc l => if bit l then acc + 2 ^ l else acc) 0
    .ok ((s.setMe (s.me.setK d.toNat (BitVec.ofNat 32 v))).flags (laneFlags mask (fun l => (g l).2) n)))

end Sys2Proof.Machine
end

