-- ==== Sys2Proof/Machine/Dispatch.lean ====
section
/-! DEFINITION. One arm per instruction: each is one direct call of the instruction's meaning. -/

namespace Sys2Proof.Machine

def exec (i : Instr) (s : State) : Host.Outcome State Fault Refusal :=
  match i with
  | .add d a b => Sys2Proof.Machine.execAdd d a b s
  | .sub d a b => Sys2Proof.Machine.execSub d a b s
  | .and d a b => Sys2Proof.Machine.execAnd d a b s
  | .or d a b => Sys2Proof.Machine.execOr d a b s
  | .xor d a b => Sys2Proof.Machine.execXor d a b s
  | .andn d a b => Sys2Proof.Machine.execAndn d a b s
  | .shl d a b => Sys2Proof.Machine.execShl d a b s
  | .shr d a b => Sys2Proof.Machine.execShr d a b s
  | .sar d a b => Sys2Proof.Machine.execSar d a b s
  | .rol d a b => Sys2Proof.Machine.execRol d a b s
  | .ror d a b => Sys2Proof.Machine.execRor d a b s
  | .min d a b => Sys2Proof.Machine.execMin d a b s
  | .max d a b => Sys2Proof.Machine.execMax d a b s
  | .minu d a b => Sys2Proof.Machine.execMinu d a b s
  | .maxu d a b => Sys2Proof.Machine.execMaxu d a b s
  | .adds d a b => Sys2Proof.Machine.execAdds d a b s
  | .subs d a b => Sys2Proof.Machine.execSubs d a b s
  | .addus d a b => Sys2Proof.Machine.execAddus d a b s
  | .subus d a b => Sys2Proof.Machine.execSubus d a b s
  | .mov d a => Sys2Proof.Machine.execMov d a s
  | .sxb d a => Sys2Proof.Machine.execSxb d a s
  | .sxh d a => Sys2Proof.Machine.execSxh d a s
  | .sxw d a => Sys2Proof.Machine.execSxw d a s
  | .zxb d a => Sys2Proof.Machine.execZxb d a s
  | .zxh d a => Sys2Proof.Machine.execZxh d a s
  | .zxw d a => Sys2Proof.Machine.execZxw d a s
  | .clz d a => Sys2Proof.Machine.execClz d a s
  | .ctz d a => Sys2Proof.Machine.execCtz d a s
  | .pcnt d a => Sys2Proof.Machine.execPcnt d a s
  | .mul d a b => Sys2Proof.Machine.execMul d a b s
  | .mulh d a b => Sys2Proof.Machine.execMulh d a b s
  | .mulhu d a b => Sys2Proof.Machine.execMulhu d a b s
  | .mulhsu d a b => Sys2Proof.Machine.execMulhsu d a b s
  | .div d a b => Sys2Proof.Machine.execDiv d a b s
  | .divu d a b => Sys2Proof.Machine.execDivu d a b s
  | .rem d a b => Sys2Proof.Machine.execRem d a b s
  | .remu d a b => Sys2Proof.Machine.execRemu d a b s
  | .addi d a im => Sys2Proof.Machine.execAddi d a im s
  | .andi d a im => Sys2Proof.Machine.execAndi d a im s
  | .ori d a im => Sys2Proof.Machine.execOri d a im s
  | .xori d a im => Sys2Proof.Machine.execXori d a im s
  | .shli d a n => Sys2Proof.Machine.execShli d a n s
  | .shri d a n => Sys2Proof.Machine.execShri d a n s
  | .sari d a n => Sys2Proof.Machine.execSari d a n s
  | .roli d a n => Sys2Proof.Machine.execRoli d a n s
  | .rori d a n => Sys2Proof.Machine.execRori d a n s
  | .lhi d h c => Sys2Proof.Machine.execLhi d h c s
  | .cmp d a b m c => Sys2Proof.Machine.execCmp d a b m c s
  | .cmpi d a c im => Sys2Proof.Machine.execCmpi d a c im s
  | .pand d a b => Sys2Proof.Machine.execPand d a b s
  | .por d a b => Sys2Proof.Machine.execPor d a b s
  | .pxor d a b => Sys2Proof.Machine.execPxor d a b s
  | .pandn d a b => Sys2Proof.Machine.execPandn d a b s
  | .pnot d a => Sys2Proof.Machine.execPnot d a s
  | .prds d a => Sys2Proof.Machine.execPrds d a s
  | .pwrs d a => Sys2Proof.Machine.execPwrs d a s
  | .prdall d => Sys2Proof.Machine.execPrdall d s
  | .pwrall a => Sys2Proof.Machine.execPwrall a s
  | .sel d a b n => Sys2Proof.Machine.execSel d a b n s
  | .ipa d im => Sys2Proof.Machine.execIpa d im s
  | .bt p o => Sys2Proof.Machine.execBt p o s
  | .bf p o => Sys2Proof.Machine.execBf p o s
  | .jmp o => Sys2Proof.Machine.execJmp o s
  | .call o => Sys2Proof.Machine.execCall o s
  | .jr a => Sys2Proof.Machine.execJr a s
  | .jalr d a => Sys2Proof.Machine.execJalr d a s
  | .ld d a im z => Sys2Proof.Machine.execLd d a im z s
  | .st d a im z => Sys2Proof.Machine.execSt d a im z s
  | .vld d a im => Sys2Proof.Machine.execVld d a im s
  | .vldLo d a im => Sys2Proof.Machine.execVldLo d a im s
  | .vst d a im => Sys2Proof.Machine.execVst d a im s
  | .vstLo d a im => Sys2Proof.Machine.execVstLo d a im s
  | .vgat d a b fs k t => Sys2Proof.Machine.execVgat d a b fs k t s
  | .vsct d a b fs k t => Sys2Proof.Machine.execVsct d a b fs k t s
  | .aswap d a b o fs => Sys2Proof.Machine.execAswap d a b o fs s
  | .aadd d a b o fs => Sys2Proof.Machine.execAadd d a b o fs s
  | .aand d a b o fs => Sys2Proof.Machine.execAand d a b o fs s
  | .aor d a b o fs => Sys2Proof.Machine.execAor d a b o fs s
  | .axor d a b o fs => Sys2Proof.Machine.execAxor d a b o fs s
  | .amax d a b o fs => Sys2Proof.Machine.execAmax d a b o fs s
  | .amin d a b o fs => Sys2Proof.Machine.execAmin d a b o fs s
  | .amaxu d a b o fs => Sys2Proof.Machine.execAmaxu d a b o fs s
  | .cas d a b o fs w => Sys2Proof.Machine.execCas d a b o fs w s
  | .gtest d a => Sys2Proof.Machine.execGtest d a s
  | .gcast d a w => Sys2Proof.Machine.execGcast d a w s
  | .cinv a b => Sys2Proof.Machine.execCinv a b s
  | .cflush a b => Sys2Proof.Machine.execCflush a b s
  | .cpref a b => Sys2Proof.Machine.execCpref a b s
  | .fence fs => Sys2Proof.Machine.execFence fs s
  | .stdone d a fs => Sys2Proof.Machine.execStdone d a fs s
  | .stdoneq q a fs => Sys2Proof.Machine.execStdoneq q a fs s
  | .stm d a k => Sys2Proof.Machine.execStm d a k s
  | .stq d a b w n r v q x => Sys2Proof.Machine.execStq d a b w n r v q x s
  | .qpush q a => Sys2Proof.Machine.execQpush q a s
  | .qpushv q a => Sys2Proof.Machine.execQpushv q a s
  | .qpop d q => Sys2Proof.Machine.execQpop d q s
  | .qpopv d q => Sys2Proof.Machine.execQpopv d q s
  | .qcount d q => Sys2Proof.Machine.execQcount d q s
  | .qtag d q => Sys2Proof.Machine.execQtag d q s
  | .qdrop q => Sys2Proof.Machine.execQdrop q s
  | .bset n a => Sys2Proof.Machine.execBset n a s
  | .bspill n a b => Sys2Proof.Machine.execBspill n a b s
  | .bget d n => Sys2Proof.Machine.execBget d n s
  | .vadd d a b k t => Sys2Proof.Machine.execVadd d a b k t s
  | .vsub d a b k t => Sys2Proof.Machine.execVsub d a b k t s
  | .vmul d a b k t => Sys2Proof.Machine.execVmul d a b k t s
  | .vmulh d a b k t => Sys2Proof.Machine.execVmulh d a b k t s
  | .vmin d a b k t => Sys2Proof.Machine.execVmin d a b k t s
  | .vmax d a b k t => Sys2Proof.Machine.execVmax d a b k t s
  | .vadds d a b k t => Sys2Proof.Machine.execVadds d a b k t s
  | .vsubs d a b k t => Sys2Proof.Machine.execVsubs d a b k t s
  | .vavg d a b k t => Sys2Proof.Machine.execVavg d a b k t s
  | .vabsd d a b k t => Sys2Proof.Machine.execVabsd d a b k t s
  | .vand d a b k t => Sys2Proof.Machine.execVand d a b k t s
  | .vor d a b k t => Sys2Proof.Machine.execVor d a b k t s
  | .vxor d a b k t => Sys2Proof.Machine.execVxor d a b k t s
  | .vandn d a b k t => Sys2Proof.Machine.execVandn d a b k t s
  | .vshl d a b k t => Sys2Proof.Machine.execVshl d a b k t s
  | .vshr d a b k t => Sys2Proof.Machine.execVshr d a b k t s
  | .vdiv d a b k t => Sys2Proof.Machine.execVdiv d a b k t s
  | .vrem d a b k t => Sys2Proof.Machine.execVrem d a b k t s
  | .vneg d a k t => Sys2Proof.Machine.execVneg d a k t s
  | .vabs d a k t => Sys2Proof.Machine.execVabs d a k t s
  | .vmuls d a b k t => Sys2Proof.Machine.execVmuls d a b k t s
  | .valusVadd d a b x k t => Sys2Proof.Machine.execValusVadd d a b x k t s
  | .valusVsub d a b x k t => Sys2Proof.Machine.execValusVsub d a b x k t s
  | .valusVmul d a b x k t => Sys2Proof.Machine.execValusVmul d a b x k t s
  | .valusVmulh d a b x k t => Sys2Proof.Machine.execValusVmulh d a b x k t s
  | .valusVmin d a b x k t => Sys2Proof.Machine.execValusVmin d a b x k t s
  | .valusVmax d a b x k t => Sys2Proof.Machine.execValusVmax d a b x k t s
  | .valusVadds d a b x k t => Sys2Proof.Machine.execValusVadds d a b x k t s
  | .valusVsubs d a b x k t => Sys2Proof.Machine.execValusVsubs d a b x k t s
  | .valusVavg d a b x k t => Sys2Proof.Machine.execValusVavg d a b x k t s
  | .valusVabsd d a b x k t => Sys2Proof.Machine.execValusVabsd d a b x k t s
  | .valusVand d a b x k t => Sys2Proof.Machine.execValusVand d a b x k t s
  | .valusVor d a b x k t => Sys2Proof.Machine.execValusVor d a b x k t s
  | .valusVxor d a b x k t => Sys2Proof.Machine.execValusVxor d a b x k t s
  | .valusVandn d a b x k t => Sys2Proof.Machine.execValusVandn d a b x k t s
  | .valusVshl d a b x k t => Sys2Proof.Machine.execValusVshl d a b x k t s
  | .valusVshr d a b x k t => Sys2Proof.Machine.execValusVshr d a b x k t s
  | .valusVdiv d a b x k t => Sys2Proof.Machine.execValusVdiv d a b x k t s
  | .valusVrem d a b x k t => Sys2Proof.Machine.execValusVrem d a b x k t s
  | .valusVmuls d a b x k t => Sys2Proof.Machine.execValusVmuls d a b x k t s
  | .vfadd d a b k t => Sys2Proof.Machine.execVfadd d a b k t s
  | .vfsub d a b k t => Sys2Proof.Machine.execVfsub d a b k t s
  | .vfmul d a b k t => Sys2Proof.Machine.execVfmul d a b k t s
  | .vfdiv d a b k t => Sys2Proof.Machine.execVfdiv d a b k t s
  | .vfmin d a b k t => Sys2Proof.Machine.execVfmin d a b k t s
  | .vfmax d a b k t => Sys2Proof.Machine.execVfmax d a b k t s
  | .vfsqrt d a k t => Sys2Proof.Machine.execVfsqrt d a k t s
  | .vfrcp d a k t => Sys2Proof.Machine.execVfrcp d a k t s
  | .vfrsqrt d a k t => Sys2Proof.Machine.execVfrsqrt d a k t s
  | .vfexp2 d a k t => Sys2Proof.Machine.execVfexp2 d a k t s
  | .vflog2 d a k t => Sys2Proof.Machine.execVflog2 d a k t s
  | .vfabs d a k t => Sys2Proof.Machine.execVfabs d a k t s
  | .vfneg d a k t => Sys2Proof.Machine.execVfneg d a k t s
  | .vfsgnj d a b k t => Sys2Proof.Machine.execVfsgnj d a b k t s
  | .vfma d a b c k t => Sys2Proof.Machine.execVfma d a b c k t s
  | .vfms d a b c k t => Sys2Proof.Machine.execVfms d a b c k t s
  | .vmac d a b c k t => Sys2Proof.Machine.execVmac d a b c k t s
  | .vdot d a b c k t => Sys2Proof.Machine.execVdot d a b c k t s
  | .vcvt d a x k t => Sys2Proof.Machine.execVcvt d a x k t s
  | .vcvtn d a x h k t => Sys2Proof.Machine.execVcvtn d a x h k t s
  | .vcvtw d a x h k t => Sys2Proof.Machine.execVcvtw d a x h k t s
  | .vperm d a b k => Sys2Proof.Machine.execVperm d a b k s
  | .vslup d a b k => Sys2Proof.Machine.execVslup d a b k s
  | .vsldn d a b k => Sys2Proof.Machine.execVsldn d a b k s
  | .vslupIm d a im k => Sys2Proof.Machine.execVslupIm d a im k s
  | .vsldnIm d a im k => Sys2Proof.Machine.execVsldnIm d a im k s
  | .vzipl d a b k => Sys2Proof.Machine.execVzipl d a b k s
  | .vziph d a b k => Sys2Proof.Machine.execVziph d a b k s
  | .vunzpe d a b k => Sys2Proof.Machine.execVunzpe d a b k s
  | .vunzpo d a b k => Sys2Proof.Machine.execVunzpo d a b k s
  | .vrsum d a k t => Sys2Proof.Machine.execVrsum d a k t s
  | .vrmin d a k t => Sys2Proof.Machine.execVrmin d a k t s
  | .vrmax d a k t => Sys2Proof.Machine.execVrmax d a k t s
  | .vrand d a k t => Sys2Proof.Machine.execVrand d a k t s
  | .vror d a k t => Sys2Proof.Machine.execVror d a k t s
  | .vrxor d a k t => Sys2Proof.Machine.execVrxor d a k t s
  | .vrfsum d a k t => Sys2Proof.Machine.execVrfsum d a k t s
  | .vrsumw d a k t => Sys2Proof.Machine.execVrsumw d a k t s
  | .kand d a b => Sys2Proof.Machine.execKand d a b s
  | .kor d a b => Sys2Proof.Machine.execKor d a b s
  | .kxor d a b => Sys2Proof.Machine.execKxor d a b s
  | .kandn d a b => Sys2Proof.Machine.execKandn d a b s
  | .knot d a => Sys2Proof.Machine.execKnot d a s
  | .kset d a => Sys2Proof.Machine.execKset d a s
  | .kget d a => Sys2Proof.Machine.execKget d a s
  | .kcnt d a => Sys2Proof.Machine.execKcnt d a s
  | .vcomp d a b k => Sys2Proof.Machine.execVcomp d a b k s
  | .vexp d a k => Sys2Proof.Machine.execVexp d a k s
  | .vmov d a k => Sys2Proof.Machine.execVmov d a k s
  | .vsplat d a k => Sys2Proof.Machine.execVsplat d a k s
  | .vsplati d im k => Sys2Proof.Machine.execVsplati d im k s
  | .vins d a x => Sys2Proof.Machine.execVins d a x s
  | .vext d a x t => Sys2Proof.Machine.execVext d a x t s
  | .vcfg z w => Sys2Proof.Machine.execVcfg z w s
  | .vcmp d a b c m k t => Sys2Proof.Machine.execVcmp d a b c m k t s
  | .tkpeek d a => Sys2Proof.Machine.execTkpeek d a s
  | .tkpeekQ d q => Sys2Proof.Machine.execTkpeekQ d q s
  | .tkpop d a => Sys2Proof.Machine.execTkpop d a s
  | .tkpopQ d q => Sys2Proof.Machine.execTkpopQ d q s
  | .tkpopv d a => Sys2Proof.Machine.execTkpopv d a s
  | .tkpopvQ d q => Sys2Proof.Machine.execTkpopvQ d q s
  | .tksend d a t => Sys2Proof.Machine.execTksend d a t s
  | .tksendQ q a t => Sys2Proof.Machine.execTksendQ q a t s
  | .tksendv d a t => Sys2Proof.Machine.execTksendv d a t s
  | .tksendvQ q a t => Sys2Proof.Machine.execTksendvQ q a t s
  | .steer d a b e l => Sys2Proof.Machine.execSteer d a b e l s
  | .tee d a e l => Sys2Proof.Machine.execTee d a e l s
  | .merge d a b e l => Sys2Proof.Machine.execMerge d a b e l s
  | .fscan l im o x y z => Sys2Proof.Machine.execFscan l im o x y z s
  | .fisect l im j o => Sys2Proof.Machine.execFisect l im j o s
  | .funion l im j o => Sys2Proof.Machine.execFunion l im j o s
  | .frep l im j o => Sys2Proof.Machine.execFrep l im j o s
  | .fzip l im j o t p => Sys2Proof.Machine.execFzip l im j o t p s
  | .fload l im o r x z => Sys2Proof.Machine.execFload l im o r x z s
  | .fred l im o t p => Sys2Proof.Machine.execFred l im o t p s
  | .fwrite l im o r x z => Sys2Proof.Machine.execFwrite l im o r x z s
  | .btag d a c => Sys2Proof.Machine.execBtag d a c s
  | .btagQ d q c => Sys2Proof.Machine.execBtagQ d q c s
  | .wload a b c f v fs => Sys2Proof.Machine.execWload a b c f v fs s
  | .wexport a fs => Sys2Proof.Machine.execWexport a fs s
  | .wexportRv fs => Sys2Proof.Machine.execWexportRv fs s
  | .mmq a b c d h f v k => Sys2Proof.Machine.execMmq a b c d h f v k s
  | .accrd a f fs w c => Sys2Proof.Machine.execAccrd a f fs w c s
  | .accclr fs w c => Sys2Proof.Machine.execAccclr fs w c s
  | .carm a n => Sys2Proof.Machine.execCarm a n s
  | .cfire n => Sys2Proof.Machine.execCfire n s
  | .cdis n => Sys2Proof.Machine.execCdis n s
  | .cstat a n => Sys2Proof.Machine.execCstat a n s
  | .binit a b => Sys2Proof.Machine.execBinit a b s
  | .barr d a => Sys2Proof.Machine.execBarr d a s
  | .bwait d a b => Sys2Proof.Machine.execBwait d a b s
  | .btest d a => Sys2Proof.Machine.execBtest d a s
  | .spawn d a b => Sys2Proof.Machine.execSpawn d a b s
  | .send d a b => Sys2Proof.Machine.execSend d a b s
  | .stake d => Sys2Proof.Machine.execStake d s
  | .crd d c => Sys2Proof.Machine.execCrd d c s
  | .cwr c a => Sys2Proof.Machine.execCwr c a s
  | .trap n => Sys2Proof.Machine.execTrap n s
  | .hostRegisterWrite off size v => Sys2Proof.Machine.execHostRegisterWrite off size v s
  | .doorbell q v => Sys2Proof.Machine.execDoorbell q v s
  | .injectionSubmit w v => Sys2Proof.Machine.execInjectionSubmit w v s
  | .hostMemWrite pa mask data => Sys2Proof.Machine.execHostMemWrite pa mask data s
  | .ret => Sys2Proof.Machine.execRet s
  | .cinvAll => Sys2Proof.Machine.execCinvAll s
  | .tdone => Sys2Proof.Machine.execTdone s
  | .potinit => Sys2Proof.Machine.execPotinit s
  | .wquiet => Sys2Proof.Machine.execWquiet s
  | .commit => Sys2Proof.Machine.execCommit s
  | .eret => Sys2Proof.Machine.execEret s
  | .wfi => Sys2Proof.Machine.execWfi s
  | .brk => Sys2Proof.Machine.execBrk s
  | .halt => Sys2Proof.Machine.execHalt s
  | .deviceReset => Sys2Proof.Machine.execDeviceReset s
  | .launchQueueEnable q v => Sys2Proof.Machine.execLaunchQueueEnable q v s
  | .launchQueueDisable q v => Sys2Proof.Machine.execLaunchQueueDisable q v s
  | .eventQueueEnable e v => Sys2Proof.Machine.execEventQueueEnable e v s
  | .eventQueueDisable e v => Sys2Proof.Machine.execEventQueueDisable e v s
  | .consumedWrite e v => Sys2Proof.Machine.execConsumedWrite e v s
  | .devnumWrite v => Sys2Proof.Machine.execDevnumWrite v s
  | .routeWrite dev v => Sys2Proof.Machine.execRouteWrite dev v s
  | .hostMemRead pa => Sys2Proof.Machine.execHostMemRead pa s
  | .hostSnoop addr => Sys2Proof.Machine.execHostSnoop addr s
  | .launch => Sys2Proof.Machine.execLaunch s
  | .shadowLoad => Sys2Proof.Machine.execShadowLoad s
  | .stop => Sys2Proof.Machine.execStop s
  | .schedulerPlacement => Sys2Proof.Machine.execSchedulerPlacement s
  | .candidateOverdue => Sys2Proof.Machine.execCandidateOverdue s
  | .preemptDiscard => Sys2Proof.Machine.execPreemptDiscard s
  | .header => Sys2Proof.Machine.execHeader s
  | .code => Sys2Proof.Machine.execCode s
  | .switch => Sys2Proof.Machine.execSwitch s
  | .bankClaim => Sys2Proof.Machine.execBankClaim s
  | .bankData => Sys2Proof.Machine.execBankData s
  | .template => Sys2Proof.Machine.execTemplate s
  | .link => Sys2Proof.Machine.execLink s
  | .matrix => Sys2Proof.Machine.execMatrix s
  | .start => Sys2Proof.Machine.execStart s
  | .loadComplete => Sys2Proof.Machine.execLoadComplete s
  | .residencyEnd => Sys2Proof.Machine.execResidencyEnd s
  | .watchdogExpiry => Sys2Proof.Machine.execWatchdogExpiry s
  | .commitRequest => Sys2Proof.Machine.execCommitRequest s
  | .commitReply => Sys2Proof.Machine.execCommitReply s
  | .discard => Sys2Proof.Machine.execDiscard s
  | .discardArrival => Sys2Proof.Machine.execDiscardArrival s
  | .discardStepDone => Sys2Proof.Machine.execDiscardStepDone s
  | .faultReport => Sys2Proof.Machine.execFaultReport s
  | .asyncFaultArrival => Sys2Proof.Machine.execAsyncFaultArrival s
  | .asyncFaultDelivery => Sys2Proof.Machine.execAsyncFaultDelivery s
  | .spillFault => Sys2Proof.Machine.execSpillFault s
  | .eventRecordPost => Sys2Proof.Machine.execEventRecordPost s
  | .tlbinv => Sys2Proof.Machine.execTlbinv s
  | .regload => Sys2Proof.Machine.execRegload s
  | .spillresume => Sys2Proof.Machine.execSpillresume s
  | .rowthresh => Sys2Proof.Machine.execRowthresh s
  | .eyecfg => Sys2Proof.Machine.execEyecfg s
  | .powercap => Sys2Proof.Machine.execPowercap s
  | .sensorread => Sys2Proof.Machine.execSensorread s
  | .logread => Sys2Proof.Machine.execLogread s
  | .replaycfg => Sys2Proof.Machine.execReplaycfg s
  | .replayload => Sys2Proof.Machine.execReplayload s
  | .almanacread => Sys2Proof.Machine.execAlmanacread s
  | .firmwareUpdate comp sec body sig => Sys2Proof.Machine.execFirmwareUpdate comp sec body sig s
  | .getVersion => Sys2Proof.Machine.execGetVersion s
  | .getCapabilities => Sys2Proof.Machine.execGetCapabilities s
  | .negotiateAlgorithms algs => Sys2Proof.Machine.execNegotiateAlgorithms algs s
  | .getDigests => Sys2Proof.Machine.execGetDigests s
  | .getCertificate slot off len => Sys2Proof.Machine.execGetCertificate slot off len s
  | .challenge slot nonce => Sys2Proof.Machine.execChallenge slot nonce s
  | .getMeasurements op nonce => Sys2Proof.Machine.execGetMeasurements op nonce s
  | .sensorSample vals => Sys2Proof.Machine.execSensorSample vals s
  | .throttleUpdate => Sys2Proof.Machine.execThrottleUpdate s
  | .positionFence obj => Sys2Proof.Machine.execPositionFence obj s
  | .patrolScrub => Sys2Proof.Machine.execPatrolScrub s
  | .periodicRefresh => Sys2Proof.Machine.execPeriodicRefresh s
  | .rowPrecharge => Sys2Proof.Machine.execRowPrecharge s
  | .eyeMarginLow lane tm vm => Sys2Proof.Machine.execEyeMarginLow lane tm vm s
  | .channelRetrainComplete lane tm vm => Sys2Proof.Machine.execChannelRetrainComplete lane tm vm s
  | .memoryPortAdmit => Sys2Proof.Machine.execMemoryPortAdmit s
  | .tlbWalkComplete => Sys2Proof.Machine.execTlbWalkComplete s
  | .loadResponse => Sys2Proof.Machine.execLoadResponse s
  | .writeAcknowledgement => Sys2Proof.Machine.execWriteAcknowledgement s
  | .fabricRequest => Sys2Proof.Machine.execFabricRequest s
  | .fabricNack => Sys2Proof.Machine.execFabricNack s
  | .routerPacket => Sys2Proof.Machine.execRouterPacket s
  | .peerPacketArrival hdr payload => Sys2Proof.Machine.execPeerPacketArrival hdr payload s
  | .staticWordArrival => Sys2Proof.Machine.execStaticWordArrival s
  | .creditReturn => Sys2Proof.Machine.execCreditReturn s
  | .flipAtStreamPort => Sys2Proof.Machine.execFlipAtStreamPort s
  | .streamStep => Sys2Proof.Machine.execStreamStep s
  | .fifoSpillRefill => Sys2Proof.Machine.execFifoSpillRefill s
  | .bankModeChangeEffect => Sys2Proof.Machine.execBankModeChangeEffect s
  | .triggerPop => Sys2Proof.Machine.execTriggerPop s
  | .copyStart => Sys2Proof.Machine.execCopyStart s
  | .copyElementIssue => Sys2Proof.Machine.execCopyElementIssue s
  | .copyReadReturn => Sys2Proof.Machine.execCopyReadReturn s
  | .copyComplete => Sys2Proof.Machine.execCopyComplete s
  | .barrierEngineArrival => Sys2Proof.Machine.execBarrierEngineArrival s
  | .bwaitWake => Sys2Proof.Machine.execBwaitWake s
  | .matrixRequestToken => Sys2Proof.Machine.execMatrixRequestToken s
  | .remoteMatrixRequest => Sys2Proof.Machine.execRemoteMatrixRequest s
  | .aFetchComplete => Sys2Proof.Machine.execAFetchComplete s
  | .groupHoldExpiry => Sys2Proof.Machine.execGroupHoldExpiry s
  | .groupOverdue => Sys2Proof.Machine.execGroupOverdue s
  | .groupIssue => Sys2Proof.Machine.execGroupIssue s
  | .rowLeaveLane => Sys2Proof.Machine.execRowLeaveLane s
  | .wloadWrite => Sys2Proof.Machine.execWloadWrite s
  | .accumulatorApply => Sys2Proof.Machine.execAccumulatorApply s
  | .psumPacket => Sys2Proof.Machine.execPsumPacket s
  | .remoteCompletion => Sys2Proof.Machine.execRemoteCompletion s
  | .borrowRequest => Sys2Proof.Machine.execBorrowRequest s
  | .borrowReply => Sys2Proof.Machine.execBorrowReply s
  | .returnMessage => Sys2Proof.Machine.execReturnMessage s
  | .aggregatorSend => Sys2Proof.Machine.execAggregatorSend s
  | .wquietWake => Sys2Proof.Machine.execWquietWake s
  | .stealRequest => Sys2Proof.Machine.execStealRequest s
  | .stealResponse => Sys2Proof.Machine.execStealResponse s
  | .stealPassWait => Sys2Proof.Machine.execStealPassWait s
  | .activeMessageArrival => Sys2Proof.Machine.execActiveMessageArrival s
  | .stqPacket => Sys2Proof.Machine.execStqPacket s
  | .stqNotify => Sys2Proof.Machine.execStqNotify s
  | .stqAnswer => Sys2Proof.Machine.execStqAnswer s
  | .wfiWake => Sys2Proof.Machine.execWfiWake s
  | .snext => Sys2Proof.Machine.execSnext s
  | .sjump => Sys2Proof.Machine.execSjump s
  | .sloop => Sys2Proof.Machine.execSloop s
  | .sdbr => Sys2Proof.Machine.execSdbr s
  | .sbtag => Sys2Proof.Machine.execSbtag s
  | .swait => Sys2Proof.Machine.execSwait s
  | .sflip => Sys2Proof.Machine.execSflip s
  | .shalt => Sys2Proof.Machine.execShalt s
  | .powerLoss torn => Sys2Proof.Machine.execPowerLoss torn s
  | .illegalInstruction => Sys2Proof.Machine.execIllegalInstruction s
  | .fetchFault => Sys2Proof.Machine.execFetchFault s

end Sys2Proof.Machine
end

