-- ==== Sys2Proof/Machine/Issue.lean ====
section
/-! DEFINITION. The turns of a cycle: a core examines its contexts and issues from the first that is ready (02_execution_model.md
R33, R34), a switch tries its instruction (04_static_network.md R75), a loader reads a frame (16_switch_image.md R303). -/

namespace Sys2Proof.Machine

/-- The four bytes at an instruction-store address of a tile. -/
def State.fetchWord (s : State) (t a : Nat) : BitVec 32 := BitVec.ofNat 32 (Memory.readN s.mem (storeKey t a) 4)

/-- Does the instruction at IP lie outside the code partition (10_encoding_assembly.md R179)? -/
def State.fetchMiss (s : State) : Bool :=
  s.me.fetchMiss false || s.me.fetchMiss (isWide (s.fetchWord s.cur.t s.me.ip.toNat))

/-- An uncorrectable error in its registers or in the words at IP stops a context and faults its residency with reason 0x07
(22_faults_discard.md R377). (DESIGN CHOICE, log 33) -/
def State.upset (s : State) : Bool :=
  s.ctxErrors.contains s.cur.ctx ||
  s.badAt (storeKey s.cur.t s.me.ip.toNat) (if isWide (s.fetchWord s.cur.t s.me.ip.toNat) then 8 else 4)

def State.stopUpset (s : State) : State :=
  { s.setMe { s.me with run := .stopped } with ctxErrors := s.ctxErrors.filter (· != s.cur.ctx) }.reportFault s.cur.ctx 7 0 0 0

/-- Fetch at IP: the word there and, for a major of two words, the next; latched with the guard the first word names. (DESIGN CHOICE, log 20) -/
def State.latch (s : State) : State :=
  let ip := s.me.ip.toNat
  let w := s.fetchWord s.cur.t ip
  let v := if isWide w then s.fetchWord s.cur.t (ip + 4) else 0
  { s with word := (v ++ w).setWidth 256, guard := guardOf w }

/-- The instruction at IP, if its words are one (R188). -/
def State.fetched (s : State) : Option Instr := decode (s.latch.word.extractLsb' 0 32) (s.latch.word.extractLsb' 32 32)

/-- May the context issue at all now: it runs, and waits for nothing (R34)? -/
def Ctx.awake (c : Ctx) : Bool := c.run == .live && c.wait == .none

/-- A FLIP at the head of an owned input of a halted context acts (R85). -/
def State.haltedFlip (s : State) : State :=
  if s.me.run = .halted then
    match [27, 28, 29, 30, 31].find? fun p => s.ownsIn p && s.flipAt p with
    | some p => (s.flipCore p).getD s
    | none => s
  else s

/-- What the context whose turn it is does: a queued record first, whose delivery takes the turn, then its streaming instruction's next step,
then the instruction at IP. The arrival of a `barr` that waited for its writes, and the work of a `cinv` that waits for walks, take no turn.
(DESIGN CHOICE, log 78) -/
def tryContext (s : State) : Host.Outcome State Fault Refusal :=
  let c := s.me
  if c.takesRecord then exec .asyncFaultDelivery s
  else if c.awake then
    if c.stream.isSome then exec .streamStep s
    else if s.fetchMiss then exec .fetchFault s
    else if s.upset then .next s.stopUpset
    else
      match s.fetched with
      | none => exec .illegalInstruction s.latch
      | some i => exec i s.latch
  else
    match c.wait with
    | .barr d _ _ [] => exec (.barr d 0) s
    | .sweep _ _ => exec (.cinv 0 0) s
    | _ => .next s.haltedFlip

/-- Examine `n` banks from a bank on: the first that issues takes the turn, and the counter moves to it (R33); one whose operation must
stand behind the other cores' ends the look. (DESIGN CHOICE, log 76) -/
def tryBanks (s : State) (t q : Nat) : Nat → Nat → Host.Outcome State Fault Refusal
  | 0, _ => .next s
  | n + 1, b =>
    match tryContext { s with cur := { t := t, q := q, b := b % 4 }, issued := false } with
    | .next s' =>
      if s'.clash then .next s'
      else if s'.issued then .next (s'.setCore (t * 4 + q) { s'.core (t * 4 + q) with counter := BitVec.ofNat 2 b })
      else tryBanks s' t q n (b + 1)
    | r => r

/-- Put a turn behind the last core's turn of a list. -/
def behindCores (t : Turn) : List Turn → List Turn
  | [] => [t]
  | x :: r => if (x :: r).any fun y => y.act == .core || y.act == .late then x :: behindCores t r else t :: x :: r

/-- A core's turn (R33). One that comes to an operation on another tile's barrier changes nothing, and comes again behind the turns of all
cores (08_copies_barriers.md R164). (DEDUCED, log 44; DESIGN CHOICE, log 76) -/
def coreTurn (s : State) (p : Cur) (late : Bool) : Host.Outcome State Fault Refusal :=
  match tryBanks { s with late := late, clash := false } p.t p.q 4 ((s.core (p.t * 4 + p.q)).counter.toNat + 1) with
  | .next s' => .next (if s'.clash then { s with agenda := behindCores ⟨p, .late⟩ s.agenda } else { s' with late := false })
  | r => r

/-- The switch instruction of a context bank at its program counter, latched (16_switch_image.md R298, R299). (DESIGN CHOICE, log 20) -/
def State.latchSwitch (s : State) : State :=
  let x := s.xbar s.cur.tb
  { s with word := BitVec.ofNat 256 (Memory.readN s.mem (switchKey s.cur.t s.cur.b x.store x.pc.toNat) 8) }

/-- A switch's turn (R75, R299). -/
def switchTurn (s : State) : Host.Outcome State Fault Refusal :=
  let x := s.xbar s.cur.tb
  if x.halted then .next s
  else if s.badAt (switchKey s.cur.t s.cur.b x.store x.pc.toNat) 8 then
    .next (match s.bankResid s.cur.t s.cur.b with
      | none => s
      | some r => (s.setXbar s.cur.tb { x with halted := true }).reportTile s.cur.t r 7)
  else
    match decodeSwitch (s.latchSwitch.word.setWidth 64) with
    | none => .next s
    | some i => exec i s.latchSwitch

/-- A loader's turn: the load that the place names reads its next frame, which acts, or ends (R306, R307). A second load of a residency
waits for the first. (DEDUCED, log 54) -/
def frameTurn (s : State) : Host.Outcome State Fault Refusal :=
  match s.sched.loads.find? fun j => j.id == s.cur.n with
  | none => .next s
  | some j =>
    if s.sched.loads.any fun k => k.resid == j.resid && decide (k.id < j.id) then .next s
    else if 0 < j.next ∧ j.total ≤ j.next then exec .loadComplete s
    else
      match s.physRead (j.image + 32 * j.next) with
      | (none, s) => .next s
      | (some none, s) => .next (s.failLoad j 1 j.next)
      | (some (some w), s) =>
        match decodeFrame w with
        | none => .next (s.failLoad j 1 j.next)
        | some i => exec i { s with word := w }

end Sys2Proof.Machine
end

