-- ==== Sys2Proof/Machine/Plan.lean ====
section
/-! DEFINITION. The turns of one cycle, in order: the model's one interleaving of the agents (INVENTORY.md, Agents). Each turn is planned
from the state at the beginning of the cycle; a turn whose event is not enabled when it comes changes nothing. -/

namespace Sys2Proof.Machine

/-- A turn of an event at a place. -/
def eventAt (p : Cur) (i : Instr) : Turn := ⟨p, .event i⟩

/-- An event `n` times at a place. -/
def eventTimes (n : Nat) (p : Cur) (i : Instr) : List Turn := List.replicate n (eventAt p i)

/-! ## The scheduler, the loaders and the management -/

/-- The mailbox command of a code that waits in the command buffer (23_management.md R386). -/
def mailboxInstr (code : Nat) : Option Instr :=
  if code = 1 then some .tlbinv else if code = 2 then some .regload else if code = 3 then some .spillresume
  else if code = 4 then some .rowthresh else if code = 5 then some .eyecfg else if code = 0x10 then some .powercap
  else if code = 0x11 then some .sensorread else if code = 0x12 then some .logread else if code = 0x20 then some .replaycfg
  else if code = 0x21 then some .replayload else if code = 0x30 then some .almanacread else none

/-- Candidates that are overdue, placement, the loads it begins (20_host_launch.md R345 to R347), and the loads under way. -/
def State.planScheduler (s : State) : List Turn :=
  let queues := s.sched.lq.map Prod.fst
  (queues.map fun q => eventAt { n := q } .candidateOverdue) ++
  [eventAt {} .schedulerPlacement, eventAt {} .launch, eventAt {} .shadowLoad] ++
  s.sched.loads.map fun j => ⟨{ n := j.id }, .frame⟩

/-- The sensors are sampled, from an input of the outside where there is one in this cycle, and the throttle follows (23_management.md R387,
R389). (DESIGN CHOICE, log 17) -/
def State.planSensors (s : State) : List Turn :=
  if s.cycle % cyclesPerMs ≠ 0 then []
  else
    let given := match s.inputs.head? with
      | some t => (match t.act with | .event (.sensorSample _) => true | _ => false)
      | none => false
    (if given then [] else [eventAt {} (.sensorSample s.readings)]) ++ [eventAt {} .throttleUpdate]

/-- The scheduler's inputs in a cycle: fault reports, watchdogs, decisions to discard, ends, commits (22_faults_discard.md R374), those among
them that the network brings in this cycle; records to their rings, and the management. (DESIGN CHOICE, log 5) -/
def State.planService (s : State) : List Turn :=
  let at_ (p : Packet → Bool) : Nat :=
    (s.inbox.filter fun x => x.node == 4097 && p x.p).length + (s.net.filter fun x => p x.p).length
  let each (i : Instr) : List Turn := s.sched.res.map fun r => eventAt { n := r.num } i
  eventTimes s.sched.asyncs.length {} .asyncFaultArrival ++
  eventTimes (at_ Packet.isStq) { n := 1 } .stqPacket ++
  eventTimes (at_ isFault) {} .faultReport ++ each .watchdogExpiry ++
  (if s.booted then eventAt {} .stop :: s.sched.lq.map fun e => eventAt { n := e.1 } .preemptDiscard else []) ++ each .discard ++
  eventTimes (at_ isStepDone) {} .discardStepDone ++ each .discardStepDone ++ each .residencyEnd ++
  eventTimes (at_ isCommit) {} .commitRequest ++
  eventTimes (s.sched.spills.filter fun x => x.tag.isNone).length {} .spillFault ++
  eventTimes (at_ isEvent) { n := 1 } .eventRecordPost ++
  eventTimes s.sched.buffer.length {} .eventRecordPost ++
  (if s.mailboxBusy then ((mailboxInstr s.mailboxCode).map fun i => eventAt {} i).toList else []) ++
  s.planSensors

/-! ## Memory care (21_memory_subsystem.md R368, R370, R408) -/

/-- The refresh window in cycles of the stack of a row: shorter above 85 °C (sensor of the stack, in 1/16 °C). (DESIGN CHOICE, log 56) -/
def State.refreshWindow (s : State) (row : Nat) : Nat :=
  if 1360 < s.sensorNow (64 + row / 2 ^ 25) then 20000000 else 40000000

/-- Cycles between two scrubbed sectors, at which all of them are read within 24 hours. (DESIGN CHOICE, log 56) -/
def scrubPeriod : Nat := 3000

/-- The longest that a channel retrains (R365). -/
def retrainCycles : Nat := 125000

/-- A retraining that has lasted its longest ends, with the margins of the first lane that was last seen below a threshold, or of lane 0. (DESIGN
CHOICE, log 17) -/
def State.planTraining (s : State) : List Turn :=
  (s.channels.filter fun e => e.2.training.any fun b => decide (b + retrainCycles ≤ s.cycle)).map fun e =>
    let first := (Config.eyeMargin e.1 0)
    match e.2.margins.find? fun m => e.2.below m.2.1 m.2.2 with
    | some m => eventAt { n := e.1 } (.channelRetrainComplete (BitVec.ofNat 7 m.1) (BitVec.ofNat 8 m.2.1) (BitVec.ofNat 8 m.2.2))
    | none =>
      let m := e.2.margins.get ((first.extractLsb' 8 8).toNat, (first.extractLsb' 0 8).toNat) 0
      eventAt { n := e.1 } (.channelRetrainComplete 0 (BitVec.ofNat 8 m.1) (BitVec.ofNat 8 m.2))

/-- Rows whose counters are not zero are refreshed when their time comes, idle rows close, one sector is scrubbed. (DESIGN CHOICE, log 56) -/
def State.planDram (s : State) : List Turn :=
  let idle := s.openRows.filter fun e => e.2.row.isSome && decide (e.2.used + 64 ≤ s.cycle)
  let rows := uniq ((s.rows.filter fun e => e.2 != 0).map Prod.fst ++ s.rowBad)
  let due := rows.filter fun r => (s.cycle + Config.refreshPhase r) % s.refreshWindow r == 0
  idle.map (fun e => eventAt { n := e.1 } .rowPrecharge) ++ due.map (fun r => eventAt { n := r } .periodicRefresh) ++
  (if s.cycle % scrubPeriod = 0 then [eventAt { n := (s.cycle / scrubPeriod + Config.scrubPhase) % 2 ^ 35 } .patrolScrub] else []) ++
  s.planTraining

/-! ## Tiles -/

/-- The event that a packet waiting at a tile is for. -/
def State.tileEventOf (s : State) (t : Nat) (p : Packet) : Instr :=
  if isPotEvent p ∨ isQueuedSubmission p then (if p.h.op = opReturn then .returnMessage else .borrowRequest)
  else if isPotReply p then .borrowReply
  else if p.h.kind = 7 then .stealRequest
  else if p.h.kind = 8 then .stealResponse
  else if p.h.kind = 6 then .activeMessageArrival
  else if isRemoteReq p then .remoteMatrixRequest
  else if isPsum p then .psumPacket
  else if isMatrixDone p then .remoteCompletion
  else if s.isCopyRead t p then .copyReadReturn
  else if s.isStqAnswer t p then .stqAnswer
  else if s.isLoadAnswer t p then .loadResponse
  else if s.isWriteAck t p then .writeAcknowledgement
  else if s.isNack t p then .fabricNack
  else if p.isStq then .stqPacket
  else if isFabricRequest p then .fabricRequest
  else if isCommitReply p then .commitReply
  else .discardArrival

/-- The packets that wait at tiles, but for steal requests: of those for a pot, one event per cycle, its place naming the residency
(02_execution_model.md R43). (DESIGN CHOICE, log 5; DEDUCED, log 60) -/
def State.planInbox (s : State) : List Turn :=
  let l := s.inbox.filter fun x => decide (x.node < 1920)
  let pots := uniq ((l.filter fun x => isPotEvent x.p).map fun x => x.p.h.resid * 2048 + x.node)
  (pots.filterMap fun e =>
    (s.arrived (e % 2048) (isPotOf (e / 2048))).map fun p => eventAt { t := e % 2048, n := e / 2048 } (s.tileEventOf (e % 2048) p)) ++
  (l.filter fun x => !isPotEvent x.p && x.p.h.kind != 7).map fun x => eventAt { t := x.node } (s.tileEventOf x.node x.p)

/-- Steal requests stand behind the cores, whose own takes come first (15_matrix_system_instructions.md R297). (DESIGN CHOICE, log 76) -/
def State.planSteals (s : State) : List Turn :=
  (s.inbox.filter fun x => decide (x.node < 1920) && x.p.h.kind == 7).map fun x => eventAt { t := x.node } .stealRequest

/-- The memory ports with requests. -/
def State.planPorts (s : State) : List Turn :=
  (uniq ((s.inbox.filter fun x => decide (2048 ≤ x.node) && decide (x.node < 2176)).map fun x => x.node - 2048)).map
    fun p => eventAt { n := p } .memoryPortAdmit

/-- Words due at a tile from a direction: one on the link, of the bank next after the one served last, and those of loopback lanes
(04_static_network.md R71, R72, R87). -/
def State.planWords (s : State) (t d : Nat) : List Turn :=
  let due (y : OnLink) : Bool := y.dir == d && decide (y.at_ ≤ s.cycle)
  let last := (s.tile t).linkLast.get 3 d
  let order := (List.range 4).map fun i => (last + 1 + i) % 4
  let turn (b : Nat) : Turn := eventAt { t := t, b := b, n := d } .staticWordArrival
  ((order.find? fun b => (s.xbar (t * 4 + b)).flight.any fun y => due y && !y.loop).map turn).toList ++
  order.flatMap fun b => ((s.xbar (t * 4 + b)).flight.filter fun y => due y && y.loop).map fun _ => turn b

/-- Words and credits due on the links of the tiles. -/
def State.planLinks (s : State) : List Turn :=
  ((uniq ((s.xbars.filter fun e => e.2.flight != []).map fun e => e.1 / 4)).flatMap fun t => (List.range 4).flatMap (s.planWords t)) ++
  s.xbars.flatMap fun e =>
    eventTimes (e.2.creditBack.filter fun y => decide (y.2 ≤ s.cycle)).length { t := e.1 / 4, b := e.1 % 4 } .creditReturn

/-- May a core or a matrix node of a tile issue in this cycle (23_management.md R389)? (DEDUCED, log 69) -/
def State.issuesNow (s : State) (t : Nat) : Bool := decide (s.cycle % 16 < s.dieThrottle (dieOf t))

/-- The stream port, the SRAM banks and the messages of a tile. -/
def State.planTile (s : State) (t : Nat) (x : Tile) : List Turn :=
  let used := x.templates.filter fun e => e.2.owner.isSome
  let busy := used.filter fun e => e.2.active.isSome
  let at_ (l : AMap Template) (i : Instr) : List Turn := l.map fun e => eventAt { t := t, n := e.1 } i
  (x.banks.filter fun e => e.2.pending != []).map (fun e => eventAt { t := t, n := e.1 } .bankModeChangeEffect) ++
  (x.banks.filter fun e => e.2.mode == .fifo && (e.2.spillEn || e.2.ringCount != 0 || e.2.staging != [])).map
    (fun e => eventAt { t := t, n := e.1 } .fifoSpillRefill) ++
  at_ (used.filter fun e => e.2.fires != []) .copyStart ++
  (if busy = [] then [] else [eventAt { t := t } .copyElementIssue]) ++
  at_ busy .copyReadReturn ++ at_ busy .copyComplete ++
  (uniq (x.flips.map Prod.fst)).map (fun b => eventAt { t := t, b := b } .flipAtStreamPort) ++
  eventTimes x.stqJobs.length { t := t } .stqNotify ++
  (if x.stopping = [] then [] else [eventAt { t := t } .discardArrival]) ++
  x.aggs.map fun a => eventAt { t := t, n := a.resid } .aggregatorSend

/-- What comes behind the cores of a tile: the stream port's look at its trigger queues (08_copies_barriers.md R157), and the engines'
arrivals at its barriers (R164). -/
def State.planBehind (t : Nat) (x : Tile) : List Turn :=
  ((x.templates.filter fun e => e.2.owner.isSome && (e.2.arm.desc.bind Desc.trigger).isSome).map fun e =>
    eventAt { t := t, n := e.1 } .triggerPop) ++
  eventTimes x.arrivals.length { t := t } .barrierEngineArrival

/-- The matrix node of a tile: requests are admitted, fetch and issue: every ready group may issue while lanes last (R148). (DESIGN CHOICE,
log 5) -/
def State.planNode (s : State) (t : Nat) (x : Node) : List Turn :=
  (x.mTok.map fun e => eventAt { t := t, b := e.1 } .matrixRequestToken) ++
  (x.waiting.map fun q => eventAt { t := t, n := q.id } .aFetchComplete) ++
  (x.wloads.map fun w => eventAt { t := t, n := w.id } .wloadWrite) ++
  (x.groups.flatMap fun g => [eventAt { t := t, n := g.id } .groupHoldExpiry, eventAt { t := t, n := g.id } .groupOverdue]) ++
  (if s.issuesNow t then eventTimes x.groups.length { t := t } .groupIssue else [])

/-- What follows at a node behind the switches, which may find requests at fault at M: poison tokens enter, rows leave their lanes in
ascending order, chains go on behind them, and up to four tokens of the accumulator queue are applied (07_matrix_meld.md R142). (DESIGN CHOICE,
log 5) -/
def planRows (t : Nat) (x : Node) : List Turn :=
  let lanes := (x.lanes.filter fun e => e.2.rows != []).map Prod.fst
  (((if x.poisons = [] then [] else [5]) ++ lanes ++ if x.chains = [] then [] else [4]).map fun n => eventAt { t := t, n := n } .rowLeaveLane) ++
  eventTimes (min 4 x.accQ.length) { t := t } .accumulatorApply

/-- What may wake a context that sleeps or looks for work. -/
def planContext (k : Nat) (c : Ctx) : List Turn :=
  match c.wait with
  | .wfi => [eventAt (placeOf k) .wfiWake]
  | .bwait _ _ _ => [eventAt (placeOf k) .bwaitWake]
  | .wquiet => [eventAt (placeOf k) .wquietWake]
  | _ => if c.run = .idle then [eventAt (placeOf k) .stealPassWait] else []

/-- Cores with a context bank that a residency holds, and switches that run. (DESIGN CHOICE, log 5) -/
def State.planCores (s : State) : List Turn :=
  (uniq ((s.ctxs.filter fun e => e.2.run == .live || e.2.run == .halted).map fun e => e.1 / 4)).filterMap fun k =>
    if s.issuesNow (k / 4) then some ⟨{ t := k / 4, q := k % 4 }, .core⟩ else none
def State.planSwitches (s : State) : List Turn :=
  (s.xbars.filter fun e => !e.2.halted).map fun e => ⟨{ t := e.1 / 4, b := e.1 % 4 }, .switch⟩

/-- What the engines of the tiles do in a cycle: nothing while their supplies are off (R389). Stream ports stand
before nodes (08_copies_barriers.md R164), nodes before switches, rows of a node behind them, and all before the packets and the cores: this
is the order of the accumulator queue within a cycle (07_matrix_meld.md R142). (DESIGN CHOICE, log 5; DEDUCED, log 74) -/
def State.planTiles (s : State) : List Turn :=
  s.planLinks ++ (s.tiles.flatMap fun e => s.planTile e.1 e.2) ++
  (s.nodes.flatMap fun e => s.planNode e.1 e.2) ++ s.planSwitches ++ s.nodes.flatMap fun e => planRows e.1 e.2

/-- Is a turn the outside's report of a fault at a position? -/
def fenceOf (t : Turn) : Option (BitVec 64) :=
  match t.act with
  | .event (.positionFence obj) => some obj
  | _ => none

/-- The outside's events that a cycle takes: one, or all reports of faults that stand first, which are faults found in one cycle
(24_fleet_operation.md R402). (DESIGN CHOICE, log 6) -/
def State.taken (s : State) : List Turn :=
  match s.inputs.takeWhile fun t => (fenceOf t).isSome with
  | [] => s.inputs.take 1
  | l => l

/-- What the outside does in a cycle, and the fences that are due, in ascending object order (24_fleet_operation.md R402). (DESIGN CHOICE,
log 6) -/
def State.planOutside (s : State) : List Turn :=
  let objs := (s.taken.filterMap fenceOf ++ s.fencesDue).foldl (fun l x => insertDefect x l) []
  (objs.map fun o => eventAt {} (.positionFence o)) ++ s.taken.filter fun t => (fenceOf t).isNone

/-- The turns of the cycle that has begun: the scheduler, the outside, engines, network, cores, translation, memory, service; what is on
tiles stands still while their supplies are off (R389). (DESIGN CHOICE, log 5; DESIGN CHOICE, log 9) -/
def State.plan (s : State) : List Turn :=
  (if s.booted then s.planScheduler else []) ++ s.planOutside ++ (if s.tilesOff then [] else s.planTiles) ++
  eventTimes s.net.length {} .routerPacket ++ (if s.tilesOff then [] else s.planInbox) ++ s.planPorts ++
  (if s.tilesOff then [] else
    (s.ctxs.flatMap fun e => planContext e.1 e.2) ++ s.planCores ++ (s.tiles.flatMap fun e => State.planBehind e.1 e.2) ++ s.planSteals) ++
  ((uniq (s.walks.map Walk.die)).map fun d => eventAt { n := d } .tlbWalkComplete) ++
  (if s.booted then s.planDram else []) ++ s.planService

/-- The FIFOs that hold a word: `qx` FIFOs and queues (14_stream_instructions.md R277). (DESIGN CHOICE, log 76) -/
def State.filled (s : State) : List Nat :=
  (s.xbars.flatMap fun e => ((List.range 4).filter fun q => e.2.toCore.get [] q != []).map fun q => 2 * (4 * e.1 + q)) ++
  s.tiles.flatMap fun e => (e.2.banks.filter fun b => b.2.queue != []).map fun b => 2 * (8 * e.1 + b.1) + 1

/-- The next cycle begins with its turns; the plan takes the outside's events. Writes to capture buffers that were held go on. An uncorrectable
error in state that no residency owns puts the device into the device-error state first, in which every live residency is faulted
(22_faults_discard.md R380). (DESIGN CHOICE, log 5; DESIGN CHOICE, log 6; DESIGN CHOICE, log 33) -/
def State.beginCycle (s : State) : State :=
  let s := ({ s with cycle := s.cycle + 1 }).noteErrors
  let s := if s.unownedError ∨ s.deviceError then s.failDevice else s
  let s := s.flushCapture s.mgmt.captWrites.length
  { s with agenda := s.plan, atStart := s.filled, inputs := s.inputs.drop s.taken.length }

/-- One turn. -/
def runTurn (t : Turn) (s : State) : Host.Outcome State Fault Refusal :=
  match t.act with
  | .core => coreTurn s t.place false
  | .late => coreTurn s t.place true
  | .switch => switchTurn s
  | .frame => frameTurn s
  | .event i => exec i s

/-- Without a supply nothing happens but the outside's DEVICE_RESET, the power-on (24_fleet_operation.md R395, 23_management.md R383):
every other input is lost. (DEDUCED, log 74) -/
def darkStep (s : State) : Host.Outcome State Fault Refusal :=
  match s.inputs with
  | [] => .fault .noSupply
  | t :: r =>
    if t.act = .event .deviceReset then exec .deviceReset { s with inputs := r, cur := t.place } else .next { s with inputs := r }

/-- The next turn, or the next cycle. (DESIGN CHOICE, log 5) -/
def liveStep (s : State) : Host.Outcome State Fault Refusal :=
  match s.agenda with
  | [] => .next s.beginCycle
  | t :: r => runTurn t { s with agenda := r, cur := t.place }

/-- Place one program instruction where the next step fetches it: context bank 0 of core 0 of tile 0. (DESIGN CHOICE, log 7) -/
def State.placeInstruction (s : State) (nbits w : Nat) : State :=
  let s := { s with agenda := [⟨{}, .core⟩], powered := true }
  let c := s.ctx 0
  let s := s.setCtx 0 { c with
    run := .live, ip := 0x400, code := ⟨0x400, 64, 0x400⟩, wait := .none, async := [], stream := none }
  let s := s.setCore 0 { s.core 0 with counter := 3 }
  { s with mem := Memory.writeN s.mem (storeKey 0 0x400) 8 (w % 2 ^ nbits) }

end Sys2Proof.Machine
end

