-- ==== Sys2Proof/Machine/Step.lean ====
section
/-! DEFINITION. One step of the machine: the next turn of the present cycle, or the beginning of the next cycle. -/

namespace Sys2Proof.Machine

/-- A step takes the first turn of the agenda; with none left, the next cycle begins with its turns. -/
def step (s : State) : Host.Outcome State Fault Refusal := if s.powered then liveStep s else darkStep s

/-- The state in which the next step runs one program instruction: context bank 0 of core 0 of tile 0 is live, its partition holds
the instruction's words at 0x400, and the turn is that core's. (DESIGN CHOICE, log 7) -/
def State.withFetchWord (s : State) (nbits w : Nat) : State := s.placeInstruction nbits w

end Sys2Proof.Machine
end

