-- ==== Sys2Proof/Safety.lean ====
section
/-! DEFINITION. The terms in which claims about the machine are made: what an answer is, when an instruction is ready, how it ends,
and the form of memory that every state keeps. -/

namespace Sys2Proof.Machine

/-- Does the machine answer a next state here? A safe run is one that always does. -/
def answers (o : Host.Outcome State Fault Refusal) : Bool :=
  match o with
  | .next _ => true
  | .fault _ => false
  | .refused _ => false

/-- The memory has its canonical form. -/
def State.memOk (s : State) : Bool := Memory.wf s.mem

/-- The instruction that the machine is at has all that it needs (R34, R77 to R83, R206): its ports belong to the core, the sources
hold words, the destinations have room, the guard is true, no CTL and no FLIP acts at a head, and every word is DATA. -/
def State.ready (s : State) (srcs : List Src) (outs : List (BitVec 5)) : Bool :=
  (s.ownFault (portsOf srcs) (outPorts outs)).isNone && s.portsFull (portsOf (srcs.filter Src.need)) &&
  s.portsRoom (outPorts outs) && s.me.p s.guard.toNat &&
  ((actingPorts srcs).all fun p => !s.flipAt p.1 && (!p.2 || (s.ctlAt p.1).isNone)) && (s.tokenFault srcs).isNone

/-- A scalar source: a register, or the next word of a port (R78). -/
def State.src (s : State) (srcs : List Src) (i : Nat) : W64 := (s.operand srcs (fun _ => false) i).setWidth 64

/-- An instruction of `len` bytes ends: its source words leave their ports, it retires, and its core's turn is used. -/
def State.finish (s : State) (len : Nat) (srcs : List Src) : State :=
  let s := s.popPorts (popsOf srcs)
  (s.setMe (s.me.retire len)).used

/-- The same, and the context goes on at `t`. -/
def State.finishAt (s : State) (len : Nat) (srcs : List Src) (t : W64) : State :=
  let s := s.popPorts (popsOf srcs)
  (s.setMe { s.me.retire len with ip := t.setWidth 16 }).used

end Sys2Proof.Machine
end

