-- ==== Sys2Proof/Certificates/Slice0/Obligations.lean ====
section
/-! DEFINITION. The statements about the machine that the provers are to prove, each a proposition with the rule of spec/ it formalises. -/

namespace Sys2Proof.Claims

open Sys2Proof.Machine

/-- Exact division of R114, truncated toward zero. -/
def quotient (a b : W64) : W64 := if b = 0 then BitVec.allOnes 64 else BitVec.ofInt 64 (a.toInt.tdiv b.toInt)

/-- The remainder that goes with it. -/
def modulus (a b : W64) : W64 := if b = 0 then a else BitVec.ofInt 64 (a.toInt.tmod b.toInt)

/-- The two-operand forms of R208 and R212 that wrap, with the result of each. -/
def binary : List ((BitVec 5 → BitVec 5 → BitVec 5 → Instr) × (W64 → W64 → W64)) := [
  (.add, fun a b => a + b), (.sub, fun a b => a - b), (.and, fun a b => a &&& b), (.or, fun a b => a ||| b),
  (.xor, fun a b => a ^^^ b), (.andn, fun a b => a &&& ~~~b),
  (.shl, fun a b => a <<< (b.toNat % 64)), (.shr, fun a b => a >>> (b.toNat % 64)),
  (.sar, fun a b => a.sshiftRight (b.toNat % 64)),
  (.rol, fun a b => (a <<< (b.toNat % 64)) ||| (a >>> (64 - b.toNat % 64))),
  (.ror, fun a b => (a >>> (b.toNat % 64)) ||| (a <<< (64 - b.toNat % 64))),
  (.min, fun a b => if a.toInt ≤ b.toInt then a else b), (.max, fun a b => if a.toInt ≤ b.toInt then b else a),
  (.minu, fun a b => if a.toNat ≤ b.toNat then a else b), (.maxu, fun a b => if a.toNat ≤ b.toNat then b else a),
  (.mul, fun a b => BitVec.ofInt 64 (a.toInt * b.toInt)),
  (.mulh, fun a b => BitVec.ofInt 64 (a.toInt * b.toInt / 2 ^ 64)),
  (.mulhu, fun a b => BitVec.ofNat 64 (a.toNat * b.toNat / 2 ^ 64)),
  (.mulhsu, fun a b => BitVec.ofInt 64 (a.toInt * b.toNat / 2 ^ 64)),
  (.div, quotient), (.rem, modulus),
  (.divu, fun a b => if b = 0 then BitVec.allOnes 64 else a / b), (.remu, fun a b => if b = 0 then a else a % b)]

/-- The saturating forms of R208: the bounds and the exact result. -/
def saturating : List ((BitVec 5 → BitVec 5 → BitVec 5 → Instr) × Int × Int × (W64 → W64 → Int)) := [
  (.adds, -2 ^ 63, 2 ^ 63 - 1, fun a b => a.toInt + b.toInt), (.subs, -2 ^ 63, 2 ^ 63 - 1, fun a b => a.toInt - b.toInt),
  (.addus, 0, 2 ^ 64 - 1, fun a b => a.toNat + b.toNat), (.subus, 0, 2 ^ 64 - 1, fun a b => (a.toNat : Int) - b.toNat)]

/-- The one-operand forms of R208, and those of R209 and R210 for a 13-bit immediate `i` and an amount `n`. -/
def unary (i : BitVec 13) (n : BitVec 6) : List ((BitVec 5 → BitVec 5 → Instr) × (W64 → W64)) := [
  (.mov, fun a => a), (.sxb, fun a => (a.setWidth 8).signExtend 64), (.sxh, fun a => (a.setWidth 16).signExtend 64),
  (.sxw, fun a => (a.setWidth 32).signExtend 64), (.zxb, fun a => (a.setWidth 8).setWidth 64),
  (.zxh, fun a => (a.setWidth 16).setWidth 64), (.zxw, fun a => (a.setWidth 32).setWidth 64),
  (.clz, BitVec.clz), (.ctz, BitVec.ctz), (.pcnt, BitVec.cpop),
  (fun d a => .addi d a i, fun a => a + i.signExtend 64), (fun d a => .andi d a i, fun a => a &&& i.signExtend 64),
  (fun d a => .ori d a i, fun a => a ||| i.signExtend 64), (fun d a => .xori d a i, fun a => a ^^^ i.signExtend 64),
  (fun d a => .shli d a n, fun a => a <<< n.toNat), (fun d a => .shri d a n, fun a => a >>> n.toNat),
  (fun d a => .sari d a n, fun a => a.sshiftRight n.toNat),
  (fun d a => .roli d a n, fun a => (a <<< n.toNat) ||| (a >>> (64 - n.toNat))),
  (fun d a => .rori d a n, fun a => (a >>> n.toNat) ||| (a <<< (64 - n.toNat)))]

/-- The conditions of R213. -/
def cond (c : Nat) (a b : W64) : Prop :=
  match c with
  | 0 => a = b
  | 1 => a ≠ b
  | 2 => a.toInt < b.toInt
  | 3 => b.toInt ≤ a.toInt
  | 4 => a.toNat < b.toNat
  | 5 => b.toNat ≤ a.toNat
  | 6 => a &&& b ≠ 0
  | _ => a &&& b = 0

/-- The predicate forms of R215 over two predicates, and `pnot`, with what each writes. -/
def logic (b : BitVec 3) : List ((BitVec 3 → BitVec 3 → Instr) × (Bool → Bool → Bool)) := [
  (fun d a => .pand d a b, fun x y => x && y), (fun d a => .por d a b, fun x y => x || y),
  (fun d a => .pxor d a b, fun x y => x ^^ y), (fun d a => .pandn d a b, fun x y => x && !y),
  (fun d a => .pnot d a, fun x _ => !x)]

/-- The transfers of R218 to R220: the instruction, its source field, whether it is taken (R218), its target, and the register that
takes the return address. -/
def transfers (s : State) (p : BitVec 3) (o19 : BitVec 19) (o25 : BitVec 25) (a d : BitVec 5) :
    List (Instr × List Src × List (BitVec 5) × Bool × W64 × Option (BitVec 5)) :=
  let ip : W64 := s.me.ip.setWidth 64
  [(.bt p o19, [], [], s.me.p p.toNat, ip + o19.signExtend 64 * 4, none),
   (.bf p o19, [], [], !s.me.p p.toNat, ip + o19.signExtend 64 * 4, none),
   (.jmp o25, [], [], true, ip + o25.signExtend 64 * 4, none),
   (.call o25, [], [], true, ip + o25.signExtend 64 * 4, some 26),
   (.jr a, [rd a], [], true, s.src [rd a] 0, none),
   (.jalr d a, [rd a], [d], true, s.src [rd a] 0, some d),
   (.ret, [], [], true, s.me.s 26, none)]

end Sys2Proof.Claims

open Sys2Proof Sys2Proof.Machine

/-- R208, R212, R114: every two-operand scalar instruction that wraps completes, for registers and ports alike, with its result in
its destination; its source words leave their ports and the context goes on 4 bytes further. -/
def Sys2Proof.Parts.ScalarBinary : Prop :=
  ∀ p ∈ Claims.binary, ∀ (s : State) (d a b : BitVec 5), s.ready [rd a, rd b] [d] = true →
    exec (p.1 d a b) s = .next ((s.put d (p.2 (s.src [rd a, rd b] 0) (s.src [rd a, rd b] 1))).finish 4 [rd a, rd b])

/-- R208: the saturating forms complete with the exact result clamped to the range, and set the saturated flag where it is. -/
def Sys2Proof.Parts.ScalarSaturating : Prop :=
  ∀ p ∈ Claims.saturating, ∀ (s : State) (d a b : BitVec 5), s.ready [rd a, rd b] [d] = true →
    let t := p.2.2.2 (s.src [rd a, rd b] 0) (s.src [rd a, rd b] 1)
    let x := max p.2.1 (min p.2.2.1 t)
    exec (p.1 d a b) s =
      .next (((s.put d (BitVec.ofInt 64 x)).flags (if x = t then 0 else 16)).finish 4 [rd a, rd b])

/-- R208 to R210: every one-operand and immediate form completes with its result in its destination. -/
def Sys2Proof.Parts.ScalarUnary : Prop :=
  ∀ (i : BitVec 13) (n : BitVec 6), ∀ p ∈ Claims.unary i n, ∀ (s : State) (d a : BitVec 5), s.ready [rd a] [d] = true →
    exec (p.1 d a) s = .next ((s.put d (p.2 (s.src [rd a] 0))).finish 4 [rd a])

/-- R211, R215, R216, R217: `lhi` keeps the bits below its position and clears those above its chunk; `prds` and `prdall` read
predicates; `sel` takes one of its sources by a predicate, both read; `ipa` gives the address of a target. -/
def Sys2Proof.Parts.ScalarFormed : Prop :=
  (∀ (s : State) (d : BitVec 5) (h : BitVec 2) (c : BitVec 16), s.ready [] [d] = true →
    exec (.lhi d h c) s = .next ((s.put d
      (BitVec.ofNat 64 ((s.me.s d.toNat).toNat % 2 ^ (16 * h.toNat) + c.toNat * 2 ^ (16 * h.toNat)))).finish 4 [])) ∧
  (∀ (s : State) (d : BitVec 5) (a : BitVec 3), s.ready [] [d] = true →
    exec (.prds d a) s = .next ((s.put d (if s.me.p a.toNat then 1 else 0)).finish 4 [])) ∧
  (∀ (s : State) (d : BitVec 5), s.ready [] [d] = true →
    ∃ v : W64, exec (.prdall d) s = .next ((s.put d v).finish 4 []) ∧
      v.getLsbD 0 = true ∧ (∀ i, i < 8 → v.getLsbD i = s.me.p i) ∧ ∀ i, 8 ≤ i → v.getLsbD i = false) ∧
  (∀ (s : State) (d a b : BitVec 5) (n : BitVec 3), s.ready [rd a, rd b] [d] = true →
    exec (.sel d a b n) s = .next ((s.put d
      (if s.me.p n.toNat then s.src [rd a, rd b] 0 else s.src [rd a, rd b] 1)).finish 4 [rd a, rd b])) ∧
  (∀ (s : State) (d : BitVec 5) (i : BitVec 18) (g : BitVec 3), decode (0x0B#6 ++ d ++ i ++ g) 0 = some (.ipa d i) ∧
    (s.ready [] [d] = true → exec (.ipa d i) s = .next ((s.put d (s.me.ip.setWidth 64 + i.signExtend 64 * 4)).finish 4 [])))

/-- R213 to R215: the instructions that write a predicate complete with it written, and p0 stays true. -/
def Sys2Proof.Parts.PredicateWrites : Prop :=
  (∀ (s : State) (d : BitVec 3) (a b : BitVec 5) (m : BitVec 2) (c : BitVec 4), s.ready [rd a, rd b] [] = true → m.toNat < 3 →
    c.toNat < 8 → ∃ v : Bool, (v = true ↔ Claims.cond c.toNat (s.src [rd a, rd b] 0) (s.src [rd a, rd b] 1)) ∧
      exec (.cmp d a b m c) s = .next ((s.setMe (s.me.setP d.toNat
        (if m = 0 then v else if m = 1 then s.me.p d.toNat && v else s.me.p d.toNat || v))).finish 4 [rd a, rd b])) ∧
  (∀ (s : State) (d : BitVec 3) (a : BitVec 5) (c : BitVec 3) (i : BitVec 10), s.ready [rd a] [] = true →
    ∃ v : Bool, (v = true ↔ Claims.cond c.toNat (s.src [rd a] 0) (if c.toNat < 4 then i.signExtend 64 else i.setWidth 64)) ∧
      exec (.cmpi d a c i) s = .next ((s.setMe (s.me.setP d.toNat v)).finish 4 [rd a])) ∧
  (∀ b : BitVec 3, ∀ p ∈ Claims.logic b, ∀ (s : State) (d a : BitVec 3), s.ready [] [] = true →
    exec (p.1 d a) s = .next ((s.setMe (s.me.setP d.toNat (p.2 (s.me.p a.toNat) (s.me.p b.toNat)))).finish 4 [])) ∧
  (∀ (s : State) (d : BitVec 3) (a : BitVec 5), s.ready [rd a] [] = true →
    exec (.pwrs d a) s = .next ((s.setMe (s.me.setP d.toNat ((s.src [rd a] 0).getLsbD 0))).finish 4 [rd a])) ∧
  (∀ (s : State) (a : BitVec 5), s.ready [rd a] [] = true →
    ∃ c : Ctx, exec (.pwrall a) s = .next ((s.setMe c).finish 4 [rd a]) ∧ c = { s.me with preds := c.preds } ∧
      c.p 0 = true ∧ ∀ i, 0 < i → i < 8 → c.p i = (s.src [rd a] 0).getLsbD i)

/-- R186, R218 to R220: a transfer that is taken goes to its target if that lies in the partition and is a multiple of 4, and `call` and
`jalr` write the address after them; to any other target it takes the IP-bounds fault (cause 0x03, TRAPADDR the target) with no other
effect; a branch that is not taken goes on. -/
def Obligations.Transfers : Prop :=
  ∀ (s : State) (p g : BitVec 3) (o19 : BitVec 19) (o25 : BitVec 25) (a d : BitVec 5),
    decode (0x0C#6 ++ p ++ 1#1 ++ o19 ++ g) 0 = some (.bt p o19) ∧ decode (0x0C#6 ++ p ++ 0#1 ++ o19 ++ g) 0 = some (.bf p o19) ∧
    decode (0x0D#6 ++ 0#1 ++ o25) 0 = some (.jmp o25) ∧ decode (0x0D#6 ++ 1#1 ++ o25) 0 = some (.call o25) ∧
    guardOf (0x0C#6 ++ p ++ 1#1 ++ o19 ++ g) = g ∧ guardOf (0x0D#6 ++ 0#1 ++ o25) = 0 ∧ guardOf (0x0D#6 ++ 1#1 ++ o25) = 0 ∧
    (s.me.p s.guard.toNat = false → exec (.bt p o19) s = .next ((s.setMe (s.me.retire 4)).used) ∧
      exec (.bf p o19) s = .next ((s.setMe (s.me.retire 4)).used)) ∧
    ∀ x ∈ Claims.transfers s p o19 o25 a d, s.ready x.2.1 x.2.2.1 = true →
      exec x.1 s = .next (
        if x.2.2.2.1 = false then s.finish 4 x.2.1
        else if s.me.code.base ≤ x.2.2.2.2.1.toNat ∧ x.2.2.2.2.1.toNat < s.me.code.base + s.me.code.size ∧ x.2.2.2.2.1.toNat % 4 = 0
        then (match x.2.2.2.2.2 with
          | none => s
          | some r => s.put r (s.me.ip.setWidth 64 + 4)).finishAt 4 x.2.1 x.2.2.2.2.1
        else s.fault ⟨0x03, x.2.2.2.2.1, 0⟩)

namespace Sys2Proof.Claims

/-- The shape of an instruction: its length in bytes, the fields it reads in the order of R78, the fields it writes, and the values of
VCFG at which it takes the width fault (R189). -/
structure Form where
  len : Nat := 4
  srcs : List Src := []
  outs : List (BitVec 5) := []
  width : Ctx → Bool := fun _ => false

/-- The sources of the scalar and immediate vector forms (R249). -/
def secondSrcs (a b : BitVec 5) (x : BitVec 1) : List Src := if x = 1 then [rd a] else [rd a, rd b]

/-- The shapes of the instructions of chapters 11 to 15 but the streaming ones, from their encodings. -/
def form (i : Instr) : Option Form :=
  match i with
  | .add d a b | .sub d a b | .and d a b | .or d a b | .xor d a b | .andn d a b | .shl d a b | .shr d a b | .sar d a b
  | .rol d a b | .ror d a b | .min d a b | .max d a b | .minu d a b | .maxu d a b | .adds d a b | .subs d a b | .addus d a b
  | .subus d a b | .mul d a b | .mulh d a b | .mulhu d a b | .mulhsu d a b | .div d a b | .divu d a b | .rem d a b | .remu d a b
  | .sel d a b _ | .vgat d a b _ _ _ | .aswap d a b _ _ | .aadd d a b _ _ | .aand d a b _ _ | .aor d a b _ _ | .axor d a b _ _
  | .amax d a b _ _ | .amin d a b _ _ | .amaxu d a b _ _ | .vperm d a b _ | .vslup d a b _ | .vsldn d a b _ | .vzipl d a b _
  | .vziph d a b _ | .vunzpe d a b _ | .vunzpo d a b _ | .bwait d a b =>
    some { srcs := [rd a, rd b], outs := [d] }
  | .mov d a | .sxb d a | .sxh d a | .sxw d a | .zxb d a | .zxh d a | .zxw d a | .clz d a | .ctz d a | .pcnt d a | .addi d a _
  | .andi d a _ | .ori d a _ | .xori d a _ | .shli d a _ | .shri d a _ | .sari d a _ | .roli d a _ | .rori d a _ | .jalr d a
  | .ld d a _ _ | .vld d a _ | .vldLo d a _ | .gtest d a | .gcast d a _ | .stdone d a _ | .vslupIm d a _ _ | .vsldnIm d a _ _
  | .vexp d a _ | .vmov d a _ | .vsplat d a _ | .vins d a _ | .barr d a | .btest d a =>
    some { srcs := [rd a], outs := [d] }
  | .lhi d _ _ | .prds d _ | .prdall d | .ipa d _ | .qpop d _ | .qpopv d _ | .qcount d _ | .qtag d _ | .bget d _ | .kget d _
  | .kcnt d _ | .vsplati d _ _ | .tkpeekQ d _ | .tkpopQ d _ | .tkpopvQ d _ | .stake d | .crd d _ =>
    some { outs := [d] }
  | .cmp _ a b _ _ | .cinv a b | .cflush a b | .cpref a b | .bspill _ a b | .binit a b =>
    some { srcs := [rd a, rd b] }
  | .cmpi _ a _ _ | .pwrs _ a | .pwrall a | .jr a | .stdoneq _ a _ | .qpush _ a | .qpushv _ a | .bset _ a | .kset _ a | .cwr _ a =>
    some { srcs := [rd a] }
  | .pand _ _ _ | .por _ _ _ | .pxor _ _ _ | .pandn _ _ _ | .pnot _ _ | .bt _ _ | .bf _ _ | .jmp _ | .call _ | .fence _
  | .qdrop _ | .kand _ _ _ | .kor _ _ _ | .kxor _ _ _ | .kandn _ _ _ | .knot _ _ | .vcfg _ _ | .btagQ _ _ _ | .trap _ | .ret
  | .cinvAll | .tdone | .potinit | .wquiet | .commit | .eret | .wfi | .brk | .halt =>
    some {}
  | .st d a _ _ | .vst d a _ | .vstLo d a _ | .stm d a _ =>
    some { srcs := [rd a, rd d] }
  | .vsct d a b _ _ _ | .spawn d a b | .send d a b =>
    some { srcs := [rd a, rd b, rd d] }
  | .cas d a b _ _ _ =>
    some { srcs := [rd a, rd d, rd b], outs := [d] }
  | .stq d a b _ _ _ _ _ x =>
    some { len := 8, srcs := if x = 1#1 then [rd a, rd b, rd d] else [rd a, rd b] }
  | .vadd d a b _ t | .vsub d a b _ t | .vmul d a b _ t | .vmulh d a b _ t | .vmin d a b _ t | .vmax d a b _ t
  | .vadds d a b _ t | .vsubs d a b _ t | .vavg d a b _ t | .vabsd d a b _ t | .vand d a b _ t | .vor d a b _ t
  | .vxor d a b _ t | .vandn d a b _ t | .vshl d a b _ t | .vshr d a b _ t | .vdiv d a b _ t | .vrem d a b _ t
  | .vmuls d a b _ t | .vfadd d a b _ t | .vfsub d a b _ t | .vfmul d a b _ t | .vfdiv d a b _ t | .vfmin d a b _ t
  | .vfmax d a b _ t | .vfsgnj d a b _ t =>
    some { srcs := [rd a, rd b], outs := [d], width := typeFault t }
  | .vneg d a _ t | .vabs d a _ t | .vfsqrt d a _ t | .vfrcp d a _ t | .vfrsqrt d a _ t | .vfexp2 d a _ t | .vflog2 d a _ t
  | .vfabs d a _ t | .vfneg d a _ t | .vrsum d a _ t | .vrmin d a _ t | .vrmax d a _ t | .vrand d a _ t | .vror d a _ t
  | .vrxor d a _ t | .vrfsum d a _ t | .vrsumw d a _ t | .vext d a _ t =>
    some { srcs := [rd a], outs := [d], width := typeFault t }
  | .valusVadd d a b x _ t | .valusVsub d a b x _ t | .valusVmul d a b x _ t | .valusVmulh d a b x _ t
  | .valusVmin d a b x _ t | .valusVmax d a b x _ t | .valusVadds d a b x _ t | .valusVsubs d a b x _ t | .valusVavg d a b x _ t
  | .valusVabsd d a b x _ t | .valusVand d a b x _ t | .valusVor d a b x _ t | .valusVxor d a b x _ t | .valusVandn d a b x _ t
  | .valusVshl d a b x _ t | .valusVshr d a b x _ t | .valusVdiv d a b x _ t | .valusVrem d a b x _ t | .valusVmuls d a b x _ t =>
    some { srcs := secondSrcs a b x, outs := [d], width := typeFault t }
  | .vfma d a b c _ t | .vfms d a b c _ t | .vmac d a b c _ t =>
    some { srcs := [rd a, rd b, rd c], outs := [d], width := typeFault t }
  | .vdot d a b c _ t =>
    some { srcs := [rd a, rd b, rd c], outs := [d], width := fun c => typeFault t c || c.laneW == 32 }
  | .vcvt d a x _ t =>
    some { srcs := [rd a], outs := [d], width := fun c => !convType t.toNat c.laneW || !convType x.toNat c.laneW }
  | .vcvtn d a x _ _ t =>
    some { srcs := [rd a], outs := [d], width := fun c => !convType t.toNat c.laneW || !convType x.toNat (c.laneW / 2) }
  | .vcvtw d a x _ _ t =>
    some { srcs := [rd a], outs := [d], width := fun c => !convType t.toNat (c.laneW / 2) || !convType x.toNat c.laneW }
  | .vcomp d a b _ =>
    some { srcs := [rd a], outs := [d, b] }
  | .vcmp _ a b _ _ _ t =>
    some { srcs := [rd a, rd b], width := typeFault t }
  | .tkpeek d a =>
    some { srcs := [lookAt a false], outs := [d] }
  | .tkpop d a | .tkpopv d a | .tksend d a _ | .tksendv d a _ =>
    some { srcs := [rawRd a], outs := [d] }
  | .tksendQ _ a _ | .tksendvQ _ a _ =>
    some { srcs := [rawRd a] }
  | .btag _ a c =>
    some { srcs := [lookAt a (c != 0xF#4)] }
  | .wload _ _ _ _ _ _ | .wexportRv _ | .mmq _ _ _ _ _ _ _ _ | .accclr _ _ _ | .cfire _ | .cdis _ =>
    some { len := 8 }
  | .wexport a _ | .accrd a _ _ _ _ | .cstat a _ =>
    some { len := 8, outs := [a] }
  | .carm a _ =>
    some { len := 8, srcs := [rd a] }
  | _ => none

/-- The queue whose entry an instruction pushes to. -/
def pushes (i : Instr) : Option (BitVec 3) :=
  match i with
  | .qpush q _ | .qpushv q _ | .tksendQ q _ _ | .tksendvQ q _ _ | .stdoneq q _ _ => some q
  | _ => none

/-- The streaming instructions with their lengths (14_stream_instructions.md R262). -/
def streaming (i : Instr) : Option Nat :=
  match i with
  | .steer _ _ _ _ _ | .tee _ _ _ _ | .merge _ _ _ _ _ => some 4
  | .fscan _ _ _ _ _ _ | .fisect _ _ _ _ | .funion _ _ _ _ | .frep _ _ _ _ | .fzip _ _ _ _ _ _ | .fload _ _ _ _ _ _
  | .fred _ _ _ _ _ | .fwrite _ _ _ _ _ _ => some 8
  | _ => none

/-- The ports of an instruction are its core's, those it must read hold their words and those it writes have room (R77, R78, R207). -/
def ported (s : State) (srcs : List Src) (outs : List (BitVec 5)) : Bool :=
  (s.ownFault (portsOf srcs) (outPorts outs)).isNone && s.portsFull (portsOf (srcs.filter Src.need)) && s.portsRoom (outPorts outs)

/-- No CTL or FLIP acts at the head of a port that the instruction reads (R82 to R85). -/
def quiet (s : State) (srcs : List Src) : Bool :=
  (actingPorts srcs).all fun q => !s.flipAt q.1 && (s.ctlAt q.1).isNone

end Sys2Proof.Claims

/-- R206, R207, R297: an instruction of the core, of any family, whose guard is false and whose ports are its core's, full and roomy retires
with no other effect: no register, predicate, flag, port or byte of memory changes, and what it names besides (a queue, a barrier, a
template, a matrix slot, an address) is not looked at. An instruction that pushes to a queue where a DONE token of its context still waits
for its entry waits as well, and a streaming one until its endpoints are ready. Readings and choices of the model that it rests on: log
entry 19. -/
def Obligations.GuardFalse : Prop :=
  (∀ (i : Instr) (g : Claims.Form), Claims.form i = some g → ∀ s : State, Claims.ported s g.srcs g.outs = true →
    s.me.p s.guard.toNat = false →
    ((∀ q, Claims.pushes i = some q → s.donePending s.cur.ctx true q.toNat = false) →
      exec i s = .next ((s.setMe (s.me.retire g.len)).used)) ∧
    ∀ q, Claims.pushes i = some q → s.donePending s.cur.ctx true q.toNat = true → exec i s = .next s) ∧
  (∀ (i : Instr) (n : Nat), Claims.streaming i = some n → ∀ s : State,
    let h := shapeOf i
    Claims.ported s ((h.ins.filterMap epPort).map streamRd) ((h.outs.filterMap epPort).map (BitVec.ofNat 5)) = true →
    s.me.p s.guard.toNat = false →
    (s.shapeReady h = true → exec i s = .next ((s.setMe (s.me.retire n)).used)) ∧
    (s.shapeReady h = false → exec i s = .next s))

/-- R77, R34, R82, R189: an instruction of the core takes the port-ownership fault (cause 0x04, TRAPINFO the port) for a port that is not
its core's; else, without words in its sources or room at its destinations, it waits and nothing changes; else, with a type that has no
meaning at VCFG's width, it takes the width fault (cause 0x05), and with a word that is not DATA at a source that reads an operand, the
first such source, the token fault (cause 0x06, TRAPINFO the tag and the field). None of the faults has another effect. -/
def Sys2Proof.Parts.PortFaults : Prop :=
  ∀ (i : Instr) (g : Claims.Form), Claims.form i = some g → ∀ s : State,
    (∀ c, s.ownFault (portsOf g.srcs) (outPorts g.outs) = some c → exec i s = .next (s.fault c) ∧
      ∃ p, c = ⟨0x04, 0, BitVec.ofNat 64 p⟩ ∧
        ((p ∈ portsOf g.srcs ∧ s.ownsIn p = false) ∨ (p ∈ outPorts g.outs ∧ s.ownsOut p = false))) ∧
    (s.ownFault (portsOf g.srcs) (outPorts g.outs) = none → Claims.ported s g.srcs g.outs = false → exec i s = .next s) ∧
    (Claims.ported s g.srcs g.outs = true → s.me.p s.guard.toNat = true → Claims.quiet s g.srcs = true →
      (g.width s.me = true → exec i s = .next (s.fault ⟨0x05, 0, 0⟩)) ∧
      (g.width s.me = false → ∀ (k : Nat) (x : Src), g.srcs[k]? = some x → 27 ≤ x.f → x.tok = true →
        (s.wordAt g.srcs k).tag ≠ 0 →
        (∀ j y, j < k → g.srcs[j]? = some y → 27 ≤ y.f → y.tok = true → (s.wordAt g.srcs j).tag = 0) →
        exec i s = .next (s.fault ⟨0x06, 0, BitVec.ofNat 64 ((s.wordAt g.srcs k).tag.toNat + x.f * 256)⟩)))

/-- R205, R96: what a scalar instruction that completes leaves unchanged: every byte of memory, every other context, and of its own context
everything but its destination, the predicates, FSTAT, IP and INSTRET; s0 reads as zero before and after. -/
def Obligations.ScalarFrame : Prop :=
  ∀ (s t : State) (i : Instr) (d : BitVec 5) (srcs : List Src),
    ((∃ a b, srcs = [rd a, rd b] ∧ ((∃ p ∈ Claims.binary, i = p.1 d a b) ∨ (∃ p ∈ Claims.saturating, i = p.1 d a b) ∨
        ∃ n, i = .sel d a b n)) ∨
      (∃ a k n, srcs = [rd a] ∧ ∃ p ∈ Claims.unary k n, i = p.1 d a) ∨
      (srcs = [] ∧ ((∃ h c, i = .lhi d h c) ∨ (∃ a, i = .prds d a) ∨ i = .prdall d ∨ ∃ k, i = .ipa d k))) →
    s.ready srcs [d] = true → exec i s = .next t →
    t.mem = s.mem ∧ t.tiles = s.tiles ∧ t.nodes = s.nodes ∧ t.net = s.net ∧ t.sched = s.sched ∧ t.cores = s.cores ∧
    (∀ k, k ≠ s.cur.ctx → t.ctx k = s.ctx k) ∧
    t.me = { s.me with sregs := t.me.sregs, fstat := t.me.fstat, ip := s.me.ip + 4, instret := s.me.instret + 1, walkFail := none,
                       mid := false } ∧
    (∀ n, n ≠ d.toNat → t.me.s n = s.me.s n) ∧ t.me.s 0 = 0 ∧
    ((∀ a b, ∀ p ∈ Claims.saturating, i ≠ p.1 d a b) → t.me.fstat = s.me.fstat)

namespace Sys2Proof.Claims

/-- The home of the byte at an address of an SRAM window, as the context whose turn it is names it (R53, R55, R61). -/
def byteKey (s : State) (a : W64) : Nat :=
  match winOf a with
  | none => 0
  | some w => let p := sramPlace s.me s.cur.t w a; s.scratchKey p.1 p.2

/-- `n` bytes from an address of an SRAM window on, little-endian (R4). -/
def bytes (s : State) (a : W64) : Nat → Nat
  | 0 => 0
  | n + 1 => bytes s a n + (Memory.read s.mem (byteKey s (a + BitVec.ofNat 64 n))).toNat * 256 ^ n

/-- Every part is in an SRAM bank of the tile or its cluster that is not changing its mode, no fabric store to it is under way, and, for a
read, it is not uncorrectable; and the private area begins at a sector (R55 aligns it to 1 KiB). -/
def local_ (s : State) (chk : Part → Option Trap) (wr : Bool) (ps : List Part) : Bool :=
  decide (s.me.privStart % 32 = 0) && match s.findHomes chk wr ps with
  | .all l => l.all fun x => match x.2 with | .sram k => wr || !s.badAt k x.1.n | _ => false
  | _ => false

/-- After a store of `n` bytes of `v` at `a` each of those bytes has its byte of `v`, and every other byte of memory is what it was. -/
def stored (s t : State) (a : W64) (n v : Nat) : Prop :=
  (∀ i, i < n → Memory.read t.mem (byteKey s (a + BitVec.ofNat 64 i)) = BitVec.ofNat 8 (v / 256 ^ i)) ∧
  ∀ k, (∀ i, i < n → k ≠ byteKey s (a + BitVec.ofNat 64 i)) → Memory.read t.mem k = Memory.read s.mem k

/-- The atomics of R230 over 64 bits: what memory holds after. -/
def atomics : List ((BitVec 5 → BitVec 5 → BitVec 5 → BitVec 2 → BitVec 3 → Instr) × (W64 → W64 → W64)) := [
  (.aswap, fun _ b => b), (.aadd, fun o b => o + b), (.aand, fun o b => o &&& b), (.aor, fun o b => o ||| b),
  (.axor, fun o b => o ^^^ b), (.amax, fun o b => if o.toInt ≤ b.toInt then b else o),
  (.amin, fun o b => if o.toInt ≤ b.toInt then o else b), (.amaxu, fun o b => if o.toNat ≤ b.toNat then b else o)]

/-- The loads of R225 and R227 with an immediate: instruction, bytes, whether the destination is a vector. -/
def loads (d a : BitVec 5) (i : BitVec 11) : List (Instr × Nat × Bool) :=
  [(.ld d a i 0, 1, false), (.ld d a i 1, 2, false), (.ld d a i 2, 4, false), (.ld d a i 3, 8, false),
   (.vld d a i, 32, true), (.vldLo d a i, 16, true)]

/-- The stores of R226 and R227. -/
def stores (d a : BitVec 5) (i : BitVec 11) : List (Instr × Nat × Bool) :=
  [(.st d a i 0, 1, false), (.st d a i 1, 2, false), (.st d a i 2, 4, false), (.st d a i 3, 8, false),
   (.vst d a i, 32, true), (.vstLo d a i, 16, true)]

/-- The physical address that the tile's TLBs give a global address for a read of the context's residency (R358). -/
def sectorOf (s : State) (va : W64) : Option Nat :=
  (s.tlbFind s.cur.t (s.rootOf (s.me.resid.getD 0)).1 va.toNat false).map fun e => e.frame + va.toNat % 2 ^ e.size

/-- The address of an offset in a window with the top byte `top`, its bits 55:44 naming `t` (R53). -/
def named (top t off : Nat) : W64 := BitVec.ofNat 64 (top * 2 ^ 56 + t * 2 ^ 44 + off)

/-- The cluster-shared address of an offset in a tile (R53, R15). -/
def shared (t off : Nat) : W64 := named 0xFA (clusterOf t * 8 + inCluster t) off

/-- The effective address of format M (R223). -/
def address (s : State) (srcs : List Src) (i : BitVec 11) (n : Nat) : W64 :=
  s.src srcs 0 + i.signExtend 64 * BitVec.ofNat 64 n

end Sys2Proof.Claims

/-- R225, R227, R223: a load from an SRAM window that passes its checks completes with the bytes at its address, least significant byte
first, zero-extended in its destination; nothing else changes, memory least of all. -/
def Sys2Proof.Parts.LocalLoads : Prop :=
  ∀ (s : State) (d a : BitVec 5) (i : BitVec 11), ∀ x ∈ Claims.loads d a i, s.ready [rd a] [d] = true →
    let e := Claims.address s [rd a] i x.2.1
    s.changing e x.2.1 = false → s.checkAccess s.me s.cur.t e x.2.1 1 = none → Claims.local_ s (fun _ => none) false (parts e x.2.1) = true →
    exec x.1 s = .next ((if x.2.2 then s.putV d (BitVec.ofNat 256 (Claims.bytes s e x.2.1))
      else s.put d (BitVec.ofNat 64 (Claims.bytes s e x.2.1))).finish 4 [rd a])

/-- R226, R227, R223: a store to an SRAM window that passes its checks completes with its bytes there, and changes no other byte of memory,
no register and no other context. -/
def Obligations.LocalStores : Prop :=
  ∀ (s : State) (d a : BitVec 5) (i : BitVec 11), ∀ x ∈ Claims.stores d a i, s.memOk = true → s.ready [rd a, rd d] [] = true →
    let e := Claims.address s [rd a, rd d] i x.2.1
    let v := if x.2.2 then (s.operand [rd a, rd d] (fun k => k == 1) 1).toNat else (s.src [rd a, rd d] 1).toNat
    s.changing e x.2.1 = false → s.checkAccess s.me s.cur.t e x.2.1 1 = none →
    Claims.local_ s (fun _ => none) true (parts e x.2.1) = true →
    ∃ t : State, exec x.1 s = .next
        (({ s with mem := t.mem, badSectors := t.badSectors, badWords := t.badWords } : State).finish 4 [rd a, rd d]) ∧
      Claims.stored s t e x.2.1 v

/-- R223, R54, R63: a load or store whose address fails a check takes that check's fault, with no other effect; one to a bank that has accepted
a change waits until that has taken effect. -/
def Sys2Proof.Parts.AccessFaults : Prop :=
  (∀ (s : State) (d a : BitVec 5) (i : BitVec 11), ∀ x ∈ Claims.loads d a i, s.ready [rd a] [d] = true →
    let e := Claims.address s [rd a] i x.2.1
    (s.changing e x.2.1 = true → exec x.1 s = .next s) ∧
    ∀ c, s.changing e x.2.1 = false → s.checkAccess s.me s.cur.t e x.2.1 1 = some c → exec x.1 s = .next (s.fault c)) ∧
  (∀ (s : State) (d a : BitVec 5) (i : BitVec 11), ∀ x ∈ Claims.stores d a i, s.ready [rd a, rd d] [] = true →
    let e := Claims.address s [rd a, rd d] i x.2.1
    (s.changing e x.2.1 = true → exec x.1 s = .next s) ∧
    ∀ c, s.changing e x.2.1 = false → s.checkAccess s.me s.cur.t e x.2.1 1 = some c → exec x.1 s = .next (s.fault c))

/-- R53, R54, R223: the checks on an address, for an access of `n` bytes: an address of no window, or of a tile that is not there, takes
cause 0x10; a private address past the private size 0x11; another tile's scratchpad 0x12; another cluster's 0x13; in each of the three
windows of the tile and its cluster, with those passed, the first bank that is not SCRATCH 0x14, and with none such the first of another
residency 0x15, with the bank in TRAPINFO; and every fault names the address. -/
def Sys2Proof.Parts.WindowChecks : Prop :=
  ∀ (s : State) (a : W64) (n : Nat), 0 < n →
    let check := s.checkAccess s.me s.cur.t a n 1
    let tile := (a.extractLsb' 44 12).toNat
    let mate := clusterTile (a.extractLsb' 47 9).toNat (a.extractLsb' 44 3).toNat
    let off := (a.extractLsb' 0 17).toNat
    (winOf a = none → check = some ⟨0x10, a, 0⟩) ∧
    (winOf a = some .scratch ∨ winOf a = some .fabric → s.present tile = false ∨ 2 ^ 17 < off + n → check = some ⟨0x10, a, 0⟩) ∧
    (winOf a = some .cluster → 6 ≤ (a.extractLsb' 44 3).toNat ∨ s.present mate = false ∨ 2 ^ 17 < off + n → check = some ⟨0x10, a, 0⟩) ∧
    (winOf a = some .priv → s.me.privSize < (a.extractLsb' 0 16).toNat + n → check = some ⟨0x11, a, 0⟩) ∧
    (winOf a = some .scratch → s.present tile = true → off + n ≤ 2 ^ 17 → tile ≠ s.cur.t → check = some ⟨0x12, a, 0⟩) ∧
    (winOf a = some .cluster → (a.extractLsb' 44 3).toNat < 6 → s.present mate = true → off + n ≤ 2 ^ 17 →
      (a.extractLsb' 47 9).toNat ≠ clusterOf s.cur.t → check = some ⟨0x13, a, 0⟩) ∧
    (∀ w p, winOf a = some w → w ≠ .global → w ≠ .fabric → s.checkWindow s.me s.cur.t a n = none → p = sramPlace s.me s.cur.t w a →
      ∀ (l r : List Nat) (b : Nat), s.banksOf p.1 p.2 n = l ++ b :: r →
        ((∀ m ∈ l, (s.bank p.1 m).mode = .scratch) → (s.bank p.1 b).mode ≠ .scratch → check = some ⟨0x14, a, BitVec.ofNat 64 b⟩) ∧
        ((∀ m ∈ l ++ b :: r, (s.bank p.1 m).mode = .scratch) → (∀ m ∈ l, s.ownsBank (s.me.resid.getD 0) p.1 m = true) →
          s.ownsBank (s.me.resid.getD 0) p.1 b = false → check = some ⟨0x15, a, BitVec.ofNat 64 b⟩)) ∧
    (∀ c, check = some c → c.addr = a)

/-- R223 to R225, R93: a `ld` of a global address that the tile's translation holds and the tile cache does not completes by a request:
the context waits for it, with the load's register, a read request for its bytes of the one sector goes to the home, and no register or
byte of memory has changed yet. -/
def Sys2Proof.Parts.RemoteLoad : Prop :=
  ∀ (s : State) (d a : BitVec 5) (i : BitVec 11) (z : BitVec 2) (e : TlbEntry), s.ready [rd a] [d] = true →
    let n := 2 ^ z.toNat
    let va := Claims.address s [rd a] i n
    let pa := e.frame + va.toNat % 2 ^ e.size
    winOf va = some .global → va.toNat % 32 + n ≤ 32 → va.toNat + n ≤ 2 ^ 56 →
    s.tlbFind s.cur.t (s.rootOf (s.me.resid.getD 0)).1 va.toNat false = some e → s.stqPending s.cur.ctx pa = false →
    s.hit s.cur.t (s.me.resid.getD 0) pa = none →
    ∃ (t : State) (f : Flight) (p : Piece), exec (.ld d a i z) s = .next t ∧ t.mem = s.mem ∧ t.issued = true ∧
      t.net = s.net ++ [f] ∧ f.at_ = s.cur.t ∧ f.p.h.kind = 0 ∧ f.p.h.addr = BitVec.ofNat 64 pa ∧
      f.p.h.op = byteMask (va.toNat % 32) n ∧ f.p.h.tid = p.tid ∧
      t.me = { s.me with wait := .mem (.load d) [p], heldLen := 4, heldIns := popsOf [rd a], mid := false } ∧
      p.addr = va ∧ p.off = 0 ∧ p.n = n ∧ p.val = none ∧ ∀ k, k ≠ s.cur.ctx → t.ctx k = s.ctx k

/-- R226, R66, R97: a `st` to a global address whose translation is held retires at once; a write request with its bytes goes to the home,
listed as not yet performed, and no byte of memory but a copy in the tile cache changes. -/
def Sys2Proof.Parts.RemoteStore : Prop :=
  ∀ (s : State) (d a : BitVec 5) (i : BitVec 11) (z : BitVec 2) (e : TlbEntry), s.ready [rd a, rd d] [] = true →
    let n := 2 ^ z.toNat
    let va := Claims.address s [rd a, rd d] i n
    let pa := e.frame + va.toNat % 2 ^ e.size
    winOf va = some .global → va.toNat % 32 + n ≤ 32 → va.toNat + n ≤ 2 ^ 56 →
    s.tlbFind s.cur.t (s.rootOf (s.me.resid.getD 0)).1 va.toNat true = some e → s.stqPending s.cur.ctx pa = false →
    s.hit s.cur.t (s.me.resid.getD 0) pa = none →
    ∃ (t : State) (f : Flight), exec (.st d a i z) s = .next t ∧ t.mem = s.mem ∧ t.net = s.net ++ [f] ∧ f.at_ = s.cur.t ∧
      f.p.h.kind = 1 ∧ f.p.h.addr = BitVec.ofNat 64 pa ∧ f.p.h.op = byteMask (va.toNat % 32) n ∧
      f.p.pay = [placed ((s.src [rd a, rd d] 1).toNat % 2 ^ (8 * n)) (va.toNat % 32)] ∧ t.me = s.me.retire 4 ∧
      (t.tile s.cur.t).txns.any (fun y => y.tid == f.p.h.tid && y.write && y.owner == .ctx s.cur.ctx) = true

/-- R358, R223: a load of a global address that no translation holds puts its context in the miss queue of its die, and takes the
translation fault (cause 0x19) when the walk of that address has failed; with the miss queue full it waits.
Readings and choices of the model that it rests on: log entries 28 and 78. -/
def Sys2Proof.Parts.TranslationMiss : Prop :=
  ∀ (s : State) (d a : BitVec 5) (i : BitVec 11) (z : BitVec 2), s.ready [rd a] [d] = true →
    let n := 2 ^ z.toNat
    let va := Claims.address s [rd a] i n
    winOf va = some .global → va.toNat % 32 + n ≤ 32 → va.toNat + n ≤ 2 ^ 56 →
    s.tlbFind s.cur.t (s.rootOf (s.me.resid.getD 0)).1 va.toNat false = none →
    (s.me.walkFail = some va → exec (.ld d a i z) s = .next (s.fault ⟨0x19, va, 0⟩)) ∧
    (s.me.walkFail ≠ some va → s.walkRoom s.cur.t (s.me.resid.getD 0) va = false → exec (.ld d a i z) s = .next s) ∧
    (s.me.walkFail ≠ some va → s.walkRoom s.cur.t (s.me.resid.getD 0) va = true →
      ∃ t, exec (.ld d a i z) s = .next t ∧ t.me = { s.me with wait := .walk va false, mid := true } ∧ t.mem = s.mem ∧
        t.walks = s.walks ++ [
          { die := dieOf s.cur.t, tile := s.cur.t, key := s.cur.ctx, asid := (s.rootOf (s.me.resid.getD 0)).1,
            root := (s.rootOf (s.me.resid.getD 0)).2, va := va, wr := false }])

/-- R228, R229: a gather from SRAM gives each active lane the bytes at base + offset · 2^s and leaves or clears the others; a scatter to
SRAM with one active lane stores that lane; `stm` to SRAM stores the bytes of its sector that the mask names. Readings and choices of the
model that it rests on: log entries 49 and 50. -/
def Obligations.GatherScatter : Prop :=
  (∀ (s : State) (d a b : BitVec 5) (f : BitVec 2) (k : BitVec 3) (t : BitVec 2), s.ready [rd a, rd b] [d] = true →
    let w := s.me.laneW
    let off := s.operand [rd a, rd b] (fun i => i == 0) 0
    let e (l : Nat) : W64 := s.src [rd a, rd b] 1 +
      BitVec.ofInt 64 ((if t = 0 then sext (lane off w l) w else lane off w l) * 2 ^ f.toNat)
    Claims.local_ s s.checkElement false (s.elements (s.src [rd a, rd b] 1) off k f t) = true →
    ∃ v, exec (.vgat d a b f k t) s = .next ((s.putV d v).finish 4 [rd a, rd b]) ∧
      ∀ l, l < s.me.laneN → lane v w l = if (s.me.k k.toNat).getLsbD l then Claims.bytes s (e l) (w / 8)
        else if s.me.zm then 0 else lane (s.oldV d) w l) ∧
  (∀ (s : State) (d a b : BitVec 5) (f : BitVec 2) (k : BitVec 3) (t : BitVec 2) (l : Nat), s.memOk = true →
    s.ready [rd a, rd b, rd d] [] = true → (∀ j, j < s.me.laneN → ((s.me.k k.toNat).getLsbD j = true ↔ j = l)) → l < s.me.laneN →
    let w := s.me.laneW
    let off := s.operand [rd a, rd b, rd d] (fun i => i != 1) 0
    let e : W64 := s.src [rd a, rd b, rd d] 1 +
      BitVec.ofInt 64 ((if t = 0 then sext (lane off w l) w else lane off w l) * 2 ^ f.toNat)
    Claims.local_ s s.checkElement true (s.elements (s.src [rd a, rd b, rd d] 1) off k f t) = true →
    ∃ u : State, exec (.vsct d a b f k t) s =
        .next (({ s with mem := u.mem, badSectors := u.badSectors, badWords := u.badWords } : State).finish 4 [rd a, rd b, rd d]) ∧
      Claims.stored s u e (w / 8) (lane (s.operand [rd a, rd b, rd d] (fun i => i != 1) 2) w l)) ∧
  (∀ (s : State) (d a : BitVec 5) (k : BitVec 3), s.memOk = true → s.ready [rd a, rd d] [] = true → s.me.k k.toNat ≠ 0 →
    let e := s.src [rd a, rd d] 0
    s.checkAccess s.me s.cur.t e 32 32 = none → Claims.local_ s (fun _ => none) true [⟨e, 0, 32⟩] = true →
    ∃ u : State, exec (.stm d a k) s =
        .next (({ s with mem := u.mem, badSectors := u.badSectors, badWords := u.badWords } : State).finish 4 [rd a, rd d]) ∧
      ∀ j, Memory.read u.mem j = if Claims.byteKey s e ≤ j ∧ j < Claims.byteKey s e + 32 ∧
          (s.me.k k.toNat).getLsbD (j - Claims.byteKey s e) = true
        then (s.operand [rd a, rd d] (fun i => i == 1) 1).extractLsb' (8 * (j - Claims.byteKey s e)) 8 else Memory.read s.mem j)

/-- R230, R231, R105: an atomic on SRAM with nothing to wait for gives its destination the old value and memory the new one, in one step;
`cas` stores its new value only where memory holds the expected one. -/
def Obligations.LocalAtomics : Prop :=
  (∀ p ∈ Claims.atomics, ∀ (s : State) (d a b : BitVec 5) (o : BitVec 2) (f : BitVec 3), s.memOk = true →
    s.ready [rd a, rd b] [d] = true →
    let e := s.src [rd a, rd b] 0
    let old := BitVec.ofNat 64 (Claims.bytes s e 8)
    s.checkAccess s.me s.cur.t e 8 8 = none → Claims.local_ s (fun _ => none) false [⟨e, 0, 8⟩] = true →
    (o.toNat < 2 ∨ s.releaseSet s.cur.ctx f.toNat = []) →
    ∃ u : State, exec (p.1 d a b o f) s = .next ((({ s with mem := u.mem } : State).put d old).finish 4 [rd a, rd b]) ∧
      Claims.stored s u e 8 (p.2 old (s.src [rd a, rd b] 1)).toNat) ∧
  (∀ (s : State) (d a b : BitVec 5) (o : BitVec 2) (f : BitVec 3) (w : BitVec 1), s.memOk = true →
    s.ready [rd a, rd d, rd b] [d] = true →
    let n := if w = 1 then 4 else 8
    let e := s.src [rd a, rd d, rd b] 0
    let old := Claims.bytes s e n
    s.checkAccess s.me s.cur.t e n n = none → Claims.local_ s (fun _ => none) false [⟨e, 0, n⟩] = true →
    (o.toNat < 2 ∨ s.releaseSet s.cur.ctx f.toNat = []) →
    ∃ u : State, exec (.cas d a b o f w) s =
        .next ((({ s with mem := u.mem } : State).put d (BitVec.ofNat 64 old)).finish 4 [rd a, rd d, rd b]) ∧
      if old = (s.src [rd a, rd d, rd b] 1).toNat % 256 ^ n
      then Claims.stored s u e n ((s.src [rd a, rd d, rd b] 2).toNat % 256 ^ n)
      else ∀ k, Memory.read u.mem k = Memory.read s.mem k)

/-- R58, R59: `gtest` gives the class of an address, 8 more where an access of one byte passes the first five of R54's checks, and 7 for an
address of no window; `gcast` gives the converted address, and takes the cast fault (cause 0x1C, TRAPADDR the address) for a conversion
that is not listed. The conversions are those of R59's table, row by row: to the same window, from the private window, to the fabric
window, to the cluster-shared window, to the scratchpad and to the private window. -/
def Sys2Proof.Parts.SpaceTests : Prop :=
  (∀ (s : State) (d a : BitVec 5), s.ready [rd a] [d] = true →
    ∃ c : W64, exec (.gtest d a) s = .next ((s.put d c).finish 4 [rd a]) ∧
      (winOf (s.src [rd a] 0) = none → c = 7) ∧
      (∀ w, winOf (s.src [rd a] 0) = some w →
        c = (match w with | .global => 0 | .priv => 1 | .scratch => 2 | .cluster => 3 | .fabric => 4) +
          (if s.checkWindow s.me s.cur.t (s.src [rd a] 0) 1 = none then 8 else 0))) ∧
  (∀ (s : State) (d a : BitVec 5) (w : BitVec 3), s.ready [rd a] [d] = true →
    (∀ v, s.cast (s.src [rd a] 0) (castTo w) = some v → exec (.gcast d a w) s = .next ((s.put d v).finish 4 [rd a])) ∧
    (s.cast (s.src [rd a] 0) (castTo w) = none → exec (.gcast d a w) s = .next (s.fault ⟨0x1C, s.src [rd a] 0, 0⟩))) ∧
  (∀ (s : State) (a : W64) (w : Win),
    let own := s.cur.t
    let off := (a.extractLsb' 0 17).toNat
    let tile := (a.extractLsb' 44 12).toNat
    let mate := clusterTile (a.extractLsb' 47 9).toNat (a.extractLsb' 44 3).toNat
    let six : Bool := decide ((a.extractLsb' 44 3).toNat < 6)
    let start := s.me.privStart
    let p := start + (a.extractLsb' 0 16).toNat
    let back (t : Nat) := if t = own ∧ start ≤ off ∧ off < start + s.me.privSize then some (Claims.named 0xF8 0 (off - start)) else none
    let here (t : Nat) := if s.present t = true ∧ clusterOf t = clusterOf own then some (Claims.shared t off) else none
    (winOf a = none → s.cast a w = none) ∧
    (winOf a = some .global → s.cast a w = if w = .global then some a else none) ∧
    (winOf a = some .priv → s.cast a w = (match w with
      | .global => none
      | .priv => some a
      | .scratch => if p - start < s.me.privSize then some (Claims.named 0xF9 own p) else none
      | .cluster => if p - start < s.me.privSize then some (Claims.shared own p) else none
      | .fabric => if p - start < s.me.privSize then some (Claims.named 0xFB own p) else none)) ∧
    (winOf a = some .scratch → s.cast a w = (match w with
      | .global => none
      | .priv => back tile
      | .scratch => if s.present tile then some a else none
      | .cluster => here tile
      | .fabric => some (Claims.named 0xFB tile off))) ∧
    (winOf a = some .cluster → s.cast a w = (match w with
      | .global => none
      | .priv => if six then back mate else none
      | .scratch => if six = true ∧ mate = own then some (Claims.named 0xF9 own off) else none
      | .cluster => if six && s.present mate then some a else none
      | .fabric => if six then some (Claims.named 0xFB mate off) else none)) ∧
    (winOf a = some .fabric → s.cast a w = (match w with
      | .global => none
      | .priv => back tile
      | .scratch => if tile = own then some (Claims.named 0xF9 own off) else none
      | .cluster => here tile
      | .fabric => if s.present tile then some a else none)))

/-- R100, R234: with no write left to be performed, `fence` and `cflush` complete at once; with some, the context waits for exactly
those and changes nothing else: for `cflush` the context's writes that touch a byte of the range's sectors. `cflush` and `cinv` of a range that
does not lie in the global window take the address-window fault (cause 0x10, TRAPADDR the start). -/
def Sys2Proof.Parts.Fences : Prop :=
  (∀ (s : State) (f : BitVec 3), s.ready [] [] = true →
    let w := s.fenceSet s.cur.ctx f.toNat
    (w = [] → exec (.fence f) s = .next (s.finish 4 [])) ∧
    (w ≠ [] → exec (.fence f) s = .next
      ((s.setMe { s.me with wait := .acks w .retire, heldLen := 4, heldIns := [], mid := false }).used))) ∧
  (∀ (s : State) (a b : BitVec 5), s.ready [rd a, rd b] [] = true → winOf (s.src [rd a, rd b] 0) = some .global →
    (s.src [rd a, rd b] 0).toNat + (s.src [rd a, rd b] 1).toNat ≤ 2 ^ 56 →
    (∀ y ∈ (s.tile s.cur.t).txns, y.owner = .ctx s.cur.ctx → y.write = false) →
    exec (.cflush a b) s = .next (s.finish 4 [rd a, rd b])) ∧
  (∀ (s : State) (a b : BitVec 5), s.ready [rd a, rd b] [] = true →
    let g := s.src [rd a, rd b] 0
    let n := s.src [rd a, rd b] 1
    let w := s.rangeWrites s.cur.ctx g n
    winOf g = some .global → g.toNat + n.toNat ≤ 2 ^ 56 →
    (w = [] → exec (.cflush a b) s = .next (s.finish 4 [rd a, rd b])) ∧
    (w ≠ [] → ∃ t, exec (.cflush a b) s = .next t ∧ t.mem = s.mem ∧ t.issued = true ∧
      t.me = { s.me with wait := .acks w .retire, heldLen := 4, heldIns := [], mid := false }) ∧
    ∀ y ∈ (s.tile s.cur.t).txns, y.owner = .ctx s.cur.ctx → y.write = true → winOf y.addr = some .global →
      (∃ v, g.toNat ≤ v ∧ v < g.toNat + n.toNat ∧ y.addr.toNat / 32 ≤ v / 32 ∧ v / 32 < y.addr.toNat / 32 + y.n) → y.tid ∈ w) ∧
  (∀ (s : State) (a b : BitVec 5), s.ready [rd a, rd b] [] = true →
    let g := s.src [rd a, rd b] 0
    winOf g ≠ some .global ∨ 2 ^ 56 < g.toNat + (s.src [rd a, rd b] 1).toNat →
    exec (.cflush a b) s = .next (s.fault ⟨0x10, g, 0⟩) ∧ exec (.cinv a b) s = .next (s.fault ⟨0x10, g, 0⟩)) ∧
  (∀ (s : State) (f : BitVec 3), ∀ y ∈ (s.tile s.cur.t).txns, y.owner = .ctx s.cur.ctx → y.write = true → 2 ≤ f.toNat →
    y.tid ∈ s.fenceSet s.cur.ctx f.toNat)

/-- R234, R106: the cache operations complete: `cinv.all` leaves no line of the residency's ways and no fill that could bring one; `cinv` of a
range completes with every sector of the range invalid, any fill of one under way left without effect on the cache, and every other sector as
before; one whose translation must be walked makes the context wait for it, which then goes on, and a page whose walk fails is skipped. `cpref`
completes at once with a fill under way for every sector of the range that was not valid, a read of a whole sector by its home, and none for one
that is valid or under way; a sector whose page must be walked is fetched behind that walk, or dropped where the miss queue is full; without a
CACHE bank, outside the global window and for an empty range it does nothing. Readings and choices of the model that it rests on: log entries 27
and 63. -/
def Sys2Proof.Parts.CacheOps : Prop :=
  (∀ s : State, s.ready [] [] = true → ∃ u : State, exec .cinvAll s = .next (u.finish 4 []) ∧ u.mem = s.mem ∧
    (∀ e ∈ (u.tile s.cur.t).cache, e.1 / 128 ∉ s.ways s.cur.t (s.me.resid.getD 0)) ∧
    (∀ y ∈ (u.tile s.cur.t).txns, y.resid = s.me.resid.getD 0 → y.fill = false) ∧ ∀ k, u.ctx k = s.ctx k) ∧
  (∀ (s : State) (a b : BitVec 5), s.ready [rd a, rd b] [] = true → s.src [rd a, rd b] 1 = 0 →
    (winOf (s.src [rd a, rd b] 0) = some .global → exec (.cinv a b) s = .next (s.finish 4 [rd a, rd b]) ∧
      exec (.cpref a b) s = .next (s.finish 4 [rd a, rd b])) ∧
    (winOf (s.src [rd a, rd b] 0) ≠ some .global →
      exec (.cinv a b) s = .next (s.fault ⟨0x10, s.src [rd a, rd b] 0, 0⟩) ∧
      exec (.cpref a b) s = .next (s.finish 4 [rd a, rd b]))) ∧
  (∀ (s : State) (a b : BitVec 5), s.ready [rd a, rd b] [] = true →
    let g := s.src [rd a, rd b] 0
    let n := s.src [rd a, rd b] 1
    let l := rangeList g n
    let r := s.me.resid.getD 0
    winOf g = some .global → g.toNat + n.toNat ≤ 2 ^ 56 →
    (∀ va ∈ l, (Claims.sectorOf s va).isSome) →
    ∃ u : State, exec (.cinv a b) s = .next (u.finish 4 [rd a, rd b]) ∧ u.mem = s.mem ∧ u.net = s.net ∧ (∀ k, u.ctx k = s.ctx k) ∧
      (∀ va ∈ l, ∀ pa, Claims.sectorOf s va = some pa → u.hit s.cur.t r pa = none ∧
        ∀ y ∈ (u.tile s.cur.t).txns, y.resid = r → y.pa / 32 = pa / 32 → y.fill = false) ∧
      ∀ pa, (∀ va ∈ l, ∀ q, Claims.sectorOf s va = some q → q / 32 ≠ pa / 32) → u.hit s.cur.t r pa = s.hit s.cur.t r pa) ∧
  (∀ (s : State) (a b : BitVec 5) (va : W64), s.ready [rd a, rd b] [] = true →
    let g := s.src [rd a, rd b] 0
    let n := s.src [rd a, rd b] 1
    let r := s.me.resid.getD 0
    let w := s.walkFor s.cur.t r 0 va false .engine
    winOf g = some .global → g.toNat + n.toNat ≤ 2 ^ 56 → rangeList g n = [va] → Claims.sectorOf s va = none →
    ((∀ f ∈ (s.tile s.cur.t).walkFails, f.1.again w = false) → (∀ v ∈ s.walks, v.again w = false) → s.walkRoom s.cur.t r va = true →
      ∃ u : State, exec (.cinv a b) s = .next u ∧ u.me = { s.me with wait := .sweep va 1, heldLen := 4, heldIns := [], mid := false } ∧
        u.walks = s.walks ++ [w] ∧ u.mem = s.mem ∧ u.tiles = s.tiles) ∧
    ((∃ f ∈ (s.tile s.cur.t).walkFails, f.1.again w = true ∧ s.cycle < f.2 + failCycles) →
      ∃ u : State, exec (.cinv a b) s = .next (u.finish 4 [rd a, rd b]) ∧ (u.tile s.cur.t).cache = (s.tile s.cur.t).cache ∧
        (u.tile s.cur.t).txns = (s.tile s.cur.t).txns ∧ u.mem = s.mem ∧ ∀ k, u.ctx k = s.ctx k)) ∧
  (∀ (s : State) (a b : BitVec 5) (va : W64) (pa : Nat), s.me.wait = .sweep va 1 → Claims.sectorOf s va = some pa →
    ∃ u : State, exec (.cinv a b) s = .next u.complete ∧ u.mem = s.mem ∧ u.hit s.cur.t (s.me.resid.getD 0) pa = none) ∧
  (∀ (s : State) (a b : BitVec 5), s.ready [rd a, rd b] [] = true →
    let g := s.src [rd a, rd b] 0
    let l := rangeList g (clipLength g (s.src [rd a, rd b] 1))
    let r := s.me.resid.getD 0
    let under (x : State) (pa : Nat) : Prop := ∃ y ∈ (x.tile s.cur.t).txns, y.fill = true ∧ y.resid = r ∧ y.pa / 32 = pa / 32
    (s.ways s.cur.t r = [] → exec (.cpref a b) s = .next (s.finish 4 [rd a, rd b])) ∧
    (s.ways s.cur.t r ≠ [] → winOf g = some .global → (∀ va ∈ l, (Claims.sectorOf s va).isSome) →
      (∃ u : State, exec (.cpref a b) s = .next (u.finish 4 [rd a, rd b]) ∧ u.mem = s.mem ∧ (∀ k, u.ctx k = s.ctx k) ∧
        ∀ va ∈ l, ∀ pa, Claims.sectorOf s va = some pa → s.hit s.cur.t r pa = none → under u pa) ∧
      ((∀ va ∈ l, ∀ pa, Claims.sectorOf s va = some pa → (s.hit s.cur.t r pa).isSome ∨ under s pa) →
        exec (.cpref a b) s = .next (s.finish 4 [rd a, rd b])) ∧
      (∀ va, l = [va] → Claims.sectorOf s va = none → (∀ v ∈ s.walks, v.key ≠ s.cur.ctx) →
        (s.walkRoom s.cur.t r va = false → exec (.cpref a b) s = .next (s.finish 4 [rd a, rd b])) ∧
        (s.walkRoom s.cur.t r va = true → exec (.cpref a b) s = .next (State.finish { s with
          walks := s.walks ++ [s.walkFor s.cur.t r s.cur.ctx va false (.fetch [va])] } 4 [rd a, rd b]))) ∧
      ∀ va pa, l = [va] → Claims.sectorOf s va = some pa → s.hit s.cur.t r pa = none → ¬ under s pa →
        ∃ (u : State) (f : Flight), exec (.cpref a b) s = .next (u.finish 4 [rd a, rd b]) ∧ u.net = s.net ++ [f] ∧ f.at_ = s.cur.t ∧
          f.p.h.kind = 0 ∧ f.p.h.addr = BitVec.ofNat 64 (pa / 32 * 32) ∧ f.p.h.op = BitVec.allOnes 32))

/-- R103: with no store left to be performed, `stdone` sends its DONE token (tag 0xB, the value in bits 63:32, the scope in 27:24, the
core in 21:20 and the tile in 19:8) at once, to a port or to a FIFO queue of the residency. -/
def Sys2Proof.Parts.DoneTokens : Prop :=
  (∀ (s : State) (d a : BitVec 5) (f : BitVec 3), s.ready [rd a] [d] = true → 27 ≤ d.toNat → s.releaseSet s.cur.ctx f.toNat = [] →
    s.cur.t < 1920 → s.cur.q < 4 → ∃ w : NetWord, exec (.stdone d a f) s = .next ((s.pushPort d.toNat w).finish 4 [rd a]) ∧ w.tag = 0xB ∧
      w.data.toNat = (s.src [rd a] 0).toNat % 2 ^ 32 * 2 ^ 32 + f.toNat * 2 ^ 24 + s.cur.q * 2 ^ 20 + s.cur.t * 2 ^ 8) ∧
  (∀ (s : State) (q : BitVec 3) (a : BitVec 5) (f : BitVec 3), s.ready [rd a] [] = true → s.releaseSet s.cur.ctx f.toNat = [] →
    s.queueFault s.cur.t (s.me.resid.getD 0) q.toNat = none → s.queueRoom q.toNat = true →
    (s.bank s.cur.t q.toNat).queue.length + (s.bank s.cur.t q.toNat).reserved < 512 → (s.bank s.cur.t q.toNat).ringCount = 0 →
    (s.bank s.cur.t q.toNat).staging = [] →
    ∃ (u : State) (w : NetWord), exec (.stdoneq q a f) s = .next (u.finish 4 [rd a]) ∧ w = s.doneToken f (s.src [rd a] 0) ∧
      u.bank s.cur.t q.toNat = { s.bank s.cur.t q.toNat with queue := (s.bank s.cur.t q.toNat).queue ++ [w] } ∧
      u.mem = s.mem ∧ ∀ k, u.ctx k = s.ctx k)

/-- R240, R68, R63: the queue operations on a FIFO bank of the residency that is not changing: `qpush` and `qpushv` append a DATA word, `qpop`
and `qpopv` take the head, which must be DATA (else the token fault, cause 0x06, TRAPINFO the tag and the bank), `qdrop` drops it, `qcount`
counts and `qtag` gives the head's tag, 16 without one; an empty queue makes the three that take a word wait. On any other bank that is not
changing each of the seven takes the bank-mode fault (cause 0x14) or the ownership fault (0x15), TRAPINFO the bank; while the bank changes its
mode each waits. -/
def Sys2Proof.Parts.QueueOps : Prop :=
  ∀ (s : State) (q : BitVec 3),
    let n := q.toNat
    let b := s.bank s.cur.t n
    (s.queueFault s.cur.t (s.me.resid.getD 0) n = none → b.pending = [] →
      (∀ a : BitVec 5, s.ready [rd a] [] = true → s.queueRoom n = true →
        b.queue.length + b.reserved < 512 → b.ringCount = 0 → b.staging = [] →
        exec (.qpush q a) s = .next ((s.setBank s.cur.t n
          { b with queue := b.queue ++ [⟨(s.src [rd a] 0).setWidth 256, 0⟩] }).finish 4 [rd a]) ∧
        exec (.qpushv q a) s = .next ((s.setBank s.cur.t n
          { b with queue := b.queue ++ [⟨s.operand [rd a] (fun _ => true) 0, 0⟩] }).finish 4 [rd a])) ∧
      (∀ (d : BitVec 5) (w : NetWord) (r : List NetWord), s.ready [] [d] = true → b.queue = w :: r → w.tag = 0 →
        exec (.qpop d q) s = .next (((s.setBank s.cur.t n { b with queue := r }).put d (w.data.setWidth 64)).finish 4 []) ∧
        exec (.qpopv d q) s = .next (((s.setBank s.cur.t n { b with queue := r }).putV d w.data).finish 4 [])) ∧
      (∀ (d : BitVec 5) (w : NetWord) (r : List NetWord), s.ready [] [d] = true → b.queue = w :: r → w.tag ≠ 0 →
        exec (.qpop d q) s = .next (s.fault ⟨0x06, 0, BitVec.ofNat 64 (w.tag.toNat + n * 256)⟩) ∧
        exec (.qpopv d q) s = .next (s.fault ⟨0x06, 0, BitVec.ofNat 64 (w.tag.toNat + n * 256)⟩)) ∧
      (∀ (w : NetWord) (r : List NetWord), s.ready [] [] = true → b.queue = w :: r →
        exec (.qdrop q) s = .next ((s.setBank s.cur.t n { b with queue := r }).finish 4 [])) ∧
      (∀ d : BitVec 5, s.ready [] [d] = true → b.queue = [] →
        exec (.qpop d q) s = .next s ∧ exec (.qpopv d q) s = .next s ∧ exec (.qtag d q) s = .next ((s.put d 16).finish 4 [])) ∧
      (s.ready [] [] = true → b.queue = [] → exec (.qdrop q) s = .next s)) ∧
    (s.queueFault s.cur.t (s.me.resid.getD 0) n = none → b.pending = [] → ∀ d : BitVec 5, s.ready [] [d] = true →
      exec (.qcount d q) s = .next ((s.put d
        (BitVec.ofNat 64 (b.queue.length + b.reserved + 32 * b.ringCount + b.staging.length))).finish 4 []) ∧
      ∀ w r, b.queue = w :: r → exec (.qtag d q) s = .next ((s.put d (w.tag.setWidth 64)).finish 4 [])) ∧
    (∀ (i : Instr) (g : Claims.Form), i ∈ [.qdrop q] ∨ (∃ a, i ∈ [.qpush q a, .qpushv q a]) ∨
        (∃ d, i ∈ [.qpop d q, .qpopv d q, .qcount d q, .qtag d q]) → Claims.form i = some g → s.ready g.srcs g.outs = true →
      (b.pending ≠ [] → exec i s = .next s) ∧
      (b.pending = [] → (b.mode ≠ .fifo → exec i s = .next (s.fault ⟨0x14, 0, BitVec.ofNat 64 n⟩)) ∧
        (b.mode = .fifo → s.ownsBank (s.me.resid.getD 0) s.cur.t n = false → exec i s = .next (s.fault ⟨0x15, 0, BitVec.ofNat 64 n⟩))))

/-- R241, R63, R79: `bset` of banks of the residency with a legal word gives each bank of the group the change, pops its source, and the
context waits until the change takes effect; `bspill` of an empty FIFO bank sets its ring; `bget` shows the bank. -/
def Sys2Proof.Parts.BankSettings : Prop :=
  (∀ (s : State) (n : BitVec 3) (a : BitVec 5), s.ready [rd a] [] = true → s.bsetFault n.toNat (s.src [rd a] 0) = none →
    let il := ((s.src [rd a] 0).extractLsb' 2 2).toNat
    ∃ (u : State) (c : BankChange), exec (.bset n a) s = .next u ∧ u.mem = s.mem ∧ u.issued = true ∧
      u.me = { s.me with wait := .bank n.toNat, heldLen := 4, heldIns := [], mid := false } ∧
      (27 ≤ a.toNat → u.portIn a.toNat = (s.portIn a.toNat).drop 1) ∧
      c.il = il ∧ c.en = (s.src [rd a] 0).getLsbD 4 ∧ c.who = s.cur.ctx ∧
      (c.mode = .scratch ↔ (s.src [rd a] 0).extractLsb' 0 2 = 0) ∧ (c.mode = .cache ↔ (s.src [rd a] 0).extractLsb' 0 2 = 1) ∧
      (∀ m ∈ groupOf n.toNat il, u.bank s.cur.t m = { s.bank s.cur.t m with pending := (s.bank s.cur.t m).pending ++ [c] }) ∧
      ∀ m, m ∉ groupOf n.toNat il → u.bank s.cur.t m = s.bank s.cur.t m) ∧
  (∀ (s : State) (n : BitVec 3) (a b : BitVec 5), s.ready [rd a, rd b] [] = true →
    let k := s.bank s.cur.t n.toNat
    s.ownsBank (s.me.resid.getD 0) s.cur.t n.toNat = true → k.pending = [] → k.mode = .fifo → k.entries = 0 →
    winOf (s.src [rd a, rd b] 0) = some .global → (s.src [rd a, rd b] 0).toNat % 32 = 0 →
    (s.src [rd a, rd b] 1).toNat % 1056 = 0 →
    exec (.bspill n a b) s = .next ((s.setBank s.cur.t n.toNat
      { k with spillBase := s.src [rd a, rd b] 0, spillSize := (s.src [rd a, rd b] 1).toNat, ringHead := 0 }).finish 4 [rd a, rd b])) ∧
  (∀ (s : State) (d : BitVec 5) (n : BitVec 3), s.ready [] [d] = true →
    let k := s.bank s.cur.t n.toNat
    ∃ v : W64, exec (.bget d n) s = .next ((s.put d v).finish 4 []) ∧ (k.il < 4 → k.queue.length + k.reserved < 2 ^ 16 →
      v.extractLsb' 0 2 = (match k.mode with | .scratch => 0 | .cache => 1 | .fifo => 2) ∧ v.extractLsb' 2 2 = BitVec.ofNat 2 k.il ∧
      v.getLsbD 4 = k.spillEn ∧ v.getLsbD 5 = k.spillFaulted ∧ v.getLsbD 7 = k.owner.isSome ∧
      v.getLsbD 6 = s.ownsBank (s.me.resid.getD 0) s.cur.t n.toNat ∧
      v.extractLsb' 8 16 = if k.mode = .fifo then BitVec.ofNat 16 (k.queue.length + k.reserved) else 0))

/-- R236 to R238, R223: `stq` first has the checks of a load of its source, then its own; each that fails takes its fault. A posted `stq` to
this device that passes them retires, and a write packet with its sectors goes to its tile, or to the scheduler without a queue; the waiting
form waits for its transaction. -/
def Sys2Proof.Parts.StoreAndQueue : Prop :=
  ∀ (s : State) (d a b : BitVec 5) (w : BitVec 1) (n : BitVec 7) (r : BitVec 16) (v : BitVec 8) (q : BitVec 3) (x : BitVec 1),
    let srcs := if x = 1 then [rd a, rd b, rd d] else [rd a, rd b]
    let word := if x = 1 then s.src srcs 2 else 0
    let from_ := s.src srcs 1
    let cnt := n.toNat + 1
    s.ready srcs [] = true → s.changing from_ (32 * cnt) = false →
    (∀ c, s.checkAccess s.me s.cur.t from_ (32 * cnt) 1 = some c → exec (.stq d a b w n r v q x) s = .next (s.fault c)) ∧
    (s.checkAccess s.me s.cur.t from_ (32 * cnt) 1 = none →
      (∀ c, s.stqSource from_ cnt = .fail c → exec (.stq d a b w n r v q x) s = .next (s.fault c)) ∧
      ∀ l, s.stqSource from_ cnt = .all l →
        (∀ c, s.stqFault (s.src srcs 0) from_ word cnt r v (x == 1) = some c → exec (.stq d a b w n r v q x) s = .next (s.fault c)) ∧
        (s.stqFault (s.src srcs 0) from_ word cnt r v (x == 1) = none → s.stqBad l = false → v = s.host.devnum →
          (x = 1 → s.present (word.extractLsb' 32 12).toNat = true) → s.releaseSet s.cur.ctx 4 = [] →
          ∃ (t : State) (f : Flight), exec (.stq d a b w n r v q x) s = .next t ∧ t.net = s.net ++ [f] ∧ t.mem = s.mem ∧
            f.at_ = s.cur.t ∧ f.p.h.kind = 1 ∧ f.p.pay = s.stqData l ∧ f.p.h.addr = s.src srcs 0 ∧ f.p.h.resid = r.toNat ∧
            (x = 1 → f.p.h.node = (word.extractLsb' 32 12).toNat ∧ f.p.isStq = true) ∧ (x = 0 → f.p.h.node = 4097) ∧
            (w = 0 → t.me = s.me.retire 8) ∧
            (w = 1 → t.me = { s.me with wait := .stq f.p.h.tid, heldLen := 8, heldIns := popsOf srcs, mid := false })))

namespace Sys2Proof.Claims

/-- The lanes of a masked vector result (R245): an active lane has its value, an inactive one its earlier value, or zero under ZM and
for a port. -/
def lanes (s : State) (d : BitVec 5) (k : BitVec 3) (f : Nat → Nat) (v : W256) : Prop :=
  ∀ l, l < s.me.laneN → lane v s.me.laneW l = if (s.me.k k.toNat).getLsbD l then f l % 2 ^ s.me.laneW
    else if s.me.zm ∨ 27 ≤ d.toNat then 0 else lane (s.me.v d.toNat) s.me.laneW l

/-- Lanes 0 to n − 1 of a vector that is written whole. -/
def whole (s : State) (f : Nat → Nat) (v : W256) : Prop := ∀ l, l < s.me.laneN → lane v s.me.laneW l = f l % 2 ^ s.me.laneW

/-- The value of a lane as type I or N (R243). -/
def val (t : BitVec 2) (w x : Nat) : Int := if t = 0 then sext x w else x

/-- Clamp to the range of type I or N at a width (R109). -/
def clamp (t : BitVec 2) (w : Nat) (x : Int) : Int :=
  if t = 0 then max (-2 ^ (w - 1)) (min (2 ^ (w - 1) - 1) x) else max 0 (min (2 ^ w - 1) x)

/-- The exact result of a form of R248 that wraps, from two lanes of width w and the type: by the value of the operands. -/
abbrev Exact := BitVec 2 → Nat → Int → Int → Int

/-- The forms of R248 on values that wrap, with what they compute; and the same in their scalar and immediate forms (R249). -/
def wrapping : List ((BitVec 5 → BitVec 5 → BitVec 5 → BitVec 3 → BitVec 2 → Instr) ×
    (BitVec 5 → BitVec 5 → BitVec 5 → BitVec 1 → BitVec 3 → BitVec 2 → Instr) × Exact) := [
  (.vadd, .valusVadd, fun _ _ a b => a + b), (.vsub, .valusVsub, fun _ _ a b => a - b), (.vmul, .valusVmul, fun _ _ a b => a * b),
  (.vmulh, .valusVmulh, fun _ w a b => a * b / 2 ^ w), (.vmin, .valusVmin, fun _ _ a b => min a b),
  (.vmax, .valusVmax, fun _ _ a b => max a b), (.vavg, .valusVavg, fun _ _ a b => (a + b + 1) / 2),
  (.vabsd, .valusVabsd, fun _ _ a b => |a - b|),
  (.vshl, .valusVshl, fun _ w a b => a * 2 ^ (b % w).toNat), (.vshr, .valusVshr, fun _ w a b => a / 2 ^ (b % w).toNat),
  (.vdiv, .valusVdiv, fun _ _ a b => if b = 0 then -1 else a.tdiv b),
  (.vrem, .valusVrem, fun _ _ a b => if b = 0 then a else a.tmod b)]

/-- The forms of R248 on bits. -/
def bitwise : List ((BitVec 5 → BitVec 5 → BitVec 5 → BitVec 3 → BitVec 2 → Instr) ×
    (BitVec 5 → BitVec 5 → BitVec 5 → BitVec 1 → BitVec 3 → BitVec 2 → Instr) × (Nat → Nat → Nat → Nat)) := [
  (.vand, .valusVand, fun _ a b => a &&& b), (.vor, .valusVor, fun _ a b => a ||| b), (.vxor, .valusVxor, fun _ a b => a ^^^ b),
  (.vandn, .valusVandn, fun w a b => a &&& (2 ^ w - 1 - b))]

/-- The forms of R248 that saturate. -/
def clamping : List ((BitVec 5 → BitVec 5 → BitVec 5 → BitVec 3 → BitVec 2 → Instr) ×
    (BitVec 5 → BitVec 5 → BitVec 5 → BitVec 1 → BitVec 3 → BitVec 2 → Instr) × (Int → Int → Int)) := [
  (.vadds, .valusVadds, fun a b => a + b), (.vsubs, .valusVsubs, fun a b => a - b), (.vmuls, .valusVmuls, fun a b => a * b)]

/-- The second operand of every lane in the scalar form (x = 0) or the immediate form (x = 1) of R249: the lane's bits. -/
def second (s : State) (a b : BitVec 5) (x : BitVec 1) (t : BitVec 2) : Nat :=
  let w := s.me.laneW
  if x = 1 then (if t = 0 then (b.toInt % 2 ^ w).toNat else b.toNat % 2 ^ w)
  else (s.operand [rd a, rd b] (fun i => i == 0) 1).toNat % 2 ^ w

/-- The lanes of the first vector operand of the forms of R249. -/
def firstLane (s : State) (a b : BitVec 5) (x : BitVec 1) (l : Nat) : Nat :=
  lane (s.operand (secondSrcs a b x) (fun i => i == 0) 0) s.me.laneW l

/-- Vector source `i` of an instruction whose sources are all vectors. -/
def vsrc (s : State) (fs : List (BitVec 5)) (i l : Nat) : Nat := lane (s.operand (fs.map rd) (fun _ => true) i) s.me.laneW l

/-- The two-operand float forms of R250 with their lane operation (06_numerics.md R113). -/
def floats2 : List ((BitVec 5 → BitVec 5 → BitVec 5 → BitVec 3 → BitVec 2 → Instr) × (Fmt → Nat → Nat → FRes)) := [
  (.vfadd, fun f a b => fAdd f (f.read a) (f.read b)), (.vfsub, fun f a b => fAdd f (f.read a) (f.read b).neg),
  (.vfmul, fun f a b => fMul f (f.read a) (f.read b)), (.vfdiv, fun f a b => fDiv f (f.read a) (f.read b)),
  (.vfmin, fun f a b => fMinMax f false a b), (.vfmax, fun f a b => fMinMax f true a b),
  (.vfsgnj, fun f a b => fSign f a (decide (2 ^ (f.eb + f.fb) ≤ b)))]

/-- The one-operand float forms of R250. -/
def floats1 : List ((BitVec 5 → BitVec 5 → BitVec 3 → BitVec 2 → Instr) × (Fmt → Nat → FRes)) := [
  (.vfsqrt, fun f a => fSqrt f (f.read a)), (.vfrcp, fun f a => fDiv f (.num false 1 0) (f.read a)),
  (.vfrsqrt, fun f a => fRsqrt f (f.read a)), (.vfexp2, fun f a => fExp2 f (f.read a)), (.vflog2, fun f a => fLog2 f (f.read a)),
  (.vfabs, fun f a => fSign f a false), (.vfneg, fun f a => fSign f a (decide (a < 2 ^ (f.eb + f.fb))))]

/-- The union of the flags of the active lanes (R115, R246). -/
def union (s : State) (k : BitVec 3) (g : Nat → BitVec 6) (f : BitVec 6) : Prop :=
  ∀ j, f.getLsbD j = true ↔ ∃ l, l < s.me.laneN ∧ (s.me.k k.toNat).getLsbD l = true ∧ (g l).getLsbD j = true

/-- The untyped selections of R254, R257 and R258 with all sources vectors: instruction, its sources, and for lane l of n lanes of width w
the source and the lane it takes. -/
def selections (d a b : BitVec 5) (k : BitVec 3) (s : State) : List (Instr × List (BitVec 5) × (Nat → Nat → Nat)) :=
  let n := s.me.laneN
  [(.vperm d a b k, [a, b], fun l _ => vsrc s [a, b] 0 (vsrc s [a, b] 1 l % n)),
   (.vzipl d a b k, [a, b], fun l _ => vsrc s [a, b] (l % 2) (l / 2)),
   (.vziph d a b k, [a, b], fun l _ => vsrc s [a, b] (l % 2) (n / 2 + l / 2)),
   (.vunzpe d a b k, [a, b], fun l _ => if l < n / 2 then vsrc s [a, b] 0 (2 * l) else vsrc s [a, b] 1 (2 * l - n)),
   (.vunzpo d a b k, [a, b], fun l _ => if l < n / 2 then vsrc s [a, b] 0 (2 * l + 1) else vsrc s [a, b] 1 (2 * l + 1 - n)),
   (.vslupIm d a b k, [a], fun l _ => if b.toNat ≤ l then vsrc s [a] 0 (l - b.toNat) else 0),
   (.vsldnIm d a b k, [a], fun l _ => if l + b.toNat < n then vsrc s [a] 0 (l + b.toNat) else 0),
   (.vmov d a k, [a], fun l _ => vsrc s [a] 0 l),
   (.vexp d a k, [a], fun l _ => vsrc s [a] 0 ((List.range l).filter fun j => (s.me.k k.toNat).getLsbD j).length)]

/-- The operand lanes of a reduction (R255): those the mask selects, ascending. -/
def active (s : State) (a : BitVec 5) (k : BitVec 3) : List Nat :=
  ((List.range s.me.laneN).filter fun l => (s.me.k k.toNat).getLsbD l).map (vsrc s [a] 0)

/-- The largest or smallest of some float lanes, as `vfmax` and `vfmin` (R255, R275), with its flags. -/
def extremum (F : Fmt) (isMax : Bool) (xs : List Nat) : FRes :=
  match xs with
  | [] => (F.inf isMax, 0)
  | x :: l =>
    let v := l.foldl (fun a y => (fMinMax F isMax a y).1) x
    (if (F.read v).isNan then F.nan else v, if xs.any fun y => F.read y = .nan true then 1 else 0)

/-- The mask forms of R256 over two masks. -/
def masks : List ((BitVec 3 → BitVec 3 → BitVec 3 → Instr) × (BitVec 32 → BitVec 32 → BitVec 32)) := [
  (.kand, fun a b => a &&& b), (.kor, fun a b => a ||| b), (.kxor, fun a b => a ^^^ b), (.kandn, fun a b => a &&& ~~~b)]

end Sys2Proof.Claims

/-- R248, R249, R114: every integer form that wraps completes, with registers, scalars and immediates, and each active lane holds the
low w bits of the exact result; no flag is set. -/
def Sys2Proof.Parts.VectorWrapping : Prop :=
  ∀ p ∈ Claims.wrapping, ∀ (s : State) (d a b : BitVec 5) (k : BitVec 3) (t : BitVec 2), t.toNat < 2 →
    let w := s.me.laneW
    let r (x y : Nat) : Nat := (p.2.2 t w (Claims.val t w x) (Claims.val t w y) % 2 ^ w).toNat
    (s.ready [rd a, rd b] [d] = true → ∃ v, exec (p.1 d a b k t) s = .next (((s.putV d v).flags 0).finish 4 [rd a, rd b]) ∧
      Claims.lanes s d k (fun l => r (Claims.vsrc s [a, b] 0 l) (Claims.vsrc s [a, b] 1 l)) v) ∧
    (∀ x : BitVec 1, s.ready (Claims.secondSrcs a b x) [d] = true →
      ∃ v, exec (p.2.1 d a b x k t) s = .next (((s.putV d v).flags 0).finish 4 (Claims.secondSrcs a b x)) ∧
        Claims.lanes s d k (fun l => r (Claims.firstLane s a b x l) (Claims.second s a b x t)) v)

/-- R248, R249: the bitwise forms complete with the bits of each active lane. -/
def Sys2Proof.Parts.VectorBitwise : Prop :=
  ∀ p ∈ Claims.bitwise, ∀ (s : State) (d a b : BitVec 5) (k : BitVec 3) (t : BitVec 2), t.toNat < 2 →
    let w := s.me.laneW
    (s.ready [rd a, rd b] [d] = true → ∃ v, exec (p.1 d a b k t) s = .next (((s.putV d v).flags 0).finish 4 [rd a, rd b]) ∧
      Claims.lanes s d k (fun l => p.2.2 w (Claims.vsrc s [a, b] 0 l) (Claims.vsrc s [a, b] 1 l)) v) ∧
    (∀ x : BitVec 1, s.ready (Claims.secondSrcs a b x) [d] = true →
      ∃ v, exec (p.2.1 d a b x k t) s = .next (((s.putV d v).flags 0).finish 4 (Claims.secondSrcs a b x)) ∧
        Claims.lanes s d k (fun l => p.2.2 w (Claims.firstLane s a b x l) (Claims.second s a b x t)) v)

/-- R248, R249: the saturating forms complete with the exact result clamped to the type's range in each active lane, and set the
saturated flag when an active lane clamps; `vneg` and `vabs` wrap. -/
def Sys2Proof.Parts.VectorSaturating : Prop :=
  (∀ p ∈ Claims.clamping, ∀ (s : State) (d a b : BitVec 5) (k : BitVec 3) (t : BitVec 2), t.toNat < 2 →
    let w := s.me.laneW
    let r (x y : Nat) : Int := p.2.2 (Claims.val t w x) (Claims.val t w y)
    let fl (x y : Nat) : BitVec 6 := if Claims.clamp t w (r x y) = r x y then 0 else 16
    (s.ready [rd a, rd b] [d] = true → ∃ v f, exec (p.1 d a b k t) s = .next (((s.putV d v).flags f).finish 4 [rd a, rd b]) ∧
      Claims.lanes s d k (fun l => (Claims.clamp t w (r (Claims.vsrc s [a, b] 0 l) (Claims.vsrc s [a, b] 1 l)) % 2 ^ w).toNat) v ∧
      Claims.union s k (fun l => fl (Claims.vsrc s [a, b] 0 l) (Claims.vsrc s [a, b] 1 l)) f) ∧
    (∀ x : BitVec 1, s.ready (Claims.secondSrcs a b x) [d] = true →
      ∃ v f, exec (p.2.1 d a b x k t) s = .next (((s.putV d v).flags f).finish 4 (Claims.secondSrcs a b x)) ∧
        Claims.lanes s d k (fun l => (Claims.clamp t w (r (Claims.firstLane s a b x l) (Claims.second s a b x t)) % 2 ^ w).toNat) v ∧
        Claims.union s k (fun l => fl (Claims.firstLane s a b x l) (Claims.second s a b x t)) f)) ∧
  (∀ (s : State) (d a : BitVec 5) (k : BitVec 3) (t : BitVec 2), t.toNat < 2 → s.ready [rd a] [d] = true →
    let w := s.me.laneW
    (∃ v, exec (.vneg d a k t) s = .next (((s.putV d v).flags 0).finish 4 [rd a]) ∧
      Claims.lanes s d k (fun l => (-(Claims.val t w (Claims.vsrc s [a] 0 l)) % 2 ^ w).toNat) v) ∧
    (∃ v, exec (.vabs d a k t) s = .next (((s.putV d v).flags 0).finish 4 [rd a]) ∧
      Claims.lanes s d k (fun l => (|Claims.val t w (Claims.vsrc s [a] 0 l)| % 2 ^ w).toNat) v))

/-- R250, R251: every float form at a width that its type allows completes; each active lane holds its operation's bits, and FSTAT gathers
the flags of the active lanes. -/
def Obligations.VectorFloat : Prop :=
  ∀ (s : State) (d a b c : BitVec 5) (k : BitVec 3) (t : BitVec 2), 2 ≤ t.toNat → typeFault t s.me = false →
    let w := s.me.laneW
    let F := fmtOf t w
    (∀ p ∈ Claims.floats2, s.ready [rd a, rd b] [d] = true →
      let g (l : Nat) := p.2 F (Claims.vsrc s [a, b] 0 l) (Claims.vsrc s [a, b] 1 l)
      ∃ v f, exec (p.1 d a b k t) s = .next (((s.putV d v).flags f).finish 4 [rd a, rd b]) ∧
        Claims.lanes s d k (fun l => (g l).1) v ∧ Claims.union s k (fun l => (g l).2) f) ∧
    (∀ p ∈ Claims.floats1, s.ready [rd a] [d] = true →
      let g (l : Nat) := p.2 F (Claims.vsrc s [a] 0 l)
      ∃ v f, exec (p.1 d a k t) s = .next (((s.putV d v).flags f).finish 4 [rd a]) ∧
        Claims.lanes s d k (fun l => (g l).1) v ∧ Claims.union s k (fun l => (g l).2) f) ∧
    (∀ sub : Bool, s.ready [rd a, rd b, rd c] [d] = true →
      let x (i l : Nat) := F.read (Claims.vsrc s [a, b, c] i l)
      let g (l : Nat) := fMulAdd F (x 0 l) (x 1 l) (if sub then (x 2 l).neg else x 2 l)
      ∃ v f, exec (if sub then .vfms d a b c k t else .vfma d a b c k t) s =
          .next (((s.putV d v).flags f).finish 4 [rd a, rd b, rd c]) ∧
        Claims.lanes s d k (fun l => (g l).1) v ∧ Claims.union s k (fun l => (g l).2) f)

/-- R110, R113, R118: the arithmetic behind the float forms. Rounding the value that the bits of a finite number or a zero hold gives
those bits back and no flag, in every mode; adding −0 to a number changes nothing; 0 · Inf and Inf − Inf give the default NaN and invalid;
a number over zero gives an infinity and the overflow flag. -/
def Sys2Proof.Parts.FloatRounding : Prop :=
  ∀ F ∈ [fmtF16, fmtB16, fmtF32],
    (∀ x, x < 2 ^ F.width → ∀ n m e, F.read x = .num n m e → ∀ mode < 5, F.round { mode := mode } n m e = (x, 0)) ∧
    (∀ x, x < 2 ^ F.width → ∀ n m e, F.read x = .num n m e → fAdd F (.num n m e) (F.read (F.zero true)) = (x, 0)) ∧
    (∀ n u v e, fMul F (.inf n) (.num u 0 e) = (F.nan, 1) ∧ fAdd F (.inf v) (.inf !v) = (F.nan, 1)) ∧
    (∀ n m e u e', m ≠ 0 → fDiv F (.num n m e) (.num u 0 e') = (F.inf (n != u), 2))

/-- R252: `vmac` and `vdot` complete with the exact sums, wrapped. -/
def Obligations.VectorAccumulate : Prop :=
  ∀ (s : State) (d a b c : BitVec 5) (k : BitVec 3) (t : BitVec 2), t.toNat < 2 → s.ready [rd a, rd b, rd c] [d] = true →
    let w := s.me.laneW
    let x (i l : Nat) : Int := Claims.val t w (Claims.vsrc s [a, b, c] i l)
    (∃ v, exec (.vmac d a b c k t) s = .next (((s.putV d v).flags 0).finish 4 [rd a, rd b, rd c]) ∧
      Claims.lanes s d k (fun l => ((x 2 l + x 0 l * x 1 l) % 2 ^ w).toNat) v) ∧
    (w < 32 → ∃ v, exec (.vdot d a b c k t) s = .next ((s.putV d v).finish 4 [rd a, rd b, rd c]) ∧
      ∀ j, j < 8 → (lane v 32 j : Int) =
        (Claims.val t 32 (lane (s.operand [rd a, rd b, rd c] (fun _ => true) 2) 32 j) +
          (((List.range (32 / w)).filter fun i => (s.me.k k.toNat).getLsbD (32 / w * j + i)).map fun i =>
            x 0 (32 / w * j + i) * x 1 (32 / w * j + i)).sum) % 2 ^ 32)

/-- R253, R118: the three shapes of conversion complete at legal types and widths: each active lane holds the conversion of its source
lane under CONV; the narrow shape leaves the other half of its destination. -/
def Sys2Proof.Parts.VectorConversion : Prop :=
  ∀ (s : State) (d a : BitVec 5) (x : BitVec 2) (h : BitVec 1) (k : BitVec 3) (t : BitVec 2), s.ready [rd a] [d] = true →
    let w := s.me.laneW
    let n := s.me.laneN
    let y := s.operand [rd a] (fun _ => true) 0
    let C := convOf s.me.conv
    let m := s.me.k k.toNat
    (convType t.toNat w = true → convType x.toNat w = true →
      let g (l : Nat) := convertAs C t.toNat w x.toNat w (lane y w l)
      ∃ v f, exec (.vcvt d a x k t) s = .next (((s.putV d v).flags f).finish 4 [rd a]) ∧
        Claims.lanes s d k (fun l => (g l).1) v ∧ Claims.union s k (fun l => (g l).2) f) ∧
    (convType t.toNat w = true → convType x.toNat (w / 2) = true →
      let g (l : Nat) := convertAs C t.toNat w x.toNat (w / 2) (lane y w l)
      ∃ v f, exec (.vcvtn d a x h k t) s = .next (((s.putV d v).flags f).finish 4 [rd a]) ∧ Claims.union s k (fun l => (g l).2) f ∧
        ∀ l, l < n → lane v (w / 2) ((1 - h.toNat) * n + l) = lane (s.oldV d) (w / 2) ((1 - h.toNat) * n + l) ∧
          lane v (w / 2) (h.toNat * n + l) = if m.getLsbD l then (g l).1 % 2 ^ (w / 2)
            else if s.me.zm then 0 else lane (s.oldV d) (w / 2) (h.toNat * n + l)) ∧
    (convType t.toNat (w / 2) = true → convType x.toNat w = true →
      let g (l : Nat) := convertAs C t.toNat (w / 2) x.toNat w (lane y (w / 2) (h.toNat * n + l))
      ∃ v f, exec (.vcvtw d a x h k t) s = .next (((s.putV d v).flags f).finish 4 [rd a]) ∧
        Claims.lanes s d k (fun l => (g l).1) v ∧ Claims.union s k (fun l => (g l).2) f)

/-- R254, R257, R258: permutes, slides, zips, moves, splats, inserts, compress and expand complete with the lanes they select. -/
def Sys2Proof.Parts.VectorSelection : Prop :=
  ∀ (s : State) (d a b : BitVec 5) (k : BitVec 3),
    (∀ p ∈ Claims.selections d a b k s, s.ready (p.2.1.map rd) [d] = true →
      ∃ v, exec p.1 s = .next (((s.putV d v).flags 0).finish 4 (p.2.1.map rd)) ∧ Claims.lanes s d k (fun l => p.2.2 l l) v) ∧
    (s.ready [rd a, rd b] [d] = true →
      let n := s.me.laneN
      let y (l : Nat) := lane (s.operand [rd a, rd b] (fun i => i == 0) 0) s.me.laneW l
      let x := (s.src [rd a, rd b] 1).toNat
      (∃ v, exec (.vslup d a b k) s = .next (((s.putV d v).flags 0).finish 4 [rd a, rd b]) ∧
        Claims.lanes s d k (fun l => if x ≤ l then y (l - x) else 0) v) ∧
      (∃ v, exec (.vsldn d a b k) s = .next (((s.putV d v).flags 0).finish 4 [rd a, rd b]) ∧
        Claims.lanes s d k (fun l => if l + x < n then y (l + x) else 0) v)) ∧
    (s.ready [rd a] [d] = true →
      (∃ v, exec (.vsplat d a k) s = .next (((s.putV d v).flags 0).finish 4 [rd a]) ∧
        Claims.lanes s d k (fun _ => (s.src [rd a] 0).toNat) v) ∧
      (d.toNat < 27 → ∃ v, exec (.vins d a b) s = .next ((s.putV d v).finish 4 [rd a]) ∧
        Claims.whole s (fun l => if l = b.toNat % s.me.laneN then (s.src [rd a] 0).toNat else lane (s.me.v d.toNat) s.me.laneW l) v) ∧
      (∀ t : BitVec 2, typeFault t s.me = false → exec (.vext d a b t) s = .next ((s.put d (BitVec.ofInt 64
        (Claims.val t s.me.laneW (Claims.vsrc s [a] 0 (b.toNat % s.me.laneN))))).finish 4 [rd a]))) ∧
    (∀ i : BitVec 10, s.ready [] [d] = true → ∃ v, exec (.vsplati d i k) s = .next (((s.putV d v).flags 0).finish 4 []) ∧
      Claims.lanes s d k (fun _ => (i.toInt % 2 ^ s.me.laneW).toNat) v) ∧
    (s.ready [rd a] [d, b] = true → ∃ v, exec (.vcomp d a b k) s = .next
        (((s.putV d v).put b (BitVec.ofNat 64 (Claims.active s a k).length)).finish 4 [rd a]) ∧
      Claims.whole s (fun l => (Claims.active s a k).getD l 0) v)

/-- R255: the reductions complete with their result over the active lanes in lane 0, and every other bit zero. -/
def Sys2Proof.Parts.VectorReductions : Prop :=
  ∀ (s : State) (d a : BitVec 5) (k : BitVec 3) (t : BitVec 2), s.ready [rd a] [d] = true →
    let w := s.me.laneW
    let xs := Claims.active s a k
    let vs := xs.map (Claims.val t w)
    let done (v : Int) : Host.Outcome State Fault Refusal := .next (((s.putV d (BitVec.ofInt 256 v)).flags 0).finish 4 [rd a])
    (t.toNat < 2 →
      exec (.vrsum d a k t) s = done (vs.sum % 2 ^ w) ∧
      exec (.vrsumw d a k t) s = done (vs.sum % 2 ^ 64) ∧
      exec (.vrand d a k t) s = done (xs.foldl (fun a b => a &&& b) (2 ^ w - 1) : Nat) ∧
      exec (.vror d a k t) s = done (xs.foldl (fun a b => a ||| b) 0 : Nat) ∧
      exec (.vrxor d a k t) s = done (xs.foldl (fun a b => a ^^^ b) 0 : Nat) ∧
      exec (.vrmin d a k t) s = done (vs.foldl min (if t = 0 then 2 ^ (w - 1) - 1 else 2 ^ w - 1) % 2 ^ w) ∧
      exec (.vrmax d a k t) s = done (vs.foldl max (if t = 0 then -2 ^ (w - 1) else 0) % 2 ^ w)) ∧
    (2 ≤ t.toNat → typeFault t s.me = false →
      let F := fmtOf t w
      exec (.vrfsum d a k t) s =
        .next (((s.putV d (BitVec.ofNat 256 (fSum F (xs.map F.read)).1)).flags (fSum F (xs.map F.read)).2).finish 4 [rd a]) ∧
      exec (.vrmin d a k t) s = .next (((s.putV d (BitVec.ofNat 256 (Claims.extremum F false xs).1)).flags
        (Claims.extremum F false xs).2).finish 4 [rd a]) ∧
      exec (.vrmax d a k t) s = .next (((s.putV d (BitVec.ofNat 256 (Claims.extremum F true xs).1)).flags
        (Claims.extremum F true xs).2).finish 4 [rd a]))

/-- R256, R258, R244: the mask forms, `kset`, `kget`, `kcnt` and `vcfg` complete; k0 stays all ones; `vcfg` of the reserved width takes
the control-value fault. -/
def Sys2Proof.Parts.MasksAndConfig : Prop :=
  (∀ p ∈ Claims.masks, ∀ (s : State) (d a b : BitVec 3), s.ready [] [] = true →
    exec (p.1 d a b) s = .next ((s.setMe (s.me.setK d.toNat (p.2 (s.me.k a.toNat) (s.me.k b.toNat)))).finish 4 [])) ∧
  (∀ (s : State) (d a : BitVec 3), s.ready [] [] = true →
    exec (.knot d a) s = .next ((s.setMe (s.me.setK d.toNat (~~~(s.me.k a.toNat)))).finish 4 [])) ∧
  (∀ (s : State) (d : BitVec 3) (a : BitVec 5), s.ready [rd a] [] = true →
    exec (.kset d a) s = .next ((s.setMe (s.me.setK d.toNat ((s.src [rd a] 0).setWidth 32))).finish 4 [rd a])) ∧
  (∀ (s : State) (d : BitVec 5) (a : BitVec 3), s.ready [] [d] = true →
    exec (.kget d a) s = .next ((s.put d ((s.me.k a.toNat).setWidth 64)).finish 4 []) ∧
    exec (.kcnt d a) s = .next ((s.put d (BitVec.ofNat 64
      ((List.range s.me.laneN).filter fun l => (s.me.k a.toNat).getLsbD l).length)).finish 4 [])) ∧
  (∀ (s : State) (z : BitVec 1) (w : BitVec 2), s.ready [] [] = true →
    exec (.vcfg z w) s = .next (if w = 3 then s.fault ⟨0x07, 0, 5⟩
      else (s.setMe { s.me with vcfg := BitVec.ofNat 64 (z.toNat * 4 + w.toNat) }).finish 4 [])) ∧
  (∀ (c : Ctx) (n : Nat) (v : BitVec 32), (c.setK n v).k 0 = BitVec.allOnes 32 ∧ (n ≠ 0 → (c.setK n v).k n = v))

/-- R259: `vcmp` completes: in each active lane the destination mask has the comparison, combined with its old bit; inactive lanes keep or
clear theirs; bits n to 31 are zero. For type I and N the comparison is of the lanes' values and sets no flag. -/
def Sys2Proof.Parts.VectorCompare : Prop :=
  ∀ (s : State) (d : BitVec 3) (a b : BitVec 5) (c : BitVec 3) (m : BitVec 2) (k : BitVec 3) (t : BitVec 2),
    s.ready [rd a, rd b] [] = true → typeFault t s.me = false → m.toNat < 3 → 0 < d.toNat → s.me.laneN ≤ 32 →
    let g (l : Nat) := compareLanes c s.me.laneW t (Claims.vsrc s [a, b] 0 l) (Claims.vsrc s [a, b] 1 l)
    (∃ v f, exec (.vcmp d a b c m k t) s = .next (((s.setMe (s.me.setK d.toNat v)).flags f).finish 4 [rd a, rd b]) ∧
      Claims.union s k (fun l => (g l).2) f ∧ (∀ l, s.me.laneN ≤ l → v.getLsbD l = false) ∧
      ∀ l, l < s.me.laneN → v.getLsbD l = if (s.me.k k.toNat).getLsbD l then
          (if m = 0 then (g l).1 else if m = 1 then (s.me.k d.toNat).getLsbD l && (g l).1 else (s.me.k d.toNat).getLsbD l || (g l).1)
        else !s.me.zm && (s.me.k d.toNat).getLsbD l) ∧
    (t.toNat < 2 → c.toNat < 6 → ∀ l, (g l).2 = 0 ∧ ((g l).1 = true ↔
      let x := Claims.val t s.me.laneW (Claims.vsrc s [a, b] 0 l)
      let y := Claims.val t s.me.laneW (Claims.vsrc s [a, b] 1 l)
      match c.toNat with | 0 => x = y | 1 => x ≠ y | 2 => x < y | 3 => x ≤ y | 4 => y < x | _ => y ≤ x))

/-- R112, R246, R252, R253, R189: a vector instruction whose type has no meaning at VCFG's width takes the width fault (cause 0x05) and has
no other effect: the float types at 8-bit lanes and the B type at 32-bit lanes, in every form with a type; `vdot` at 32-bit lanes; a
conversion whose source or target has no such width or no meaning at it. -/
def Sys2Proof.Parts.WidthFault : Prop :=
  (∀ (t : BitVec 2) (c : Ctx), c.laneW ≤ 32 → (typeFault t c = true ↔ 2 ≤ t.toNat ∧ (c.laneW = 8 ∨ (t = 3 ∧ c.laneW = 32)))) ∧
  (∀ (t : BitVec 2) (w : Nat), convType t.toNat w = true ↔
    (w = 8 ∧ t.toNat < 2) ∨ w = 16 ∨ (w = 32 ∧ t ≠ 3)) ∧
  (∀ (i : Instr) (g : Claims.Form), Claims.form i = some g → ∀ s : State, s.ready g.srcs g.outs = true → g.width s.me = true →
    exec i s = .next (s.fault ⟨0x05, 0, 0⟩))

namespace Sys2Proof.Claims

/-- What `crd` reads of the control registers 0 to 17 (R292). -/
def controls (s : State) : List W64 :=
  let c := s.me
  [c.ip.setWidth 64, BitVec.ofNat 64 s.cur.b, BitVec.ofNat 64 (s.cur.t * 4 + s.cur.q), BitVec.ofNat 64 s.cur.t,
   BitVec.ofNat 64 (c.fold * 2 ^ 16 + c.resid.getD 0), c.vcfg, c.conv, c.fstat.setWidth 64, c.trapvec.setWidth 64,
   c.trapip.setWidth 64, c.trapcause.setWidth 64, c.trapaddr, c.trapinfo, c.stake, BitVec.ofNat 64 s.cycleOf, c.instret,
   c.hold.setWidth 64, c.prio.setWidth 64]

/-- What a write of `v` leaves in a context, for the writable control registers and the values that each accepts (R32, R116, R244). -/
def written (c : Ctx) (n : Nat) (v : W64) (limit : Nat) : Option Ctx :=
  if n = 5 then (if v.toNat < 8 ∧ v.extractLsb' 0 2 ≠ 3 then some { c with vcfg := v } else none)
  else if n = 6 then
    (if v.toNat < 128 ∧ v.extractLsb' 4 2 ≠ 3 ∧ (v.extractLsb' 0 3).toNat < 5 then some { c with conv := v } else none)
  else if n = 7 then some { c with fstat := v.setWidth 6 }
  else if n = 8 then (if v.toNat % 4 = 0 then some { c with trapvec := v.setWidth 16 } else none)
  else if n = 9 then some { c with trapip := v.setWidth 16 }
  else if n = 10 then some { c with trapcause := v.setWidth 8 }
  else if n = 11 then some { c with trapaddr := v }
  else if n = 12 then some { c with trapinfo := v }
  else if n = 16 then some { c with hold := v.setWidth 12 }
  else if n = 17 then some { c with prio := BitVec.ofNat 2 (min (v.toNat % 4) limit) }
  else none

/-- The context after an entry of its handler (R294). -/
def handling (c : Ctx) (f : Trap) (ret : BitVec 16) : Ctx :=
  { c with trapip := ret, trapcause := BitVec.ofNat 8 f.cause, trapaddr := f.addr, trapinfo := f.info, handler := true
           ip := c.trapvec, walkFail := none, mid := false }

/-- An instruction ends by going on where its body has said. -/
def left (s : State) (c : Ctx) : State := (s.setMe { c with instret := c.instret + 1, walkFail := none, mid := false }).used

end Sys2Proof.Claims

/-- R294, R295, R377: taking a precise fault. With a handler and none active, TRAPIP holds the IP of the instruction, TRAPCAUSE,
TRAPADDR and TRAPINFO hold the fault, handler-active is set and the context goes on at TRAPVEC; else the context stops and a fault report
goes to the scheduler, reason 1 without a handler and 2 within one. No byte of memory and no other context changes. -/
def Sys2Proof.Parts.FaultEntry : Prop :=
  ∀ (s : State) (c : Trap), s.cur.q < 4 → s.cur.b < 4 →
    let t := s.fault c
    t.mem = s.mem ∧ t.issued = true ∧ (∀ k, k ≠ s.cur.ctx → t.ctx k = s.ctx k) ∧
    (s.me.handler = false → s.me.trapvec ≠ 0 → t.me = Claims.handling s.me c s.me.ip ∧ t.net = s.net) ∧
    (s.me.handler = true ∨ s.me.trapvec = 0 → t.me = { s.me with run := .stopped, wait := .none } ∧
      ∀ r, s.me.resid = some r → ∃ f, t.net = s.net ++ [f] ∧ f.at_ = s.cur.t ∧ f.p.h.kind = 12 ∧ f.p.h.node = 4097 ∧ f.p.h.resid = r ∧
        f.p.pay = [eventWord 0x10 (if s.me.handler then 2 else 1) r s.cur.t s.cur.q s.cur.b c.cause ++ c.addr ++ c.info ++ 0#64])

/-- R292, R32: `crd` completes with its control register; `cwr` of a writable one writes it where the value is legal, and takes the
control-value fault (cause 0x07, TRAPINFO the register) where it is not. -/
def Obligations.ControlRegisters : Prop :=
  (∀ (s : State) (d c : BitVec 5), s.ready [] [d] = true → ∀ v, (Claims.controls s)[c.toNat]? = some v →
    exec (.crd d c) s = .next ((s.put d v).finish 4 [])) ∧
  (∀ (s : State) (c a : BitVec 5), s.ready [rd a] [] = true → c.toNat ∈ [5, 6, 7, 8, 9, 10, 11, 12, 16, 17] →
    exec (.cwr c a) s = .next (match Claims.written s.me c.toNat (s.src [rd a] 0) (s.prioLimit s.cur.ctx) with
      | some x => (s.setMe x).finish 4 [rd a]
      | none => s.fault ⟨0x07, 0, c.setWidth 64⟩))

/-- R293: `trap` and `brk` enter the handler with causes 0x08 and 0x09, TRAPINFO the number of the trap, and TRAPIP the address after
them. -/
def Sys2Proof.Parts.TrapInstructions : Prop :=
  ∀ (s : State) (n : BitVec 5), s.ready [] [] = true → s.me.handler = false → s.me.trapvec ≠ 0 →
    exec (.trap n) s = .next ((s.setMe (Claims.handling s.me ⟨0x08, 0, n.setWidth 64⟩ (s.me.ip + 4))).used) ∧
    exec .brk s = .next ((s.setMe (Claims.handling s.me ⟨0x09, 0, 0⟩ (s.me.ip + 4))).used)

/-- R295: `eret` in a handler clears handler-active and goes on at TRAPIP, if that is a legal target; outside a handler it is illegal
(cause 0x01); with an illegal target it takes the IP-bounds fault with the handler still active. -/
def Sys2Proof.Parts.ReturnFromHandler : Prop :=
  ∀ s : State, s.ready [] [] = true →
    (s.me.handler = true → s.me.targetOk (s.me.trapip.setWidth 64) = true →
      exec .eret s = .next (Claims.left s { s.me with ip := s.me.trapip, handler := false })) ∧
    (s.me.handler = false → exec .eret s = .next (s.fault ⟨0x01, 0, s.word.extractLsb' 0 64⟩)) ∧
    (s.me.handler = true → s.me.targetOk (s.me.trapip.setWidth 64) = false →
      exec .eret s = .next (s.fault ⟨0x03, s.me.trapip.setWidth 64, 0⟩))

/-- R293, R37: `wfi` completes at once with a word at an owned input or a record queued, and else sleeps until `WFI_WAKE` finds one;
`halt` halts the context, which keeps its stake. -/
def Sys2Proof.Parts.SleepAndHalt : Prop :=
  (∀ s : State, s.ready [] [] = true →
    (s.wfiDone = true → exec .wfi s = .next (s.finish 4 [])) ∧
    (s.wfiDone = false → exec .wfi s = .next ((s.setMe { s.me with wait := .wfi, heldLen := 4, heldIns := [], mid := false }).used))) ∧
  (∀ s : State, s.me.wait = .wfi → s.inputWord = true → s.me.async = [] →
    exec .wfiWake s = .next (s.complete)) ∧
  (∀ s : State, s.ready [] [] = true → s.me.async = [] →
    exec .halt s = .next (Claims.left s { s.me with run := .halted }))

/-- R188, R179, R239: words that are no instruction take cause 0x01 with the words in TRAPINFO, and a fetch outside the partition cause 0x02
with its address; a queued record that the context can take reaches its handler with cause 0x0A and leaves the queue; a record that an
engine raised joins the queue of its live context, or is counted as dropped when four wait. Readings and choices of the model that it rests
on: log entries 33, 36 and 78. -/
def Obligations.ContextFaultEvents : Prop :=
  (∀ s : State, exec .illegalInstruction s = .next (s.fault ⟨0x01, 0, s.word.extractLsb' 0 64⟩) ∧
    exec .fetchFault s = .next (s.fault ⟨0x02, s.me.ip.setWidth 64, 0⟩)) ∧
  (∀ (s : State) (r : AsyncRec) (rs : List AsyncRec), s.me.takesRecord = true → s.me.async = r :: rs → s.me.trapvec ≠ 0 →
    exec .asyncFaultDelivery s = .next ((s.setMe (Claims.handling
      { s.me with async := rs, asyncDrop := 0, wait := .none, heldIns := [], heldLen := 0 }
      ⟨0x0A, r.addr, r.origin ++ s.me.asyncDrop ++ 0#8 ++ r.detail ++ r.cause⟩ s.me.ip)).used)) ∧
  (∀ (s : State) (k : Nat) (r : AsyncRec) (rs : List (Nat × AsyncRec)), s.sched.asyncs = (k, r) :: rs → (s.ctx k).run = .live →
    exec .asyncFaultArrival s = .next ((s.setSched { s.sched with asyncs := rs }).setCtx k
      (if 4 ≤ (s.ctx k).async.length
        then { s.ctx k with asyncDrop := if (s.ctx k).asyncDrop = 255 then 255 else (s.ctx k).asyncDrop + 1 }
        else { s.ctx k with async := (s.ctx k).async ++ [r] })))

/-- R163, R287: `binit` sets a barrier's expected count and clears its arrivals and its error, keeping the phase; `barr` with no write outstanding
arrives and returns the phase before, and with some pops its source, waits, and arrives when they are performed; `bwait` sleeps while the phase is
the one given and returns the error flag at another; `btest` returns phase and error; a barrier outside the residency's share is the
barrier-ownership fault (cause 0x23, TRAPINFO the name). An operation on a barrier of another core's tile gives up its turn unless it is a late
one, behind the cores of that tile (R164). -/
def Sys2Proof.Parts.BarrierOps : Prop :=
  ∀ (s : State) (core idx : Nat) (d a b : BitVec 5),
    let B := s.barrier core idx
    let r := s.me.resid.getD 0
    let turn : Prop := core / 4 = s.cur.t ∨ s.late = true
    let off : Host.Outcome State Fault Refusal := .next { s with clash := true }
    (s.ready [rd a, rd b] [] = true → s.barPlace s.cur.t r (s.src [rd a, rd b] 0).toNat = some (core, idx) →
      let n := (s.src [rd a, rd b] 1).toNat
      (turn → exec (.binit a b) s = .next (if n = 0 ∨ 65535 < n then s.fault ⟨0x21, 0, 0⟩
        else (s.setBarrier core idx { B with expected := n, arrived := 0, err := false }).finish 4 [rd a, rd b])) ∧
      (¬ turn → exec (.binit a b) s = off)) ∧
    (s.ready [rd a] [d] = true → s.barPlace s.cur.t r (s.src [rd a] 0).toNat = some (core, idx) →
      (turn → s.releaseSet s.cur.ctx 2 = [] → exec (.barr d a) s = .next (((s.setBarrier core idx
        (if B.arrived + 1 = B.expected then { B with arrived := 0, phase := !B.phase } else { B with arrived := B.arrived + 1 })).put d
          (if B.phase then 1 else 0)).finish 4 [rd a])) ∧
      (turn → s.releaseSet s.cur.ctx 2 ≠ [] → exec (.barr d a) s = .next
        (let u := (s.setMe { s.me with wait := .barr d core idx (s.releaseSet s.cur.ctx 2) }).popPorts (popsOf [rd a])
        (u.setMe { u.me with heldLen := 4, heldIns := [], mid := false }).used)) ∧
      (turn → exec (.btest d a) s = .next ((s.put d ((if B.phase then 1 else 0) + (if B.err then 2 else 0))).finish 4 [rd a])) ∧
      (¬ turn → exec (.barr d a) s = off ∧ exec (.btest d a) s = off)) ∧
    (s.me.wait = .barr d core idx [] →
      (turn → exec (.barr d a) s = .next ((s.setBarrier core idx
        (if B.arrived + 1 = B.expected then { B with arrived := 0, phase := !B.phase } else { B with arrived := B.arrived + 1 })).put d
          (if B.phase then 1 else 0)).complete) ∧
      (¬ turn → exec (.barr d a) s = off)) ∧
    (s.ready [rd a, rd b] [d] = true → s.barPlace s.cur.t r (s.src [rd a, rd b] 0).toNat = some (core, idx) →
      (turn → B.phase ≠ (s.src [rd a, rd b] 1).getLsbD 0 →
        exec (.bwait d a b) s = .next ((s.put d (if B.err then 1 else 0)).finish 4 [rd a, rd b])) ∧
      (turn → B.phase = (s.src [rd a, rd b] 1).getLsbD 0 → exec (.bwait d a b) s = .next ((s.setMe { s.me with
        wait := .bwait d ((s.src [rd a, rd b] 0).setWidth 15) B.phase, heldLen := 4, heldIns := popsOf [rd a, rd b], mid := false }).used)) ∧
      (¬ turn → exec (.bwait d a b) s = off)) ∧
    (s.ready [rd a] [d] = true → s.barPlace s.cur.t r (s.src [rd a] 0).toNat = none →
      exec (.btest d a) s = .next (s.fault ⟨0x23, 0, s.src [rd a] 0⟩) ∧
      exec (.barr d a) s = .next (s.fault ⟨0x23, 0, s.src [rd a] 0⟩)) ∧
    (s.barPlace s.cur.t r (s.src [rd a, rd b] 0).toNat = none →
      (s.ready [rd a, rd b] [] = true → exec (.binit a b) s = .next (s.fault ⟨0x23, 0, s.src [rd a, rd b] 0⟩)) ∧
      (s.ready [rd a, rd b] [d] = true → exec (.bwait d a b) s = .next (s.fault ⟨0x23, 0, s.src [rd a, rd b] 0⟩)))

/-- R163, R164, R287: an engine's completion arrives on its barrier, with its error; a context that sleeps in `bwait` wakes when the phase
is another, and reads the error flag. -/
def Sys2Proof.Parts.BarrierEvents : Prop :=
  (∀ (s : State) (a : Arrival) (r : List Arrival), (s.tile s.cur.t).arrivals = a :: r →
    let B := s.barrier a.core a.idx
    ∃ t, exec .barrierEngineArrival s = .next t ∧ (t.tile s.cur.t).arrivals = r ∧ t.mem = s.mem ∧
      t.barrier a.core a.idx = (if B.arrived + 1 = B.expected then { B with arrived := 0, phase := !B.phase, err := B.err || a.err }
        else { B with arrived := B.arrived + 1, err := B.err || a.err }) ∧
      ∀ c i, (c, i) ≠ (a.core, a.idx) → t.barrier c i = s.barrier c i) ∧
  (∀ (s : State) (d : BitVec 5) (name : BitVec 15) (ph : Bool) (core idx : Nat), s.me.wait = .bwait d name ph →
    s.barPlace s.cur.t (s.me.resid.getD 0) name.toNat = some (core, idx) → (s.barrier core idx).phase ≠ ph →
    exec .bwaitWake s = .next ((s.put d (if (s.barrier core idx).err then 1 else 0)).complete))

/-- R288, R36, R38, R42: `spawn` of a legal entry with room in the deque pushes a record at the bottom, with the entry's offset, its
arguments and half the stake; the stakes of maker and record add up to the stake before. An entry outside the partition is the
task-argument fault (cause 0x27, TRAPINFO the entry). -/
def Sys2Proof.Parts.SpawnRecord : Prop :=
  ∀ (s : State) (r : Residency) (d a b : BitVec 5), s.ready [rd a, rd b, rd d] [] = true → s.myRes = some r →
    let e := s.src [rd a, rd b, rd d] 2
    (s.me.entryOk e = true → s.me.deque.length < 64 → (r.potValid = true → 1 < s.me.stake.toNat) →
      ∃ child : W64, (r.potValid = false → child = 0) ∧ (r.potValid = true → child.toNat = s.me.stake.toNat / 2) ∧
        exec (.spawn d a b) s = .next ((s.setMe { s.me with
          stake := s.me.stake - child
          deque := s.me.deque ++ [⟨e - BitVec.ofNat 64 s.me.code.base, s.src [rd a, rd b, rd d] 0, s.src [rd a, rd b, rd d] 1, child,
            s.releaseSet s.cur.ctx 4⟩] }).finish 4 [rd a, rd b, rd d]) ∧
        (s.me.stake - child).toNat + child.toNat = s.me.stake.toNat) ∧
    (s.me.entryOk e = false → exec (.spawn d a b) s = .next (s.fault ⟨0x27, 0, e⟩))

/-- R289, R40, R42: `send` to a core of the residency with no write outstanding and stake enough sends a task packet (kind 6) to its tile
with the entry's offset, the arguments and half the stake; with a write outstanding it waits for it first; a target that is not of the
residency is the task-argument fault. -/
def Sys2Proof.Parts.SendMessage : Prop :=
  ∀ (s : State) (r : Residency) (d a b : BitVec 5), s.ready [rd a, rd b, rd d] [] = true → s.myRes = some r →
    let w := s.src [rd a, rd b, rd d] 2
    (w.extractLsb' 32 8 = 0xFF →
      (s.sendOk r w = false → exec (.send d a b) s = .next (s.fault ⟨0x27, 0, w⟩)) ∧
      (s.sendOk r w = true → s.releaseSet s.cur.ctx 4 ≠ [] → exec (.send d a b) s = .next ((s.setMe
        { s.me with wait := .acks (s.releaseSet s.cur.ctx 4) .again, mid := true }).used)) ∧
      (s.sendOk r w = true → s.releaseSet s.cur.ctx 4 = [] → (r.potValid = true → 1 < s.me.stake.toNat) →
        ∃ (t : State) (f : Flight) (child : W64), exec (.send d a b) s = .next t ∧ t.net = s.net ++ [f] ∧ f.at_ = s.cur.t ∧
          (r.potValid = true → child.toNat = s.me.stake.toNat / 2) ∧ (r.potValid = false → child = 0) ∧
          t.me = { s.me with
            stake := s.me.stake - child, instret := s.me.instret + 1, ip := s.me.ip + 4, walkFail := none, mid := false } ∧
          f.p.h.kind = 6 ∧ f.p.h.node = (w.extractLsb' 16 13).toNat / 4 ∧ f.p.h.dq = (w.extractLsb' 16 13).toNat % 4 ∧
          f.p.h.dfold = (w.extractLsb' 29 2).toNat ∧ f.p.h.resid = r.num ∧
          f.p.pay = [child ++ s.src [rd a, rd b, rd d] 1 ++ s.src [rd a, rd b, rd d] 0 ++
            BitVec.ofNat 64 ((w.extractLsb' 0 16).toNat - s.me.code.base)] ∧ t.mem = s.mem))

/-- R290, R36, R37, R44: `tdone` with a record at the bottom of the deque starts it: IP its entry, s1 and s2 its arguments, STAKE its
stake; with neither a record nor a block the context is an idle worker. Without a pot no unit moves. -/
def Sys2Proof.Parts.TaskDone : Prop :=
  ∀ s : State, s.ready [] [] = true → s.potOn = false → s.me.async = [] →
    (∀ (l : List Task) (x : Task), s.me.deque = l ++ [x] →
      exec .tdone s = .next (Claims.left s { ((s.me.setS 1 x.a0).setS 2 x.a1) with
        deque := l, ip := BitVec.ofNat 16 (s.me.code.base + x.entry.toNat), stake := x.stake, run := .live, steal := .start })) ∧
    (s.me.deque = [] → s.me.ring.count = 0 → exec .tdone s = .next (Claims.left s { s.me with run := .idle, steal := .start }))

/-- R41, R45, R48, R291: `potinit` at the root makes the pot of 2^62 units and gives them to the root; anywhere else it is the root-context
fault (cause 0x28). `wquiet` returns the root's stake to the pot, as this cycle's event or as one that waits for its turn, and sleeps.
`stake` reads the stake. `commit` of a committed residency completes at once; of another its root asks the scheduler and sleeps. -/
def Sys2Proof.Parts.RootInstructions : Prop :=
  (∀ (s : State) (r : Residency), s.ready [] [] = true → s.myRes = some r →
    (s.isRoot = true → r.potValid = false → exec .potinit s = .next (((s.setRes
      { r with potValid := true, pot := 0, total := 2 ^ 62, full := none }).setMe { s.me with stake := BitVec.ofNat 64 (2 ^ 62) }).finish 4 [])) ∧
    (s.isRoot = false → exec .potinit s = .next (s.fault ⟨0x28, 0, 0⟩) ∧ exec .wquiet s = .next (s.fault ⟨0x28, 0, 1⟩) ∧
      exec .commit s = .next (s.fault ⟨0x28, 0, 3⟩)) ∧
    (s.isRoot = true → r.potValid = true → s.me.resid = some r.num →
      let c : Ctx := { s.me with stake := 0, wait := .wquiet, heldLen := 4, heldIns := [], mid := false }
      (s.potNow r = true → exec .wquiet s = .next (((s.setRes
        { r with
          pot := r.pot + s.me.stake.toNat
          potAt := some s.cycle
          full := if r.pot + s.me.stake.toNat = r.total then some s.cycle else none }).setMe c).used)) ∧
      (s.potNow r = false → ∃ (t : State) (y : Arrived), exec .wquiet s = .next t ∧ t.me = c ∧ t.inbox = s.inbox ++ [y] ∧
        y.node = r.rootTile ∧ y.p.h.kind = 9 ∧ y.p.h.op = opReturn ∧ y.p.h.info = s.me.stake)) ∧
    (s.isRoot = true → r.state = .committed → exec .commit s = .next (s.finish 4 [])) ∧
    (s.isRoot = true → r.state ≠ .committed → ∃ (t : State) (f : Flight), exec .commit s = .next t ∧ t.net = s.net ++ [f] ∧
      f.at_ = s.cur.t ∧ f.p.h.kind = 12 ∧ f.p.h.node = 4097 ∧ f.p.h.resid = r.num ∧
      t.me = { s.me with wait := .commit, heldLen := 4, heldIns := [], mid := false })) ∧
  (∀ (s : State) (d : BitVec 5), s.ready [] [d] = true → exec (.stake d) s = .next ((s.put d s.me.stake).finish 4 []))

/-- R42 to R45: the packets of the pot, one in a cycle. The root grants a borrow of 2^40 units and adds them to the total, or answers EXHAUST
when the total would reach 2^63; a grant raises the borrower's STAKE, an EXHAUST is its fault (cause 0x26); a RETURN adds its units to the
pot; a root asleep in `wquiet` wakes in the first cycle after an event that left the pot with the total, and in no earlier one. -/
def Sys2Proof.Parts.PotEvents : Prop :=
  (∀ s : State, (∃ r, s.findRes s.cur.n = some r ∧ r.potAt = some s.cycle) →
    exec .borrowRequest s = .next s ∧ exec .returnMessage s = .next s) ∧
  (∀ (s : State) (p : Packet) (r : Residency), s.potEvent = some p → s.liveRes p.h.resid = some r →
    (p.h.op = opBorrow → ∃ (t : State) (f : Flight), exec .borrowRequest s = .next t ∧ t.net = s.net ++ [f] ∧ f.p.h.kind = 9 ∧
      f.p.h.dst = p.h.stile ∧ f.p.h.info = p.h.info ∧ t.mem = s.mem ∧
      (r.total + 2 ^ 40 < 2 ^ 63 → f.p.h.op = opGrant ∧
        t.sched = (s.setRes { r with total := r.total + 2 ^ 40, potAt := some s.cycle }).sched) ∧
      (2 ^ 63 ≤ r.total + 2 ^ 40 → f.p.h.op = opExhaust ∧ t.sched = (s.setRes { r with potAt := some s.cycle }).sched)) ∧
    (p.h.op = opReturn → r.potValid = true →
      exec .returnMessage s = .next ((s.takeArrived s.cur.t (isPotOf s.cur.n)).setRes
        { r with
          pot := r.pot + p.h.info.toNat, potAt := some s.cycle
          full := if r.pot + p.h.info.toNat = r.total then some s.cycle else r.full }))) ∧
  (∀ (s : State) (p : Packet), s.arrived s.cur.t isPotReply = some p →
    let k := p.h.info.toNat
    k < 2 ^ 20 → (s.ctx k).wait = .borrow → (s.ctx k).resid = some p.h.resid → p.h.op = opGrant →
    exec .borrowReply s = .next (((s.takeArrived s.cur.t isPotReply).setCtx k
      { s.ctx k with wait := .none, stake := (s.ctx k).stake + BitVec.ofNat 64 (2 ^ 40) }))) ∧
  (∀ (s : State) (p : Packet), s.arrived s.cur.t isPotReply = some p →
    let k := p.h.info.toNat
    k < 2 ^ 20 → (s.ctx k).wait = .borrow → (s.ctx k).resid = some p.h.resid → p.h.op = opExhaust → (s.ctx k).handler = false →
    (s.ctx k).trapvec ≠ 0 → ∃ t, exec .borrowReply s = .next t ∧
      t.ctx k = Claims.handling { s.ctx k with wait := .none, heldIns := [], heldLen := 0 } ⟨0x26, 0, 0⟩ (s.ctx k).ip) ∧
  (∀ (s : State) (r : Residency), s.me.wait = .wquiet → s.myRes = some r →
    (∀ c, r.full = some c → c < s.cycle → exec .wquietWake s = .next s.complete) ∧
    (r.full = none ∨ r.full = some s.cycle → exec .wquietWake s = .next s))

/-- R44: a tile's aggregator that holds units, and whose tile is quiet or whose sum is 2^48 or more or that has waited 4,096 cycles, sends
them to the root and is empty. -/
def Sys2Proof.Parts.AggregatorReturns : Prop :=
  ∀ (s : State) (a : Agg) (r : Residency), (s.tile s.cur.t).aggs.find? (fun x => x.resid == s.cur.n) = some a →
    s.liveRes s.cur.n = some r → a.sum ≠ 0 → (s.quietTile s.cur.t a.resid = true ∨ 2 ^ 48 ≤ a.sum ∨ a.last + 4096 ≤ s.cycle) →
    ∃ (t : State) (f : Flight), exec .aggregatorSend s = .next t ∧ t.net = s.net ++ [f] ∧ f.p.h.kind = 9 ∧ f.p.h.op = opReturn ∧
      f.p.h.dst = r.rootTile ∧ f.p.h.info = BitVec.ofNat 64 a.sum ∧
      (t.tile s.cur.t).aggs.find? (fun x => x.resid == s.cur.n) = some ⟨a.resid, 0, s.cycle⟩

/-- R39, R38: an idle worker begins a pass with its first victim, and rests 256 cycles when it has none; a victim answers with the top
record of its first deque that has one whose stores are performed, which leaves that deque, or with an empty answer; a thief that gets a
record starts it, and on an empty answer asks the next tile of its order, or rests 256 cycles after the last. -/
def Sys2Proof.Parts.StealEvents : Prop :=
  (∀ (s : State) (n : Nat) (r : Residency), s.me.run = .idle → s.me.resid = some n → s.liveRes n = some r → s.me.steal = .start →
    (∀ v, (s.victims r s.cur.t)[0]? = some v → ∃ (t : State) (f : Flight), exec .stealPassWait s = .next t ∧ t.net = s.net ++ [f] ∧
      f.p.h.kind = 7 ∧ f.p.h.dst = v ∧ t.me = { s.me with steal := .asking 0 }) ∧
    (s.victims r s.cur.t = [] → exec .stealPassWait s = .next (s.setMe { s.me with steal := .resting (s.cycle + 256) }))) ∧
  (∀ (s : State) (p : Packet) (r : Residency), s.arrived s.cur.t (fun p => p.h.kind == 7) = some p → s.liveRes p.h.resid = some r →
    let bare (k : Nat) : Prop := match (s.ctx k).deque with | x :: _ => x.waits ≠ [] | [] => (s.ctx k).ring.count = 0
    (∀ (l m : List Nat) (k : Nat) (x : Task) (rest : List Task), s.ctxsOf s.cur.t r = l ++ k :: m → (∀ j ∈ l, bare j) →
      (s.ctx k).deque = x :: rest → x.waits = [] →
      ∃ (t : State) (f : Flight), exec .stealRequest s = .next t ∧ t.net = s.net ++ [f] ∧ f.p.h.kind = 8 ∧ f.p.h.op = opRecord ∧
        f.p.h.dst = p.h.stile ∧ f.p.pay = [x.bits] ∧ t.ctx k = { s.ctx k with deque := rest }) ∧
    ((∀ j ∈ s.ctxsOf s.cur.t r, bare j) →
      ∃ (t : State) (f : Flight), exec .stealRequest s = .next t ∧ t.net = s.net ++ [f] ∧ f.p.h.kind = 8 ∧ f.p.h.op = opEmpty ∧
        f.p.h.dst = p.h.stile ∧ t.ctxs = s.ctxs) ∧
    (∀ (u : State) (x : Task), (s.takeArrived s.cur.t (fun p => p.h.kind == 7)).topOf (s.ctxsOf s.cur.t r) = .task u x →
      ∃ (t : State) (f : Flight), exec .stealRequest s = .next t ∧ t.net = u.net ++ [f] ∧ f.p.h.op = opRecord ∧
        f.p.h.dst = p.h.stile ∧ f.p.pay = [x.bits] ∧ t.ctxs = u.ctxs)) ∧
  (∀ (s : State) (p : Packet) (r : Residency), s.arrived s.cur.t (fun p => p.h.kind == 8) = some p → s.liveRes p.h.resid = some r →
    let k := p.h.info.toNat
    let u := s.takeArrived s.cur.t (fun p => p.h.kind == 8)
    k < 2 ^ 20 → (s.ctx k).resid = some r.num → (s.ctx k).run = .idle →
    (p.h.op = opRecord → exec .stealResponse s = .next (u.setCtx k ((s.ctx k).startTask (Task.ofBits (p.pay.headD 0))))) ∧
    (∀ pos, p.h.op = opEmpty → (s.ctx k).steal = .asking pos →
      ((s.victims r (k / 16))[pos + 1]? = none →
        exec .stealResponse s = .next (u.setCtx k { s.ctx k with steal := .resting (s.cycle + 256) })) ∧
      ∀ v, (s.victims r (k / 16))[pos + 1]? = some v → ∃ (t : State) (f : Flight), exec .stealResponse s = .next t ∧
        t.net = s.net ++ [f] ∧ f.p.h.kind = 7 ∧ f.p.h.dst = v ∧ t.ctx k = { s.ctx k with steal := .asking (pos + 1) }))

/-- R40: a message to an idle worker of a residency that has started starts its task there; one to a running context with room is pushed at
the bottom of its deque. -/
def Sys2Proof.Parts.MessageArrival : Prop :=
  ∀ (s : State) (p : Packet) (r : Residency), s.arrived s.cur.t (s.isMessage s.cur.t) = some p → p.h.op = opMessage →
    s.liveRes p.h.resid = some r → r.started = true → s.inResidency r (s.cur.t * 4 + p.h.dq) p.h.dfold = true →
    let k := (s.cur.t * 4 + p.h.dq) * 4 + r.banks.getD p.h.dfold 0
    let x := Task.ofBits (p.pay.headD 0)
    ((s.ctx k).run = .idle → exec .activeMessageArrival s =
      .next ((s.takeArrived s.cur.t (s.isMessage s.cur.t)).setCtx k ((s.ctx k).startTask x))) ∧
    ((s.ctx k).run = .live → (s.ctx k).deque.length < 64 → s.sched.spills = [] → exec .activeMessageArrival s =
      .next ((s.takeArrived s.cur.t (s.isMessage s.cur.t)).setCtx k { s.ctx k with deque := (s.ctx k).deque ++ [x] }))

namespace Sys2Proof.Claims

/-- The ports among endpoints, as source and as destination fields. -/
def portSrcs (l : List (BitVec 4)) : List Src := (l.filterMap epPort).map streamRd
def portOuts (l : List (BitVec 4)) : List (BitVec 5) := (l.filterMap epPort).map (BitVec.ofNat 5)

/-- The steering and fibre instructions: length in bytes, inputs, outputs, the registers whose addresses are to be aligned (R266, R267). -/
def streams (a b d e : BitVec 4) (l : BitVec 3) (x y z : BitVec 5) (t p : BitVec 2) (f : BitVec 1) :
    List (Instr × Nat × List (BitVec 4) × List (BitVec 4) × List (BitVec 5)) :=
  [(.steer d a b e l, 4, [a, b], [d, e], []), (.tee d a e l, 4, [a], [d, e], []), (.merge d a b e l, 4, [a, b, e], [d], []),
   (.fscan l a d x y z, 8, [a], [d], [x, y]), (.fisect l a b d, 8, [a, b], [d], []), (.funion l a b d, 8, [a, b], [d], []),
   (.frep l a b d, 8, [a, b], [d], []), (.fzip l a b d t p, 8, [a, b], [d], []), (.fload l a d f x z, 8, [a], [d], [x]),
   (.fred l a d t p, 8, [a], [d], []), (.fwrite l a d f x z, 8, [a], if d = 15#4 then [] else [d], [x])]

/-- The context runs a streaming instruction that meets no ERR. -/
def runs (s : State) (i : Instr) (r : StreamRun) : Prop := s.me.stream = some r ∧ r.instr = i ∧ r.drain = false

/-- A DATA word, and a word with a tag, stand at the head of an endpoint. -/
def headIs (s : State) (c : BitVec 4) (w : NetWord) : Prop := (s.epWords c).head? = some w

/-- A step pops endpoints, pushes words, and the instruction goes on. -/
def moved (s : State) (pops : List (BitVec 4)) (push : List (BitVec 4 × NetWord)) : State :=
  push.foldl (fun s x => s.epPush x.1 x.2) (pops.foldl State.epPop s)
def goesOn (s : State) (pops : List (BitVec 4)) (push : List (BitVec 4 × NetWord)) (r : StreamRun) : State :=
  ((moved s pops push).setMe { (moved s pops push).me with stream := some r }).used

/-- A step that sends an ERR token of the core to every output, after which the instruction drains its inputs (R80, R170, R171). -/
def raises (s : State) (r : StreamRun) (outs : List (BitVec 4)) (cause detail : Nat) : State :=
  let w : NetWord := ⟨BitVec.ofNat 256 (detail % 2 ^ 32 * 2 ^ 32 + s.cur.q * 2 ^ 20 + s.cur.t * 2 ^ 8 + cause), 0xA⟩
  goesOn { s with free := s.free + 1 } [] (outs.map fun c => (c, w)) { r with drain := true }

/-- What `fred` makes of the values of a fibre (R275), with its flags. -/
def reduced (p t : BitVec 2) (xs : List Nat) : FRes :=
  let v : List Int := xs.map (Claims.val t 32)
  if p = 0 then (if t = 2 then fSum fmtF32 (xs.map fmtF32.read) else (xs.sum % 2 ^ 32, 0))
  else if p = 3 then (if t = 2 then fmtF32.rne false (xs.length % 2 ^ 32) 0 else (xs.length % 2 ^ 32, 0))
  else if t = 2 then extremum fmtF32 (p == 1) xs
  else if p = 1 then ((v.foldl max (if t = 0 then -2 ^ 31 else 0) % 2 ^ 32).toNat, 0)
  else ((v.foldl min (if t = 0 then 2 ^ 31 - 1 else 2 ^ 32 - 1) % 2 ^ 32).toNat, 0)

/-- A step that reads a 32-bit word of an SRAM bank. -/
def readsAt (s : State) (e : W64) : Prop :=
  s.changing e 4 = false ∧ s.checkAccess s.me s.cur.t e 4 1 = none ∧ local_ s (fun _ => none) false (parts e 4) = true

/-- A coordinate is above the last one. -/
def above (prev : Option Nat) (c : Nat) : Prop := ∀ p, prev = some p → p < c

/-- The word that `tkpeek` gives (R263), and the condition of `btag` on a head (R265). -/
def peek (l : List NetWord) : W64 :=
  match l with
  | [] => 0x10
  | w :: _ => w.data.extractLsb' 0 32 ++ (0#28 ++ w.tag)
def tagHolds (c : Nat) (l : List NetWord) : Bool :=
  match l with
  | [] => false
  | w :: _ => (c < 12 && w.tag.toNat == c) || (c == 12 && 1 ≤ w.tag.toNat && w.tag.toNat ≤ 5) || (c == 13 && w.tag.toNat != 0)

end Sys2Proof.Claims

/-- R262, R169, R267: a steering or fibre instruction whose inputs all hold a word, whose outputs all accept a push and whose queues are the
residency's begins: its registers are read, it is the context's running instruction, and no word has moved yet. An address register that is
no multiple of 4 is the alignment fault. -/
def Sys2Proof.Parts.StreamStart : Prop :=
  ∀ (a b d e : BitVec 4) (l : BitVec 3) (x y z : BitVec 5) (t p : BitVec 2) (f : BitVec 1),
    ∀ i ∈ Claims.streams a b d e l x y z t p f, ∀ s : State, s.ready (Claims.portSrcs i.2.2.1) (Claims.portOuts i.2.2.2.1) = true →
    (∀ c ∈ i.2.2.1, s.epFault c = none ∧ s.epWords c ≠ []) → (∀ c ∈ i.2.2.2.1, s.epFault c = none ∧ s.epRoom c = true) →
    ((∀ r ∈ i.2.2.2.2, (s.me.s r.toNat).toNat % 4 = 0) →
      ∃ u v w : W64, exec i.1 s =
        .next ((s.setMe { s.me with stream := some { instr := i.1, len := i.2.1, x := u, y := v, z := w }, mid := true }).used) ∧
        (x ∈ i.2.2.2.2 → u = s.me.s x.toNat ∧ w = s.me.s z.toNat) ∧ (i.1 = .fscan l a d x y z → v = s.me.s y.toNat)) ∧
    (∀ r rs, i.2.2.2.2 = r :: rs → (s.me.s r.toNat).toNat % 4 ≠ 0 → exec i.1 s = .next (s.fault ⟨0x18, s.me.s r.toNat, 0⟩))

/-- R173 to R175, R168, R171: `steer` sends a data word to the arm its predicate word names, `merge` takes one from the arm its predicate
names, `tee` gives every word it may meet to both outputs as it stands, an end token of its level completing it; an ERR goes to every output in
the step that takes it in, and the instruction then drains its inputs. A step whose words find no room waits and pops nothing. -/
def Sys2Proof.Parts.SteeringSteps : Prop :=
  ∀ (s : State) (r : StreamRun) (a b d e : BitVec 4) (l : BitVec 3) (u v : W256),
    (Claims.runs s (.steer d a b e l) r → a ≠ b → Claims.headIs s a ⟨u, 0⟩ → Claims.headIs s b ⟨v, 0⟩ →
      let o := if v.getLsbD 0 then e else d
      s.epRoom o = true → exec .streamStep s = .next (Claims.goesOn s [a, b] [(o, ⟨u, 0⟩)] r)) ∧
    (Claims.runs s (.merge d a b e l) r →
      let i := if v.getLsbD 0 then e else b
      a ≠ i → Claims.headIs s a ⟨v, 0⟩ → Claims.headIs s i ⟨u, 0⟩ → s.epRoom d = true →
      exec .streamStep s = .next (Claims.goesOn s [a, i] [(d, ⟨u, 0⟩)] r)) ∧
    (Claims.runs s (.tee d a e l) r → s.epRoom d = true → s.epRoom e = true →
      (Claims.headIs s a ⟨u, 0⟩ → exec .streamStep s = .next (Claims.goesOn s [a] [(d, ⟨u, 0⟩), (e, ⟨u, 0⟩)] r)) ∧
      (Claims.headIs s a ⟨u, 0xB⟩ → exec .streamStep s = .next (Claims.goesOn s [a] [(d, ⟨u, 0xB⟩), (e, ⟨u, 0xB⟩)] r)) ∧
      (∀ k (w : NetWord), k < 5 → l.toNat ≤ k → w = ⟨u, BitVec.ofNat 4 (k + 1)⟩ ∨ (k = 4 ∧ w = ⟨u, 6⟩) → Claims.headIs s a w →
        let m := (Claims.moved s [a] [(d, w), (e, w)]).flags r.flags
        exec .streamStep s = .next ((m.setMe { m.me.retire r.len with stream := none }).used)) ∧
      (Claims.headIs s a ⟨u, 0xA⟩ →
        exec .streamStep s = .next (Claims.goesOn s [a] [(d, ⟨u, 0xA⟩), (e, ⟨u, 0xA⟩)] { r with drain := true }))) ∧
    (Claims.runs s (.tee d a e l) r → s.epRoom d = false ∨ s.epRoom e = false → ∀ w : NetWord, w.tag.toNat < 7 ∨ w.tag = 0xA ∨ w.tag = 0xB →
      Claims.headIs s a w → exec .streamStep s = .next s)

/-- R271 to R273, R172: `fisect` pairs elements of one coordinate and drops the others; `funion` passes those with 0xFFFFFFFF for the missing
reference; `frep` repeats its second input's element, and takes that and the stop behind it with a stop of its first in one step; `fzip` combines
the values; a coordinate that does not rise is an ERR of cause 0x22, and stops of two levels one of cause 0x20. -/
def Sys2Proof.Parts.JoinSteps : Prop :=
  ∀ (s : State) (r : StreamRun) (a b d : BitVec 4) (l : BitVec 3) (t p : BitVec 2) (u v : W256), a ≠ b →
    (Claims.headIs s a ⟨u, 0⟩ → Claims.headIs s b ⟨v, 0⟩ → s.epRoom d = true →
      (Claims.runs s (.fisect l a b d) r ∨ Claims.runs s (.funion l a b d) r → crd u = crd v → Claims.above r.prevA (crd u) →
        Claims.above r.prevB (crd v) → exec .streamStep s = .next (Claims.goesOn s [a, b]
          [(d, element (crd u) (ref0 u) (ref0 v) (val u))] { r with prevA := some (crd u), prevB := some (crd v) })) ∧
      (Claims.runs s (.fisect l a b d) r → crd u < crd v → Claims.above r.prevA (crd u) →
        exec .streamStep s = .next (Claims.goesOn s [a] [] { r with prevA := some (crd u) })) ∧
      (Claims.runs s (.fisect l a b d) r → crd v < crd u → Claims.above r.prevB (crd v) →
        exec .streamStep s = .next (Claims.goesOn s [b] [] { r with prevB := some (crd v) })) ∧
      (Claims.runs s (.funion l a b d) r → crd u < crd v → Claims.above r.prevA (crd u) →
        exec .streamStep s = .next (Claims.goesOn s [a] [(d, element (crd u) (ref0 u) 0xFFFFFFFF (val u))]
          { r with prevA := some (crd u) })) ∧
      (Claims.runs s (.funion l a b d) r → crd v < crd u → Claims.above r.prevB (crd v) →
        exec .streamStep s = .next (Claims.goesOn s [b] [(d, element (crd v) 0xFFFFFFFF (ref0 v) (val v))]
          { r with prevB := some (crd v) })) ∧
      (Claims.runs s (.fisect l a b d) r → crd u ≤ crd v → (∃ c, r.prevA = some c ∧ crd u ≤ c) →
        exec .streamStep s = .next (Claims.raises s r [d] 0x22 (crd u))) ∧
      (Claims.runs s (.frep l a b d) r → exec .streamStep s = .next (Claims.goesOn s [a]
        [(d, element (crd u) (ref0 u) (ref0 v) (val v))] { r with isOpen := true })) ∧
      (Claims.runs s (.fzip l a b d t p) r →
        let x := if p = 0 then (val u, 0) else if p = 1 then (val v, 0)
          else if t = 2 then (if p = 2 then fAdd fmtF32 (fmtF32.read (val u)) (fmtF32.read (val v))
            else fMul fmtF32 (fmtF32.read (val u)) (fmtF32.read (val v)))
          else (if p = 2 then val u + val v else val u * val v, 0)
        exec .streamStep s = .next (Claims.goesOn s [a, b] [(d, element (crd u) (ref0 u) (ref0 v) x.1)]
          { r with flags := r.flags ||| x.2 }))) ∧
    (∀ k, 0 < k → k < 4 → k < l.toNat → Claims.runs s (.frep l a b d) r → r.phase = 0 → s.epRoom d = true →
      Claims.headIs s a ⟨u, BitVec.ofNat 4 (k + 1)⟩ → Claims.headIs s b ⟨v, 0⟩ →
      ((s.epWords b).length = 1 → exec .streamStep s = .next s) ∧
      ((s.epWords b)[1]? = some ⟨u, BitVec.ofNat 4 k⟩ → exec .streamStep s = .next (Claims.goesOn s [b, b, a]
        [(d, ⟨0, BitVec.ofNat 4 (k + 1)⟩)] { r with isOpen := false, top := max (max r.top (k - 1)) k }))) ∧
    (Claims.runs s (.fisect l a b d) r → ∀ j k, j < 5 → k < 5 → j ≠ k → Claims.headIs s a ⟨u, BitVec.ofNat 4 (j + 1)⟩ →
      Claims.headIs s b ⟨v, BitVec.ofNat 4 (k + 1)⟩ →
      exec .streamStep s = .next (if s.epRoom d = true then Claims.raises s r [d] 0x20 (j + 16 * k) else s))

/-- R270, R274, R275: `fscan` reads the segment of a reference, then gives each coordinate of it as an element, and closes it with a stop;
`fload` reads the word that the reference names and gives it as the element's value; `fwrite` stores the value there; `fred` closes a fibre
with one element that holds the count and the sum, largest, smallest or number of its values, for every type, and then lowers the stop by one
level. A reference past the limit is an ERR of cause 0x23. Nothing is read while the output is full. -/
def Sys2Proof.Parts.FibreSteps : Prop :=
  ∀ (s : State) (r : StreamRun) (a d : BitVec 4) (l : BitVec 3) (x y z : BitVec 5) (f : BitVec 1) (t p : BitVec 2) (u : W256),
    (Claims.headIs s a ⟨u, 0⟩ →
      (Claims.runs s (.fscan l a d x y z) r →
        let seg := r.x + BitVec.ofNat 64 (4 * ref0 u)
        let nxt := r.x + BitVec.ofNat 64 (4 * (ref0 u + 1))
        let cor := r.y + BitVec.ofNat 64 (4 * r.lo)
        (r.phase = 0 → r.z.toNat ≤ ref0 u → s.epRoom d = true → exec .streamStep s = .next (Claims.raises s r [d] 0x23 (ref0 u))) ∧
        (r.phase = 0 → s.epRoom d = false → exec .streamStep s = .next s) ∧
        (r.phase = 0 → ref0 u < r.z.toNat → s.epRoom d = true → Claims.readsAt s seg → exec .streamStep s =
          .next (Claims.goesOn s [] [] { r with phase := 1, mem := some (some (Claims.bytes s seg 4)) })) ∧
        (∀ v, r.phase = 1 → r.mem = some (some v) → s.epRoom d = true → Claims.readsAt s nxt → exec .streamStep s =
          .next (Claims.goesOn s [] [] (if v ≤ Claims.bytes s nxt 4 then { r with lo := v, hi := Claims.bytes s nxt 4, phase := 3, mem := none }
            else { r with lo := v, phase := 2, mem := some (some (Claims.bytes s nxt 4)) }))) ∧
        (∀ v, r.phase = 2 → r.mem = some (some v) → r.lo ≤ v → exec .streamStep s =
          .next (Claims.goesOn s [] [] { r with hi := v, phase := 3, mem := none })) ∧
        (r.phase = 3 → r.mem = none → r.lo < r.hi → s.epRoom d = true → Claims.readsAt s cor → exec .streamStep s =
          .next (Claims.goesOn s [] [(d, element (Claims.bytes s cor 4) r.lo (ref0 u) (val u))] { r with lo := r.lo + 1, mem := none })) ∧
        (∀ v, r.phase = 3 → r.mem = some (some v) → s.epRoom d = true → exec .streamStep s =
          .next (Claims.goesOn s [] [(d, element v r.lo (ref0 u) (val u))] { r with lo := r.lo + 1, mem := none })) ∧
        (r.phase = 3 → r.mem = none → r.hi ≤ r.lo → exec .streamStep s =
          .next (Claims.goesOn s [a] [] { r with phase := 4 })) ∧
        (r.phase = 4 → s.epRoom d = true → exec .streamStep s =
          .next (Claims.goesOn s [] [(d, ⟨0, 1⟩)] { r with phase := 0 }))) ∧
      (let i := if f = 1 then ref1 u else ref0 u
       let e := r.x + BitVec.ofNat 64 (4 * i)
       (Claims.runs s (.fload l a d f x z) r →
        (r.z.toNat ≤ i → s.epRoom d = true → exec .streamStep s = .next (Claims.raises s r [d] 0x23 i)) ∧
        (s.epRoom d = false → exec .streamStep s = .next s) ∧
        (i < r.z.toNat → r.mem = none ∨ r.lo ≠ i → s.epRoom d = true → Claims.readsAt s e → exec .streamStep s =
          .next (Claims.goesOn s [a] [(d, element (crd u) (ref0 u) (ref1 u) (Claims.bytes s e 4))] { r with lo := i, mem := none })) ∧
        (∀ v, i < r.z.toNat → r.lo = i → r.mem = some (some v) → s.epRoom d = true → exec .streamStep s =
          .next (Claims.goesOn s [a] [(d, element (crd u) (ref0 u) (ref1 u) v)] { r with mem := none }))) ∧
       (Claims.runs s (.fwrite l a d f x z) r → s.memOk = true → i < r.z.toNat → r.mem = none →
        s.changing e 4 = false → s.checkAccess s.me s.cur.t e 4 1 = none → Claims.local_ s (fun _ => none) true (parts e 4) = true →
        ∃ m : State, exec .streamStep s = .next
            (Claims.goesOn ({ s with mem := m.mem, badSectors := m.badSectors, badWords := m.badWords } : State) [a] [] r) ∧
          Claims.stored s m e 4 (val u))) ∧
      (Claims.runs s (.fred l a d t p) r → exec .streamStep s =
        .next (Claims.goesOn s [a] [] { r with isOpen := true, vals := r.vals ++ [val u] }))) ∧
    (∀ k, k < 5 → Claims.headIs s a ⟨u, BitVec.ofNat 4 (k + 1)⟩ → Claims.runs s (.fred l a d t p) r →
      let v := Claims.reduced p t r.vals
      (r.phase = 0 → k = 0 → k < l.toNat → s.epRoom d = true →
        exec .streamStep s = .next (Claims.goesOn s [a] [(d, element r.vals.length 0 0 v.1)]
          { r with isOpen := false, vals := [], flags := r.flags ||| v.2 })) ∧
      (r.phase = 0 → 0 < k → k < 4 ∨ r.isOpen = true → s.epRoom d = true →
        exec .streamStep s = .next (Claims.goesOn s [] [(d, element r.vals.length 0 0 v.1)]
          { r with phase := 1, isOpen := false, vals := [], flags := r.flags ||| v.2 })) ∧
      (r.phase = 1 → k < l.toNat → s.epRoom d = true →
        exec .streamStep s = .next (Claims.goesOn s [a] (if k = 0 then [] else [(d, ⟨0, if k = 4 then 5 else BitVec.ofNat 4 k⟩)])
          { r with phase := 0, top := max r.top k })))

/-- R263 to R265: `tkpeek` looks at a head, `tkpop` and `tkpopv` take it whatever its tag, `tksend` and `tksendv` push a word with the tag
given, at ports and at queues; `btag` goes to its target when the head's tag meets the condition, or for the condition "empty" when the FIFO
held no word as the cycle began. -/
def Sys2Proof.Parts.TokenOps : Prop :=
  ∀ (s : State) (d a : BitVec 5) (q : BitVec 3) (t c : BitVec 4),
    let b := s.bank s.cur.t q.toNat
    let own := b.pending = [] ∧ s.queueFault s.cur.t (s.me.resid.getD 0) q.toNat = none
    let branch (n : List Src) (l : List NetWord) (held : Bool) : State :=
      let g := s.me.s d.toNat
      if (if c = 15 then held else !Claims.tagHolds c.toNat l) then s.finish 4 n
      else if s.me.code.base ≤ g.toNat ∧ g.toNat < s.me.code.base + s.me.code.size ∧ g.toNat % 4 = 0 then s.finishAt 4 n g
      else s.fault ⟨0x03, g, 0⟩
    (s.ready [lookAt a false] [d] = true → exec (.tkpeek d a) s =
      .next ((s.put d (Claims.peek (s.portIn a.toNat))).finish 4 [lookAt a false])) ∧
    (s.ready [rawRd a] [d] = true →
      exec (.tkpop d a) s = .next ((s.put d (s.src [rawRd a] 0)).finish 4 [rawRd a]) ∧
      exec (.tkpopv d a) s = .next ((s.putV d (s.operand [rawRd a] (fun _ => true) 0)).finish 4 [rawRd a]) ∧
      exec (.tksend d a t) s = .next ((s.pushPort d.toNat ⟨(s.src [rawRd a] 0).setWidth 256, t⟩).finish 4 [rawRd a]) ∧
      exec (.tksendv d a t) s = .next ((s.pushPort d.toNat ⟨s.operand [rawRd a] (fun _ => true) 0, t⟩).finish 4 [rawRd a])) ∧
    (s.ready [] [d] = true → own →
      exec (.tkpeekQ d q) s = .next ((s.put d (Claims.peek b.queue)).finish 4 []) ∧
      (∀ w r, b.queue = w :: r →
        let s' := s.setBank s.cur.t q.toNat { b with queue := r }
        exec (.tkpopQ d q) s = .next ((s'.put d (w.data.setWidth 64)).finish 4 []) ∧
        exec (.tkpopvQ d q) s = .next ((s'.putV d w.data).finish 4 []))) ∧
    (s.ready [rawRd a] [] = true → own → s.queueRoom q.toNat = true →
      exec (.tksendQ q a t) s = .next ((s.setBank s.cur.t q.toNat
        (b.push ⟨(s.src [rawRd a] 0).setWidth 256, t⟩)).finish 4 [rawRd a]) ∧
      exec (.tksendvQ q a t) s = .next ((s.setBank s.cur.t q.toNat
        (b.push ⟨s.operand [rawRd a] (fun _ => true) 0, t⟩)).finish 4 [rawRd a])) ∧
    (s.ready [lookAt a (c != 15#4)] [] = true → exec (.btag d a c) s = .next (branch [lookAt a (c != 15#4)] (s.portIn a.toNat)
      (if a = 31 then s.atStart.contains (2 * (4 * s.cur.tb + s.cur.q)) else s.portIn a.toNat != []))) ∧
    (s.ready [] [] = true → own → b.queue ≠ [] ∨ c = 15 → exec (.btagQ d q c) s =
      .next (branch [] b.queue (s.atStart.contains (2 * (8 * s.cur.t + q.toNat) + 1))))

/-- A template of the tile whose turn it is with one firing more, behind those fired on the tile before it, and the writes it waits for
(R152, R156). -/
def Sys2Proof.Claims.firing (s : State) (n : Nat) (x : Template) (waits : List Nat) : State :=
  let y := s.tile s.cur.t
  s.setTile s.cur.t { y with
    templates := y.templates.set n { x with fires := x.fires ++ [(y.copyAge, waits)] }, copyAge := y.copyAge + 1 }

/-- R154, R155, R157, R158, R286: `carm` of the residency's own idle template with a descriptor that passes the checks arms it; `cfire` adds a
firing; `cdis` disarms an idle template at once and waits for an active copy; `cstat` reads the counts and the last cause; another
residency's template is cause 0x20, a descriptor not 64-byte aligned cause 0x18, `cfire` of a template not armed cause 0x21. -/
def Sys2Proof.Parts.CopyInstructions : Prop :=
  ∀ (s : State) (a : BitVec 5) (n : BitVec 4),
    let x := s.tmpl n.toNat
    let e := s.src [rd a] 0
    let i : W64 := n.setWidth 64
    (s.ownsTemplate n.toNat = false →
      (s.ready [rd a] [] = true → exec (.carm a n) s = .next (s.fault ⟨0x20, 0, i⟩)) ∧
      (s.ready [] [] = true → exec (.cfire n) s = .next (s.fault ⟨0x20, 0, i⟩) ∧ exec (.cdis n) s = .next (s.fault ⟨0x20, 0, i⟩)) ∧
      (s.ready [] [a] = true → exec (.cstat a n) s = .next (s.fault ⟨0x20, 0, i⟩))) ∧
    (s.ownsTemplate n.toNat = true →
      (s.ready [rd a] [] = true → e.toNat % 64 ≠ 0 → exec (.carm a n) s = .next (s.fault ⟨0x18, e, 0⟩)) ∧
      (s.ready [rd a] [] = true → e.toNat % 64 = 0 → s.changing e 64 = false → s.checkAccess s.me s.cur.t e 64 1 = none →
        Claims.local_ s (fun _ => none) false (parts e 64) = true → x.active = none → x.fires = [] →
        let D := BitVec.ofNat 512 (Claims.bytes s e 64)
        (∀ c, s.checkDesc s.me s.cur.t (s.me.resid.getD 0) n.toNat D = some c → exec (.carm a n) s = .next (s.fault c)) ∧
        (s.checkDesc s.me s.cur.t (s.me.resid.getD 0) n.toNat D = none → exec (.carm a n) s = .next ((s.setTmpl n.toNat
          { x with arm := ⟨some D, s.cur.ctx, true, s.releaseSet s.cur.ctx 1⟩, cause := 0, dropped := 0 }).finish 8 [rd a]))) ∧
      (s.ready [] [] = true →
        (x.arm.desc = none → exec (.cfire n) s = .next (s.fault ⟨0x21, 0, i⟩) ∧ exec (.cdis n) s = .next (s.finish 8 [])) ∧
        (x.arm.desc ≠ none → x.fires.length < 255 →
          exec (.cfire n) s = .next ((Claims.firing s n.toNat x (s.releaseSet s.cur.ctx 1)).finish 8 [])) ∧
        (x.arm.desc ≠ none → 255 ≤ x.fires.length → exec (.cfire n) s = .next s) ∧
        (x.arm.desc ≠ none → x.active = none → exec (.cdis n) s = .next ((s.setTmpl n.toNat
          { x with arm := {}, fires := [], disarm := false }).finish 8 [])) ∧
        (x.arm.desc ≠ none → x.active ≠ none → exec (.cdis n) s = .next (((s.setTmpl n.toNat
          { x with fires := [], disarm := true }).setMe
            { s.me with wait := .cdis n.toNat, heldLen := 8, heldIns := [], mid := false }).used))) ∧
      (s.ready [] [a] = true → ∃ v : W64, exec (.cstat a n) s = .next ((s.put a v).finish 8 []) ∧
        v.extractLsb' 0 32 = x.completed ∧ v.extractLsb' 32 16 = x.dropped ∧ v.extractLsb' 48 8 = BitVec.ofNat 8 x.fires.length ∧
        v.extractLsb' 56 8 = x.cause))

/-- R156: a DATA or DONE word at the head of a trigger queue adds a firing, another word is dropped and counted; an idle template begins its
oldest firing when what it waits for is performed; the stream port issues an element of the template whose turn it is, with the following
elements of the same sector, as many as a word holds (R94): their bytes in an SRAM bank are read. -/
def Sys2Proof.Parts.CopyFiring : Prop :=
  ∀ (s : State) (d : Desc),
    let n := s.cur.n
    let x := s.tmpl n
    let r := s.templateRes s.cur.t n
    x.arm.desc = some d →
    (∀ (q : Nat) (w : NetWord) (l : List NetWord), d.trigger = some q → x.disarm = false → x.fires.length < 255 →
      s.queueFault s.cur.t r q = none → (s.bank s.cur.t q).pending = [] → (s.bank s.cur.t q).queue = w :: l →
      let u := s.setBank s.cur.t q { s.bank s.cur.t q with queue := l }
      exec .triggerPop s = .next (if w.tag = 0 ∨ w.tag = 0xB then Claims.firing u n x []
        else u.setTmpl n { x with dropped := if x.dropped = 0xFFFF then 0xFFFF else x.dropped + 1 })) ∧
    (∀ age fs, x.fires = (age, []) :: fs → x.active = none → x.arm.waits = [] →
      exec .copyStart s = .next (s.setTmpl n { x with fires := fs, active := some { age := age } })) ∧
    (∀ (c : Copy) (key : Nat), n < 16 → n = ((s.tile s.cur.t).copyLast + 1) % 16 → x.active = some c → c.stopped = false → c.issue < d.total →
      c.hasSlack d = true → d.srcKind = 0 → d.indexed = false → d.bytes ≤ 32 →
      s.copySpot x r (d.srcAddr c.issue 0) d.bytes false = .home s (.sram key) → s.badAt key d.bytes = false →
      let inSector (i : Nat) : Prop := (d.srcAddr i 0).toNat / 32 = (d.srcAddr c.issue 0).toNat / 32
      ∃ t k, exec .copyElementIssue s = .next t ∧ t.mem = s.mem ∧ t.net = s.net ∧ 0 < k ∧ k ≤ 32 / d.bytes ∧
        (∀ i, i < k → c.issue + i < d.total ∧ inSector (c.issue + i)) ∧
        (k = 32 / d.bytes ∨ d.total ≤ c.issue + k ∨ ¬ inSector (c.issue + k)) ∧
        t.tmpl n = { x with active := some { c with
          issue := c.issue + k
          reads := c.reads ++ (List.range k).map fun i => ⟨c.issue + i, none, d.srcAddr (c.issue + i) 0,
            some (.data (cutSector (s.readSector key) ((d.srcAddr (c.issue + i) 0).toNat % 32) d.bytes))⟩ } })

/-- R152, R159, R160, R163: the oldest element of a copy, when the next one belongs to another sector, goes to its destination address in an
SRAM bank, whose other bytes stay; two halves of one sector go there in one write (R94); a read
response reaches its element first; a closed copy whose words are pushed and whose writes are performed completes, is counted, and arrives at
its barrier, with an error when it failed. -/
def Sys2Proof.Parts.CopyDelivery : Prop :=
  ∀ (s : State) (d : Desc) (c : Copy),
    let n := s.cur.n
    let x := s.tmpl n
    let r := s.templateRes s.cur.t n
    x.arm.desc = some d → x.active = some c →
    (∀ (y : CopyRd) (l : List CopyRd) (v key : Nat), s.arrived s.cur.t (s.isCopyRead s.cur.t) = none → c.reads = y :: l →
      y.got = some (.data v) → d.dstKind = 0 → winOf y.addr ≠ some .global → c.issue < d.total → c.stopped = false →
      d.bytes ≤ 32 → d.bytes = 32 ∨ (d.dstAddr y.ord).toNat / 32 ≠ (d.dstAddr (y.ord + 1)).toNat / 32 → (∀ z ∈ l.head?, z.ord = y.ord + 1) →
      s.copySpot x r (d.dstAddr y.ord) d.bytes true = .home s (.sram key) →
      let o := (d.dstAddr y.ord).toNat % 32
      exec .copyReadReturn s = .next ((s.writeSector key (byteMask o d.bytes) (placed v o)).setTmpl n
        { x with active := some { c with reads := l } })) ∧
    (∀ (y z : CopyRd) (l : List CopyRd) (v w key : Nat), s.arrived s.cur.t (s.isCopyRead s.cur.t) = none → c.reads = y :: z :: l →
      y.got = some (.data v) → z.got = some (.data w) → z.ord = y.ord + 1 → d.dstKind = 0 → winOf y.addr ≠ some .global →
      winOf z.addr ≠ some .global → c.issue < d.total → c.stopped = false → d.bytes = 16 → (d.dstAddr y.ord).toNat % 32 = 0 →
      d.dstAddr z.ord = d.dstAddr y.ord + 16 → v < 2 ^ 128 → s.copySpot x r (d.dstAddr y.ord) 16 true = .home s (.sram key) →
      exec .copyReadReturn s = .next ((s.writeSector key (BitVec.allOnes 32) (BitVec.ofNat 256 (v + w * 2 ^ 128))).setTmpl n
        { x with active := some { c with reads := l } })) ∧
    (∀ (p : Packet) (y : CopyRd) (m : NetWord), s.arrived s.cur.t (s.isCopyRead s.cur.t) = some p → p.h.kind = 3 →
      s.copyTxn s.cur.t p.h.tid = some (n, y.ord) → c.reads = [y] → y.tid = some p.h.tid → y.got = none → d.dstKind = 1 →
      c.pack = [] → d.bytes = 32 → d.total = 1 → c.issue = 1 → c.words = [] → c.closed = false →
      c.fail = none → (winOf y.addr ≠ some .global) → y.ord = 0 → (s.bank s.cur.t ((d.dword 1).toNat % 8)).pushTo = .blocked →
      s.queueFault s.cur.t r ((d.dword 1).toNat % 8) = none →
      m = ⟨BitVec.ofNat 256 (cutSector (p.pay.headD 0) (y.addr.toNat % 32) 32), 0⟩ →
      ∃ t, exec .copyReadReturn s = .next t ∧ t.mem = s.mem ∧ (t.tmpl n).active = some { c with
        reads := [], closed := true, words := [m, eotWord d.sid n] }) ∧
    (c.closed = true → c.words = [] → c.writes = [] → x.disarm = false → c.digest = [] → ∀ name, d.barrier = some name →
      (c.fail = none → c.skipped = none → exec .copyComplete s =
        .next ((s.setTmpl n { x with active := none, completed := x.completed + 1 }).engineArrive s.cur.t r name false)) ∧
      (∀ e, c.fail = some e → exec .copyComplete s = .next ((s.setTmpl n { x with
        active := none, completed := x.completed + 1, cause := BitVec.ofNat 8 e.cause }).engineArrive s.cur.t r name true)))

/-- R85: a FLIP at the stream port waits while the shadow is LOADING; with an EMPTY shadow it is a stray word at once; with a READY one it
exchanges the bank's templates with their shadow once every copy already fired has completed, and waits while one is left. -/
def Sys2Proof.Parts.StreamPortFlip : Prop :=
  ∀ s : State,
    let x := s.tile s.cur.t
    let y := { x with flips := x.flips.filter fun e => e.1 != s.cur.b }
    let shadow := (s.xbar (s.cur.t * 4 + s.cur.b)).shadow
    (x.flips.any fun e => e.1 == s.cur.b) = true →
    (shadow = .loading → exec .flipAtStreamPort s = .next s) ∧
    (shadow = .empty → exec .flipAtStreamPort s = .next ((s.setTile s.cur.t y).countStray s.cur.t s.cur.b 8)) ∧
    (shadow = .ready → s.firedDone s.cur.t s.cur.b = false → exec .flipAtStreamPort s = .next s) ∧
    (shadow = .ready → s.firedDone s.cur.t s.cur.b = true → exec .flipAtStreamPort s = .next (s.setTile s.cur.t { y with
      templates := y.templates.map fun e =>
        if e.2.owner = some s.cur.b then (e.1, { e.2 with arm := e.2.shadow, shadow := e.2.arm }) else e }))

namespace Sys2Proof.Claims

/-- A residency that is neither captured nor replayed (R390, R391). -/
def noReplay (s : State) (r : Nat) : Prop :=
  ∀ x, s.findRes r = some x → x.replay = none ∧ (x.capture = none ∨ s.mgmt.captures = [])

/-- The element byte at row `k` and column `j` of an I8 source of a `wload`, whose rows are two sectors each. -/
def sourceByte (ws : List W256) (k j : Nat) : BitVec 8 := (ws.getD (2 * k + j / 32) 0).extractLsb' (8 * (j % 32)) 8

/-- A request waits in a group of its slot, with what the group melds by (R146). -/
def grouped (s t : State) (q : MReq) : Prop :=
  ∃ g ∈ (t.node s.cur.t).groups, q ∈ g.members ∧ g.slot = q.slot ∧ g.gen = q.gen ∧ g.af = MTok.af q.tok ∧ g.d = MTok.d q.tok ∧
    q.gen = ((s.node s.cur.t).slot q.slot).gen ∧ q.admitted = s.cycle

end Sys2Proof.Claims

/-- R132, R280: a `wload` of slots that the residency owns, with an aligned base and pitch and a place in the buffer, is admitted, counts its
slots' generations up and completes; the faults of its fields. -/
def Sys2Proof.Parts.WeightLoadIssue : Prop :=
  ∀ (s : State) (a b c : BitVec 5) (f : BitVec 2) (v : BitVec 1) (n : BitVec 3), s.ready [] [] = true →
    let bar := if v = 1 then some (s.me.s c.toNat) else none
    let x := s.node s.cur.t
    (f ≠ 0 → n.toNat % 2 = 1 → exec (.wload a b c f v n) s = .next (s.fault ⟨0x24, 0, 0x33⟩)) ∧
    (f = 0 → s.ownsSlot s.cur.t (s.me.resid.getD 0) n.toNat = false → exec (.wload a b c f v n) s = .next (s.fault ⟨0x24, 0, 0x32⟩)) ∧
    (f = 0 → s.ownsSlot s.cur.t (s.me.resid.getD 0) n.toNat = true → (s.me.s a.toNat).toNat % 32 ≠ 0 →
      exec (.wload a b c f v n) s = .next (s.fault ⟨0x18, s.me.s a.toNat, 0⟩)) ∧
    (s.wloadFault (s.me.s a.toNat) (s.me.s b.toNat) bar f.toNat n.toNat = none →
      (x.hasEntry = false → exec (.wload a b c f v n) s = .next s) ∧
      (x.hasEntry = true → ∃ (t : State) (w : WReq), exec (.wload a b c f v n) s = .next t ∧ t.mem = s.mem ∧
        t.me = { s.me.retire 8 with reqSeq := s.me.reqSeq + 1 } ∧
        (t.node s.cur.t).wloads = x.wloads ++ [w] ∧ w.slot = n.toNat ∧ w.f = f.toNat ∧ w.base = s.me.s a.toNat ∧
        w.pitch = (s.me.s b.toNat).toNat ∧ w.key = s.cur.ctx ∧ n.toNat ∈ w.slots ∧
        (∀ k ∈ w.slots, ((t.node s.cur.t).slot k).gen = ((x.slot k).gen + 1) % 2 ^ 16) ∧
        ∀ k, k ∉ w.slots → (t.node s.cur.t).slot k = x.slot k))

/-- R132, R123, R136, R280: a `wload` of I8 weights whose turn has come and whose fetch has all its sectors writes the cells of its slot
from them, row by row, and no other byte of memory; while a sector has not come yet it keeps the sectors it has and writes nothing; one whose
source cannot be read leaves the cells and sends its context a record of cause 0x38. -/
def Sys2Proof.Parts.WeightLoadWrite : Prop :=
  ∀ (s : State) (w : WReq), (s.node s.cur.t).wloads.find? (fun w => w.id == s.cur.n) = some w →
    (s.node s.cur.t).loadReady w s.cycle = true →
    let y := s.nodeFetch s.cur.t w.resid w.key w.id w.sectors w.reads
    (∀ ws, s.memOk = true → w.f = 0 → w.slot ∈ w.slots → fetchOutcome w.sectors.length y.1 = .all ws →
      ∃ t, exec .wloadWrite s = .next t ∧ ((t.node s.cur.t).slot w.slot).fmt = .i8 ∧
        (∀ k j, k < 64 → j < 64 → Memory.read t.mem (weightKey s.cur.t w.slot k j) = Claims.sourceByte ws k j) ∧
        ∀ a, (∀ k j, k < 64 → j < 64 → a ≠ weightKey s.cur.t w.slot k j) → Memory.read t.mem a = Memory.read s.mem a) ∧
    (fetchOutcome w.sectors.length y.1 = .wait → ∃ t, exec .wloadWrite s = .next t ∧ t.mem = s.mem ∧
      (t.node s.cur.t).slots = (s.node s.cur.t).slots ∧
      (t.node s.cur.t).wloads = (s.node s.cur.t).wloads.map fun v => if v.id = w.id then { v with reads := y.1 } else v) ∧
    (∀ a, fetchOutcome w.sectors.length y.1 = .bad a → ∃ t, exec .wloadWrite s = .next t ∧ t.mem = s.mem ∧
      (t.node s.cur.t).slots = (s.node s.cur.t).slots ∧
      ((s.liveRes w.resid).isSome = true → w.bar = none →
        t.sched.asyncs = s.sched.asyncs ++ [(w.key, ⟨4, BitVec.ofNat 32 (a.toNat % 2 ^ 32), 0x38, a⟩)]))

/-- R133, R281: `wexport` of a slot that the residency owns and that is no high half gives a handle of this tile and slot with a key not
issued for the slot before, and records PRIO and HOLD; `wexport.rv` makes the key invalid; a slot that is not owned is cause 0x24 with 0x32,
a high half 0x33. -/
def Sys2Proof.Parts.WeightExports : Prop :=
  ∀ (s : State) (a : BitVec 5) (n : BitVec 3),
    let x := s.node s.cur.t
    let y := x.slot n.toNat
    let own := s.ownsSlot s.cur.t (s.me.resid.getD 0) n.toNat
    (s.ready [] [a] = true →
      (own = false → exec (.wexport a n) s = .next (s.fault ⟨0x24, 0, 0x32⟩)) ∧
      (own = true → x.pendFmt n.toNat = .hi → exec (.wexport a n) s = .next (s.fault ⟨0x24, 0, 0x33⟩)) ∧
      (own = true → x.pendFmt n.toNat ≠ .hi → y.issued.length < 2 ^ 32 - 1 → ∃ k : BitVec 32, k ≠ 0 ∧ k ∉ y.issued ∧
        exec (.wexport a n) s = .next (((({ s with free := s.free + 1 } : State).setNode s.cur.t (x.setSlot n.toNat { y with
          expValid := true, expKey := k, expLim := s.me.prio.toNat, expHold := s.me.hold.toNat, issued := k :: y.issued })).put a
            (BitVec.ofNat 64 (s.cur.t * 2 ^ 52 + n.toNat * 2 ^ 32 + k.toNat))).finish 8 []))) ∧
    (s.ready [] [] = true →
      (own = false → exec (.wexportRv n) s = .next (s.fault ⟨0x24, 0, 0x32⟩)) ∧
      (own = true → x.pendFmt n.toNat ≠ .hi → exec (.wexportRv n) s = .next
        ((s.setNode s.cur.t (x.setSlot n.toNat { y with expValid := false })).finish 8 [])))

/-- R135, R137, R145, R146, R282, R283: `mmq` by slot number builds its token, its priority lowered to PRIO, and with a place in the buffer is
admitted to a group; without one it waits; a token that fails a check is cause 0x24 with the check's cause, a misaligned A address
cause 0x18. -/
def Sys2Proof.Parts.MatrixRequests : Prop :=
  ∀ (s : State) (a b c d : BitVec 5) (f v : BitVec 1) (k : BitVec 28), s.ready [] [] = true →
    let tok := s.me.mmqToken a b c d 0 f v k
    let bar := if v = 1 then some (s.me.s d.toNat) else none
    (∀ i, i < 28 → i ≠ 21 → i ≠ 22 → tok.getLsbD (224 + i) = k.getLsbD i) ∧
    MTok.prio tok = min (k.extractLsb' 21 2).toNat s.me.prio.toNat ∧ MTok.isHandle tok = false ∧ MTok.slot tok = a.toNat % 8 ∧
    (∀ e, s.mCheck s.cur.t (s.me.resid.getD 0) false tok = some e →
      exec (.mmq a b c d 0 f v k) s = .next (s.fault ⟨0x24, 0, BitVec.ofNat 64 e⟩)) ∧
    (s.mCheck s.cur.t (s.me.resid.getD 0) false tok = none → MTok.src tok = 0 → (MTok.addr tok).toNat % 32 ≠ 0 →
      exec (.mmq a b c d 0 f v k) s = .next (s.fault ⟨0x18, MTok.addr tok, 0⟩)) ∧
    (s.mmqFault tok bar = none → Claims.noReplay s (s.me.resid.getD 0) →
      ((s.node s.cur.t).hasEntry = false → exec (.mmq a b c d 0 f v k) s = .next s) ∧
      ((s.node s.cur.t).hasEntry = true → ∃ (t : State) (q : MReq), exec (.mmq a b c d 0 f v k) s = .next t ∧ t.mem = s.mem ∧
        t.me = { s.me.retire 8 with reqSeq := s.me.reqSeq + 1 } ∧ q.tok = tok ∧ q.key = s.cur.ctx ∧ q.hold = s.me.hold.toNat ∧
        q.waits = s.releaseSet s.cur.ctx 1 ∧ Claims.grouped s t q))

/-- R137, R140, R144: a request token taken at M that passes the checks joins a group, its priority lowered to that of core 0 of the bank; a
request through a handle that reaches the slot's tile joins one with its rows; one whose key is not valid completes with an error, by a
write acknowledgement to its requester. -/
def Sys2Proof.Parts.RequestArrival : Prop :=
  (∀ (s : State) (tok : W256), (s.node s.cur.t).mTok.find? (fun e => e.1 == s.cur.b) = some (s.cur.b, tok) → s.cur.b < 4 →
    let c := s.ctx (s.cur.t * 16 + s.cur.b)
    let tok' := MTok.withPrio tok (min (MTok.prio tok) c.prio.toNat)
    MTok.barrier tok' = none → s.mCheck s.cur.t (c.resid.getD 0) false tok' = none → Claims.noReplay s (c.resid.getD 0) →
    MTok.isHandle tok' = false →
    ∃ (t : State) (q : MReq), exec .matrixRequestToken s = .next t ∧ t.mem = s.mem ∧ q.tok = tok' ∧ q.waits = [] ∧
      q.key = s.cur.t * 16 + s.cur.b ∧ Claims.grouped s t q) ∧
  (∀ (s : State) (p : Packet), s.arrived s.cur.t isRemoteReq = some p → (s.node s.cur.t).hasEntry = true →
    s.pastRequests p.h.sdev p.h.resid = false → p.h.bad = false →
    let tok : W256 := p.pay.headD 0
    MTok.isHandle tok = true → tok.extractLsb' 252 4 = 0 → p.pay.length = 1 + MTok.sectors tok →
    (s.mCheck s.cur.t p.h.resid true tok = none → Claims.noReplay s p.h.resid →
      ∃ (t : State) (q : MReq), exec .remoteMatrixRequest s = .next t ∧ t.mem = s.mem ∧
        MTok.prio q.tok = min (MTok.prio tok) ((s.node s.cur.t).slot (MTok.slot tok)).expLim % 4 ∧ q.rows = p.pay.drop 1 ∧
        q.fetched = true ∧ q.remote = true ∧ q.tile = p.h.stile ∧ Claims.grouped s t q) ∧
    (s.mCheck s.cur.t p.h.resid true tok = some 0x31 →
      ∃ (t : State) (f : Flight), exec .remoteMatrixRequest s = .next t ∧ t.net = s.net ++ [f] ∧ f.p.h.kind = 4 ∧
        f.p.h.dst = p.h.stile ∧ f.p.h.tid = p.h.tid ∧ (MErr.ofBits (f.p.pay.getD 1 0)).map MErr.cause = some 0x31 ∧
        t.nodes = s.nodes))

/-- R136, R146, R147, R148: the rows of a request's A are read from memory, and while one has not come the request keeps those it has; a
group whose oldest member has waited HOLD cycles is ready, one
that has waited 4 HOLD is overdue and rises one level of priority, to at most 3. -/
def Sys2Proof.Parts.GroupTimes : Prop :=
  (∀ (s : State) (q : MReq) (ws : List W256), (s.node s.cur.t).waiting.find? (fun q => q.id == s.cur.n) = some q → q.waits = [] →
    q.fetched = false → q.err = none → MTok.src q.tok = 0 → (MTok.addr q.tok).toNat % 32 = 0 →
    (∀ g ∈ (s.node s.cur.t).groups, (g.members.any fun m => m.err.isNone) = true) →
    (∀ y ∈ (s.node s.cur.t).sending, y.id ≠ q.id) →
    let y := s.nodeFetch s.cur.t q.resid q.key q.id ((List.range (MTok.sectors q.tok)).map fun i =>
      MTok.addr q.tok + BitVec.ofNat 64 (32 * i)) q.reads
    let got (v : MReq) : Prop := ∃ t, exec .aFetchComplete s = .next t ∧ t.mem = s.mem ∧
      t.node s.cur.t = (s.node s.cur.t).mapReq q.id fun _ => v
    (∀ ws, fetchOutcome (MTok.sectors q.tok) y.1 = .all ws → got { q with reads := [], rows := ws, fetched := true }) ∧
    (fetchOutcome (MTok.sectors q.tok) y.1 = .wait → got { q with reads := y.1 })) ∧
  (∀ (s : State) (g : Group), (s.node s.cur.t).groups.find? (fun g => g.id == s.cur.n) = some g →
    let x := s.node s.cur.t
    (g.opened + g.hold ≤ s.cycle → exec .groupHoldExpiry s = .next (s.setNode s.cur.t { x with
      groups := x.groups.map fun h => if h.id = g.id then { h with ready := true } else h })) ∧
    (s.cycle < g.opened + g.hold → (x.slot g.slot).wc = false → g.full = false → exec .groupHoldExpiry s = .next s) ∧
    (g.overdue = false → g.opened + 4 * g.hold ≤ s.cycle → exec .groupOverdue s = .next (s.setNode s.cur.t { x with
      groups := x.groups.map fun h =>
        if h.id = g.id then { h with overdue := true, ready := true, prio := min 3 (h.prio + 1) } else h })) ∧
    (g.overdue = true ∨ s.cycle < g.opened + 4 * g.hold → exec .groupOverdue s = .next s))

/-- R134, R146, R148, R121, R125: the first group in order, when its format goes with its slot's and a lane is free, leaves the buffer for the
lane with one row per row of its members; the terms of a row of I8 elements against I8 weights are the exact sums of products. -/
def Sys2Proof.Parts.GroupIssueRows : Prop :=
  (∀ (s : State) (g : Group) (n : Nat) (more : List Nat),
    let x := s.node s.cur.t
    x.firstGroup = some g → (∀ q ∈ g.members, q.err = none) → fmtMatch (x.slot g.slot).fmt g.af = true → x.isPair g.slot = false →
    s.weightBad s.cur.t [g.slot] = false → x.freeLanes s.cycle = n :: more →
    ∃ t, exec .groupIssue s = .next t ∧ t.mem = s.mem ∧ (t.node s.cur.t).groups = x.groups.filter (fun h => h.id != g.id) ∧
      ((t.node s.cur.t).lane n).rows = g.members.flatMap (fun q => (List.range (MTok.m q.tok)).map fun i =>
        (⟨q, i, s.rowTerms s.cur.t g.slot false g.af g.d ((q.rows.drop (aWords g.af * i)).take (aWords g.af))⟩ : LaneRow)) ∧
      ∀ k, k ≠ n → (t.node s.cur.t).lane k = x.lane k) ∧
  (∀ (s : State) (t n : Nat) (u v : W256) (j : Nat), j < 64 →
    (s.rowTerms t n false 0 4 [u, v])[j]? = some { v := ((List.range 64).map fun k =>
      ((if k < 32 then u.extractLsb' (8 * k) 8 else v.extractLsb' (8 * (k - 32)) 8) : BitVec 8).toInt *
        (Memory.read s.mem (weightKey t n k j)).toInt).sum })

/-- R134, R138, R142, R143: a LOCAL row whose digits are done enters the accumulator queue; the token at its head is applied: a row is
added to or replaces its slice row, a clear zeroes rows and their poison, a read gives its context the delivered values. -/
def Sys2Proof.Parts.AccumulatorRows : Prop :=
  (∀ (s : State) (x : LaneRow) (rest : List LaneRow),
    let l := (s.node s.cur.t).lane s.cur.n
    let k := x.req.tok
    (s.node s.cur.t).chains = [] → (s.node s.cur.t).poisons = [] → l.rows = x :: rest → l.issued + 16 + (l.done + 1) * l.d - 1 ≤ s.cycle → MTok.mode k = 0 →
    s.accRoom s.cur.t true 1 = true → Claims.noReplay s x.req.resid →
    ∃ t, exec .rowLeaveLane s = .next t ∧ t.mem = s.mem ∧ ((t.node s.cur.t).lane s.cur.n).rows = rest ∧
      (t.node s.cur.t).accQ = (s.node s.cur.t).accQ ++ [.row (MTok.slice k) (MTok.off k + x.row) (MTok.acc k) x.terms false
        (if x.row + 1 = MTok.m k then some x.req else none)]) ∧
  (∀ (s : State) (r : List AccTok),
    let x := s.node s.cur.t
    (∀ sl ro acc es po, x.accQ = .row sl ro acc es po none :: r → ∃ t, exec .accumulatorApply s = .next t ∧ t.mem = s.mem ∧
      (t.node s.cur.t).accQ = r ∧
      (∀ j, j < 64 → (t.node s.cur.t).acc.get {} (accKey sl ro j) =
        (if acc then (x.acc.get {} (accKey sl ro j)).add (es.getD j {}) else es.getD j {})) ∧
      (t.node s.cur.t).poison.get false (sl * 16 + ro) = ((acc && x.poison.get false (sl * 16 + ro)) || po) ∧
      (acc = false → ∀ j, j < 64 → (t.node s.cur.t).accBad.contains (accKey sl ro j) = false) ∧
      ∀ k, k / 64 ≠ sl * 16 + ro → (t.node s.cur.t).acc.get {} k = x.acc.get {} k) ∧
    (∀ sl ro n, x.accQ = .clear sl ro n :: r → ∃ t, exec .accumulatorApply s = .next t ∧ t.mem = s.mem ∧ (t.node s.cur.t).accQ = r ∧
      ∀ i, i < n → (t.node s.cur.t).poison.get false (sl * 16 + (ro + i)) = false ∧
        ∀ j, j < 64 → (t.node s.cur.t).acc.get {} (accKey sl (ro + i) j) = {}) ∧
    (∀ key sl ro g f d, x.accQ = .read key sl ro g f d :: r → (s.ctx key).wait = .accrd d → d.toNat < 27 →
      x.poison.get false (sl * 16 + ro) = false → (∀ j, j < 64 → x.accBad.contains (accKey sl ro j) = false) → ∃ t, exec .accumulatorApply s = .next t ∧ (t.node s.cur.t).accQ = r ∧
        (t.ctx key).wait = .none ∧ (t.ctx key).instret = (s.ctx key).instret + 1 ∧
        let w := if f = 1 then 16 else 32
        ∀ l, l < 256 / w → lane ((t.ctx key).v d.toNat) w l =
          ((x.acc.get {} (accKey sl ro (256 / w * g + l))).deliver f).1 % 2 ^ w))

/-- R142, R284, R285: `accrd` and `accclr` of a slice that the residency owns put their token behind those of the queue, when it has room for
it; `accclr` then completes and `accrd` waits for its value; a slice that is not owned is cause 0x24 with 0x32, rows past the slice with
0x30. -/
def Sys2Proof.Parts.AccumulatorOps : Prop :=
  ∀ (s : State) (a : BitVec 5) (f : BitVec 2) (n : BitVec 3) (w c : BitVec 4) (g : BitVec 3),
    let r := s.me.resid.getD 0
    let room := s.accRoom s.cur.t false 1
    let x := s.node s.cur.t
    (s.ownsSlice s.cur.t r n.toNat = false →
      (s.ready [] [a] = true → exec (.accrd a f n w g) s = .next (s.fault ⟨0x24, 0, 0x32⟩)) ∧
      (s.ready [] [] = true → w.toNat + c.toNat < 16 → exec (.accclr n w c) s = .next (s.fault ⟨0x24, 0, 0x32⟩))) ∧
    (s.ready [] [] = true → 16 ≤ w.toNat + c.toNat → exec (.accclr n w c) s = .next (s.fault ⟨0x24, 0, 0x30⟩)) ∧
    (s.ownsSlice s.cur.t r n.toNat = true → Claims.noReplay s r →
      (s.ready [] [a] = true → room = true → exec (.accrd a f n w g) s = .next (((s.setNode s.cur.t { x with
          accQ := x.accQ ++ [.read s.cur.ctx n.toNat w.toNat g.toNat f.toNat a] }).setMe
        { s.me with reqSeq := s.me.reqSeq + 1, wait := .accrd a, heldLen := 8, heldIns := [], mid := false }).used)) ∧
      (s.ready [] [] = true → w.toNat + c.toNat < 16 →
        (room = true → exec (.accclr n w c) s = .next (((s.setNode s.cur.t { x with
          accQ := x.accQ ++ [.clear n.toNat w.toNat (c.toNat + 1)] }).setMe { s.me with reqSeq := s.me.reqSeq + 1 }).finish 8 [])) ∧
        (room = false → exec (.accclr n w c) s = .next s)))

/-- R140, R141: a well-formed PSUM packet of one row for a slice its residency owns enters the accumulator queue as a row; a malformed one
is dropped and its request is remembered; the completion of a request that ran elsewhere arrives at its barrier, with an error if one of its
packets was malformed. -/
def Sys2Proof.Parts.PsumPackets : Prop :=
  (∀ (s : State) (p : Packet) (h : W256), s.arrived s.cur.t isPsum = some p → p.pay.headD 0 = h →
    (psumOk p = true → h.extractLsb' 235 4 = 0 → s.ownsSlice s.cur.t p.h.resid (h.extractLsb' 232 3).toNat = true →
      s.accRoom s.cur.t true 1 = true → s.accRoom s.cur.t false 1 = true → Claims.noReplay s p.h.resid →
      ∃ t, exec .psumPacket s = .next t ∧ t.mem = s.mem ∧ (t.node s.cur.t).accQ = (s.node s.cur.t).accQ ++
        [.row (h.extractLsb' 232 3).toNat (h.extractLsb' 228 4).toNat (h.getLsbD 248) (psumElems ((p.pay.drop 1).take 20))
          (h.getLsbD 208) none]) ∧
    (psumOk p = false → ∃ t, exec .psumPacket s = .next t ∧ t.mem = s.mem ∧ (t.node s.cur.t).accQ = (s.node s.cur.t).accQ ∧
      psumName p ∈ (t.node s.cur.t).badPsum)) ∧
  (∀ (s : State) (p : Packet) (name core idx : Nat) (r : Residency), s.arrived s.cur.t isMatrixDone = some p →
    (s.inbox.any fun x => x.node == s.cur.t && isPsum x.p && psumName x.p == psumName p) = false →
    MTok.barrier (p.pay.headD 0) = some name → s.liveRes p.h.resid = some r → s.barPlace s.cur.t p.h.resid name = some (core, idx) →
    ∃ t, exec .remoteCompletion s = .next t ∧ t.mem = s.mem ∧ (t.tile (core / 4)).arrivals = (s.tile (core / 4)).arrivals ++
      [⟨core, idx, (s.node s.cur.t).badPsum.contains (psumName p) || (MErr.ofBits (p.pay.getD 1 0)).isSome⟩])

namespace Sys2Proof.Claims

/-- A switch instruction ends by changing the switch's registers, after its words have moved. -/
def fired (s : State) (f : Xbar → Xbar) : State :=
  (s.swMove none none).setXbar s.cur.tb (f ((s.swMove none none).xbar s.cur.tb))

/-- The frame that is latched is one of the load of the turn's place, which loads a live set, selects one virtual tile, and names cores
of its class only. -/
def frameAt (s : State) (j : LoadJob) (r : Residency) (p : Spot) : Prop :=
  s.sched.loads.find? (fun j => j.id == s.cur.n) = some j ∧ s.findRes j.resid = some r ∧ j.shadow = false ∧
    s.word.getLsbD 247 = false ∧ j.next ≠ 0 ∧ j.started = false ∧ (∀ q ∈ s.frameCores, q < j.cores) ∧ s.frameSpots r = some [p]

/-- The load goes on with its next frame. -/
def loadNext (s t : State) (j j' : LoadJob) : Prop :=
  t.sched.loads = s.sched.loads.map fun k => if k.id = j.id then { j' with next := j.next + 1 } else k

/-- A field of the frame that is latched, by its lowest bit and width. -/
def fields (s : State) (lo n : Nat) : Nat := (s.word.extractLsb' lo n).toNat

end Sys2Proof.Claims

/-- R299, R300, R301: a switch instruction whose sources hold words and whose destinations have room moves its words and acts on pc, counters and
halt: `snext`, `sjump`, `sloop`, `sdbr`, `sbtag`, `swait`, `shalt`; `sflip` consumes a FLIP with the switch bit and resumes its READY shadow at
word 0; while `swait`'s or `sflip`'s head is another word, or the sources and destinations are not ready, nothing changes. -/
def Sys2Proof.Parts.SwitchInstructions : Prop :=
  ∀ s : State,
    let src := (s.word.extractLsb' 7 4).toNat
    let count := s.word.extractLsb' 0 10
    let target := s.word.extractLsb' 0 9
    let one := s.word.getLsbD 10
    let holds := match s.swHead src with
      | none => false
      | some w => Claims.tagHolds (s.word.extractLsb' 3 4).toNat [w]
    (s.swReady = true →
      exec .snext s = .next (Claims.fired s fun x => { x with pc := x.pc + 1 }) ∧
      exec .sjump s = .next (Claims.fired s fun x => { x with pc := target }) ∧
      exec .shalt s = .next (Claims.fired s fun x => { x with halted := true }) ∧
      (one = false → exec .sloop s = .next (Claims.fired s fun x => { x with lc0 := count, pc := x.pc + 1 })) ∧
      (one = true → exec .sloop s = .next (Claims.fired s fun x => { x with lc1 := count, pc := x.pc + 1 })) ∧
      (one = false → exec .sdbr s = .next (Claims.fired s fun x =>
        if 2 ≤ x.lc0.toNat then { x with lc0 := x.lc0 - 1, pc := target } else { x with lc0 := 0, pc := x.pc + 1 })) ∧
      (one = true → exec .sdbr s = .next (Claims.fired s fun x =>
        if 2 ≤ x.lc1.toNat then { x with lc1 := x.lc1 - 1, pc := target } else { x with lc1 := 0, pc := x.pc + 1 })) ∧
      ((s.swHead src).isSome = true → exec .sbtag s = .next (Claims.fired s fun x =>
        { x with pc := if holds then x.pc + 2 + (s.word.extractLsb' 0 3).setWidth 9 else x.pc + 1 })) ∧
      exec .swait s = .next (if holds then Claims.fired s fun x => { x with pc := x.pc + 1 } else s) ∧
      (∀ w, s.swHead src = some w → w.tag = 8 → w.data.getLsbD 0 = true → (s.xbar s.cur.tb).shadow = .ready →
        ∃ t, exec .sflip s = .next t ∧ (t.xbar s.cur.tb).pc = 0 ∧
          (t.xbar s.cur.tb).linkIn = ((s.swMove none (some src)).xbar s.cur.tb).shLinkIn ∧
          (t.xbar s.cur.tb).shLinkIn = ((s.swMove none (some src)).xbar s.cur.tb).linkIn ∧
          (t.xbar s.cur.tb).store = 1 - ((s.swMove none (some src)).xbar s.cur.tb).store) ∧
      (∀ w, s.swHead src = some w → w.tag ≠ 8 → exec .sflip s = .next s)) ∧
    (s.swReady = false → s.routeCode 8 = 0 → s.routeCode 9 = 0 →
      exec .snext s = .next s ∧ exec .sjump s = .next s ∧ exec .sloop s = .next s ∧ exec .sdbr s = .next s ∧ exec .sbtag s = .next s ∧
      exec .swait s = .next s ∧ exec .shalt s = .next s ∧ exec .sflip s = .next s)

/-- R74, R75, R299: what the move of a switch instruction that is ready does to the FIFOs of its cores and its hold registers: each receives
the word at the head of its source, and each source FIFO of a core that is named gives up one word, however many destinations take it. -/
def Sys2Proof.Parts.SwitchMoves : Prop :=
  ∀ s : State, s.swReady = true → s.routeCode 8 = 0 → s.routeCode 9 = 0 → (∀ i, i < 12 → s.routeCode i ≠ 9 ∧ s.routeCode i ≠ 10) →
    let x := s.xbar s.cur.tb
    let y := (s.swMove none none).xbar s.cur.tb
    (∀ q, q < 4 → y.toCore.get [] q = x.toCore.get [] q ++ (if s.routeCode (4 + q) = 0 then [] else (s.swHead (s.routeCode (4 + q))).toList)) ∧
    (∀ q, q < 4 → y.fromCore.get [] q = if ((List.range 12).any fun i => s.routeCode i == 5 + q) = true then (x.fromCore.get [] q).drop 1 else x.fromCore.get [] q) ∧
    (y.h0 = if s.routeCode 10 = 0 then x.h0 else s.swHead (s.routeCode 10)) ∧
    (y.h1 = if s.routeCode 11 = 0 then x.h1 else s.swHead (s.routeCode 11)) ∧
    y.pc = x.pc ∧ (s.swMove none none).mem = s.mem

/-- R72, R81, R86, R87: a word due on a lane reaches the receive FIFO, a reserved tag as an ERR token; in a bank without a configuration it
is dropped and counted; a credit due raises its sender's count. -/
def Sys2Proof.Parts.LaneEvents : Prop :=
  ∀ s : State,
    let x := s.xbar s.cur.tb
    (∀ (y : OnLink) (r : Nat), x.flight.find? (fun y => y.dir == s.cur.n && decide (y.at_ ≤ s.cycle)) = some y →
      s.bankResid s.cur.t s.cur.b = some r →
      ∃ (t : State) (w : NetWord), exec .staticWordArrival s = .next t ∧ t.mem = s.mem ∧
        (t.xbar s.cur.tb).rx.get [] y.dir = x.rx.get [] y.dir ++ [w] ∧ (y.w.tag.toNat < 12 → w = y.w) ∧
        (12 ≤ y.w.tag.toNat → s.cur.t < 1920 → w.tag = 0xA ∧ w.data.extractLsb' 0 8 = 0x01 ∧ w.data.extractLsb' 32 32 = y.w.tag.setWidth 32) ∧
        (t.xbar s.cur.tb).flight = x.flight.eraseP (fun y => y.dir == s.cur.n && decide (y.at_ ≤ s.cycle))) ∧
    (∀ (y : OnLink), x.flight.find? (fun y => y.dir == s.cur.n && decide (y.at_ ≤ s.cycle)) = some y →
      s.bankResid s.cur.t s.cur.b = none → ∃ t, exec .staticWordArrival s = .next t ∧
        (t.tile s.cur.t).stray = min ((s.tile s.cur.t).stray + 1) (2 ^ 32 - 1)) ∧
    (∀ y, x.creditBack.find? (fun y => decide (y.2 ≤ s.cycle)) = some y → exec .creditReturn s = .next (s.setXbar s.cur.tb { x with
      creditBack := x.creditBack.eraseP (fun y => decide (y.2 ≤ s.cycle)),
      credits := x.credits.set y.1 (x.credits.get 0 y.1 + 1) }))

/-- R69, R70, R60, R63: a queue moves its oldest staging word to its bank, writes a full staging block at its ring's tail, reads the block at
the ring's head, which enters the bank when it has come, and is spill-faulted by a write that has no translation, keeping the block; a refill that
cannot be read waits (the model's reading, log 38); a change of mode takes effect, empties the queue, clears the
bank's bytes but for a change of interleave alone, and completes the `bset` that made it. -/
def Sys2Proof.Parts.BankEvents : Prop :=
  (∀ s : State,
    let t := s.cur.t
    let n := s.cur.n
    let b := s.bank t n
    let own := s.bankOwner t n
    b.mode = .fifo →
    (∀ w r, b.staging = w :: r → r.length < 31 → b.ringCount = 0 → b.queue.length + b.reserved < 512 → b.spillFaulted = false →
      exec .fifoSpillRefill s = .next (s.setBank t n { b with queue := b.queue ++ [w], staging := r })) ∧
    (b.staging.length = 32 → b.spillFaulted = false → b.ringCount < b.ringSize →
      let y := s.move t own .engine (b.block (b.ringHead + b.ringCount)) 1056 (some (blockOf b.staging))
      (∀ m ps, y = .begun m ps → 480 < b.queue.length + b.reserved →
        exec .fifoSpillRefill s = .next (m.setBank t n { b with staging := [], ringCount := b.ringCount + 1 })) ∧
      (∀ m va, y = .miss m va → ∃ u,
        exec .fifoSpillRefill s = .next u ∧ (u.bank t n).spillFaulted = true ∧ (u.bank t n).staging = b.staging ∧ u.mem = s.mem)) ∧
    (b.staging.length < 32 → 0 < b.ringCount → b.queue.length + b.reserved + 32 ≤ 512 →
      let y := s.move t own (.bank n) (b.block b.ringHead) 1056 none
      (b.fetch = [] → b.refillBad = false →
        (∀ m ps, y = .begun m ps → exec .fifoSpillRefill s = .next (m.setBank t n { b with fetch := ps })) ∧
        (∀ m va, y = .miss m va → exec .fifoSpillRefill s = .next (m.setBank t n { b with refillBad := true }))) ∧
      (b.fetch ≠ [] → allAnswered b.fetch = false → exec .fifoSpillRefill s = .next s) ∧
      (b.fetch ≠ [] → allAnswered b.fetch = true → anyFailed b.fetch = true →
        exec .fifoSpillRefill s = .next (s.setBank t n { b with fetch := [], refillBad := true })) ∧
      (b.fetch ≠ [] → allAnswered b.fetch = true → anyFailed b.fetch = false →
        exec .fifoSpillRefill s = .next (s.setBank t n { b with
          fetch := [], queue := b.queue ++ blockWords (pieceValue b.fetch), ringHead := (b.ringHead + 1) % b.ringSize,
          ringCount := b.ringCount - 1, fullPosted := false, refillBad := false })))) ∧
  (∀ (s : State) (c : BankChange) (l : List BankChange),
    let t := s.cur.t
    let n := s.cur.n
    let b := s.bank t n
    s.memOk = true → b.pending = c :: l → c.il = 0 →
    ∃ u, exec .bankModeChangeEffect s = .next u ∧ (u.bank t n).mode = c.mode ∧ (u.bank t n).pending = l ∧ (u.bank t n).queue = [] ∧
      (u.bank t n).owner = b.owner ∧ (∀ k, k ≠ n → u.bank t k = s.bank t k) ∧
      (∀ a, Memory.read u.mem a = if (b.mode = .scratch ∧ c.mode = .scratch) ∨ a < sramKey t n 0 ∨ sramKey t n 0 + 2 ^ 14 ≤ a
        then Memory.read s.mem a else 0) ∧
      (∀ m, (s.ctx c.who).wait = .bank m → (u.ctx c.who).wait = .none ∧ (u.ctx c.who).instret = (s.ctx c.who).instret + 1))

/-- R236 to R238: an `stq` packet without a queue goes on to the root tile of its live residency; the handling tile refuses one that fails a check
or does not translate (code 1), waits while the queue it names changes its mode, and else writes its bytes by requests to their homes; when those
are performed its notice enters the queue and its sender is told; the answer completes an `stq` that waits, and a refusal is its fault (cause
0x1F). -/
def Sys2Proof.Parts.StqDelivery : Prop :=
  (∀ (s : State) (p : Packet), s.cur.n = 1 → s.arrived 4097 Packet.isStq = some p →
    (∀ r, s.liveRes p.h.resid = some r → ∃ t, exec .stqPacket s = .next t ∧ t.mem = s.mem ∧
      t.net = s.net ++ [⟨0, { p with h := { p.h with dcls := 0, dst := r.rootTile } }⟩]) ∧
    (s.liveRes p.h.resid = none → ∃ (t : State) (f : Flight), exec .stqPacket s = .next t ∧ t.mem = s.mem ∧ t.net = s.net ++ [f] ∧
      f.p.h.kind = 5 ∧ f.p.h.dst = p.h.stile ∧ f.p.h.tid = p.h.tid ∧ f.p.h.info = 2)) ∧
  (∀ (s : State) (p : Packet), s.cur.n ≠ 1 → s.arrived s.cur.t Packet.isStq = some p →
    let q := if p.h.info.getLsbD 35 then some (p.h.info.extractLsb' 32 3).toNat else none
    let refused (m : State) (c : Nat) (a : W64) : Prop := ∃ (t : State) (f : Flight), exec .stqPacket s = .next t ∧ t.mem = s.mem ∧
      t.net = m.net ++ [f] ∧ f.p.h.kind = 5 ∧ f.p.h.dst = p.h.stile ∧ f.p.h.tid = p.h.tid ∧ f.p.h.addr = a ∧ f.p.h.info = BitVec.ofNat 64 c
    let y := s.move s.cur.t p.h.resid .engine p.h.addr (32 * p.pay.length) (some p.bytes) p.h.bad
    (∀ n, q = some n → (s.bank s.cur.t n).pending ≠ [] → exec .stqPacket s = .next s) ∧
    ((∀ n, q = some n → (s.bank s.cur.t n).pending = []) →
      (∀ c, s.stqCheck s.cur.t p q = some c → refused s c 0) ∧
      (s.stqCheck s.cur.t p q = none → ∀ m va, y = .miss m va → refused m 1 va) ∧
      (s.stqCheck s.cur.t p q = none → ∀ m, y = .wait m → exec .stqPacket s = .next m) ∧
      (s.stqCheck s.cur.t p q = none → ∀ m ps, y = .begun m ps →
        exec .stqPacket s = .next (let u := (m.takeArrived s.cur.t Packet.isStq).reserveNotice s.cur.t q
          u.setTile s.cur.t { u.tile s.cur.t with stqJobs := (u.tile s.cur.t).stqJobs ++ [⟨p, q, ps.map Piece.tid⟩] })))) ∧
  (∀ (s : State) (j : StqJob) (l : List StqJob) (n : Nat), (s.tile s.cur.t).stqJobs = j :: l → j.tids = [] → j.queue = some n →
    s.queueFault s.cur.t j.p.h.resid n = none → 0 < (s.bank s.cur.t n).reserved →
    ∃ (t : State) (f : Flight), exec .stqNotify s = .next t ∧ t.mem = s.mem ∧ (t.tile s.cur.t).stqJobs = l ∧
      t.bank s.cur.t n = (s.bank s.cur.t n).pushReserved (noticeWord j.p) ∧ t.net = s.net ++ [f] ∧ f.p.h.kind = 4 ∧
      f.p.h.dst = j.p.h.stile ∧ f.p.h.tid = j.p.h.tid) ∧
  (∀ (s : State) (p : Packet) (x : Txn), s.arrived s.cur.t (s.isStqAnswer s.cur.t) = some p → s.txn s.cur.t p.h.tid = some x →
    (s.ctx x.key).wait = .stq p.h.tid → (s.ctx x.key).resid = some x.resid →
    (p.h.kind = 4 → ∃ t, exec .stqAnswer s = .next t ∧ (t.ctx x.key).wait = .none ∧
      (t.ctx x.key).instret = (s.ctx x.key).instret + 1) ∧
    (p.h.kind = 5 → (s.ctx x.key).handler = false → (s.ctx x.key).trapvec ≠ 0 → ∃ t, exec .stqAnswer s = .next t ∧
      (t.ctx x.key).handler = true ∧ (t.ctx x.key).ip = (s.ctx x.key).trapvec ∧ (t.ctx x.key).trapip = (s.ctx x.key).ip ∧
      (t.ctx x.key).trapcause = 0x1F ∧ (t.ctx x.key).trapaddr = p.h.addr ∧
      (t.ctx x.key).trapinfo = BitVec.ofNat 64 (p.h.info.toNat % 256)))

/-- R304, R305, R307: the frames of programs. A HEADER that passes its checks gives each core its partition, from 64 bytes into its bank's
region, and the load its frame count; CODE writes its words at their place in the partition; SWITCH writes its instructions; LINK the owners
of the directions. A frame whose shadow bit is not the load's fails the load with check code 0x01. -/
def Sys2Proof.Parts.ProgramFrames : Prop :=
  (∀ (s : State) (j : LoadJob) (r : Residency), s.sched.loads.find? (fun j => j.id == s.cur.n) = some j → s.findRes j.resid = some r →
    let d := r.cand.dwords.getD 0 0
    let count := Claims.fields s 160 32
    let sizes := (List.range 4).map fun q => 4 * Claims.fields s (146 - 14 * q) 14
    j.shadow = false → s.word.getLsbD 247 = false → j.next = 0 → Claims.fields s 208 8 = 1 → count ≠ 0 → j.image + 32 * count ≤ 2 ^ 40 →
    Claims.fields s 200 6 = (d.extractLsb' 42 6).toNat → Claims.fields s 194 6 = (d.extractLsb' 36 6).toNat →
    Claims.fields s 192 2 = (d.extractLsb' 34 2).toNat → (d.extractLsb' 32 2).toNat ≤ Claims.fields s 206 2 →
    (sizes.map round64).sum ≤ 2 ^ 14 - 64 →
    ∃ t, exec .header s = .next t ∧
      t.sched.loads = s.sched.loads.map (fun k => if k.id = j.id
        then { j with next := 1, total := count, cls := Claims.fields s 206 2, sizes := sizes } else k) ∧
      ∀ p ∈ s.places r, ∀ q, q < 4 → (s.ctx ((p.1 * 4 + q) * 4 + p.2)).resid ≠ none →
        p.2 < 4 → (∀ p' ∈ s.places r, p'.2 < 4) →
        let base := regionBase p.2 + 64 + ((sizes.take q).map round64).sum
        (t.ctx ((p.1 * 4 + q) * 4 + p.2)).code = ⟨base, sizes.getD q 0, base⟩) ∧
  (∀ (s : State) (j : LoadJob) (r : Residency), s.sched.loads.find? (fun j => j.id == s.cur.n) = some j → s.findRes j.resid = some r →
    s.word.getLsbD 247 ≠ j.shadow → ∀ i ∈ [Instr.header, .code, .switch, .link, .bankClaim, .bankData, .template, .matrix, .start],
      exec i s = .next (s.failLoad j 1 j.next)) ∧
  (∀ (s : State) (j : LoadJob) (r : Residency) (p : Spot), Claims.frameAt s j r p →
    (∀ q, s.frameCores = [q] →
      let n := Claims.fields s 199 3
      let idx := Claims.fields s 202 14
      let c := (s.ctx (p.ctx q)).code
      s.memOk = true → n ≤ 6 → Claims.fields s 0 192 < 2 ^ (32 * n) → Claims.fields s 193 6 = 0 → 4 * (idx + n) ≤ c.size →
      ∃ t, exec .code s = .next t ∧ Claims.loadNext s t j j ∧
        ∀ i, i < n → Memory.readN t.mem (storeKey p.t (c.base + 4 * (idx + i))) 4 = Claims.fields s (32 * i) 32) ∧
    (let n := Claims.fields s 205 2
     let idx := Claims.fields s 207 9
     let ws := (List.range n).map fun i => s.word.extractLsb' (64 * i) 64
     s.memOk = true → Claims.fields s 0 192 < 2 ^ (64 * n) → idx + n ≤ 512 → (∀ w ∈ ws, (decodeSwitch w).isSome = true) →
     (∀ w ∈ ws, ∀ z ∈ routesOf w, lacksCore j.cores z = false ∧ r.routeClosed p.vx p.vy z = false) → j.links.contains p.tb = false →
     ∃ t, exec .switch s = .next t ∧ (t.xbar p.tb).hasProg = true ∧
       Memory.readN t.mem (switchKey p.t p.b (s.xbar p.tb).store idx) (8 * n) = Claims.fields s 0 192) ∧
    ((List.range 8).all (s.linkFits r j.cores p.vx p.vy) = true → Claims.fields s 180 4 < 2 ^ j.cores → j.routes = [] →
     ∃ t, exec .link s = .next t ∧ t.mem = s.mem ∧ (t.xbar p.tb).xctl = s.word.extractLsb' 180 4 ∧
       ∀ d, d < 4 → (t.xbar p.tb).linkIn.get 0 d = s.word.extractLsb' (212 - 8 * d) 4 ∧
         (t.xbar p.tb).linkOut.get 0 d = s.word.extractLsb' (208 - 8 * d) 4))

/-- R304, R154, R131, R60, R306, R308: the frames of claims. BANK gives a free bank its mode and spill settings, or writes bytes of scratch;
TEMPLATE claims a template and takes a part of its descriptor; MATRIX claims a slot or a slice; START sets a core's entry, TRAPVEC and private
area; the end of a load that passes the last checks starts the contexts. -/
def Sys2Proof.Parts.ClaimFrames : Prop :=
  (∀ (s : State) (j : LoadJob) (r : Residency) (p : Spot), Claims.frameAt s j r p →
    (let n := Claims.fields s 212 3
     Claims.fields s 210 2 = 2 → Claims.fields s 208 2 = 0 → Claims.fields s 144 56 % 32 = 0 → Claims.fields s 112 32 % 1056 = 0 →
     (s.bank p.t n).owner = none → s.banksHeld r.num p.t = [] →
     ∃ t, exec .bankClaim s = .next t ∧ t.mem = s.mem ∧ t.bank p.t n = ({
       owner := some p.b, mode := .fifo, spillBase := BitVec.ofNat 64 (Claims.fields s 144 56), spillSize := Claims.fields s 112 32, spillEn := s.word.getLsbD 207,
       sink := s.word.getLsbD 206 } : Bank)) ∧
    (let off := Claims.fields s 198 17
     s.memOk = true → Claims.fields s 193 5 = 0 → Claims.fields s 0 192 < 256 → s.inScratch r.num p.t off = true →
     ∃ t, exec .bankData s = .next t ∧ ∀ k, Memory.read t.mem k =
       if k = s.scratchKey p.t off then s.word.extractLsb' 0 8 else Memory.read s.mem k) ∧
    (let n := Claims.fields s 212 4
     let key := p.t * 16 + n
     Claims.fields s 210 2 = 0 → (∀ x ∈ j.parts, x.1 ≠ key) → ((s.tile p.t).template n).owner = none →
     ∃ t, exec .template s = .next t ∧ t.mem = s.mem ∧
       (t.tile p.t).template n = { (s.tile p.t).template n with owner := some p.b } ∧
       ∃ k ∈ t.sched.loads, k.id = j.id ∧ (key, 0) ∈ k.parts ∧ ∀ i, i < 3 → k.words.get 0 (key * 8 + i) = s.word.extractLsb' (64 * i) 64) ∧
    (let n := Claims.fields s 212 3
     (s.word.getLsbD 215 = true → (∀ e ∈ (s.node p.t).sliceOwner, e.1 ≠ n) → ∃ t, exec .matrix s = .next t ∧ t.mem = s.mem ∧
       (t.node p.t).sliceOwner.get 99 n = p.b) ∧
     (s.word.getLsbD 215 = false → s.word.getLsbD 211 = false → ((s.node p.t).slot n).owner = none →
       ∃ t, exec .matrix s = .next t ∧ t.mem = s.mem ∧
         (t.node p.t).slot n = { (s.node p.t).slot n with owner := some p.b, wc := s.word.getLsbD 210 }))) ∧
  (∀ (s : State) (j : LoadJob) (r : Residency) (p : Spot) (q : Nat), Claims.frameAt s j r p → s.frameCores = [q] →
    let c := s.ctx (p.ctx q)
    let entry := 4 * Claims.fields s 201 14
    let tv := 4 * Claims.fields s 187 14
    s.word.getLsbD 215 = false → Claims.fields s 173 7 = 0 → Claims.fields s 180 7 < 128 → j.starts.contains (p.ctx q) = false →
    entry < c.code.size → tv ≠ 0 → tv < c.code.size → q < s.coresOn p.t →
    ∃ t, exec .start s = .next t ∧ t.mem = s.mem ∧ (t.ctx (p.ctx q)).starts = true ∧ (t.ctx (p.ctx q)).worker = false ∧
      (t.ctx (p.ctx q)).code = { c.code with entry := c.code.base + entry } ∧
      (t.ctx (p.ctx q)).trapvec = BitVec.ofNat 16 (c.code.base + tv) ∧ (t.ctx (p.ctx q)).privSize = 0) ∧
  (∀ (s : State) (j : LoadJob) (r : Residency) (m : State), s.sched.loads.find? (fun j => j.id == s.cur.n) = some j →
    s.findRes j.resid = some r → j.next ≠ 0 → j.total ≤ j.next →
    (∀ c, s.lastChecks r j = .error c → exec .loadComplete s = .next (s.failLoad j c j.total)) ∧
    (s.lastChecks r j = .ok m → j.shadow = false → ∃ t, exec .loadComplete s = .next t ∧ t.mem = m.mem ∧
      ∀ k, (m.ctx k).resid = some r.num →
        ((m.ctx k).starts = false → (t.ctx k).run = .halted) ∧
        ((m.ctx k).starts = true → (m.ctx k).worker = true → (t.ctx k).run = .idle) ∧
        ((m.ctx k).starts = true → (m.ctx k).worker = false → (t.ctx k).run = .live ∧
          (t.ctx k).ip = BitVec.ofNat 16 (m.ctx k).code.entry)))

namespace Sys2Proof.Claims

/-- A packet of a kind answers a request, from a router. -/
def answered (s t : State) (src : Nat) (q : Hdr) (kind : Nat) (pay : List W256) (info : W64) : Prop :=
  ∃ f : Flight, t.net = s.net ++ [f] ∧ f.at_ = src ∧ f.p.h.kind = kind ∧ f.p.h.dst = q.stile ∧ f.p.h.ddev = q.sdev ∧
    f.p.h.tid = q.tid ∧ f.p.h.addr = q.addr ∧ f.p.h.info = info ∧ f.p.pay = pay

/-- A context waits for the one piece of a load, of which nothing has come. -/
def awaits (s : State) (k tid : Nat) (d : BitVec 5) (q : Piece) : Prop :=
  (s.ctx k).wait = .mem (.load d) [q] ∧ q.tid = tid ∧ q.val = none ∧ q.bad = 0 ∧ q.off = 0

/-- A context has entered its handler for a fault of the instruction it was at. -/
def entered (s t : State) (k cause : Nat) (a : W64) : Prop :=
  (t.ctx k).handler = true ∧ (t.ctx k).ip = (s.ctx k).trapvec ∧ (t.ctx k).trapip = (s.ctx k).ip ∧
    (t.ctx k).trapcause = BitVec.ofNat 8 cause ∧ (t.ctx k).trapaddr = a ∧ (t.ctx k).wait = .none

/-- A context has completed the instruction it waited in. -/
def resumed (s t : State) (k : Nat) : Prop := (t.ctx k).wait = .none ∧ (t.ctx k).instret = (s.ctx k).instret + 1

/-- The row of the sector at a coordinate can be used at once: its bank has it open, or none, and is not blocked. -/
def rowFree (s : State) (c : Nat) : Prop :=
  ((s.openRows.get {} (bankOf c)).row = none ∨ (s.openRows.get {} (bankOf c)).row = some (rowNumber c)) ∧
    (s.openRows.get {} (bankOf c)).blocked ≤ s.cycle

/-- An event record of the memory has joined the scheduler's buffer. -/
def memoryEvent (s t : State) (kind : Nat) (d1 : W64) (port : Nat) : Prop :=
  t.sched.buffer = s.sched.buffer ++ [⟨0, eventWord kind 0 0 0 0 0 0, d1, BitVec.ofNat 64 port⟩]

/-- Nothing leaves on the mesh but one event packet (kind 13) at most. -/
def told (l : List Flight) (t : State) : Prop := t.net = l ∨ ∃ f : Flight, f.p.h.kind = 13 ∧ t.net = l ++ [f]

/-- A request of the host of a sector can be performed at once: its port is free, with nothing before it, and its bank and channel are
not held. -/
def portFree (s : State) (a : Nat) : Prop :=
  s.portWaiting (s.portFor a) = [] ∧ (s.port (s.portFor a)).last ≠ some s.cycle ∧ (s.arrive a).1 = true

/-- The state and reason of a residency. -/
def decided (t : State) (n : Nat) (st : ResState) (reason : Nat) : Prop :=
  ∃ r, t.findRes n = some r ∧ r.state = st ∧ r.reason = reason

end Sys2Proof.Claims

/-- R57, R162, R363, R367: a request at a tile reads or writes its sector of a SCRATCH bank of the requester's residency and is answered,
and is refused with cause 0x1B elsewhere; a memory port admits the request its slot table picks, at most one in a cycle, and reads or writes
its sector, answers a read of no mapped address with a refusal of cause 0x1A, and drops a write to one. -/
def Sys2Proof.Parts.SectorRequests : Prop :=
  (∀ (s : State) (p : Packet),
    let t := s.cur.t
    let h := scratchHome (s.tile t) (p.h.addr.extractLsb' 0 17).toNat
    let key := sramKey t h.1 h.2
    s.arrived t isFabricRequest = some p → (s.bank t h.1).pending = [] →
    ((s.bank t h.1).mode ≠ .scratch ∨ s.ownsBank p.h.resid t h.1 = false →
      ∃ u, exec .fabricRequest s = .next u ∧ u.mem = s.mem ∧ Claims.answered s u t p.h 5 [] 0x1B) ∧
    ((s.bank t h.1).mode = .scratch → s.ownsBank p.h.resid t h.1 = true → s.badAt key 32 = false →
      (p.h.kind = 0 → ∃ u, exec .fabricRequest s = .next u ∧ u.mem = s.mem ∧ Claims.answered s u t p.h 3 [s.readSector key] 0) ∧
      (p.h.kind = 1 → ∃ u, exec .fabricRequest s = .next u ∧ u.mem = (s.writeSector key p.h.op (p.pay.headD 0)).mem ∧
        Claims.answered s u t p.h 4 [] 0))) ∧
  (∀ (s : State) (p : Packet), s.admits s.cur.n = some p → (s.port s.cur.n).last ≠ some s.cycle → p.h.host = false →
    (∀ c, s.dramCoord p.h.addr.toNat = some c → Claims.rowFree s c → s.inDescriptor p.h.addr.toNat = false →
      s.sectorBad c = false → s.sectorSoft c = false →
      (p.h.kind = 0 → ∃ u, exec .memoryPortAdmit s = .next u ∧ u.mem = s.mem ∧
        Claims.answered s u (portTile s.cur.n) p.h 3 [s.readSector (c * 32)] 0) ∧
      (p.h.kind = 1 → ∃ u, exec .memoryPortAdmit s = .next u ∧ u.mem = (s.writeSector (c * 32) p.h.op (p.pay.headD 0)).mem ∧
        Claims.answered s u (portTile s.cur.n) p.h 4 [] 0)) ∧
    (s.dramCoord p.h.addr.toNat = none →
      (p.h.kind = 0 → ∃ u, exec .memoryPortAdmit s = .next u ∧ u.mem = s.mem ∧ Claims.answered s u (portTile s.cur.n) p.h 5 [] 0x1A) ∧
      (p.h.kind = 1 → ∃ u, exec .memoryPortAdmit s = .next u ∧ u.mem = s.mem ∧ Claims.answered s u (portTile s.cur.n) p.h 4 [] 0))) ∧
  (∀ s : State, (s.port s.cur.n).last = some s.cycle → exec .memoryPortAdmit s = .next s)

/-- R224, R57, R99: a read response completes the load that waits for it, with the bytes of the sector in its register; an acknowledgement
strikes its write and completes what waited for it; a refused read is the load's fault (cause 0x1B), a refused posted store sends its
context a record of origin 1. -/
def Sys2Proof.Parts.RequestAnswers : Prop :=
  (∀ (s : State) (p : Packet) (x : Txn) (k : Nat) (d : BitVec 5) (q : Piece), s.arrived s.cur.t (s.isLoadAnswer s.cur.t) = some p →
    p.h.kind = 3 → s.txn s.cur.t p.h.tid = some x → x.write = false → x.fill = false → x.owner = .ctx k →
    (s.ctx k).resid = some x.resid → Claims.awaits s k x.tid d q → 0 < d.toNat → d.toNat < 27 →
    ∃ t, exec .loadResponse s = .next t ∧ t.mem = s.mem ∧ Claims.resumed s t k ∧
      (t.ctx k).s d.toNat = BitVec.ofNat 64 (cutSector (p.pay.headD 0) (q.addr.toNat % 32) q.n)) ∧
  (∀ (s : State) (p : Packet), s.arrived s.cur.t (s.isWriteAck s.cur.t) = some p →
    ∃ t, exec .writeAcknowledgement s = .next t ∧ t.mem = s.mem ∧ (∀ y ∈ (t.tile s.cur.t).txns, y.tid ≠ p.h.tid) ∧
      ∀ k, k / 16 = s.cur.t → (s.ctx k).wait = .acks [p.h.tid] .retire → Claims.resumed s t k) ∧
  (∀ (s : State) (p : Packet) (x : Txn) (k : Nat), s.arrived s.cur.t (s.isNack s.cur.t) = some p → s.txn s.cur.t p.h.tid = some x →
    x.owner = .ctx k → (s.ctx k).resid = some x.resid →
    (x.write = true → (s.ctx k).wait = .none → (s.ctx k).run = .live → (s.ctx k).async.length < 4 →
      ∃ t, exec .fabricNack s = .next t ∧ t.mem = s.mem ∧
        (t.ctx k).async = (s.ctx k).async ++ [⟨1, 0, 0x1B, BitVec.ofNat 64 (x.addr.toNat / 32 * 32)⟩]) ∧
    (∀ d q, x.write = false → Claims.awaits s k x.tid d q → (s.ctx k).handler = false → (s.ctx k).trapvec ≠ 0 →
      ∃ t, exec .fabricNack s = .next t ∧ t.mem = s.mem ∧ Claims.entered s t k 0x1B q.addr))

/-- R90, R91, R352, R358: the packet at the head of the mesh goes one hop on, along its row first, or is delivered at its node, or leaves by
the peer link at its tile; one with a malformed header is dropped and named by an event packet at most; read data with an uncorrectable
error are a refused read; a packet from a peer for another device is dropped, a read or write for a residency that is not live is refused; a
page walk that ends lets its context go on, with the translation held, or marked as failed, and one whose entry is held stays at it; two of
one page end together, and of several pages the first eight are served. Readings and choices of the model that it rests on: log entries 10,
12, 27, 28, 33 and 51. -/
def Obligations.Routing : Prop :=
  (∀ (s : State) (f : Flight) (r : List Flight), s.net = f :: r →
    let n := nodeTile f.p.h.node
    (f.p.malformed = true → ∃ t, exec .routerPacket s = .next t ∧ t.mem = s.mem ∧ Claims.told r t ∧ t.inbox = s.inbox) ∧
    (f.p.malformed = false → f.p.h.ddev = s.host.devnum.toNat →
      (n ≠ f.at_ → exec .routerPacket s = .next { s with net := r ++ [⟨
        if colOf f.at_ < colOf n then f.at_ + 1 else if colOf n < colOf f.at_ then f.at_ - 1
        else if rowOf f.at_ < rowOf n then f.at_ + 48 else f.at_ - 48, f.p⟩] }) ∧
      (n = f.at_ → f.p.h.node ≠ 4096 → (2048 ≤ f.p.h.node ∨ s.present f.p.h.node = true) →
        (f.p.h.bad = false → exec .routerPacket s = .next { s with net := r, inbox := s.inbox ++ [⟨f.p.h.node, f.p⟩] }) ∧
        (f.p.h.bad = true → f.p.h.kind = 3 → exec .routerPacket s = .next { s with
          net := r, inbox := s.inbox ++ [⟨f.p.h.node, ⟨{ f.p.h with kind := 5, info := 0x1A, len := 0 }, []⟩⟩] }))) ∧
    (f.p.malformed = false → f.p.h.ddev ≠ s.host.devnum.toNat → f.p.h.via = 0 → ∀ l, s.peerLink f.p.h.stile f.p.h.ddev = some l →
      linkTile l = f.at_ → exec .routerPacket s = .next { s with net := r, peerOut := s.peerOut ++ [(l, f.p)] })) ∧
  (∀ (s : State) (hdr : BitVec 256) (pay : List (BitVec 256)),
    let h := { Hdr.ofBits hdr with via := s.cur.n + 1 }
    let p : Packet := ⟨h, pay⟩
    h.kind ≠ 6 → p.malformed = false →
    (h.ddev ≠ s.host.devnum.toNat → ∃ t, exec (.peerPacketArrival hdr pay) s = .next t ∧ t.mem = s.mem ∧
      Claims.told s.net t ∧ t.inbox = s.inbox) ∧
    (h.ddev = s.host.devnum.toNat → p.isStq = false →
      (h.kind ≤ 2 → s.liveRes h.resid = none → ∃ t, exec (.peerPacketArrival hdr pay) s = .next t ∧ t.mem = s.mem ∧
        Claims.answered s t (linkTile s.cur.n) h 5 [] 0x1B) ∧
      (2 < h.kind ∨ s.liveRes h.resid ≠ none →
        exec (.peerPacketArrival hdr pay) s = .next { s with net := s.net ++ [⟨linkTile s.cur.n, p⟩] }))) ∧
  (∀ (s : State) (w : Walk), s.walks = [w] → w.die = s.cur.n → w.use_ = .access → (s.ctx w.key).wait = .walk w.va w.wr →
    let y := s.walkOn w.va.toNat (5 - (w.at_.getD (0, w.root)).1) (w.at_.getD (0, w.root)).1 (w.at_.getD (0, w.root)).2
    (∀ n tb, y.1 = .held n tb → ∃ t, exec .tlbWalkComplete s = .next t ∧ t.mem = s.mem ∧ t.walks = [{ w with at_ := some (n, tb) }] ∧
      t.ctxs = s.ctxs) ∧
    (∀ x, y.1 = .ended x → ∃ t, exec .tlbWalkComplete s = .next t ∧ t.mem = s.mem ∧ (t.ctx w.key).wait = .none ∧ t.walks = [] ∧
      (w.at_ = none → x = s.walk w.root w.va.toNat false) ∧
      (x = none ∨ (∃ z, x = some z ∧ w.wr = true ∧ z.2.2 = false) → (t.ctx w.key).walkFail = some w.va ∧ t.tlbs = s.tlbs) ∧
      (∀ z, x = some z → (w.wr = false ∨ z.2.2 = true) → s.tlbs = [] →
        (t.ctx w.key).walkFail = (s.ctx w.key).walkFail ∧ t.tlbs.map (fun e => (e.level, e.scope, e.asid, e.size, e.vpn, e.frame, e.wr)) =
          [(3, w.die, w.asid, z.2.1, w.va.toNat / 2 ^ z.2.1, z.1, z.2.2), (2, clusterOf w.tile, w.asid, z.2.1, w.va.toNat / 2 ^ z.2.1, z.1, z.2.2),
           (1, w.tile, w.asid, z.2.1, w.va.toNat / 2 ^ z.2.1, z.1, z.2.2)]))) ∧
  (∀ (s : State) (u v : Walk), s.walks = [u, v] → u.die = s.cur.n → v.same u = true → u.use_ = .access → v.use_ = .access →
    (s.ctx u.key).wait = .walk u.va u.wr → (s.ctx v.key).wait = .walk v.va v.wr → u.key ≠ v.key →
    ∃ t, exec .tlbWalkComplete s = .next t ∧ t.mem = s.mem ∧
      (t.walks = [] → (t.ctx u.key).wait = .none ∧ (t.ctx v.key).wait = .none) ∧ (t.walks ≠ [] → t.ctxs = s.ctxs)) ∧
  (∀ (s : State) (l : List Walk), s.walks = l → (∀ w ∈ l, w.die = s.cur.n ∧ w.use_ = .engine) →
    (∀ w ∈ l, ∀ v ∈ l, v.same w = true → v = w) → l.Nodup →
    ∃ t, exec .tlbWalkComplete s = .next t ∧ t.mem = s.mem ∧ t.ctxs = s.ctxs ∧ t.walks.length ≤ l.length ∧
      (∀ w ∈ l.drop 8, w ∈ t.walks) ∧ ∀ w ∈ t.walks, w ∈ l.drop 8 ∨ ∃ v ∈ l.take 8, v.same w = true ∧ w.at_.isSome = true)

/-- R365, R367, R368, R369, R370, R372: the scrubber, going by the coordinate of every sector of a present channel, corrects a soft error,
counting it, and reports an uncorrectable sector; a refreshed row's counter is zero; a row that closes counts one activation, at MIT
refreshes its neighbours and blocks its bank, at MGMT posts an event; low lane margins post event 0x23 and start retraining, behind the
mitigations of the channel's banks; retraining ends with the channel in use, on a spare lane, or marked failing. Readings and choices of the
model that it rests on: log entries 11, 33, 52, 56 and 58. -/
def Obligations.MemoryCare : Prop :=
  (∀ s : State,
    let c := s.cur.n
    let pa := (s.addressOf c).getD c
    (s.conf.channels.contains (channelOf c) = true → exec .patrolScrub s = .next s) ∧
    (s.conf.channels.contains (channelOf c) = false →
      (s.sectorBad c = false → s.sectorSoft c = false → exec .patrolScrub s = .next s) ∧
      (s.sectorBad c = true → ∃ t, exec .patrolScrub s = .next t ∧ t.mem = s.mem ∧
        Claims.memoryEvent s t 0x25 (BitVec.ofNat 64 pa) (portOf c)) ∧
      (s.sectorSoft c = true → ∃ t, exec .patrolScrub s = .next t ∧ t.mem = s.mem ∧
        t.sectorSoft c = false ∧ t.sectorBad c = false ∧ (t.port (portOf c)).corrected = (s.port (portOf c)).corrected + 1))) ∧
  (∀ s : State, exec .periodicRefresh s = .next { s with
    rows := s.rows.set s.cur.n 0, rowBad := s.rowBad.filter (· != s.cur.n) }) ∧
  (∀ (s : State) (r : Nat),
    let o := s.openRows.get {} s.cur.n
    let key := s.cur.n * 2 ^ 15 + r
    let old := s.rows.get 0 key
    let v := if old = 0xFFFF then old else old + 1
    let y := s.port (s.cur.n / 128)
    o.row = some r → s.rowBad.contains key = false →
    (s.cycle < o.used + 64 → exec .rowPrecharge s = .next s) ∧
    (o.used + 64 ≤ s.cycle →
      (v < y.mit → v ≠ y.mgmt → ∃ t, exec .rowPrecharge s = .next t ∧ t.mem = s.mem ∧ t.rows.get 0 key = v ∧
        (t.openRows.get {} s.cur.n).row = none ∧ t.sched.buffer = s.sched.buffer) ∧
      (v < y.mit → v = y.mgmt → ∃ t, exec .rowPrecharge s = .next t ∧ t.rows.get 0 key = v ∧
        Claims.memoryEvent s t 0x20 (BitVec.ofNat 64 o.pa) (s.cur.n / 128)) ∧
      (y.mit ≤ v → ∃ t, exec .rowPrecharge s = .next t ∧ t.rows.get 0 key = 0 ∧
        s.cycle + 240 * (neighbours r y.radius).length ≤ (t.openRows.get {} s.cur.n).blocked ∧
        (∀ b, (s.channel (s.cur.n / 32)).training = some b → ∃ b', (t.channel (s.cur.n / 32)).training = some b' ∧
          s.cycle + 240 * (neighbours r y.radius).length ≤ b') ∧
        Claims.memoryEvent s t 0x21 (BitVec.ofNat 64 o.pa) (s.cur.n / 128)))) ∧
  (∀ (s : State) (lane : BitVec 7) (tm vm : BitVec 8),
    let c := s.channel s.cur.n
    let low := tm.toNat < c.thT ∨ vm.toNat < c.thV
    (low → ∃ t, exec (.eyeMarginLow lane tm vm) s = .next t ∧ t.mem = s.mem ∧
      Claims.memoryEvent s t 0x23 (BitVec.ofNat 64 (s.cur.n * 2 ^ 26 + lane.toNat)) (s.cur.n / 4) ∧
      (c.auto = true → c.training = none → ∃ b, (t.channel s.cur.n).training = some b ∧ s.cycle ≤ b ∧
        ∀ e ∈ s.openRows, e.1 / 32 = s.cur.n → e.2.blocked ≤ b) ∧
      (c.auto = false → (t.channel s.cur.n).training = c.training)) ∧
    (¬ low → ∃ t, exec (.eyeMarginLow lane tm vm) s = .next t ∧ t.sched = s.sched ∧ (t.channel s.cur.n).training = c.training) ∧
    (c.training = none ∨ (∃ b, c.training = some b ∧ s.cycle < b) → exec (.channelRetrainComplete lane tm vm) s = .next s) ∧
    (∀ b, c.training = some b → b ≤ s.cycle → ∃ t, exec (.channelRetrainComplete lane tm vm) s = .next t ∧ t.mem = s.mem ∧
      (t.channel s.cur.n).training = none ∧
      let lows := (c.sample lane.toNat tm.toNat vm.toNat).margins.filter fun m => decide (m.2.1 < c.thT ∨ m.2.2 < c.thV)
      (low → lows.any (fun m => m.1 == lane.toNat) = true) ∧
      (lows = [] → (t.channel s.cur.n).failing = c.failing ∧ t.sched = s.sched) ∧
      (2 < c.spares + lows.length → lows ≠ [] → (t.channel s.cur.n).failing = true) ∧
      (c.spares + lows.length ≤ 2 → (t.channel s.cur.n).spares = c.spares + lows.length ∧ (t.channel s.cur.n).failing = c.failing)))

/-- R107, R338, R363, R367: a host write changes the bytes its mask names of its sector of DRAM, and nothing where no region maps it; a host
read gives the sector's bytes, or poison for an uncorrectable or unmapped one; while the sector's port is busy or its bank held they wait
there with the other requests (the model's choice, log 48); a snoop is answered with a miss. -/
def Sys2Proof.Parts.HostMemory : Prop :=
  (∀ (s : State) (pa : BitVec 41) (mask : BitVec 32) (data : BitVec 256),
    let a := pa.toNat / 32 * 32
    s.booted = true → a < 2 ^ 40 →
    (∀ c, s.memOk = true → s.dramCoord a = some c → s.inDescriptor a = false → Claims.portFree s a → Claims.rowFree s c →
      ∃ t, exec (.hostMemWrite pa mask data) s = .next t ∧
      ∀ k, Memory.read t.mem k = if c * 32 ≤ k ∧ k < c * 32 + 32 ∧ mask.getLsbD (k - c * 32) = true
        then data.extractLsb' (8 * (k - c * 32)) 8 else Memory.read s.mem k) ∧
    (¬ Claims.portFree s a → exec (.hostMemWrite pa mask data) s = .next { s with inbox := s.inbox ++ [⟨2048 + s.portFor a,
      ⟨{ kind := 1, op := mask, addr := BitVec.ofNat 64 a, host := true }, [data]⟩⟩] }) ∧
    (s.dramCoord a = none ∨ s.inDescriptor a = true → ∃ t, exec (.hostMemWrite pa mask data) s = .next t ∧ t.mem = s.mem)) ∧
  (∀ (s : State) (pa : BitVec 41),
    let a := pa.toNat / 32 * 32
    s.booted = true → a < 2 ^ 40 →
    (∀ c, s.dramCoord a = some c → Claims.portFree s a → Claims.rowFree s c → ∃ t, exec (.hostMemRead pa) s = .next t ∧ t.mem = s.mem ∧
      t.host.lastRead = (if s.sectorBad c = true then some (a, 0, true) else some (a, s.readSector (c * 32), false))) ∧
    (s.dramCoord a = none → Claims.portFree s a →
      ∃ t, exec (.hostMemRead pa) s = .next t ∧ t.mem = s.mem ∧ t.host.lastRead = some (a, 0, true)) ∧
    (¬ Claims.portFree s a → exec (.hostMemRead pa) s = .next { s with inbox := s.inbox ++ [⟨2048 + s.portFor a,
      ⟨{ kind := 0, op := BitVec.allOnes 32, addr := BitVec.ofNat 64 a, host := true }, []⟩⟩] })) ∧
  (∀ (s : State) (x : BitVec 64), exec (.hostSnoop x) s = .next { s with host := { s.host with lastSnoop := some x } })

/-- R341, R340, R348, R350, R352, R339, R407: a doorbell makes the records up to its value available in order, or is a queue error; a
register write at a doorbell's offset is one, at a launch queue's BASE writes it while the queue is disabled, at DEVNUM the device number; an
injection sends a message to its target, or is rejected; enabling and disabling queues, CONSUMED, DEVNUM and ROUTE. -/
def Sys2Proof.Parts.HostRegisters : Prop :=
  (∀ (s : State) (q : BitVec 4) (v : BitVec 32),
    let x := s.launchQueue q.toNat
    let ahead := (v - x.head).toNat
    let old := (x.tail - x.head).toNat
    let off : BitVec 21 := BitVec.ofNat 21 (0x10000 + q.toNat * 0x1000)
    exec (.hostRegisterWrite off 4 (v.setWidth 64)) s = exec (.doorbell q v) s ∧
    (old ≤ ahead → ahead ≤ 2 ^ x.size → ∃ t, exec (.doorbell q v) s = .next t ∧ t.mem = s.mem ∧ (t.launchQueue q.toNat).tail = v ∧
      (t.launchQueue q.toNat).avail.length = x.avail.length + (ahead - old) ∧
      ∀ i, i < ahead - old → (t.launchQueue q.toNat).avail[x.avail.length + i]? =
        some ((x.tail + BitVec.ofNat 32 i).toNat, s.sched.ageCount + i, s.cycle)) ∧
    (ahead < old → ∃ t, exec (.doorbell q v) s = .next t ∧ t.launchQueue q.toNat = { x with enable := false, err := true, code := 1 }) ∧
    (old ≤ ahead → 2 ^ x.size < ahead → ∃ t, exec (.doorbell q v) s = .next t ∧
      t.launchQueue q.toNat = { x with enable := false, err := true, code := 2 })) ∧
  (∀ (s : State) (q : BitVec 4) (v : BitVec 64),
    let off : BitVec 21 := BitVec.ofNat 21 (0x1000 + q.toNat * 64)
    let x := s.launchQueue q.toNat
    exec (.hostRegisterWrite off 8 v) s = .next (if x.enable then s else s.setLaunchQueue q.toNat { x with base := v &&& 0x1FFFFFFFFC0 }) ∧
    exec (.hostRegisterWrite 0x10 1 v) s = exec (.devnumWrite (v.setWidth 8)) s ∧ exec (.hostRegisterWrite 0x180000 8 v) s = .next s) ∧
  (∀ (s : State) (q : BitVec 4) (v : BitVec 32),
    let x := s.launchQueue q.toNat
    let on := { (if x.err then { x with head := 0, tail := 0, avail := [] } else x) with
      prio := (v.extractLsb' 1 2).toNat, preempt := v.getLsbD 3, starve := (v.extractLsb' 8 24).toNat, err := false, code := 0 }
    (ringOk x.base x.size 64 = true → exec (.launchQueueEnable q v) s = .next (s.setLaunchQueue q.toNat { on with enable := true })) ∧
    (ringOk x.base x.size 64 = false → ∃ t, exec (.launchQueueEnable q v) s = .next t ∧
      t.launchQueue q.toNat = { on with enable := false, err := true, code := 3 }) ∧
    exec (.launchQueueDisable q v) s = .next (s.setLaunchQueue q.toNat { x with
      prio := (v.extractLsb' 1 2).toNat, preempt := v.getLsbD 3, starve := (v.extractLsb' 8 24).toNat, enable := false })) ∧
  (∀ (s : State) (e : BitVec 4) (v : BitVec 32),
    let x := s.eventQueue e.toNat
    let y := { x with irq := v.getLsbD 1, vector := (v.extractLsb' 8 5).toNat }
    exec (.eventQueueEnable e v) s = .next (s.setEventQueue e.toNat { y with
      enable := ringOk x.base x.size 32 && decide (x.base.toNat % 32 = 0) }) ∧
    exec (.eventQueueDisable e v) s = .next (s.setEventQueue e.toNat { y with enable := false }) ∧
    exec (.consumedWrite e v) s = .next (s.setEventQueue e.toNat { x with consumed := v, signalled := false })) ∧
  (∀ (s : State) (d v : BitVec 8),
    exec (.devnumWrite v) s = .next (if s.sched.res ≠ [] ∨ v = 255 then s else { s with host := { s.host with devnum := v } }) ∧
    exec (.routeWrite d v) s = .next (if s.sched.res ≠ [] then s else
      { s with host := { s.host with route := s.host.route.set d.toNat v } })) ∧
  (∀ (s : State) (w v : BitVec 4),
    let x := s.host.windows.get {} w.toNat
    let n := (x.target.extractLsb' 40 16).toNat
    (∀ y ∈ s.inbox, y.p.h.kind = 9 → y.p.h.op = opHostMessage → y.p.h.info.toNat / 16 ≠ w.toNat) →
    (s.liveRes n = none → ∃ t, exec (.injectionSubmit w v) s = .next t ∧ t.net = s.net ∧ t.sched.buffer = s.sched.buffer ++
      [⟨v.toNat, BitVec.ofNat 8 2 ++ BitVec.ofNat 8 1 ++ BitVec.ofNat 48 w.toNat, x.target, 0⟩]) ∧
    (∀ r, s.liveRes n = some r → s.badTarget r x.target = true → ∃ t, exec (.injectionSubmit w v) s = .next t ∧ t.net = s.net ∧
      t.sched.buffer = s.sched.buffer ++ [⟨v.toNat, BitVec.ofNat 8 2 ++ BitVec.ofNat 8 2 ++ BitVec.ofNat 48 w.toNat, x.target, 0⟩]) ∧
    (∀ r, s.liveRes n = some r → s.badTarget r x.target = false → r.potValid = false → ∃ (t : State) (f : Flight),
      exec (.injectionSubmit w v) s = .next t ∧ t.mem = s.mem ∧ t.sched = s.sched ∧ t.net = s.net ++ [f] ∧ f.p.h.kind = 6 ∧
      f.p.h.node = (x.target.extractLsb' 16 13).toNat / 4 ∧ f.p.h.dq = (x.target.extractLsb' 16 13).toNat % 4 ∧ f.p.h.resid = r.num ∧
      f.p.pay = [(0 : W64) ++ x.a1 ++ x.a0 ++ (x.target.extractLsb' 0 16).setWidth 64]))

/-- R345, R346, R26, R32, R347: the scheduler picks the first candidate considered that can be placed, at most one in 16 cycles and none
while its buffer of records is full; a candidate that has waited STARVE times 1,024 cycles is overdue; an overdue one that may pre-empt,
breaks no check and cannot be placed discards the youngest uncommitted residency of lower priority, and again after 4,096 cycles; a placed
launch takes a residency number that is not in use and begins to load, once the run that it replays has been read (its form is the model's,
log entry 41), and one whose run a full buffer has cut is faulted with reason 8; a shadow load begins for a running residency; a stop
discards an uncommitted one and faults a committed one. Readings and choices of the model that it rests on: log entries 11, 41, 54 and 57.
-/
def Obligations.Scheduling : Prop :=
  (∀ s : State, s.booted = true → s.sched.picked = none →
    (64 ≤ s.sched.buffer.length → exec .schedulerPlacement s = .next s) ∧
    (s.sched.buffer.length < 64 →
      (∀ k, s.sched.lastPlace = some k → s.cycle < k + 16 → ∃ t, exec .schedulerPlacement s = .next t ∧ t.mem = s.mem ∧
        t.sched.picked = none ∧ t.sched.res = s.sched.res ∧ t.sched.lastPlace = s.sched.lastPlace) ∧
      (64 ≤ s.look.sched.buffer.length → ∃ t, exec .schedulerPlacement s = .next t ∧ t.mem = s.mem ∧ t.sched.picked = none ∧
        t.sched.res = s.sched.res) ∧
      ((∀ k, s.sched.lastPlace = some k → k + 16 ≤ s.cycle) → s.look.sched.buffer.length < 64 →
        (∀ c o l, s.look.considered.findSome? (fun c => if s.look.verdict c = 0 then (s.look.takes c).map fun p => (c, p) else none) =
            some (c, o, l) →
          ∃ t, exec .schedulerPlacement s = .next t ∧ t.mem = s.mem ∧ t.sched.picked = some (c, colOf o, rowOf o, l) ∧
            t.sched.lastPlace = some s.cycle) ∧
        ((∀ c ∈ s.look.considered, s.look.verdict c = 0 → s.look.takes c = none) → ∃ t, exec .schedulerPlacement s = .next t ∧
          t.mem = s.mem ∧ t.sched.picked = none ∧ t.sched.res = s.sched.res)))) ∧
  (∀ (s : State) (c : Cand),
    let x := s.launchQueue s.cur.n
    let late := x.starve ≠ 0 ∧ c.since + x.starve * 1024 ≤ s.cycle
    s.candidate s.cur.n = some c →
    exec .candidateOverdue s = .next (s.setLaunchQueue s.cur.n { x with overdue := decide late }) ∧
    (¬ late → exec .preemptDiscard s = .next s) ∧
    (x.lastPreempt ≠ 0 → s.cycle < x.lastPreempt + 4096 → exec .preemptDiscard s = .next s) ∧
    (∀ r, late → x.preempt = true → c.kind = 0 → s.verdict c = 0 → (x.lastPreempt = 0 ∨ x.lastPreempt + 4096 ≤ s.cycle) →
      s.fit c = none → s.youngest (s.candPrio c) = some r → s.findRes r.num = some r →
      ∃ t, exec .preemptDiscard s = .next t ∧ t.mem = s.mem ∧ Claims.decided t r.num .discarding 1)) ∧
  (∀ (s : State) (c : Cand) (x y : Nat) (l : List Nat), s.sched.picked = some (c, x, y, l) →
    (c.kind = 0 → 64 ≤ s.sched.buffer.length → exec .launch s = .next s) ∧
    (c.kind = 0 → s.sched.buffer.length < 64 → (c.d 0).getLsbD 27 = true →
      (∀ u, s.readRun c = (none, u) → exec .launch s = .next u ∧ u.sched.picked = s.sched.picked ∧ u.mem = s.mem) ∧
      ∀ cut run u, s.readRun c = (some (some (cut, run)), u) → ∃ (t : State) (r : Residency), exec .launch s = .next t ∧
        t.sched.res = s.sched.res ++ [r] ∧ r.replay = some run ∧ r.cand = c ∧ (cut = false → r.state = .loading) ∧
        (cut = true → r.state = .faulting ∧ r.reason = 8)) ∧
    (c.kind = 0 → s.sched.buffer.length < 64 → (c.d 0).getLsbD 27 = false →
      ∃ (t : State) (r : Residency) (j : LoadJob), exec .launch s = .next t ∧ t.sched.picked = none ∧ r.replay = none ∧
      t.sched.res = s.sched.res ++ [r] ∧ t.sched.loads = s.sched.loads ++ [j] ∧ r.num ≠ 0 ∧ r.num ≠ c.last ∧
      (∀ z ∈ s.sched.res, z.num ≠ r.num) ∧ r.cand = c ∧ r.x = x ∧ r.y = y ∧ r.banks = l ∧ r.state = .loading ∧
      j.resid = r.num ∧ j.shadow = false ∧ j.image = (c.d 1).toNat ∧ j.next = 0) ∧
    (c.kind = 1 → ∀ r, s.findRes c.target = some r → r.running = true → ∃ (t : State) (j : LoadJob), exec .shadowLoad s = .next t ∧
      t.mem = s.mem ∧ t.sched.picked = none ∧ t.sched.loads = s.sched.loads ++ [j] ∧ j.resid = r.num ∧ j.shadow = true ∧ j.cand = c) ∧
    (c.kind = 2 → ∀ r, s.findRes c.target = some r →
      (r.state = .uncommitted → ∃ t, exec .stop s = .next t ∧ t.mem = s.mem ∧ Claims.decided t r.num .discarding 3) ∧
      (r.state = .committed → ∃ t, exec .stop s = .next t ∧ t.mem = s.mem ∧ Claims.decided t r.num .faulting 6)) ∧
    (c.kind ≠ 0 → (s.findRes c.target).filter Residency.running = none →
      ∃ t, (if c.kind = 1 then exec .shadowLoad s = .next t else c.kind = 2 → exec .stop s = .next t) ∧
        ((c.kind = 1 ∨ c.kind = 2) → ∃ e, t.sched.buffer = s.sched.buffer ++ [e] ∧ e.d0.extractLsb' 48 8 = 9)))

/-- R48, R50, R374, R377, R381: a commit request marks the running residency and is answered, and the answer completes the root's `commit`;
the watchdog discards an uncommitted residency and faults a committed one; of the fault reports that have arrived for a residency that of
the lowest tile faults it with its reason and is posted, at once or when the buffer has room, and reports for a residency that does not run
are ignored; a fault of a spill is posted with a tag; a tile's event enters the scheduler's buffer, and in a full one it waits or, of kinds
0x11 to 0x15, is dropped; a record is written to its ring, with its sequence number, and consumed room is respected. -/
def Sys2Proof.Parts.ResidencyEvents : Prop :=
  (∀ (s : State) (p : Packet) (r : Residency), s.arrived 4097 isCommit = some p → s.findRes p.h.resid = some r → r.running = true →
    ∃ (t : State) (f : Flight), exec .commitRequest s = .next t ∧ t.mem = s.mem ∧ (t.findRes r.num).map Residency.state = some .committed ∧
      t.net = s.net ++ [f] ∧ f.p.h.kind = 12 ∧ f.p.h.op = opCommitReply ∧ f.p.h.dst = p.h.stile ∧ f.p.h.info = p.h.info) ∧
  (∀ (s : State) (p : Packet), s.arrived s.cur.t isCommitReply = some p → (s.ctx p.h.info.toNat).wait = .commit →
    (s.ctx p.h.info.toNat).resid = some p.h.resid → ∃ t, exec .commitReply s = .next t ∧ t.mem = s.mem ∧
      Claims.resumed s t p.h.info.toNat) ∧
  (∀ (s : State) (r : Residency), s.findRes s.cur.n = some r →
    (r.cand.watchdog = 0 → exec .watchdogExpiry s = .next s) ∧
    (r.cand.watchdog ≠ 0 → r.startCycle + r.cand.watchdog ≤ s.cycle →
      (r.state = .uncommitted → ∃ t, exec .watchdogExpiry s = .next t ∧ Claims.decided t r.num .discarding 2) ∧
      (r.state = .committed → ∃ t, exec .watchdogExpiry s = .next t ∧ Claims.decided t r.num .faulting 5))) ∧
  (∀ (s : State) (p q : Packet), s.arrived 4097 isFault = some p → (⟨4097, q⟩ : Arrived) ∈ s.inbox → isFault q = true →
    q.h.resid = p.h.resid → (∀ x ∈ s.inbox, x.node = 4097 → isFault x.p = true → x.p.h.resid = p.h.resid →
      x.p = q ∨ q.h.stile < x.p.h.stile) →
    let w := q.pay.headD 0
    let e : EventRec := ⟨((s.findRes p.h.resid).map fun r => r.cand.queue).getD 0, w.extractLsb' 192 64, w.extractLsb' 128 64, w.extractLsb' 64 64⟩
    (∀ r, s.findRes p.h.resid = some r → r.running = true → ∃ t, exec .faultReport s = .next t ∧ t.mem = s.mem ∧
      Claims.decided t r.num .faulting (w.extractLsb' 240 8).toNat ∧
      (s.sched.buffer.length < 64 → t.sched.buffer = s.sched.buffer ++ [e]) ∧
      (64 ≤ s.sched.buffer.length → t.sched.buffer = s.sched.buffer ∧ (t.findRes r.num).bind Residency.event = some e)) ∧
    ((s.findRes p.h.resid).filter Residency.running = none → ∃ t, exec .faultReport s = .next t ∧ t.sched = s.sched ∧ t.mem = s.mem)) ∧
  (∀ (s : State) (x : SpillReq), s.sched.buffer.length < 64 → s.sched.spills.find? (fun x => x.tag.isNone) = some x →
    ∃ (t : State) (e : EventRec) (n : Nat), exec .spillFault s = .next t ∧ t.mem = s.mem ∧ t.sched.buffer = s.sched.buffer ++ [e] ∧
      e.d0.extractLsb' 56 8 = 0x16 ∧ e.d1 = x.va ∧ e.d2 = BitVec.ofNat 64 n ∧ { x with tag := some n } ∈ t.sched.spills ∧
      ∀ y ∈ s.sched.spills, y.resid = x.resid → y.tag ≠ some n) ∧
  (∀ s : State,
    let ok (e : EventRec) : Bool := (s.eventQueue e.queue).enable &&
      decide (((s.eventQueue e.queue).posted - (s.eventQueue e.queue).consumed).toNat < 2 ^ (s.eventQueue e.queue).size)
    (s.cur.n ≠ 1 → s.sched.buffer.find? ok = none → exec .eventRecordPost s = .next s) ∧
    (∀ p, s.cur.n = 1 → s.arrived 4097 isEvent = some p →
      let w := p.pay.headD 0
      let limited := 0x11 ≤ (w.extractLsb' 248 8).toNat ∧ (w.extractLsb' 248 8).toNat ≤ 0x15
      ∃ t, exec .eventRecordPost s = .next t ∧ t.mem = s.mem ∧
        (s.sched.buffer.length < 64 → t.sched.buffer = s.sched.buffer ++ [⟨if p.h.op = 1 then s.queueOf p.h.resid else 0,
          w.extractLsb' 192 64, w.extractLsb' 128 64, w.extractLsb' 64 64⟩]) ∧
        (64 ≤ s.sched.buffer.length → limited → t.sched = s.sched ∧ t.inbox.length + 1 = s.inbox.length) ∧
        (64 ≤ s.sched.buffer.length → ¬ limited → t = s)) ∧
    (∀ (e : EventRec), s.sched.buffer.find? ok = some e →
      let x := s.eventQueue e.queue
      let pa := x.base.toNat + 32 * (x.posted.toNat % 2 ^ x.size)
      s.cur.n ≠ 1 → (s.physWrite pa 32 0).1 = false → ∃ t, exec .eventRecordPost s = .next t ∧ t.sched.buffer.find? ok = some e ∧ t.mem = s.mem) ∧
    (∀ (e : EventRec) (k : Nat), s.sched.buffer.find? ok = some e →
      let x := s.eventQueue e.queue
      let pa := x.base.toNat + 32 * (x.posted.toNat % 2 ^ x.size)
      s.cur.n ≠ 1 → (s.arrive pa).1 = true → s.memOk = true → s.inDescriptor pa = false → s.physKey pa = some k → k % 32 = 0 → (∀ c, s.dramCoord pa = some c → Claims.rowFree s c) →
      ∃ t, exec .eventRecordPost s = .next t ∧ (t.eventQueue e.queue).posted = x.posted + 1 ∧ t.sched.buffer = s.sched.buffer.eraseP ok ∧
        t.readSector k = (x.posted ++ (if x.posted.toNat / 2 ^ x.size % 2 = 0 then 1#32 else 0#32)) ++ (e.d2 ++ (e.d1 ++ e.d0))))

/-- R49, R376, R51: a residency to be discarded sends step 1 to every tile of its region, behind the record of its fault; a tile stops its
contexts at step 1, and reports a step that is over, step 6, which frees what the residency holds there, after 512 cycles; when every tile
has reported, the next step begins, and behind step 6 the entry is free; a residency whose conditions hold ends: its entry is free and its
completion is posted. -/
def Sys2Proof.Parts.DiscardSteps : Prop :=
  (∀ (s : State) (r : Residency), s.findRes s.cur.n = some r → r.state = .discarding ∨ r.state = .faulting → r.step = 0 →
    (r.event ≠ none → 64 ≤ s.sched.buffer.length → exec .discard s = .next s) ∧
    (r.event = none ∨ s.sched.buffer.length < 64 → ∃ t, exec .discard s = .next t ∧ t.mem = s.mem ∧
      (t.findRes r.num).map Residency.step = some 1 ∧ t.sched.buffer = s.sched.buffer ++ r.event.toList ∧
      t.net.length = s.net.length + (s.regionTiles r).length)) ∧
  (∀ (s : State) (p : Packet), s.arrived s.cur.t isDiscard = some p → p.h.info = 1 → (s.tile s.cur.t).stopping = [] →
    ∃ (t : State) (f : Flight), exec .discardArrival s = .next t ∧ t.mem = s.mem ∧ t.net = s.net ++ [f] ∧ f.p.h.kind = 12 ∧
      f.p.h.op = opStepDone ∧ f.p.h.info = 1 ∧ f.p.h.resid = p.h.resid ∧
      ∀ k, k / 16 = s.cur.t → (s.ctx k).resid = some p.h.resid → (t.ctx k).run = .stopped ∧ (t.ctx k).async = []) ∧
  (∀ (s : State) (n c : Nat), s.arrived s.cur.t isDiscard = none → (s.tile s.cur.t).stopping = [(n * 8 + 6, c)] →
    (s.cycle < c + 512 → ∃ t, exec .discardArrival s = .next t ∧ t.mem = s.mem ∧ t.net = s.net ∧
      (t.tile s.cur.t).stopping = [(n * 8 + 6, c)]) ∧
    (c + 512 ≤ s.cycle → ∃ (t : State) (f : Flight), exec .discardArrival s = .next t ∧ f ∈ t.net ∧ f.p.h.kind = 12 ∧
      f.p.h.op = opStepDone ∧ f.p.h.info = 6 ∧ f.p.h.resid = n ∧ (t.tile s.cur.t).stopping = [] ∧
      ∀ b ∈ s.ctxBanks n s.cur.t, ∀ q, q < 4 → t.ctx ((s.cur.t * 4 + q) * 4 + b) = {})) ∧
  (∀ (s : State) (r : Residency), s.arrived 4097 isStepDone = none → s.findRes s.cur.n = some r →
    r.state = .discarding ∨ r.state = .faulting → r.step ≠ 0 →
    ((∃ t ∈ s.regionTiles r, t ∉ r.reported) → exec .discardStepDone s = .next s) ∧
    ((∀ t ∈ s.regionTiles r, t ∈ r.reported) →
      (r.step ≠ 6 → ∃ t, exec .discardStepDone s = .next t ∧ t.mem = s.mem ∧ (t.findRes r.num).map Residency.step = some (r.step + 1)) ∧
      (r.step = 6 → r.state = .discarding → 64 ≤ s.sched.buffer.length → exec .discardStepDone s = .next s) ∧
      (r.step = 6 → r.state = .faulting ∨ s.sched.buffer.length < 64 →
        ∃ t, exec .discardStepDone s = .next t ∧ t.findRes r.num = none))) ∧
  (∀ (s : State) (r : Residency), s.findRes s.cur.n = some r → r.running = true →
    (s.ended r = false → exec .residencyEnd s = .next s) ∧
    (s.ended r = true → ∃ (t : State) (e : EventRec), exec .residencyEnd s = .next t ∧ t.findRes r.num = none ∧ e ∈ t.sched.buffer ∧
      e.queue = r.cand.queue ∧ e.d0.extractLsb' 56 8 = 1 ∧ e.d0.extractLsb' 48 8 = 0 ∧ e.d0.extractLsb' 0 16 = BitVec.ofNat 16 r.cand.tag))

namespace Sys2Proof.Claims

/-- The mailbox commands, with code and length in 32-byte units. -/
def commands : List (Instr × Nat × Nat) := [
  (.tlbinv, 1, 1), (.regload, 2, 72), (.spillresume, 3, 1), (.rowthresh, 4, 96), (.eyecfg, 5, 1), (.powercap, 0x10, 1),
  (.sensorread, 0x11, 0), (.logread, 0x12, 1), (.replaycfg, 0x20, 1), (.replayload, 0x21, 1), (.almanacread, 0x30, 1)]

/-- A command of a code and length is busy: as COMMAND stood at GO. -/
def asked (s : State) (code len : Nat) : Prop :=
  s.host.status.extractLsb' 0 2 = 1 ∧ (s.host.running.extractLsb' 48 16).toNat = code ∧ (s.host.running.extractLsb' 32 16).toNat = len

/-- Dword `i` of its payload. -/
def arg (s : State) (i : Nat) : W64 := s.host.cmdBuf.get 0 i

/-- The command is done with an error, 0 for none: STATUS says so, and event 0x30 is posted when event queue 0 has interrupts enabled. -/
def finished (s t : State) (err : Nat) : Prop :=
  t.host.status = s.host.running.extractLsb' 0 32 ++ 0#16 ++ BitVec.ofNat 8 err ++ 2#8 ∧
    ((s.eventQueue 0).irq = true → ∃ e : EventRec, t.sched.buffer.getLast? = some e ∧ e.queue = 0 ∧ e.d0.extractLsb' 56 8 = 0x30 ∧
      e.d0.extractLsb' 0 16 = s.host.running.extractLsb' 48 16 ∧ e.d1 = t.host.status)

/-- It is done with some error, which the manual does not number. -/
def turnedAway (s t : State) : Prop := ∃ err, 0 < err ∧ err < 256 ∧ finished s t err

/-- The signature over the SHA3-512 hash of a transcript, its dwords little-endian. -/
def signature (l : List W64) : W64 := Config.falconSign (Config.sha3 (l.flatMap fun x => (List.range 8).map fun i => x.extractLsb' (8 * i) 8))

/-- The state an SPDM exchange leaves. -/
def exchanged (s t : State) (req reply : List W64) : Prop :=
  t.mgmt.spdmReply = reply ∧ t.mgmt.spdmTranscript = s.mgmt.spdmTranscript ++ req ++ reply ∧ t.mem = s.mem ∧ t.sched = s.sched ∧
    t.ctxs = s.ctxs ∧ t.mgmt.meas = s.mgmt.meas ∧ t.mgmt.fuse = s.mgmt.fuse

end Sys2Proof.Claims

/-- R386: GO takes COMMAND as it stands and makes it busy, and does nothing while one is; a command's event does nothing unless its command is
busy; a length that is not the command's is answered with 0xFE. The lengths are the model's choice (log entry 13). -/
def Sys2Proof.Parts.MailboxForm : Prop :=
  ∀ p ∈ Claims.commands, ∀ s : State,
    (∀ v : BitVec 64,
      (s.host.status.extractLsb' 0 2 = 1 → exec (.hostRegisterWrite 0x1FF008 8 v) s = .next s) ∧
      (s.host.status.extractLsb' 0 2 ≠ 1 → (s.host.command.extractLsb' 48 16).toNat = p.2.1 → s.recovery = false →
        exec (.hostRegisterWrite 0x1FF008 8 v) s = .next { s with host := { s.host with
          running := s.host.command, status := s.host.command.extractLsb' 0 32 ++ 1#32 } })) ∧
    (s.host.status.extractLsb' 0 2 ≠ 1 ∨ (s.host.running.extractLsb' 48 16).toNat ≠ p.2.1 → exec p.1 s = .next s) ∧
    (∀ len, Claims.asked s p.2.1 len → len ≠ p.2.2 → ∃ t, exec p.1 s = .next t ∧ t.mem = s.mem ∧ t.ctxs = s.ctxs ∧ Claims.finished s t 0xFE)

/-- R359, R362, R378: TLBINV removes exactly the translations it names and is done when no access that used one is under way, and refuses a
count of pages that is not 1 to 65,536; REGLOAD installs eight checked regions once the memory ports are drained, or none while a residency
is live, a host's request waits or one fails its check; SPILLRESUME lets the spill be tried again, or faults its residency with reason 4,
and is refused without such a request. -/
def Sys2Proof.Parts.MappingCommands : Prop :=
  (∀ s : State, Claims.asked s 1 1 →
    (∀ lo hi : Nat, s.mgmt.shoot = none → (Claims.arg s 0).toNat ≤ 3 → (Claims.arg s 1).toNat < 2 ^ 16 →
      lo = (Claims.arg s 2).toNat / 2 ^ 16 * 2 ^ 16 →
      hi = lo + (Claims.arg s 3).toNat * 2 ^ 16 →
      ((Claims.arg s 0).toNat ≤ 1 → 1 ≤ (Claims.arg s 3).toNat ∧ (Claims.arg s 3).toNat ≤ 65536) →
      ∃ t, exec .tlbinv s = .next t ∧ t.mem = s.mem ∧ t.host = s.host ∧ t.mgmt.shoot ≠ none ∧
        ∀ e, e ∈ t.tlbs ↔ e ∈ s.tlbs ∧ ¬ (Claims.arg s 0 = 3 ∨ (e.asid = (Claims.arg s 1).toNat ∧ (Claims.arg s 0 = 2 ∨
          (e.vpn * 2 ^ e.size < hi ∧ lo < (e.vpn + 1) * 2 ^ e.size))))) ∧
    (s.mgmt.shoot = none → (Claims.arg s 0).toNat ≤ 1 → (Claims.arg s 3 = 0 ∨ 65536 < (Claims.arg s 3).toNat) →
      ∃ t, exec .tlbinv s = .next t ∧ t.mem = s.mem ∧ t.tlbs = s.tlbs ∧ Claims.turnedAway s t) ∧
    (∀ l, s.mgmt.shoot = some l → (∀ e ∈ l, ∀ y ∈ (s.tile e.1).txns, y.tid ≠ e.2) →
      ∃ t, exec .tlbinv s = .next t ∧ t.mem = s.mem ∧ t.tlbs = s.tlbs ∧ Claims.finished s t 0) ∧
    (∀ l, s.mgmt.shoot = some l → (∃ e ∈ l, ∃ y ∈ (s.tile e.1).txns, y.tid = e.2) →
      ∃ t, exec .tlbinv s = .next t ∧ t.host = s.host ∧ t.tlbs = s.tlbs)) ∧
  (∀ s : State, Claims.asked s 2 72 →
    let entry (i : Nat) : Region := readRegion fun j => Claims.arg s (36 * i + j)
    let flaw (i : Nat) : Nat := regionCheck (Claims.arg s) ((List.range 8).map entry) i
    let hosts := s.inbox.any fun x => x.p.h.host
    (s.sched.res ≠ [] ∨ hosts = true → ∃ t, exec .regload s = .next t ∧ t.regions = s.regions ∧ t.mem = s.mem ∧ Claims.turnedAway s t) ∧
    (s.sched.res = [] → hosts = false → (∀ i, i < 8 → flaw i = 0) →
      ((∀ x ∈ s.inbox, x.node < 2048 ∨ 2176 ≤ x.node) →
        ∃ t, exec .regload s = .next t ∧ t.mem = s.mem ∧ t.regions = (List.range 8).map entry ∧ Claims.finished s t 0) ∧
      ((∃ x ∈ s.inbox, 2048 ≤ x.node ∧ x.node < 2176) → exec .regload s = .next s)) ∧
    (∀ i, s.sched.res = [] → hosts = false → i < 8 → flaw i ≠ 0 → (∀ j, j < i → flaw j = 0) →
      ∃ t, exec .regload s = .next t ∧ t.mem = s.mem ∧ t.regions = s.regions ∧ t.host.rspBuf.get 0 0 = BitVec.ofNat 64 i ∧
        Claims.finished s t (flaw i))) ∧
  (∀ (s : State) (x : SpillReq) (r : Residency), Claims.asked s 3 1 →
    s.sched.spills.find? (fun x => x.resid == (Claims.arg s 0).toNat && x.tile == (Claims.arg s 1).toNat &&
      x.tag == some (Claims.arg s 2).toNat) = some x → s.findRes (Claims.arg s 0).toNat = some r → r.running = true →
    (Claims.arg s 3 = 0 → ∃ t, exec .spillresume s = .next t ∧ t.mem = s.mem ∧ x ∉ t.sched.spills ∧ Claims.finished s t 0 ∧
      (x.party = 1 → (s.ctx x.key).wait = .spill → (t.ctx x.key).wait = .none) ∧
      (x.party = 2 → (t.bank x.tile x.queue).spillFaulted = false)) ∧
    (Claims.arg s 3 = 1 → ∃ t, exec .spillresume s = .next t ∧ t.mem = s.mem ∧ Claims.decided t r.num .faulting 4 ∧
      Claims.finished s t 0)) ∧
  (∀ s : State, Claims.asked s 3 1 →
    s.sched.spills.find? (fun x => x.resid == (Claims.arg s 0).toNat && x.tile == (Claims.arg s 1).toNat &&
      x.tag == some (Claims.arg s 2).toNat) = none → ∃ t, exec .spillresume s = .next t ∧ t.mem = s.mem ∧
      t.sched.spills = s.sched.spills ∧ Claims.turnedAway s t)

/-- R369, R365, R389, R390, R391: ROWTHRESH sets the thresholds and radius of every port, or of none with error 1 when a value is out of its
bounds; EYECFG sets a channel's thresholds and care; POWERCAP sets a cap of 400 to 2,400 W; REPLAYCFG starts an empty capture beside those
of other queues; REPLAYLOAD binds a capture to a host tag. -/
def Sys2Proof.Parts.SettingCommands : Prop :=
  (∀ s : State, Claims.asked s 4 96 →
    let v (p j : Nat) : Nat := (Claims.arg s (3 * p + j)).toNat
    let fine (p : Nat) : Prop := 2 ≤ v p 0 ∧ v p 0 < v p 1 ∧ v p 0 ≤ 4096 ∧ v p 1 ≤ 8192 ∧ (v p 2 = 1 ∨ v p 2 = 2)
    ((∀ p, p < 128 → fine p) → ∃ t, exec .rowthresh s = .next t ∧ t.mem = s.mem ∧ Claims.finished s t 0 ∧
      ∀ p, p < 128 → t.port p = { s.port p with mgmt := v p 0, mit := v p 1, radius := v p 2 }) ∧
    ((∃ p, p < 128 ∧ ¬ fine p) → ∃ t, exec .rowthresh s = .next t ∧ t.mem = s.mem ∧ t.ports = s.ports ∧ Claims.finished s t 1)) ∧
  (∀ s : State, Claims.asked s 5 1 →
    let n := (Claims.arg s 0).toNat
    (n < 512 → (Claims.arg s 1).toNat < 256 → (Claims.arg s 2).toNat < 256 → (Claims.arg s 3).toNat < 2 →
      ∃ t, exec .eyecfg s = .next t ∧ t.mem = s.mem ∧ Claims.finished s t 0 ∧ t.channel n =
        { s.channel n with thT := (Claims.arg s 1).toNat, thV := (Claims.arg s 2).toNat, auto := decide (Claims.arg s 3 = 1) }) ∧
    (512 ≤ n → ∃ t, exec .eyecfg s = .next t ∧ t.channels = s.channels ∧ Claims.turnedAway s t)) ∧
  (∀ s : State, Claims.asked s 0x10 1 →
    let v := (Claims.arg s 0).toNat
    (400 ≤ v → v ≤ 2400 → ∃ t, exec .powercap s = .next t ∧ t.mgmt.cap = v ∧ t.mem = s.mem ∧ Claims.finished s t 0) ∧
    (v < 400 ∨ 2400 < v → ∃ t, exec .powercap s = .next t ∧ t.mgmt.cap = s.mgmt.cap ∧ t.mem = s.mem ∧ Claims.turnedAway s t)) ∧
  (∀ s : State, Claims.asked s 0x20 1 → (Claims.arg s 0).toNat < 16 → (Claims.arg s 1).toNat % 32 = 0 →
    0 < (Claims.arg s 2).toNat → (Claims.arg s 1).toNat + 32 * (Claims.arg s 2).toNat ≤ 2 ^ 40 →
    ∃ t, exec .replaycfg s = .next t ∧ Claims.finished s t 0 ∧
      ({ lq := (Claims.arg s 0).toNat, addr := (Claims.arg s 1).toNat, size := (Claims.arg s 2).toNat, used := 0, full := false } : Capture) ∈
        t.mgmt.captures ∧
      ∀ x ∈ s.mgmt.captures, x.lq ≠ (Claims.arg s 0).toNat → x.addr ≠ (Claims.arg s 1).toNat → x ∈ t.mgmt.captures) ∧
  (∀ s : State, Claims.asked s 0x21 1 → (Claims.arg s 0).toNat < 2 ^ 16 → (Claims.arg s 1).toNat % 32 = 0 →
    (Claims.arg s 1).toNat + 32 * (Claims.arg s 2).toNat ≤ 2 ^ 40 →
    ∃ t, exec .replayload s = .next t ∧ t.mem = s.mem ∧ Claims.finished s t 0 ∧
      t.mgmt.replay.find? (fun e => e.1 == (Claims.arg s 0).toNat) =
        some ((Claims.arg s 0).toNat, (Claims.arg s 1).toNat, (Claims.arg s 2).toNat))

/-- R365, R370, R387, R395: SENSORREAD gives each sensor's latest value and extremes, each port's counts of corrected errors and stalls, and each
channel's spares left, failing mark and lane margins, and each tile's count of corrected SRAM errors (their layout is the model's, log entry 17),
LOGREAD the log's entries from an index on, ALMANACREAD the Almanac's records from a number on; a sample, taken each millisecond, sets every
sensor's latest value and widens its extremes. -/
def Sys2Proof.Parts.ReadCommands : Prop :=
  (∀ s : State, Claims.asked s 0x11 0 → ∃ t, exec .sensorread s = .next t ∧ t.mem = s.mem ∧ Claims.finished s t 0 ∧
    t.host.rspBuf.map Prod.snd =
      ((List.range sensorCount).flatMap fun i =>
        let x := s.mgmt.sensors.get {} i
        let first := Config.reading i 0
        [BitVec.ofNat 64 i, (if x.seen then x.now else first).setWidth 64, (if x.seen then x.lo else first).setWidth 64,
          (if x.seen then x.hi else first).setWidth 64]) ++
      ((List.range 128).flatMap fun p => [BitVec.ofNat 64 (s.port p).corrected, BitVec.ofNat 64 (s.port p).mitStall,
        BitVec.ofNat 64 (s.port p).trainStall]) ++
      ((List.range 512).flatMap fun n =>
        BitVec.ofNat 64 ((2 - (s.channel n).spares) + if (s.channel n).failing then 256 else 0) :: (List.range 37).map fun i =>
          BitVec.ofNat 64 ((s.channel n).laneWord n (2 * i + 1) * 2 ^ 32 + (s.channel n).laneWord n (2 * i))) ++
      (List.range 1920).map fun i => BitVec.ofNat 64 (s.tile i).softFixed) ∧
  (∀ s : State, Claims.asked s 0x12 1 → s.mgmt.logCount ≤ 4096 → (Claims.arg s 0).toNat ≤ s.mgmt.logCount →
    ∃ t, exec .logread s = .next t ∧ t.mem = s.mem ∧ Claims.finished s t 0 ∧ t.host.rspBuf.map Prod.snd =
      (List.range (s.mgmt.logCount - (Claims.arg s 0).toNat)).flatMap fun j =>
        s.mgmt.log.get [] ((Claims.arg s 0).toNat + j) ++ [0, 0, 0, 0]) ∧
  (∀ s : State, Claims.asked s 0x30 1 → ∃ t, exec .almanacread s = .next t ∧ t.mem = s.mem ∧ Claims.finished s t 0 ∧
    t.host.rspBuf.map Prod.snd = (s.mgmt.almA.drop (Claims.arg s 0).toNat).flatMap fun r =>
      [r.extractLsb' 0 64, r.extractLsb' 64 64, r.extractLsb' 128 64, r.extractLsb' 192 64]) ∧
  (∀ (s : State) (vals : List (BitVec 32)), s.cycle % cyclesPerMs ≠ 0 → exec (.sensorSample vals) s = .next s) ∧
  (∀ (s : State) (vals : List (BitVec 32)), s.cycle % cyclesPerMs = 0 → ∃ t, exec (.sensorSample vals) s = .next t ∧ t.mem = s.mem ∧ t.sched = s.sched ∧
    ∀ i v, vals[i]? = some v ∨ (vals.length ≤ i ∧ i < sensorCount ∧ v = Config.reading i (s.cycle / cyclesPerMs)) →
      let x := s.mgmt.sensors.get {} i
      let y := t.mgmt.sensors.get {} i
      y.now = v ∧ y.seen = true ∧
        (x.seen = true → y.lo.toNat = min x.lo.toNat v.toNat ∧ y.hi.toNat = max x.hi.toNat v.toNat) ∧
        (x.seen = false → y.lo = v ∧ y.hi = v))

/-- R389: every millisecond the throttle level falls by one, to 2 at least, above the cap, rises by one, to 16 at most, below 95 % of it, and
stays otherwise; on a die with a sensor at 105 °C or above it is 4 at most; a sensor at 120 °C puts the device into the device-error state and
switches the tiles' supplies off. -/
def Sys2Proof.Parts.Throttle : Prop :=
  ∀ s : State, ∃ t, exec .throttleUpdate s = .next t ∧ t.mem = s.mem ∧
    (s.sensorNow 80 > s.mgmt.cap → t.mgmt.level = max (s.mgmt.level - 1) 2) ∧
    (s.sensorNow 80 ≤ s.mgmt.cap → s.sensorNow 80 * 100 < 95 * s.mgmt.cap → t.mgmt.level = min (s.mgmt.level + 1) 16) ∧
    (s.sensorNow 80 ≤ s.mgmt.cap → 95 * s.mgmt.cap ≤ s.sensorNow 80 * 100 → t.mgmt.level = s.mgmt.level) ∧
    (∀ d i, d < 4 → i < 16 → 1680 ≤ s.sensorNow (16 * d + i) → t.dieThrottle d ≤ 4) ∧
    (∀ d, d < 4 → (∀ i, i < 16 → s.sensorNow (16 * d + i) < 1680) → t.dieThrottle d = min t.mgmt.level 16) ∧
    ((∃ d i, d < 4 ∧ i < 16 ∧ 1920 ≤ s.sensorNow (16 * d + i)) → t.deviceError = true ∧ t.tilesOff = true) ∧
    ((∀ d i, d < 4 → i < 16 → s.sensorNow (16 * d + i) < 1920) → t.deviceError = s.deviceError ∧ t.tilesOff = s.tilesOff)

/-- R384: an update whose security version is below the fuse counter, or for no component, changes nothing; else the image stands in the
inactive slot of its component, the active slot and the fuse counter stay, and no residency is touched. -/
def Sys2Proof.Parts.FirmwareUpdates : Prop :=
  ∀ (s : State) (comp : BitVec 2) (sec : BitVec 64) (body : List (BitVec 8)) (sig : BitVec 64),
    (comp = 0 ∨ comp = 3 ∨ sec.toNat < s.mgmt.fuse → exec (.firmwareUpdate comp sec body sig) s = .next s) ∧
    (comp = 1 ∨ comp = 2 → s.mgmt.fuse ≤ sec.toNat → body.length + 8 ≤ (if comp = 1 then 65536 else 4194304) →
      ∃ t, exec (.firmwareUpdate comp sec body sig) s = .next t ∧
        t.mgmt.image comp.toNat (1 - s.mgmt.active.get 0 comp.toNat) = { sec := sec.toNat, body := body, sig := sig, bootedOnce := false } ∧
        t.mgmt.active = s.mgmt.active ∧ t.mgmt.fuse = s.mgmt.fuse ∧ t.mem = s.mem ∧ t.sched = s.sched ∧ t.ctxs = s.ctxs)

/-- R385: the responder answers each request it supports once version and algorithms are agreed, and with an error before, and every exchange
joins the transcript whose SHA3-512 hash it signs. The forms of the messages are the model's (log entry 16). -/
def Sys2Proof.Parts.Attestation : Prop :=
  ∀ s : State,
    (∃ t, exec .getVersion s = .next t ∧ t.mgmt.spdmVersion = true ∧ t.mgmt.spdmAlgs = 0 ∧
      t.mgmt.spdmTranscript = [0x84, 0x04, 0x12] ∧ t.mem = s.mem ∧ t.sched = s.sched ∧ t.ctxs = s.ctxs) ∧
    (∃ t, exec .getCapabilities s = .next t ∧
      Claims.exchanged s t [0xE1] (if s.mgmt.spdmVersion = true then [0x61, 0x16] else [0x7F])) ∧
    (∀ a : BitVec 32,
      (s.mgmt.spdmVersion = true → a.getLsbD 0 = true → a.getLsbD 1 = true → ∃ t, exec (.negotiateAlgorithms a) s = .next t ∧
        Claims.exchanged s t [0xE3, a.setWidth 64] [0x63, 3] ∧ t.negotiated = true) ∧
      (s.mgmt.spdmVersion = false ∨ a.getLsbD 0 = false ∨ a.getLsbD 1 = false → ∃ t, exec (.negotiateAlgorithms a) s = .next t ∧
        Claims.exchanged s t [0xE3, a.setWidth 64] [0x7F] ∧ t.negotiated = s.negotiated)) ∧
    (s.negotiated = false → ∀ (slot op : BitVec 8) (off len : BitVec 16) (nonce : BitVec 256),
      (∃ t, exec .getDigests s = .next t ∧ t.mgmt.spdmReply = [0x7F] ∧ t.mem = s.mem) ∧
      (∃ t, exec (.getCertificate slot off len) s = .next t ∧ t.mgmt.spdmReply = [0x7F] ∧ t.mem = s.mem) ∧
      (∃ t, exec (.challenge slot nonce) s = .next t ∧ t.mgmt.spdmReply = [0x7F] ∧ t.mem = s.mem) ∧
      (∃ t, exec (.getMeasurements op nonce) s = .next t ∧ t.mgmt.spdmReply = [0x7F] ∧ t.mem = s.mem)) ∧
    (s.negotiated = true → ∀ (off len : BitVec 16) (op : BitVec 8) (nonce : BitVec 256),
      (∃ (t : State) (l : List W64), exec .getDigests s = .next t ∧ Claims.exchanged s t [0x81] ([0x01, 1] ++ l) ∧ l.length = 8) ∧
      (∃ (t : State) (l : List W64), exec (.getCertificate 0 off len) s = .next t ∧
        Claims.exchanged s t [0x82, 0, off.setWidth 64, len.setWidth 64] ([0x02, 0] ++ l) ∧ l.length ≤ len.toNat ∧
        ∀ i, i < l.length → l[i]? = some ((Config.certificate (off.toNat + i)).setWidth 64)) ∧
      (∃ (t : State) (req l : List W64), exec (.challenge 0 nonce) s = .next t ∧
        Claims.exchanged s t req (l ++ [Claims.signature (s.mgmt.spdmTranscript ++ req ++ l)]) ∧ l.head? = some 0x03 ∧
        req = [0x83, 0, nonce.extractLsb' 0 64, nonce.extractLsb' 64 64, nonce.extractLsb' 128 64, nonce.extractLsb' 192 64]) ∧
      (1 ≤ op.toNat → op.toNat ≤ 6 → ∃ (t : State) (req l : List W64), exec (.getMeasurements op nonce) s = .next t ∧
        Claims.exchanged s t req (([0x60, 6, op.setWidth 64] ++ l) ++
          [Claims.signature (s.mgmt.spdmTranscript ++ req ++ ([0x60, 6, op.setWidth 64] ++ l))]) ∧
        l = (List.range 8).map fun i => (s.mgmt.meas.get 0 op.toNat).extractLsb' (64 * i) 64))

/-- R383, R395, R402: a reset leaves every register, queue and packet as at power-on and keeps the firmware images, the event log, the fuse
counter, which it may raise, and the Almanac, the longer valid prefix of its two copies; when both slots of either stage fail the
device is in recovery and not booted; a loss of supply stops the machine and keeps the flash, with the record that was being written; a
position that fails is retired in the Almanac and its tile is fenced. -/
def Sys2Proof.Parts.PowerEvents : Prop :=
  (∀ s : State, ∃ t, exec .deviceReset s = .next t ∧ t.powered = true ∧ t.cycle = 0 ∧ t.agenda = [] ∧ t.inputs = s.inputs ∧
    t.ctxs = [] ∧ t.cores = [] ∧ t.tiles = [] ∧ t.xbars = [] ∧ t.nodes = [] ∧ t.ports = [] ∧ t.net = [] ∧ t.inbox = [] ∧
    t.tlbs = [] ∧ t.walks = [] ∧ t.sched.res = [] ∧ t.sched.loads = [] ∧ t.regions = State.reset.regions ∧ t.deviceError = false ∧
    (∀ st slot, (t.mgmt.image st slot).sec = (s.mgmt.image st slot).sec ∧ (t.mgmt.image st slot).body = (s.mgmt.image st slot).body ∧
      (t.mgmt.image st slot).sig = (s.mgmt.image st slot).sig) ∧ s.mgmt.fuse ≤ t.mgmt.fuse ∧
    s.mgmt.logCount ≤ t.mgmt.logCount ∧
    (∀ i, i < s.mgmt.logCount → t.mgmt.logCount ≤ i + 65536 → t.mgmt.log.get [] (i % 65536) = s.mgmt.log.get [] (i % 65536)) ∧
    ((s.restarted.mgmt.verify 1).slot ≠ none → s.mgmt.readAlmanac.almA <+: t.mgmt.almA) ∧
    ((s.restarted.mgmt.verify 1).slot = none → t.mgmt.almA = s.mgmt.almA ∧ t.mgmt.almB = s.mgmt.almB) ∧
    ((s.restarted.mgmt.verify 1).slot = none ∨ (s.restarted.mgmt.verify 2).slot = none →
      t.recovery = true ∧ t.booted = false ∧ t.mgmt.fuse = s.mgmt.fuse) ∧ (t.recovery = true → t.booted = false)) ∧
  (∀ (s : State) (r : Option (BitVec 256)), ∃ t, exec (.powerLoss r) s = .next t ∧ t.powered = false ∧ t.booted = false ∧ t.agenda = [] ∧
    t.mem = s.mem ∧ t.mgmt.almA = s.mgmt.almA ++ r.toList ∧ t.mgmt.almB = s.mgmt.almB ∧ t.mgmt.log = s.mgmt.log ∧ t.mgmt.fuse = s.mgmt.fuse) ∧
  (∀ (s : State) (o : BitVec 64),
    (o.extractLsb' 56 8 ≠ 1 → o.extractLsb' 56 8 ≠ 2 → exec (.positionFence o) s = .next s) ∧
    (o.extractLsb' 56 8 = 1 ∨ o.extractLsb' 56 8 = 2 → ∃ t, exec (.positionFence o) s = .next t ∧ t.mem = s.mem ∧ t.ctxs = s.ctxs ∧
      o.extractLsb' 56 8 ++ 0#8 ++ o.extractLsb' 0 48 ∈ t.mgmt.retired ∧ (∀ u ∈ s.conf.fenced, u ∈ t.conf.fenced) ∧
      ∀ u, s.tileAt (o.extractLsb' 46 2).toNat (o.extractLsb' 41 5).toNat (o.extractLsb' 36 5).toNat = some u → u ∈ t.conf.fenced))

/-- R33, R34, R178, R206: a core's turn runs the instruction whose words stand at IP of the next bank, when that bank's context runs and
waits for nothing and its partition holds the words: `step` is `exec` of it, with the words and its guard latched; if it issued, the bank is
the core's last, else the other three banks are tried. A core that comes to an operation on another tile's barrier changes nothing and comes
again behind the other cores' turns, in a late turn. Readings and choices of the model that it rests on: log entries 5, 44 and 76. -/
def Obligations.StepRunsInstruction : Prop :=
  ∀ (s : State) (p : Cur) (r : List Turn) (i : Instr) (late : Bool), s.powered = true → s.agenda = ⟨p, if late then .late else .core⟩ :: r →
    let n := (s.core p.core).counter.toNat + 1
    let c := s.ctx ((p.t * 4 + p.q) * 4 + n % 4)
    let ip := c.ip.toNat
    let w := BitVec.ofNat 32 (Memory.readN s.mem (storeKey p.t ip) 4)
    let v := if isWide w then BitVec.ofNat 32 (Memory.readN s.mem (storeKey p.t (ip + 4)) 4) else 0
    c.run = .live → c.wait = .none → c.takesRecord = false → c.stream = none →
    c.code.base ≤ ip → ip + (if isWide w then 8 else 4) ≤ c.code.base + c.code.size → decode w v = some i →
    s.ctxErrors = [] → s.badAt (storeKey p.t ip) (if isWide w then 8 else 4) = false →
    let x := { s with
      agenda := r, cur := { t := p.t, q := p.q, b := n % 4, n := 0 }, issued := false, late := late, clash := false
      word := (v ++ w).setWidth 256, guard := guardOf w }
    let behind : State := { s with agenda := behindCores ⟨p, .late⟩ r, cur := p }
    ∀ t, exec i x = .next t →
      (t.clash = true → step s = .next behind) ∧
      (t.clash = false → t.issued = true →
        step s = .next { t.setCore p.core { t.core p.core with counter := BitVec.ofNat 2 n } with late := false }) ∧
      (t.clash = false → t.issued = false → step s = (match tryBanks t p.t p.q 3 (n + 1) with
        | .next u => .next (if u.clash then behind else { u with late := false })
        | o => o))

/-- R75, R179, R188, R24: the other turns. An event's turn is `exec` of it at its place; a running switch's turn is `exec` of its
instruction; words that are no instruction take the illegal-instruction fault, an IP outside the partition the fetch fault; a context whose
registers hold an uncorrectable error stops and reports reason 0x07 (22_faults_discard.md R377); with no turn left the cycle counter rises
and the next events of the outside are taken; without a supply nothing happens until a DEVICE_RESET (the order of turns is the model's, log
entry 5). Readings and choices of the model that it rests on: log entries 5 and 33. -/
def Obligations.StepTurns : Prop :=
  (∀ (s : State) (p : Cur) (r : List Turn) (i : Instr), s.powered = true → s.agenda = ⟨p, .event i⟩ :: r →
    step s = exec i { s with agenda := r, cur := p }) ∧
  (∀ (s : State) (p : Cur) (r : List Turn), s.powered = true → s.agenda = ⟨p, .switch⟩ :: r →
    let x := s.xbar (p.t * 4 + p.b)
    let w := BitVec.ofNat 64 (Memory.readN s.mem (switchKey p.t p.b x.store x.pc.toNat) 8)
    (x.halted = true → step s = .next { s with agenda := r, cur := p }) ∧
    (∀ i, x.halted = false → s.badAt (switchKey p.t p.b x.store x.pc.toNat) 8 = false → decodeSwitch w = some i → step s = exec i { s with agenda := r, cur := p, word := w.setWidth 256 })) ∧
  (∀ (s : State) (p : Cur) (r : List Turn), s.powered = true → s.agenda = ⟨p, .core⟩ :: r →
    let n := (s.core p.core).counter.toNat + 1
    let k := (p.t * 4 + p.q) * 4 + n % 4
    let c := s.ctx k
    let ip := c.ip.toNat
    c.run = .live → c.wait = .none → c.takesRecord = false → c.stream = none → c.handler = false → c.trapvec ≠ 0 → s.ctxErrors = [] →
    s.badWords = [] → (ip < c.code.base ∨ c.code.base + c.code.size < ip + 4 → ∃ t, step s = .next t ∧ t.mem = s.mem ∧
      (t.ctx k).handler = true ∧ (t.ctx k).ip = c.trapvec ∧ (t.ctx k).trapip = c.ip ∧ (t.ctx k).trapcause = 0x02) ∧
    (∀ w, w = BitVec.ofNat 32 (Memory.readN s.mem (storeKey p.t ip) 4) → isWide w = false → decode w 0 = none → c.code.base ≤ ip →
      ip + 4 ≤ c.code.base + c.code.size → ∃ t, step s = .next t ∧ t.mem = s.mem ∧
      (t.ctx k).handler = true ∧ (t.ctx k).ip = c.trapvec ∧ (t.ctx k).trapip = c.ip ∧ (t.ctx k).trapcause = 0x01)) ∧
  (∀ s : State, s.me.run = .live → s.me.wait = .none → s.me.takesRecord = false → s.me.stream = none → s.me.resid ≠ none →
    s.me.code.base ≤ s.me.ip.toNat → s.me.ip.toNat + 8 ≤ s.me.code.base + s.me.code.size → s.ctxErrors.contains s.cur.ctx = true →
    ∃ (t : State) (f : Flight), tryContext s = .next t ∧ t.mem = s.mem ∧ t.me.run = .stopped ∧ t.net = s.net ++ [f] ∧ f.p.h.op = opFault ∧
      (f.p.pay.headD 0).extractLsb' 240 8 = 7) ∧
  (∀ s : State, s.powered = true → s.agenda = [] → ∃ t, step s = .next t ∧ t.cycle = s.cycle + 1 ∧ t.mem = s.mem ∧ t.ctxs = s.ctxs ∧
    t.inputs = s.inputs.drop s.taken.length ∧ (∀ x l, s.inputs = x :: l → fenceOf x = none → t.inputs = l)) ∧
  (∀ s : State, s.powered = false →
    (s.inputs = [] → step s = .fault .noSupply) ∧
    (∀ p i r, s.inputs = ⟨p, .event i⟩ :: r → i ≠ .deviceReset → step s = .next { s with inputs := r }) ∧
    (∀ p r, s.inputs = ⟨p, .event .deviceReset⟩ :: r → step s = exec .deviceReset { s with inputs := r, cur := p }))

/-- R180, R188: every word of the tables of encoding examples at the ends of sections 10 to 15 (from `ld.d` at 10's 0x0040 to `halt` in 15),
the illegal word 0xFFFF_FFFF of R188, and the four words of the worked example of R302 decode to the instruction that the example gives for
them, and the one example with a guard names it. -/
def Obligations.DecodeExamples : Prop :=
  decode 0x40A20058 0 = some (.ld 5 2 2 3) ∧ decode 0x03BB2800 0 = some (.add 29 27 5) ∧
  decode 0x00632003 0 = some (.add 3 3 4) ∧ guardOf 0x00632003 = 3 ∧ decode 0x30FFFFE8 0 = some (.bt 1 0x7FFFD) ∧
  decode 0x3600002C 0 = some (.call 44) ∧ decode 0x00000000 0 = some (.add 0 0 0) ∧ decode 0xFFFFFFFF 0 = none ∧
  decode 0x28642890 0 = some (.sel 3 4 5 2) ∧ decode 0x20221910 0 = some (.cmp 1 2 3 2 2) ∧
  decode 0x24445FD8 0 = some (.cmpi 2 4 2 0x3FB) ∧ decode 0x18C62018 0 = some (.shri 6 6 3) ∧
  decode 0x1C3FC000 0 = some (.lhi 1 3 0xF800) ∧ decode 0x04E84820 0 = some (.div 7 8 9) ∧ decode 0x38000010 0 = some .ret ∧
  decode 0x4064FFD0 0 = some (.ld 3 4 0x7FE 2) ∧ decode 0x4C460040 0 = some (.vst 2 6 2) ∧ decode 0x54E84B08 0 = some (.aadd 7 8 9 1 4) ∧
  decode 0x594B6700 0 = some (.cas 10 11 12 3 4 0) ∧ decode 0x5C220000 0 = some (.gtest 1 2) ∧ decode 0x5C6200A0 0 = some (.gcast 3 2 4) ∧
  decode 0x60021800 0 = some (.cinv 2 3) ∧ decode 0x64000020 0 = some (.fence 2) ∧ decode 0x67A500C0 0 = some (.stdone 29 5 4) ∧
  decode 0x68640008 0 = some (.stm 3 4 2) ∧ decode 0x70C50010 0 = some (.qpop 6 5) ∧ decode 0x74670000 0 = some (.bset 3 7) ∧
  decode 0x80221800 0 = some (.vadd 1 2 3 0 0) ∧ decode 0x84221800 0 = some (.valusVadd 1 2 3 0 0 0) ∧
  decode 0x8422EC00 0 = some (.valusVadd 1 2 29 1 0 0) ∧ decode 0x88853066 0 = some (.vfdiv 4 5 6 1 2) ∧
  decode 0x8CE84A83 0 = some (.vfma 7 8 9 10 0 3) ∧ decode 0x949B0202 0 = some (.vcvtn 4 27 0 0 0 2) ∧
  decode 0xA0432910 0 = some (.vcomp 2 3 5 4) ∧ decode 0xA40200C0 0 = some (.vcfg 0 2) ∧ decode 0xA8611200 0 = some (.vcmp 3 1 2 2 0 0 0) ∧
  decode 0xB07B0080 0 = some (.tkpop 3 27) ∧ decode 0xB3A00188 0 = some (.tksend 29 0 1) ∧ decode 0xBD3B5000 0 = some (.btag 9 27 5) ∧
  decode 0xB44879C0 0 = some (.tee 2 8 3 4) ∧ decode 0xB8923A00 0 = some (.fisect 1 2 3 10) ∧
  decode 0xC0C74000 0x60000004 = some (.wload 6 7 8 1 1 4) ∧ decode 0xC0440150 0x21223900 = some (.mmq 2 4 0 5 0 0 1 0x1223900) ∧
  decode 0xC4800000 3 = some (.carm 4 3) ∧ decode 0xC8221810 0 = some (.bwait 1 2 3) ∧ decode 0xCC611000 0 = some (.spawn 3 1 2) ∧
  decode 0xCC000008 0 = some .tdone ∧ decode 0xD0000000 0 = some .potinit ∧ decode 0xD0000008 0 = some .wquiet ∧
  decode 0xD0000018 0 = some .commit ∧ decode 0xD4270000 0 = some (.crd 1 7) ∧ decode 0xD4C40008 0 = some (.cwr 6 4) ∧
  decode 0xD8000008 0 = some .eret ∧ decode 0xD8000020 0 = some .halt ∧ decodeSwitch 0x0000000000001003 = some .sloop ∧
  decodeSwitch 0x0040400000001801 = some .sdbr ∧ decodeSwitch 0x0040000000002A60 = some .swait ∧
  decodeSwitch 0x0000000000000800 = some .sjump

namespace Sys2Proof.Claims

/-- The operands that a switch operation admits (R300). -/
def switchLegal (i : Instr) (o : BitVec 11) : Prop :=
  (i = .snext ∧ o = 0) ∨ (i = .shalt ∧ o = 0) ∨ i = .sloop ∨ (i = .sjump ∧ o.extractLsb' 9 2 = 0) ∨ (i = .sdbr ∧ o.getLsbD 9 = false) ∨
    (i = .sbtag ∧ 1 ≤ (o.extractLsb' 7 4).toNat ∧ (o.extractLsb' 7 4).toNat ≤ 12 ∧ (o.extractLsb' 3 4).toNat ≤ 13) ∨
    (i = .swait ∧ 1 ≤ (o.extractLsb' 7 4).toNat ∧ (o.extractLsb' 7 4).toNat ≤ 12 ∧ (o.extractLsb' 3 4).toNat ≤ 13 ∧ o.extractLsb' 0 3 = 0) ∨
    (i = .sflip ∧ 1 ≤ (o.extractLsb' 7 4).toNat ∧ (o.extractLsb' 7 4).toNat ≤ 12 ∧ o.extractLsb' 0 7 = 0)

end Sys2Proof.Claims

/-- R178, R180, R298: decoding undoes encoding. Every well-formed program instruction that has words decodes from them as itself, every
operand at every value, with its guard where its format has one; every switch instruction does, with every legal operand and routes. -/
def Obligations.DecodeOfEncode : Prop :=
  (∀ (i : Instr) (g : BitVec 3) (w v : BitVec 32), wellFormed i = true → encode i g = some (w, v) →
    decode w v = some i ∧ (guardOf w = g ∨ (guardOf w = 0 ∧ ∀ h, encode i h = some (w, v)))) ∧
  (∀ (i : Instr) (r : BitVec 48) (o : BitVec 11), (∀ j, j < 12 → (r.extractLsb' (4 * j) 4).toNat ≤ 12) → Claims.switchLegal i o →
    ∃ w, encodeSwitch i r o = some w ∧ decodeSwitch w = some i ∧ w.extractLsb' 16 48 = r ∧ w.extractLsb' 0 11 = o)

/-- R181, R184, R188, R298, R303: encoding undoes decoding. The words that decode to an instruction are exactly its encoding with the guard
they name, so no two instructions share a word and no bit outside an instruction's fields may be set; likewise for switch instructions and
frames. -/
def Obligations.EncodeOfDecode : Prop :=
  (∀ (w v : BitVec 32) (i : Instr), decode w v = some i →
    wellFormed i = true ∧ encode i (guardOf w) = some (w, if isWide w then v else 0)) ∧
  (∀ (w : BitVec 64) (i : Instr), decodeSwitch w = some i → encodeSwitch i (w.extractLsb' 16 48) (w.extractLsb' 0 11) = some w) ∧
  (∀ (w : BitVec 256) (i : Instr), decodeFrame w = some i →
    encodeFrame i (w.extractLsb' 247 1) (w.extractLsb' 240 4) (w.extractLsb' 216 24) (w.extractLsb' 0 216) = some w)

/-- R93: every byte has one home, which memory lists under one key. In any state that has the canonical form of that list (addresses rising,
each once, no zero byte listed), every step, whatever its turn, answers a state that has it, so that two memories with the same bytes are
the same data. The form, and zero for a byte that nothing has written, are the model's own choice. Readings and choices of the model that it
rests on: log entries 2 and 18. -/
def Obligations.MemoryKept : Prop :=
  ∀ s t : State, s.memOk = true → step s = .next t → t.memOk = true

/-- R361, R369, R389, R383, R31, R33: the machine right after reset. Readings and choices of the model that it rests on: log entries 1, 2,
3, 4 and 8. -/
def Obligations.ResetState : Prop :=
  State.reset.memOk = true ∧ (∀ a, Memory.read State.reset.mem a = 0) ∧
  (∀ k, (State.reset.ctx k).run = .none ∧ (State.reset.ctx k).s 0 = 0 ∧ (State.reset.ctx k).p 0 = true ∧
    (State.reset.ctx k).k 0 = BitVec.allOnes 32 ∧ (State.reset.ctx k).ip = 0 ∧ (State.reset.ctx k).handler = false) ∧
  (∀ p, (State.reset.port p).mgmt = 4096 ∧ (State.reset.port p).mit = 8192 ∧ (State.reset.port p).radius = 1 ∧
    ∀ e, (State.reset.port p).slots.get 0 e = 0) ∧
  (State.reset.regions.length = 8 ∧ ∃ r, State.reset.regions.head? = some r ∧ r.valid = true ∧ r.g0 = 0 ∧ r.g1 = 511 ∧
    (∀ i, i < 35 → r.rows[i]? = some (BitVec.twoPow 35 i)) ∧ ∀ q ∈ State.reset.regions.tail, q.valid = false) ∧
  State.reset.mgmt.cap = 2400 ∧ State.reset.mgmt.level = 16 ∧ State.reset.host.devnum = 0 ∧ State.reset.net = [] ∧ State.reset.sched.res = [] ∧
  (∀ q, (State.reset.launchQueue q).enable = false ∧ (State.reset.eventQueue q).enable = false) ∧
  step State.reset = exec .deviceReset { State.reset with agenda := [] }

/-- R225, R227, R228, R65: a load changes no byte of memory, whether it completes, waits, or faults. -/
def Sys2Proof.Parts.LoadsKeepMemory : Prop :=
  ∀ (s t : State) (d a b : BitVec 5) (i : BitVec 11) (z f y : BitVec 2) (k : BitVec 3),
    exec (.ld d a i z) s = .next t ∨ exec (.vld d a i) s = .next t ∨ exec (.vldLo d a i) s = .next t ∨
      exec (.vgat d a b f k y) s = .next t → t.mem = s.mem

/-- R208, R212, R114: every two-operand scalar instruction that wraps completes, for registers and ports alike, with its result in its
destination; its source words leave their ports and the context goes on 4 bytes further. R208: the saturating forms complete with the exact
result clamped to the range, and set the saturated flag where it is. -/
def Obligations.ScalarArithmetic : Prop := Parts.ScalarBinary ∧ Parts.ScalarSaturating

/-- R208 to R210: every one-operand and immediate form completes with its result in its destination. R211, R215, R216, R217: `lhi` keeps the
bits below its position and clears those above its chunk; `prds` and `prdall` read predicates; `sel` takes one of its sources by a
predicate, both read; `ipa` gives the address of a target. R213 to R215: the instructions that write a predicate complete with it written,
and p0 stays true. -/
def Obligations.ScalarForms : Prop := Parts.ScalarUnary ∧ Parts.ScalarFormed ∧ Parts.PredicateWrites

/-- R77, R34, R82, R189: an instruction of the core takes the port-ownership fault (cause 0x04, TRAPINFO the port) for a port that is not
its core's; else, without words in its sources or room at its destinations, it waits and nothing changes; else, with a type that has no
meaning at VCFG's width, it takes the width fault (cause 0x05), and with a word that is not DATA at a source that reads an operand, the
first such source, the token fault (cause 0x06, TRAPINFO the tag and the field). None of the faults has another effect. R112, R246, R252,
R253, R189: a vector instruction whose type has no meaning at VCFG's width takes the width fault (cause 0x05) and has no other effect: the
float types at 8-bit lanes and the B type at 32-bit lanes, in every form with a type; `vdot` at 32-bit lanes; a conversion whose source or
target has no such width or no meaning at it. Readings and choices of the model that it rests on: log entry 19. -/
def Obligations.PortAndWidthFaults : Prop := Parts.PortFaults ∧ Parts.WidthFault

/-- R225, R227, R223: a load from an SRAM window that passes its checks completes with the bytes at its address, least significant byte
first, zero-extended in its destination; nothing else changes, memory least of all. R225, R227, R228, R65: a load changes no byte of memory,
whether it completes, waits, or faults. Readings and choices of the model that it rests on: log entries 50 and 63. -/
def Obligations.Loads : Prop := Parts.LocalLoads ∧ Parts.LoadsKeepMemory

/-- R223, R54, R63: a load or store whose address fails a check takes that check's fault, with no other effect; one to a bank that has
accepted a change waits until that has taken effect. R358, R223: a load of a global address that no translation holds puts its context in
the miss queue of its die, and takes the translation fault (cause 0x19) when the walk of that address has failed; with the miss queue full
it waits. Readings and choices of the model that it rests on: log entries 28, 49, 50 and 78. -/
def Obligations.AccessAndTranslationFaults : Prop := Parts.AccessFaults ∧ Parts.TranslationMiss

/-- R53, R54, R223: the checks on an address, for an access of `n` bytes: an address of no window, or of a tile that is not there, takes
cause 0x10; a private address past the private size 0x11; another tile's scratchpad 0x12; another cluster's 0x13; in each of the three
windows of the tile and its cluster, with those passed, the first bank that is not SCRATCH 0x14, and with none such the first of another
residency 0x15, with the bank in TRAPINFO; and every fault names the address. R58, R59: `gtest` gives the class of an address, 8 more where
an access of one byte passes the first five of R54's checks, and 7 for an address of no window; `gcast` gives the converted address, and
takes the cast fault (cause 0x1C, TRAPADDR the address) for a conversion that is not listed. The conversions are those of R59's table, row
by row: to the same window, from the private window, to the fabric window, to the cluster-shared window, to the scratchpad and to the
private window. Readings and choices of the model that it rests on: log entry 29. -/
def Obligations.Windows : Prop := Parts.WindowChecks ∧ Parts.SpaceTests

/-- R223 to R225, R93: a `ld` of a global address that the tile's translation holds and the tile cache does not completes by a request: the
context waits for it, with the load's register, a read request for its bytes of the one sector goes to the home, and no register or byte of
memory has changed yet. R226, R66, R97: a `st` to a global address whose translation is held retires at once; a write request with its bytes
goes to the home, listed as not yet performed, and no byte of memory but a copy in the tile cache changes. Readings and choices of the model
that it rests on: log entries 12 and 75. -/
def Obligations.RemoteAccess : Prop := Parts.RemoteLoad ∧ Parts.RemoteStore

/-- R100, R234: with no write left to be performed, `fence` and `cflush` complete at once; with some, the context waits for exactly those
and changes nothing else: for `cflush` the context's writes that touch a byte of the range's sectors. `cflush` and `cinv` of a range that
does not lie in the global window take the address-window fault (cause 0x10, TRAPADDR the start). R234, R106: the cache operations complete:
`cinv.all` leaves no line of the residency's ways and no fill that could bring one; `cinv` of a range completes with every sector of the
range invalid, any fill of one under way left without effect on the cache, and every other sector as before; a page that does not translate
is skipped. `cpref` completes at once with a fill under way for every sector of the range that was not valid, a read of a whole sector by
its home, and none for one that is valid or under way; without a CACHE bank, outside the global window and for an empty range it does
nothing. Readings and choices of the model that it rests on: log entries 27, 34, 35, 63 and 92. -/
def Obligations.OrderingAndCache : Prop := Parts.Fences ∧ Parts.CacheOps

/-- R103: with no store left to be performed, `stdone` sends its DONE token (tag 0xB, the value in bits 63:32, the scope in 27:24, the core
in 21:20 and the tile in 19:8) at once, to a port or to a FIFO queue of the residency. R236 to R238, R223: `stq` first has the checks of a
load of its source, then its own; each that fails takes its fault. A posted `stq` to this device that passes them retires, and a write
packet with its sectors goes to its tile, or to the scheduler without a queue; the waiting form waits for its transaction. Readings and
choices of the model that it rests on: log entries 12, 27, 32, 34 and 65. -/
def Obligations.TokensAndStores : Prop := Parts.DoneTokens ∧ Parts.StoreAndQueue

/-- R240, R68, R63: the queue operations on a FIFO bank of the residency that is not changing: `qpush` and `qpushv` append a DATA word,
`qpop` and `qpopv` take the head, which must be DATA (else the token fault, cause 0x06, TRAPINFO the tag and the bank), `qdrop` drops it,
`qcount` counts and `qtag` gives the head's tag, 16 without one; an empty queue makes the three that take a word wait. On any other bank
that is not changing each of the seven takes the bank-mode fault (cause 0x14) or the ownership fault (0x15), TRAPINFO the bank; while the
bank changes its mode each waits. R241, R63, R79: `bset` of banks of the residency with a legal word gives each bank of the group the
change, pops its source, and the context waits until the change takes effect; `bspill` of an empty FIFO bank sets its ring; `bget` shows the
bank. Readings and choices of the model that it rests on: log entries 38, 66 and 77. -/
def Obligations.QueuesAndBanks : Prop := Parts.QueueOps ∧ Parts.BankSettings

/-- R248, R249, R114: every integer form that wraps completes, with registers, scalars and immediates, and each active lane holds the low w
bits of the exact result; no flag is set. R248, R249: the bitwise forms complete with the bits of each active lane. R248, R249: the
saturating forms complete with the exact result clamped to the type's range in each active lane, and set the saturated flag when an active
lane clamps; `vneg` and `vabs` wrap. -/
def Obligations.VectorIntegers : Prop := Parts.VectorWrapping ∧ Parts.VectorBitwise ∧ Parts.VectorSaturating

/-- R110, R113, R118: the arithmetic behind the float forms. Rounding the value that the bits of a finite number or a zero hold gives those
bits back and no flag, in every mode; adding −0 to a number changes nothing; 0 · Inf and Inf − Inf give the default NaN and invalid; a
number over zero gives an infinity and the overflow flag. R253, R118: the three shapes of conversion complete at legal types and widths:
each active lane holds the conversion of its source lane under CONV; the narrow shape leaves the other half of its destination. Readings and
choices of the model that it rests on: log entries 21 and 22. -/
def Obligations.VectorRounding : Prop := Parts.FloatRounding ∧ Parts.VectorConversion

/-- R254, R257, R258: permutes, slides, zips, moves, splats, inserts, compress and expand complete with the lanes they select. R255: the
reductions complete with their result over the active lanes in lane 0, and every other bit zero. -/
def Obligations.VectorLanes : Prop := Parts.VectorSelection ∧ Parts.VectorReductions

/-- R256, R258, R244: the mask forms, `kset`, `kget`, `kcnt` and `vcfg` complete; k0 stays all ones; `vcfg` of the reserved width takes the
control-value fault. R259: `vcmp` completes: in each active lane the destination mask has the comparison, combined with its old bit;
inactive lanes keep or clear theirs; bits n to 31 are zero. For type I and N the comparison is of the lanes' values and sets no flag. -/
def Obligations.VectorMasks : Prop := Parts.MasksAndConfig ∧ Parts.VectorCompare

/-- R294, R295, R377: taking a precise fault. With a handler and none active, TRAPIP holds the IP of the instruction, TRAPCAUSE, TRAPADDR
and TRAPINFO hold the fault, handler-active is set and the context goes on at TRAPVEC; else the context stops and a fault report goes to the
scheduler, reason 1 without a handler and 2 within one. No byte of memory and no other context changes. R293: `trap` and `brk` enter the
handler with causes 0x08 and 0x09, TRAPINFO the number of the trap, and TRAPIP the address after them. Readings and choices of the model
that it rests on: log entry 19. -/
def Obligations.FaultsAndTraps : Prop := Parts.FaultEntry ∧ Parts.TrapInstructions

/-- R295: `eret` in a handler clears handler-active and goes on at TRAPIP, if that is a legal target; outside a handler it is illegal (cause
0x01); with an illegal target it takes the IP-bounds fault with the handler still active. R293, R37: `wfi` completes at once with a word at
an owned input or a record queued, and else sleeps until `WFI_WAKE` finds one; `halt` halts the context, which keeps its stake. -/
def Obligations.ReturnSleepHalt : Prop := Parts.ReturnFromHandler ∧ Parts.SleepAndHalt

/-- R163, R287: `binit` sets a barrier's expected count and clears its arrivals and its error, keeping the phase; `barr` with no write
outstanding arrives and returns the phase before, and with some pops its source, waits, and arrives when they are performed; `bwait` sleeps
while the phase is the one given and returns the error flag at another; `btest` returns phase and error; a barrier outside the residency's
share is the barrier-ownership fault (cause 0x23, TRAPINFO the name). An operation on a barrier of another core's tile gives up its turn
unless it is a late one, behind the cores of that tile (R164). R163, R164, R287: an engine's completion arrives on its barrier, with its
error; a context that sleeps in `bwait` wakes when the phase is another, and reads the error flag. Readings and choices of the model that it
rests on: log entries 44 and 76. -/
def Obligations.Barriers : Prop := Parts.BarrierOps ∧ Parts.BarrierEvents

/-- R288, R36, R38, R42: `spawn` of a legal entry with room in the deque pushes a record at the bottom, with the entry's offset, its
arguments and half the stake; the stakes of maker and record add up to the stake before. An entry outside the partition is the task-argument
fault (cause 0x27, TRAPINFO the entry). R289, R40, R42: `send` to a core of the residency with no write outstanding and stake enough sends a
task packet (kind 6) to its tile with the entry's offset, the arguments and half the stake; with a write outstanding it waits for it first;
a target that is not of the residency is the task-argument fault. Readings and choices of the model that it rests on: log entries 12, 37, 38
and 78. -/
def Obligations.SpawnAndSend : Prop := Parts.SpawnRecord ∧ Parts.SendMessage

/-- R290, R36, R37, R44: `tdone` with a record at the bottom of the deque starts it: IP its entry, s1 and s2 its arguments, STAKE its stake;
with neither a record nor a block the context is an idle worker. Without a pot no unit moves. R41, R45, R48, R291: `potinit` at the root
makes the pot of 2^62 units and gives them to the root; anywhere else it is the root-context fault (cause 0x28). `wquiet` returns the root's
stake to the pot, as this cycle's event or as one that waits for its turn, and sleeps. `stake` reads the stake. `commit` of a committed
residency completes at once; of another its root asks the scheduler and sleeps. Readings and choices of the model that it rests on: log
entries 38 and 60. -/
def Obligations.TasksAndRoot : Prop := Parts.TaskDone ∧ Parts.RootInstructions

/-- R42 to R45: the packets of the pot, one in a cycle. The root grants a borrow of 2^40 units and adds them to the total, or answers
EXHAUST when the total would reach 2^63; a grant raises the borrower's STAKE, an EXHAUST is its fault (cause 0x26); a RETURN adds its units
to the pot; a root asleep in `wquiet` wakes in the first cycle after an event that left the pot with the total, and in no earlier one. R44:
a tile's aggregator that holds units, and whose tile is quiet or whose sum is 2^48 or more or that has waited 4,096 cycles, sends them to
the root and is empty. Readings and choices of the model that it rests on: log entries 12 and 60. -/
def Obligations.PotReturns : Prop := Parts.PotEvents ∧ Parts.AggregatorReturns

/-- R39, R38: an idle worker begins a pass with its first victim, and rests 256 cycles when it has none; a victim answers with the top
record of its first deque that has one whose stores are performed, which leaves that deque, or with an empty answer; a thief that gets a
record starts it, and on an empty answer asks the next tile of its order, or rests 256 cycles after the last. R40: a message to an idle
worker of a residency that has started starts its task there; one to a running context with room is pushed at the bottom of its deque.
Readings and choices of the model that it rests on: log entries 12, 38, 39, 61 and 62. -/
def Obligations.StealsAndMessages : Prop := Parts.StealEvents ∧ Parts.MessageArrival

/-- R262, R169, R267: a steering or fibre instruction whose inputs all hold a word, whose outputs all accept a push and whose queues are the
residency's begins: its registers are read, it is the context's running instruction, and no word has moved yet. An address register that is
no multiple of 4 is the alignment fault. R173 to R175, R168, R171: `steer` sends a data word to the arm its predicate word names, `merge`
takes one from the arm its predicate names, `tee` gives every word it may meet to both outputs as it stands, an end token of its level
completing it; an ERR goes to every output in the step that takes it in, and the instruction then drains its inputs. A step whose words find
no room waits and pops nothing. Readings and choices of the model that it rests on: log entry 30. -/
def Obligations.Steering : Prop := Parts.StreamStart ∧ Parts.SteeringSteps

/-- R271 to R273, R172: `fisect` pairs elements of one coordinate and drops the others; `funion` passes those with 0xFFFFFFFF for the
missing reference; `frep` repeats its second input's element, and takes that and the stop behind it with a stop of its first in one step;
`fzip` combines the values; a coordinate that does not rise is an ERR of cause 0x22, and stops of two levels one of cause 0x20. R270, R274,
R275: `fscan` reads the segment of a reference, then gives each coordinate of it as an element, and closes it with a stop; `fload` reads the
word that the reference names and gives it as the element's value; `fwrite` stores the value there; `fred` closes a fibre with one element
that holds the count and the sum, largest, smallest or number of its values, for every type, and then lowers the stop by one level. A
reference past the limit is an ERR of cause 0x23. Nothing is read while the output is full. Readings and choices of the model that it rests
on: log entry 30. -/
def Obligations.JoinsAndFibres : Prop := Parts.JoinSteps ∧ Parts.FibreSteps

/-- R263 to R265: `tkpeek` looks at a head, `tkpop` and `tkpopv` take it whatever its tag, `tksend` and `tksendv` push a word with the tag
given, at ports and at queues; `btag` goes to its target when the head's tag meets the condition, or for the condition "empty" when the FIFO
held no word as the cycle began. R154, R155, R157, R158, R286: `carm` of the residency's own idle template with a descriptor that passes the
checks arms it; `cfire` adds a firing; `cdis` disarms an idle template at once and waits for an active copy; `cstat` reads the counts and
the last cause; another residency's template is cause 0x20, a descriptor not 64-byte aligned cause 0x18, `cfire` of a template not armed
cause 0x21. Readings and choices of the model that it rests on: log entries 43 and 76. -/
def Obligations.TokensAndTemplates : Prop := Parts.TokenOps ∧ Parts.CopyInstructions

/-- R156: a DATA or DONE word at the head of a trigger queue adds a firing, another word is dropped and counted; an idle template begins its
oldest firing when what it waits for is performed; the stream port issues an element of the template whose turn it is, with the following
elements of the same sector, as many as a word holds (R94): their bytes in an SRAM bank are read. R152, R159, R160, R163: the oldest element
of a copy, when the next one belongs to another sector, goes to its destination address in an SRAM bank, whose other bytes stay; two halves
of one sector go there in one write (R94); a read response reaches its element first; a closed copy whose words are pushed and whose writes
are performed completes, is counted, and arrives at its barrier, with an error when it failed. R85: a FLIP at the stream port waits while
the shadow is LOADING; with an EMPTY shadow it is a stray word at once; with a READY one it exchanges the bank's templates with their shadow
once every copy already fired has completed, and waits while one is left. Readings and choices of the model that it rests on: log entries
27, 42, 43, 45 and 90. -/
def Obligations.Copies : Prop := Parts.CopyFiring ∧ Parts.CopyDelivery ∧ Parts.StreamPortFlip

/-- R132, R280: a `wload` of slots that the residency owns, with an aligned base and pitch and a place in the buffer, is admitted, counts
its slots' generations up and completes; the faults of its fields. R132, R123, R136, R280: a `wload` of I8 weights whose turn has come and
whose fetch has all its sectors writes the cells of its slot from them, row by row, and no other byte of memory; while a sector has not come
yet it keeps the sectors it has and writes nothing; one whose source cannot be read leaves the cells and sends its context a record of cause
0x38. Readings and choices of the model that it rests on: log entries 26 and 27. -/
def Obligations.WeightLoads : Prop := Parts.WeightLoadIssue ∧ Parts.WeightLoadWrite

/-- R133, R281: `wexport` of a slot that the residency owns and that is no high half gives a handle of this tile and slot with a key not
issued for the slot before, and records PRIO and HOLD; `wexport.rv` makes the key invalid; a slot that is not owned is cause 0x24 with 0x32,
a high half 0x33. R135, R137, R145, R146, R282, R283: `mmq` by slot number builds its token, its priority lowered to PRIO, and with a place
in the buffer is admitted to a group; without one it waits; a token that fails a check is cause 0x24 with the check's cause, a misaligned A
address cause 0x18. Readings and choices of the model that it rests on: log entries 8, 24, 25, 82 and 83. -/
def Obligations.MatrixInstructions : Prop := Parts.WeightExports ∧ Parts.MatrixRequests

/-- R137, R140, R144: a request token taken at M that passes the checks joins a group, its priority lowered to that of core 0 of the bank; a
request through a handle that reaches the slot's tile joins one with its rows; one whose key is not valid completes with an error, by a
write acknowledgement to its requester. R140, R141: a well-formed PSUM packet of one row for a slice its residency owns enters the
accumulator queue as a row; a malformed one is dropped and its request is remembered; the completion of a request that ran elsewhere arrives
at its barrier, with an error if one of its packets was malformed. Readings and choices of the model that it rests on: log entries 12, 25,
40 and 67. -/
def Obligations.RequestsAtNodes : Prop := Parts.RequestArrival ∧ Parts.PsumPackets

/-- R136, R146, R147, R148: the rows of a request's A are read from memory, and while one has not come the request keeps those it has; a
group whose oldest member has waited HOLD cycles is ready, one that has waited 4 HOLD is overdue and rises one level of priority, to at most
3. R134, R146, R148, R121, R125: the first group in order, when its format goes with its slot's and a lane is free, leaves the buffer for
the lane with one row per row of its members; the terms of a row of I8 elements against I8 weights are the exact sums of products. Readings
and choices of the model that it rests on: log entries 67 and 68. -/
def Obligations.Groups : Prop := Parts.GroupTimes ∧ Parts.GroupIssueRows

/-- R134, R138, R142, R143: a LOCAL row whose digits are done enters the accumulator queue; the token at its head is applied: a row is added
to or replaces its slice row, a clear zeroes rows and their poison, a read gives its context the delivered values. R142, R284, R285: `accrd`
and `accclr` of a slice that the residency owns put their token behind those of the queue, when it has room for it; `accclr` then completes
and `accrd` waits for its value; a slice that is not owned is cause 0x24 with 0x32, rows past the slice with 0x30. Readings and choices of
the model that it rests on: log entries 23, 33 and 80. -/
def Obligations.Accumulators : Prop := Parts.AccumulatorRows ∧ Parts.AccumulatorOps

/-- R299, R300, R301: a switch instruction whose sources hold words and whose destinations have room moves its words and acts on pc,
counters and halt: `snext`, `sjump`, `sloop`, `sdbr`, `sbtag`, `swait`, `shalt`; `sflip` consumes a FLIP with the switch bit and resumes its
READY shadow at word 0; while `swait`'s or `sflip`'s head is another word, or the sources and destinations are not ready, nothing changes.
R74, R75, R299: what the move of a switch instruction that is ready does to the FIFOs of its cores and its hold registers: each receives the
word at the head of its source, and each source FIFO of a core that is named gives up one word, however many destinations take it. Readings
and choices of the model that it rests on: log entry 45. -/
def Obligations.Switches : Prop := Parts.SwitchInstructions ∧ Parts.SwitchMoves

/-- R72, R81, R86, R87: a word due on a lane reaches the receive FIFO, a reserved tag as an ERR token; in a bank without a configuration it
is dropped and counted; a credit due raises its sender's count. R69, R70, R60, R63: a queue moves its oldest staging word to its bank,
writes a full staging block at its ring's tail, refills a block from the ring's head, and is spill-faulted by a write that has no
translation, keeping the block; a refill that cannot be read waits (the model's reading, log 38); a change of mode takes effect, empties the
queue, clears the bank's bytes but for a change of interleave alone, and completes the `bset` that made it. R236 to R238: an `stq` packet
without a queue goes on to the root tile of its live residency; the handling tile refuses one that fails a check or does not translate (code
1), waits while the queue it names changes its mode, and else writes its bytes; its notice then enters the queue and its sender is told; the
answer completes an `stq` that waits, and a refusal is its fault (cause 0x1F). Readings and choices of the model that it rests on: log
entries 27, 34, 38, 46, 64 and 66. -/
def Obligations.LanesAndBanks : Prop := Parts.LaneEvents ∧ Parts.BankEvents ∧ Parts.StqDelivery

/-- R304, R305, R307: the frames of programs. A HEADER that passes its checks gives each core its partition, from 64 bytes into its bank's
region, and the load its frame count; CODE writes its words at their place in the partition; SWITCH writes its instructions; LINK the owners
of the directions. A frame whose shadow bit is not the load's fails the load with check code 0x01. R304, R154, R131, R60, R306, R308: the
frames of claims. BANK gives a free bank its mode and spill settings, or writes bytes of scratch; TEMPLATE claims a template and takes a
part of its descriptor; MATRIX claims a slot or a slice; START sets a core's entry, TRAPVEC and private area; the end of a load that passes
the last checks starts the contexts. Readings and choices of the model that it rests on: log entries 53 and 55. -/
def Obligations.ImageFrames : Prop := Parts.ProgramFrames ∧ Parts.ClaimFrames

/-- R57, R162, R363, R367: a request at a tile reads or writes its sector of a SCRATCH bank of the requester's residency and is answered,
and is refused with cause 0x1B elsewhere; a memory port admits the request its slot table picks, at most one in a cycle, and reads or writes
its sector, answers a read of no mapped address with a refusal of cause 0x1A, and drops a write to one. R224, R57, R99: a read response
completes the load that waits for it, with the bytes of the sector in its register; an acknowledgement strikes its write and completes what
waited for it; a refused read is the load's fault (cause 0x1B), a refused posted store sends its context a record of origin 1. Readings and
choices of the model that it rests on: log entries 11, 12, 33 and 47. -/
def Obligations.Requests : Prop := Parts.SectorRequests ∧ Parts.RequestAnswers

/-- R107, R338, R363, R367: a host write changes the bytes its mask names of its sector of DRAM, and nothing where no region maps it; a host
read gives the sector's bytes, or poison for an uncorrectable or unmapped one; while the sector's port is busy or its bank held they wait
there with the other requests (the model's choice, log 48); a snoop is answered with a miss. R341, R340, R348, R350, R352, R339, R407: a
doorbell makes the records up to its value available in order, or is a queue error; a register write at a doorbell's offset is one, at a
launch queue's BASE writes it while the queue is disabled, at DEVNUM the device number; an injection sends a message to its target, or is
rejected; enabling and disabling queues, CONSUMED, DEVNUM and ROUTE. Readings and choices of the model that it rests on: log entries 47, 48,
57, 71 and 72. -/
def Obligations.HostAccess : Prop := Parts.HostMemory ∧ Parts.HostRegisters

/-- R48, R50, R374, R377, R381: a commit request marks the running residency and is answered, and the answer completes the root's `commit`;
the watchdog discards an uncommitted residency and faults a committed one; of the fault reports that have arrived for a residency that of
the lowest tile faults it with its reason and is posted, at once or when the buffer has room, and reports for a residency that does not run
are ignored; a fault of a spill is posted with a tag; a tile's event enters the scheduler's buffer, and in a full one it waits or, of kinds
0x11 to 0x15, is dropped; a record is written to its ring, with its sequence number, and consumed room is respected. R49, R376, R51: a
residency to be discarded sends step 1 to every tile of its region, behind the record of its fault; a tile stops its contexts at step 1, and
reports a step that is over, step 6, which frees what the residency holds there, after 512 cycles; when every tile has reported, the next
step begins, and behind step 6 the entry is free; a residency whose conditions hold ends: its entry is free and its completion is posted.
Readings and choices of the model that it rests on: log entries 31, 59 and 70. -/
def Obligations.ResidencyLife : Prop := Parts.ResidencyEvents ∧ Parts.DiscardSteps

/-- R386: GO takes COMMAND as it stands and makes it busy, and does nothing while one is; a command's event does nothing unless its command
is busy; a length that is not the command's is answered with 0xFE. The lengths are the model's choice (log entry 13). R359, R362, R378:
TLBINV removes exactly the translations it names and is done when no access that used one is under way, and refuses a count of pages that is
not 1 to 65,536; REGLOAD installs eight checked regions once the memory ports are drained, or none while a residency is live, a host's
request waits or one fails its check; SPILLRESUME lets the spill be tried again, or faults its residency with reason 4, and is refused
without such a request. Readings and choices of the model that it rests on: log entry 13. -/
def Obligations.MailboxMappings : Prop := Parts.MailboxForm ∧ Parts.MappingCommands

/-- R369, R365, R389, R390, R391: ROWTHRESH sets the thresholds and radius of every port, or of none with error 1 when a value is out of its
bounds; EYECFG sets a channel's thresholds and care; POWERCAP sets a cap of 400 to 2,400 W; REPLAYCFG starts an empty capture beside those
of other queues; REPLAYLOAD binds a capture to a host tag. R365, R370, R387, R395: SENSORREAD gives each sensor's latest value and extremes,
each port's counts of corrected errors and stalls, and each channel's spares left, failing mark and lane margins, and each tile's count of
corrected SRAM errors (their layout is the model's, log entry 17), LOGREAD the log's entries from an index on, ALMANACREAD the Almanac's
records from a number on; a sample, taken each millisecond, sets every sensor's latest value and widens its extremes. Readings and choices
of the model that it rests on: log entries 13, 14 and 17. -/
def Obligations.MailboxSettings : Prop := Parts.SettingCommands ∧ Parts.ReadCommands

/-- R389: every millisecond the throttle level falls by one, to 2 at least, above the cap, rises by one, to 16 at most, below 95 % of it,
and stays otherwise; on a die with a sensor at 105 °C or above it is 4 at most; a sensor at 120 °C puts the device into the device-error
state and switches the tiles' supplies off. R384: an update whose security version is below the fuse counter, or for no component, changes
nothing; else the image stands in the inactive slot of its component, the active slot and the fuse counter stay, and no residency is
touched. R385: the responder answers each request it supports once version and algorithms are agreed, and with an error before, and every
exchange joins the transcript whose SHA3-512 hash it signs. The forms of the messages are the model's (log entry 16). Readings and choices
of the model that it rests on: log entries 14, 15, 16, 17 and 69. -/
def Obligations.Management : Prop := Parts.Throttle ∧ Parts.FirmwareUpdates ∧ Parts.Attestation

/-- R383, R395, R402: a reset leaves every register, queue and packet as at power-on and keeps the firmware images, the event log, the fuse
counter, which it may raise, and the Almanac, the longer valid prefix of its two copies; when both slots of either stage fail the device is
in recovery and not booted; a loss of supply stops the machine and keeps the flash, with the record that was being written; a position that
fails is retired in the Almanac and its tile is fenced. Readings and choices of the model that it rests on: log entries 58, 73 and 74. -/
def Obligations.PowerAndReset : Prop := Parts.PowerEvents
end

