-- ==== Sys2Proof/Laws/Access.lean ====
section
/-! SUPPORT. What the operations around an access can do: rows, checks of data, translations by engines and requests leave memory and the
contexts as they stand, and say so once each. -/

namespace Sys2Proof.Machine

/-- Memory and the contexts stand as they stood. -/
def State.Still (s u : State) : Prop := u.mem = s.mem ∧ u.ctxs = s.ctxs

theorem State.Still.refl (s : State) : s.Still s := ⟨rfl, rfl⟩

theorem State.Still.trans {s u v : State} (a : s.Still u) (b : u.Still v) : s.Still v := ⟨b.1.trans a.1, b.2.trans a.2⟩

theorem State.Still.ctx {s u : State} (h : s.Still u) (k : Nat) : u.ctx k = s.ctx k := by unfold State.ctx; rw [h.2]

theorem State.post_still (s : State) (e : EventRec) : s.Still (s.post e) := by
  unfold State.post
  dsimp only
  split <;> exact ⟨rfl, rfl⟩

theorem State.memEvent_still (s : State) (kind : Nat) (d1 : W64) (port : Nat) : s.Still (s.memEvent kind d1 port) := s.post_still _

theorem State.closeRow_still (s : State) (bk : Nat) : s.Still (s.closeRow bk) := by
  have h (u : State) (p : Prop) [Decidable p] (k : Nat) (d : W64) (n : Nat) : u.Still (if p then u.memEvent k d n else u) := by
    split
    · exact u.memEvent_still ..
    · exact .refl u
  unfold State.closeRow
  dsimp only
  split
  · exact .refl s
  · rename_i r _
    have hu := h s (s.rowBad.contains (bk * 2 ^ 15 + r) = true) 0x22 (BitVec.ofNat 64 (s.openRows.get {} bk).pa) (bk / 128)
    generalize (if s.rowBad.contains (bk * 2 ^ 15 + r) = true then _ else s) = u at hu ⊢
    have w (q : Prop) [Decidable q] (a b : State) (ha : s.Still a) (hb : s.Still b) : s.Still (if q then a else b) := by
      split <;> assumption
    exact w _ _ _ (hu.trans (.trans ⟨rfl, rfl⟩ (State.memEvent_still ..)))
      (w _ _ _ (hu.trans (.trans ⟨rfl, rfl⟩ (State.memEvent_still ..))) (hu.trans ⟨rfl, rfl⟩))

theorem State.openRow_still (s : State) (c pa : Nat) : s.Still (s.openRow c pa) := by
  unfold State.openRow
  dsimp only
  generalize e : (if (s.openRows.get {} (bankOf c)).row.isSome ∧ (s.openRows.get {} (bankOf c)).row ≠ some (rowNumber c)
    then s.closeRow (bankOf c) else s) = u
  have hu : s.Still u := by
    subst e
    split
    · exact s.closeRow_still _
    · exact .refl s
  split
  · exact hu
  · exact hu.trans ⟨rfl, rfl⟩

theorem State.correct_still (s : State) (c pa : Nat) : s.Still (s.correct c pa) := by
  unfold State.correct
  dsimp only
  split
  · split
    · split
      · exact ⟨rfl, rfl⟩
      · exact .trans ⟨rfl, rfl⟩ (State.memEvent_still ..)
    · exact .trans ⟨rfl, rfl⟩ (State.memEvent_still ..)
  · exact .refl s

theorem State.checkSector_still (s : State) (c pa : Nat) : s.Still (s.checkSector c pa).2 := by
  unfold State.checkSector
  split
  · exact s.memEvent_still ..
  · exact s.correct_still ..

theorem State.checkTouch_still (s : State) (c pa : Nat) (u : Touch) : s.Still (s.checkTouch c pa u) := by
  unfold State.checkTouch
  have h := s.checkSector_still c pa
  split
  · exact h
  · exact ⟨rfl, rfl⟩
  · split <;> rename_i e <;> rw [e] at h
    · exact h
    · exact h.trans ⟨rfl, rfl⟩

theorem State.arrive_still (s : State) (pa : Nat) : s.Still (s.arrive pa).2 := by
  unfold State.arrive
  split
  · exact .refl s
  · split
    · exact s.memEvent_still ..
    · split
      · exact ⟨rfl, rfl⟩
      · dsimp only
        split
        · exact (s.openRow_still ..).trans ⟨rfl, rfl⟩
        · exact s.openRow_still ..

/-- An access's way to its bytes changes rows, counters, marks and records, never the bytes themselves. -/
theorem State.visit_still (s : State) (pa : Nat) (u : Touch) : s.Still (s.visit pa u).2 := by
  unfold State.visit
  have h := s.arrive_still pa
  split <;> rename_i e <;> rw [e] at h
  · exact h
  · split
    · exact h
    · exact h.trans (State.checkTouch_still ..)

theorem State.seek_still (s : State) (t r : Nat) (va : W64) (wr : Bool) : s.Still (s.seek t r va wr).2 := by
  unfold State.seek
  dsimp only
  split
  · exact .refl s
  · split
    · exact ⟨rfl, rfl⟩
    · split <;> exact ⟨rfl, rfl⟩

theorem State.send_still (s : State) (t : Nat) (p : Packet) : s.Still (s.send t p) := by
  unfold State.send
  exact ⟨rfl, rfl⟩

theorem State.request_still (s : State) (t r key : Nat) (owner : Owner) (kind : Nat) (h : Home) (a : W64) (op : BitVec 32) (sid : Nat)
    (pay : List W256) (fill bad : Bool) : s.Still (s.request t r key owner kind h a op sid pay fill bad).2 := by
  unfold State.request
  dsimp only
  exact .trans ⟨rfl, rfl⟩ (State.send_still ..)

theorem State.sendParts_still (s : State) (t r : Nat) (owner : Owner) (v : Option Nat) (bad : Bool) (l : List (Part × Nat)) :
    s.Still (s.sendParts t r owner v bad l).2 := by
  induction l generalizing s with
  | nil => exact .refl s
  | cons x l ih => exact (State.request_still ..).trans (ih _)

theorem State.seekAll_still (s : State) (t r : Nat) (wr : Bool) (l : List Part) : s.Still (s.seekAll t r wr l).2 := by
  induction l generalizing s with
  | nil => exact .refl s
  | cons p ps ih =>
    unfold State.seekAll
    split
    · exact .refl s
    · have h := s.seek_still t r p.addr wr
      split <;> rename_i e <;> rw [e] at h
      · have i := ih ‹State›
        split
        · rename_i e'
          rw [e'] at i
          exact h.trans i
        · exact h.trans i
      · exact h
      · exact h

/-- The state that a begun, a failed or a delayed transfer leaves. -/
def Begun.state : Begun → State
  | .begun s _ => s
  | .miss s _ => s
  | .wait s => s

/-- An engine's transfer begins with requests and walks alone: no byte and no context changes before its answers come. -/
theorem State.move_still (s : State) (t r : Nat) (owner : Owner) (a : W64) (n : Nat) (v : Option Nat) (bad : Bool) :
    s.Still (s.move t r owner a n v bad).state := by
  unfold State.move
  have h := s.seekAll_still t r v.isSome (parts a n)
  split <;> rename_i e <;> rw [e] at h
  · exact h
  · exact h
  · exact h.trans (State.sendParts_still ..)

end Sys2Proof.Machine
end

