-- ==== Sys2Proof/Laws/State.lean ====
section
/-! SUPPORT. One lemma per field per update of the state, and what reading a part after an update gives. -/

namespace Sys2Proof

namespace AMap

variable {α : Type}

/-- Reading a table after a write: the key written has the new value, any other its old one. -/
theorem get_set (m : AMap α) (d : α) (k : Nat) (v : α) (j : Nat) : get (set m k v) d j = if j = k then v else get m d j := by
  induction m with
  | nil => simp only [set, get, eq_comm]
  | cons e r ih =>
    obtain ⟨i, x⟩ := e
    by_cases h : i = k
    · subst h; by_cases hj : j = i <;> simp [set, get, hj, eq_comm]
    · by_cases h2 : k < i
      · by_cases hj : j = k
        · subst hj; simp [set, get, h, h2]
        · have hj' : k ≠ j := fun e => hj e.symm
          simp [set, get, h, h2, hj, hj']
      · by_cases hi : i = j
        · subst hi; simp [set, get, h, h2]
        · simp [set, get, h, h2, hi, ih]

@[simp] theorem get_set_self (m : AMap α) (d : α) (k : Nat) (v : α) : get (set m k v) d k = v := by simp [get_set]

theorem get_set_ne (m : AMap α) (d : α) (k : Nat) (v : α) (j : Nat) (h : j ≠ k) : get (set m k v) d j = get m d j := by
  simp [get_set, h]

/-- A second write to a key replaces the first. -/
@[simp] theorem set_set (m : AMap α) (k : Nat) (v w : α) : set (set m k v) k w = set m k w := by
  induction m with
  | nil => simp [set]
  | cons e r ih =>
    obtain ⟨i, x⟩ := e
    by_cases h : i = k
    · simp [set, h]
    · by_cases h2 : k < i
      · simp [set, h, h2]
      · simp [set, h, h2, ih]

end AMap

namespace Machine

@[simp] theorem State.setCtx_cycle (s : State) (k : Nat) (x : Ctx) : (s.setCtx k x).cycle = s.cycle := rfl
@[simp] theorem State.setCtx_powered (s : State) (k : Nat) (x : Ctx) : (s.setCtx k x).powered = s.powered := rfl
@[simp] theorem State.setCtx_tilesOff (s : State) (k : Nat) (x : Ctx) : (s.setCtx k x).tilesOff = s.tilesOff := rfl
@[simp] theorem State.setCtx_booted (s : State) (k : Nat) (x : Ctx) : (s.setCtx k x).booted = s.booted := rfl
@[simp] theorem State.setCtx_recovery (s : State) (k : Nat) (x : Ctx) : (s.setCtx k x).recovery = s.recovery := rfl
@[simp] theorem State.setCtx_deviceError (s : State) (k : Nat) (x : Ctx) : (s.setCtx k x).deviceError = s.deviceError := rfl
@[simp] theorem State.setCtx_agenda (s : State) (k : Nat) (x : Ctx) : (s.setCtx k x).agenda = s.agenda := rfl
@[simp] theorem State.setCtx_inputs (s : State) (k : Nat) (x : Ctx) : (s.setCtx k x).inputs = s.inputs := rfl
@[simp] theorem State.setCtx_cur (s : State) (k : Nat) (x : Ctx) : (s.setCtx k x).cur = s.cur := rfl
@[simp] theorem State.setCtx_guard (s : State) (k : Nat) (x : Ctx) : (s.setCtx k x).guard = s.guard := rfl
@[simp] theorem State.setCtx_word (s : State) (k : Nat) (x : Ctx) : (s.setCtx k x).word = s.word := rfl
@[simp] theorem State.setCtx_issued (s : State) (k : Nat) (x : Ctx) : (s.setCtx k x).issued = s.issued := rfl
@[simp] theorem State.setCtx_late (s : State) (k : Nat) (x : Ctx) : (s.setCtx k x).late = s.late := rfl
@[simp] theorem State.setCtx_clash (s : State) (k : Nat) (x : Ctx) : (s.setCtx k x).clash = s.clash := rfl
@[simp] theorem State.setCtx_atStart (s : State) (k : Nat) (x : Ctx) : (s.setCtx k x).atStart = s.atStart := rfl
@[simp] theorem State.setCtx_free (s : State) (k : Nat) (x : Ctx) : (s.setCtx k x).free = s.free := rfl
@[simp] theorem State.setCtx_mem (s : State) (k : Nat) (x : Ctx) : (s.setCtx k x).mem = s.mem := rfl
@[simp] theorem State.setCtx_badSectors (s : State) (k : Nat) (x : Ctx) : (s.setCtx k x).badSectors = s.badSectors := rfl
@[simp] theorem State.setCtx_badWords (s : State) (k : Nat) (x : Ctx) : (s.setCtx k x).badWords = s.badWords := rfl
@[simp] theorem State.setCtx_softWords (s : State) (k : Nat) (x : Ctx) : (s.setCtx k x).softWords = s.softWords := rfl
@[simp] theorem State.setCtx_symbolErrors (s : State) (k : Nat) (x : Ctx) : (s.setCtx k x).symbolErrors = s.symbolErrors := rfl
@[simp] theorem State.setCtx_softPosted (s : State) (k : Nat) (x : Ctx) : (s.setCtx k x).softPosted = s.softPosted := rfl
@[simp] theorem State.setCtx_cores (s : State) (k : Nat) (x : Ctx) : (s.setCtx k x).cores = s.cores := rfl
@[simp] theorem State.setCtx_tiles (s : State) (k : Nat) (x : Ctx) : (s.setCtx k x).tiles = s.tiles := rfl
@[simp] theorem State.setCtx_xbars (s : State) (k : Nat) (x : Ctx) : (s.setCtx k x).xbars = s.xbars := rfl
@[simp] theorem State.setCtx_nodes (s : State) (k : Nat) (x : Ctx) : (s.setCtx k x).nodes = s.nodes := rfl
@[simp] theorem State.setCtx_ports (s : State) (k : Nat) (x : Ctx) : (s.setCtx k x).ports = s.ports := rfl
@[simp] theorem State.setCtx_openRows (s : State) (k : Nat) (x : Ctx) : (s.setCtx k x).openRows = s.openRows := rfl
@[simp] theorem State.setCtx_rows (s : State) (k : Nat) (x : Ctx) : (s.setCtx k x).rows = s.rows := rfl
@[simp] theorem State.setCtx_rowBad (s : State) (k : Nat) (x : Ctx) : (s.setCtx k x).rowBad = s.rowBad := rfl
@[simp] theorem State.setCtx_channels (s : State) (k : Nat) (x : Ctx) : (s.setCtx k x).channels = s.channels := rfl
@[simp] theorem State.setCtx_regions (s : State) (k : Nat) (x : Ctx) : (s.setCtx k x).regions = s.regions := rfl
@[simp] theorem State.setCtx_net (s : State) (k : Nat) (x : Ctx) : (s.setCtx k x).net = s.net := rfl
@[simp] theorem State.setCtx_inbox (s : State) (k : Nat) (x : Ctx) : (s.setCtx k x).inbox = s.inbox := rfl
@[simp] theorem State.setCtx_peerOut (s : State) (k : Nat) (x : Ctx) : (s.setCtx k x).peerOut = s.peerOut := rfl
@[simp] theorem State.setCtx_tlbs (s : State) (k : Nat) (x : Ctx) : (s.setCtx k x).tlbs = s.tlbs := rfl
@[simp] theorem State.setCtx_walks (s : State) (k : Nat) (x : Ctx) : (s.setCtx k x).walks = s.walks := rfl
@[simp] theorem State.setCtx_sched (s : State) (k : Nat) (x : Ctx) : (s.setCtx k x).sched = s.sched := rfl
@[simp] theorem State.setCtx_host (s : State) (k : Nat) (x : Ctx) : (s.setCtx k x).host = s.host := rfl
@[simp] theorem State.setCtx_mgmt (s : State) (k : Nat) (x : Ctx) : (s.setCtx k x).mgmt = s.mgmt := rfl
@[simp] theorem State.setCtx_conf (s : State) (k : Nat) (x : Ctx) : (s.setCtx k x).conf = s.conf := rfl
@[simp] theorem State.setCtx_defects (s : State) (k : Nat) (x : Ctx) : (s.setCtx k x).defects = s.defects := rfl
@[simp] theorem State.setCtx_ctxErrors (s : State) (k : Nat) (x : Ctx) : (s.setCtx k x).ctxErrors = s.ctxErrors := rfl
@[simp] theorem State.setCtx_unownedError (s : State) (k : Nat) (x : Ctx) : (s.setCtx k x).unownedError = s.unownedError := rfl
@[simp] theorem State.setCtx_schedLost (s : State) (k : Nat) (x : Ctx) : (s.setCtx k x).schedLost = s.schedLost := rfl

@[simp] theorem State.setCore_cycle (s : State) (k : Nat) (x : Core) : (s.setCore k x).cycle = s.cycle := rfl
@[simp] theorem State.setCore_powered (s : State) (k : Nat) (x : Core) : (s.setCore k x).powered = s.powered := rfl
@[simp] theorem State.setCore_tilesOff (s : State) (k : Nat) (x : Core) : (s.setCore k x).tilesOff = s.tilesOff := rfl
@[simp] theorem State.setCore_booted (s : State) (k : Nat) (x : Core) : (s.setCore k x).booted = s.booted := rfl
@[simp] theorem State.setCore_recovery (s : State) (k : Nat) (x : Core) : (s.setCore k x).recovery = s.recovery := rfl
@[simp] theorem State.setCore_deviceError (s : State) (k : Nat) (x : Core) : (s.setCore k x).deviceError = s.deviceError := rfl
@[simp] theorem State.setCore_agenda (s : State) (k : Nat) (x : Core) : (s.setCore k x).agenda = s.agenda := rfl
@[simp] theorem State.setCore_inputs (s : State) (k : Nat) (x : Core) : (s.setCore k x).inputs = s.inputs := rfl
@[simp] theorem State.setCore_cur (s : State) (k : Nat) (x : Core) : (s.setCore k x).cur = s.cur := rfl
@[simp] theorem State.setCore_guard (s : State) (k : Nat) (x : Core) : (s.setCore k x).guard = s.guard := rfl
@[simp] theorem State.setCore_word (s : State) (k : Nat) (x : Core) : (s.setCore k x).word = s.word := rfl
@[simp] theorem State.setCore_issued (s : State) (k : Nat) (x : Core) : (s.setCore k x).issued = s.issued := rfl
@[simp] theorem State.setCore_late (s : State) (k : Nat) (x : Core) : (s.setCore k x).late = s.late := rfl
@[simp] theorem State.setCore_clash (s : State) (k : Nat) (x : Core) : (s.setCore k x).clash = s.clash := rfl
@[simp] theorem State.setCore_atStart (s : State) (k : Nat) (x : Core) : (s.setCore k x).atStart = s.atStart := rfl
@[simp] theorem State.setCore_free (s : State) (k : Nat) (x : Core) : (s.setCore k x).free = s.free := rfl
@[simp] theorem State.setCore_mem (s : State) (k : Nat) (x : Core) : (s.setCore k x).mem = s.mem := rfl
@[simp] theorem State.setCore_badSectors (s : State) (k : Nat) (x : Core) : (s.setCore k x).badSectors = s.badSectors := rfl
@[simp] theorem State.setCore_badWords (s : State) (k : Nat) (x : Core) : (s.setCore k x).badWords = s.badWords := rfl
@[simp] theorem State.setCore_softWords (s : State) (k : Nat) (x : Core) : (s.setCore k x).softWords = s.softWords := rfl
@[simp] theorem State.setCore_symbolErrors (s : State) (k : Nat) (x : Core) : (s.setCore k x).symbolErrors = s.symbolErrors := rfl
@[simp] theorem State.setCore_softPosted (s : State) (k : Nat) (x : Core) : (s.setCore k x).softPosted = s.softPosted := rfl
@[simp] theorem State.setCore_ctxs (s : State) (k : Nat) (x : Core) : (s.setCore k x).ctxs = s.ctxs := rfl
@[simp] theorem State.setCore_tiles (s : State) (k : Nat) (x : Core) : (s.setCore k x).tiles = s.tiles := rfl
@[simp] theorem State.setCore_xbars (s : State) (k : Nat) (x : Core) : (s.setCore k x).xbars = s.xbars := rfl
@[simp] theorem State.setCore_nodes (s : State) (k : Nat) (x : Core) : (s.setCore k x).nodes = s.nodes := rfl
@[simp] theorem State.setCore_ports (s : State) (k : Nat) (x : Core) : (s.setCore k x).ports = s.ports := rfl
@[simp] theorem State.setCore_openRows (s : State) (k : Nat) (x : Core) : (s.setCore k x).openRows = s.openRows := rfl
@[simp] theorem State.setCore_rows (s : State) (k : Nat) (x : Core) : (s.setCore k x).rows = s.rows := rfl
@[simp] theorem State.setCore_rowBad (s : State) (k : Nat) (x : Core) : (s.setCore k x).rowBad = s.rowBad := rfl
@[simp] theorem State.setCore_channels (s : State) (k : Nat) (x : Core) : (s.setCore k x).channels = s.channels := rfl
@[simp] theorem State.setCore_regions (s : State) (k : Nat) (x : Core) : (s.setCore k x).regions = s.regions := rfl
@[simp] theorem State.setCore_net (s : State) (k : Nat) (x : Core) : (s.setCore k x).net = s.net := rfl
@[simp] theorem State.setCore_inbox (s : State) (k : Nat) (x : Core) : (s.setCore k x).inbox = s.inbox := rfl
@[simp] theorem State.setCore_peerOut (s : State) (k : Nat) (x : Core) : (s.setCore k x).peerOut = s.peerOut := rfl
@[simp] theorem State.setCore_tlbs (s : State) (k : Nat) (x : Core) : (s.setCore k x).tlbs = s.tlbs := rfl
@[simp] theorem State.setCore_walks (s : State) (k : Nat) (x : Core) : (s.setCore k x).walks = s.walks := rfl
@[simp] theorem State.setCore_sched (s : State) (k : Nat) (x : Core) : (s.setCore k x).sched = s.sched := rfl
@[simp] theorem State.setCore_host (s : State) (k : Nat) (x : Core) : (s.setCore k x).host = s.host := rfl
@[simp] theorem State.setCore_mgmt (s : State) (k : Nat) (x : Core) : (s.setCore k x).mgmt = s.mgmt := rfl
@[simp] theorem State.setCore_conf (s : State) (k : Nat) (x : Core) : (s.setCore k x).conf = s.conf := rfl
@[simp] theorem State.setCore_defects (s : State) (k : Nat) (x : Core) : (s.setCore k x).defects = s.defects := rfl
@[simp] theorem State.setCore_ctxErrors (s : State) (k : Nat) (x : Core) : (s.setCore k x).ctxErrors = s.ctxErrors := rfl
@[simp] theorem State.setCore_unownedError (s : State) (k : Nat) (x : Core) : (s.setCore k x).unownedError = s.unownedError := rfl
@[simp] theorem State.setCore_schedLost (s : State) (k : Nat) (x : Core) : (s.setCore k x).schedLost = s.schedLost := rfl

@[simp] theorem State.setTile_cycle (s : State) (k : Nat) (x : Tile) : (s.setTile k x).cycle = s.cycle := rfl
@[simp] theorem State.setTile_powered (s : State) (k : Nat) (x : Tile) : (s.setTile k x).powered = s.powered := rfl
@[simp] theorem State.setTile_tilesOff (s : State) (k : Nat) (x : Tile) : (s.setTile k x).tilesOff = s.tilesOff := rfl
@[simp] theorem State.setTile_booted (s : State) (k : Nat) (x : Tile) : (s.setTile k x).booted = s.booted := rfl
@[simp] theorem State.setTile_recovery (s : State) (k : Nat) (x : Tile) : (s.setTile k x).recovery = s.recovery := rfl
@[simp] theorem State.setTile_deviceError (s : State) (k : Nat) (x : Tile) : (s.setTile k x).deviceError = s.deviceError := rfl
@[simp] theorem State.setTile_agenda (s : State) (k : Nat) (x : Tile) : (s.setTile k x).agenda = s.agenda := rfl
@[simp] theorem State.setTile_inputs (s : State) (k : Nat) (x : Tile) : (s.setTile k x).inputs = s.inputs := rfl
@[simp] theorem State.setTile_cur (s : State) (k : Nat) (x : Tile) : (s.setTile k x).cur = s.cur := rfl
@[simp] theorem State.setTile_guard (s : State) (k : Nat) (x : Tile) : (s.setTile k x).guard = s.guard := rfl
@[simp] theorem State.setTile_word (s : State) (k : Nat) (x : Tile) : (s.setTile k x).word = s.word := rfl
@[simp] theorem State.setTile_issued (s : State) (k : Nat) (x : Tile) : (s.setTile k x).issued = s.issued := rfl
@[simp] theorem State.setTile_late (s : State) (k : Nat) (x : Tile) : (s.setTile k x).late = s.late := rfl
@[simp] theorem State.setTile_clash (s : State) (k : Nat) (x : Tile) : (s.setTile k x).clash = s.clash := rfl
@[simp] theorem State.setTile_atStart (s : State) (k : Nat) (x : Tile) : (s.setTile k x).atStart = s.atStart := rfl
@[simp] theorem State.setTile_free (s : State) (k : Nat) (x : Tile) : (s.setTile k x).free = s.free := rfl
@[simp] theorem State.setTile_mem (s : State) (k : Nat) (x : Tile) : (s.setTile k x).mem = s.mem := rfl
@[simp] theorem State.setTile_badSectors (s : State) (k : Nat) (x : Tile) : (s.setTile k x).badSectors = s.badSectors := rfl
@[simp] theorem State.setTile_badWords (s : State) (k : Nat) (x : Tile) : (s.setTile k x).badWords = s.badWords := rfl
@[simp] theorem State.setTile_softWords (s : State) (k : Nat) (x : Tile) : (s.setTile k x).softWords = s.softWords := rfl
@[simp] theorem State.setTile_symbolErrors (s : State) (k : Nat) (x : Tile) : (s.setTile k x).symbolErrors = s.symbolErrors := rfl
@[simp] theorem State.setTile_softPosted (s : State) (k : Nat) (x : Tile) : (s.setTile k x).softPosted = s.softPosted := rfl
@[simp] theorem State.setTile_ctxs (s : State) (k : Nat) (x : Tile) : (s.setTile k x).ctxs = s.ctxs := rfl
@[simp] theorem State.setTile_cores (s : State) (k : Nat) (x : Tile) : (s.setTile k x).cores = s.cores := rfl
@[simp] theorem State.setTile_xbars (s : State) (k : Nat) (x : Tile) : (s.setTile k x).xbars = s.xbars := rfl
@[simp] theorem State.setTile_nodes (s : State) (k : Nat) (x : Tile) : (s.setTile k x).nodes = s.nodes := rfl
@[simp] theorem State.setTile_ports (s : State) (k : Nat) (x : Tile) : (s.setTile k x).ports = s.ports := rfl
@[simp] theorem State.setTile_openRows (s : State) (k : Nat) (x : Tile) : (s.setTile k x).openRows = s.openRows := rfl
@[simp] theorem State.setTile_rows (s : State) (k : Nat) (x : Tile) : (s.setTile k x).rows = s.rows := rfl
@[simp] theorem State.setTile_rowBad (s : State) (k : Nat) (x : Tile) : (s.setTile k x).rowBad = s.rowBad := rfl
@[simp] theorem State.setTile_channels (s : State) (k : Nat) (x : Tile) : (s.setTile k x).channels = s.channels := rfl
@[simp] theorem State.setTile_regions (s : State) (k : Nat) (x : Tile) : (s.setTile k x).regions = s.regions := rfl
@[simp] theorem State.setTile_net (s : State) (k : Nat) (x : Tile) : (s.setTile k x).net = s.net := rfl
@[simp] theorem State.setTile_inbox (s : State) (k : Nat) (x : Tile) : (s.setTile k x).inbox = s.inbox := rfl
@[simp] theorem State.setTile_peerOut (s : State) (k : Nat) (x : Tile) : (s.setTile k x).peerOut = s.peerOut := rfl
@[simp] theorem State.setTile_tlbs (s : State) (k : Nat) (x : Tile) : (s.setTile k x).tlbs = s.tlbs := rfl
@[simp] theorem State.setTile_walks (s : State) (k : Nat) (x : Tile) : (s.setTile k x).walks = s.walks := rfl
@[simp] theorem State.setTile_sched (s : State) (k : Nat) (x : Tile) : (s.setTile k x).sched = s.sched := rfl
@[simp] theorem State.setTile_host (s : State) (k : Nat) (x : Tile) : (s.setTile k x).host = s.host := rfl
@[simp] theorem State.setTile_mgmt (s : State) (k : Nat) (x : Tile) : (s.setTile k x).mgmt = s.mgmt := rfl
@[simp] theorem State.setTile_conf (s : State) (k : Nat) (x : Tile) : (s.setTile k x).conf = s.conf := rfl
@[simp] theorem State.setTile_defects (s : State) (k : Nat) (x : Tile) : (s.setTile k x).defects = s.defects := rfl
@[simp] theorem State.setTile_ctxErrors (s : State) (k : Nat) (x : Tile) : (s.setTile k x).ctxErrors = s.ctxErrors := rfl
@[simp] theorem State.setTile_unownedError (s : State) (k : Nat) (x : Tile) : (s.setTile k x).unownedError = s.unownedError := rfl
@[simp] theorem State.setTile_schedLost (s : State) (k : Nat) (x : Tile) : (s.setTile k x).schedLost = s.schedLost := rfl

@[simp] theorem State.setXbar_cycle (s : State) (k : Nat) (x : Xbar) : (s.setXbar k x).cycle = s.cycle := rfl
@[simp] theorem State.setXbar_powered (s : State) (k : Nat) (x : Xbar) : (s.setXbar k x).powered = s.powered := rfl
@[simp] theorem State.setXbar_tilesOff (s : State) (k : Nat) (x : Xbar) : (s.setXbar k x).tilesOff = s.tilesOff := rfl
@[simp] theorem State.setXbar_booted (s : State) (k : Nat) (x : Xbar) : (s.setXbar k x).booted = s.booted := rfl
@[simp] theorem State.setXbar_recovery (s : State) (k : Nat) (x : Xbar) : (s.setXbar k x).recovery = s.recovery := rfl
@[simp] theorem State.setXbar_deviceError (s : State) (k : Nat) (x : Xbar) : (s.setXbar k x).deviceError = s.deviceError := rfl
@[simp] theorem State.setXbar_agenda (s : State) (k : Nat) (x : Xbar) : (s.setXbar k x).agenda = s.agenda := rfl
@[simp] theorem State.setXbar_inputs (s : State) (k : Nat) (x : Xbar) : (s.setXbar k x).inputs = s.inputs := rfl
@[simp] theorem State.setXbar_cur (s : State) (k : Nat) (x : Xbar) : (s.setXbar k x).cur = s.cur := rfl
@[simp] theorem State.setXbar_guard (s : State) (k : Nat) (x : Xbar) : (s.setXbar k x).guard = s.guard := rfl
@[simp] theorem State.setXbar_word (s : State) (k : Nat) (x : Xbar) : (s.setXbar k x).word = s.word := rfl
@[simp] theorem State.setXbar_issued (s : State) (k : Nat) (x : Xbar) : (s.setXbar k x).issued = s.issued := rfl
@[simp] theorem State.setXbar_late (s : State) (k : Nat) (x : Xbar) : (s.setXbar k x).late = s.late := rfl
@[simp] theorem State.setXbar_clash (s : State) (k : Nat) (x : Xbar) : (s.setXbar k x).clash = s.clash := rfl
@[simp] theorem State.setXbar_atStart (s : State) (k : Nat) (x : Xbar) : (s.setXbar k x).atStart = s.atStart := rfl
@[simp] theorem State.setXbar_free (s : State) (k : Nat) (x : Xbar) : (s.setXbar k x).free = s.free := rfl
@[simp] theorem State.setXbar_mem (s : State) (k : Nat) (x : Xbar) : (s.setXbar k x).mem = s.mem := rfl
@[simp] theorem State.setXbar_badSectors (s : State) (k : Nat) (x : Xbar) : (s.setXbar k x).badSectors = s.badSectors := rfl
@[simp] theorem State.setXbar_badWords (s : State) (k : Nat) (x : Xbar) : (s.setXbar k x).badWords = s.badWords := rfl
@[simp] theorem State.setXbar_softWords (s : State) (k : Nat) (x : Xbar) : (s.setXbar k x).softWords = s.softWords := rfl
@[simp] theorem State.setXbar_symbolErrors (s : State) (k : Nat) (x : Xbar) : (s.setXbar k x).symbolErrors = s.symbolErrors := rfl
@[simp] theorem State.setXbar_softPosted (s : State) (k : Nat) (x : Xbar) : (s.setXbar k x).softPosted = s.softPosted := rfl
@[simp] theorem State.setXbar_ctxs (s : State) (k : Nat) (x : Xbar) : (s.setXbar k x).ctxs = s.ctxs := rfl
@[simp] theorem State.setXbar_cores (s : State) (k : Nat) (x : Xbar) : (s.setXbar k x).cores = s.cores := rfl
@[simp] theorem State.setXbar_tiles (s : State) (k : Nat) (x : Xbar) : (s.setXbar k x).tiles = s.tiles := rfl
@[simp] theorem State.setXbar_nodes (s : State) (k : Nat) (x : Xbar) : (s.setXbar k x).nodes = s.nodes := rfl
@[simp] theorem State.setXbar_ports (s : State) (k : Nat) (x : Xbar) : (s.setXbar k x).ports = s.ports := rfl
@[simp] theorem State.setXbar_openRows (s : State) (k : Nat) (x : Xbar) : (s.setXbar k x).openRows = s.openRows := rfl
@[simp] theorem State.setXbar_rows (s : State) (k : Nat) (x : Xbar) : (s.setXbar k x).rows = s.rows := rfl
@[simp] theorem State.setXbar_rowBad (s : State) (k : Nat) (x : Xbar) : (s.setXbar k x).rowBad = s.rowBad := rfl
@[simp] theorem State.setXbar_channels (s : State) (k : Nat) (x : Xbar) : (s.setXbar k x).channels = s.channels := rfl
@[simp] theorem State.setXbar_regions (s : State) (k : Nat) (x : Xbar) : (s.setXbar k x).regions = s.regions := rfl
@[simp] theorem State.setXbar_net (s : State) (k : Nat) (x : Xbar) : (s.setXbar k x).net = s.net := rfl
@[simp] theorem State.setXbar_inbox (s : State) (k : Nat) (x : Xbar) : (s.setXbar k x).inbox = s.inbox := rfl
@[simp] theorem State.setXbar_peerOut (s : State) (k : Nat) (x : Xbar) : (s.setXbar k x).peerOut = s.peerOut := rfl
@[simp] theorem State.setXbar_tlbs (s : State) (k : Nat) (x : Xbar) : (s.setXbar k x).tlbs = s.tlbs := rfl
@[simp] theorem State.setXbar_walks (s : State) (k : Nat) (x : Xbar) : (s.setXbar k x).walks = s.walks := rfl
@[simp] theorem State.setXbar_sched (s : State) (k : Nat) (x : Xbar) : (s.setXbar k x).sched = s.sched := rfl
@[simp] theorem State.setXbar_host (s : State) (k : Nat) (x : Xbar) : (s.setXbar k x).host = s.host := rfl
@[simp] theorem State.setXbar_mgmt (s : State) (k : Nat) (x : Xbar) : (s.setXbar k x).mgmt = s.mgmt := rfl
@[simp] theorem State.setXbar_conf (s : State) (k : Nat) (x : Xbar) : (s.setXbar k x).conf = s.conf := rfl
@[simp] theorem State.setXbar_defects (s : State) (k : Nat) (x : Xbar) : (s.setXbar k x).defects = s.defects := rfl
@[simp] theorem State.setXbar_ctxErrors (s : State) (k : Nat) (x : Xbar) : (s.setXbar k x).ctxErrors = s.ctxErrors := rfl
@[simp] theorem State.setXbar_unownedError (s : State) (k : Nat) (x : Xbar) : (s.setXbar k x).unownedError = s.unownedError := rfl
@[simp] theorem State.setXbar_schedLost (s : State) (k : Nat) (x : Xbar) : (s.setXbar k x).schedLost = s.schedLost := rfl

@[simp] theorem State.setNode_cycle (s : State) (k : Nat) (x : Node) : (s.setNode k x).cycle = s.cycle := rfl
@[simp] theorem State.setNode_powered (s : State) (k : Nat) (x : Node) : (s.setNode k x).powered = s.powered := rfl
@[simp] theorem State.setNode_tilesOff (s : State) (k : Nat) (x : Node) : (s.setNode k x).tilesOff = s.tilesOff := rfl
@[simp] theorem State.setNode_booted (s : State) (k : Nat) (x : Node) : (s.setNode k x).booted = s.booted := rfl
@[simp] theorem State.setNode_recovery (s : State) (k : Nat) (x : Node) : (s.setNode k x).recovery = s.recovery := rfl
@[simp] theorem State.setNode_deviceError (s : State) (k : Nat) (x : Node) : (s.setNode k x).deviceError = s.deviceError := rfl
@[simp] theorem State.setNode_agenda (s : State) (k : Nat) (x : Node) : (s.setNode k x).agenda = s.agenda := rfl
@[simp] theorem State.setNode_inputs (s : State) (k : Nat) (x : Node) : (s.setNode k x).inputs = s.inputs := rfl
@[simp] theorem State.setNode_cur (s : State) (k : Nat) (x : Node) : (s.setNode k x).cur = s.cur := rfl
@[simp] theorem State.setNode_guard (s : State) (k : Nat) (x : Node) : (s.setNode k x).guard = s.guard := rfl
@[simp] theorem State.setNode_word (s : State) (k : Nat) (x : Node) : (s.setNode k x).word = s.word := rfl
@[simp] theorem State.setNode_issued (s : State) (k : Nat) (x : Node) : (s.setNode k x).issued = s.issued := rfl
@[simp] theorem State.setNode_late (s : State) (k : Nat) (x : Node) : (s.setNode k x).late = s.late := rfl
@[simp] theorem State.setNode_clash (s : State) (k : Nat) (x : Node) : (s.setNode k x).clash = s.clash := rfl
@[simp] theorem State.setNode_atStart (s : State) (k : Nat) (x : Node) : (s.setNode k x).atStart = s.atStart := rfl
@[simp] theorem State.setNode_free (s : State) (k : Nat) (x : Node) : (s.setNode k x).free = s.free := rfl
@[simp] theorem State.setNode_mem (s : State) (k : Nat) (x : Node) : (s.setNode k x).mem = s.mem := rfl
@[simp] theorem State.setNode_badSectors (s : State) (k : Nat) (x : Node) : (s.setNode k x).badSectors = s.badSectors := rfl
@[simp] theorem State.setNode_badWords (s : State) (k : Nat) (x : Node) : (s.setNode k x).badWords = s.badWords := rfl
@[simp] theorem State.setNode_softWords (s : State) (k : Nat) (x : Node) : (s.setNode k x).softWords = s.softWords := rfl
@[simp] theorem State.setNode_symbolErrors (s : State) (k : Nat) (x : Node) : (s.setNode k x).symbolErrors = s.symbolErrors := rfl
@[simp] theorem State.setNode_softPosted (s : State) (k : Nat) (x : Node) : (s.setNode k x).softPosted = s.softPosted := rfl
@[simp] theorem State.setNode_ctxs (s : State) (k : Nat) (x : Node) : (s.setNode k x).ctxs = s.ctxs := rfl
@[simp] theorem State.setNode_cores (s : State) (k : Nat) (x : Node) : (s.setNode k x).cores = s.cores := rfl
@[simp] theorem State.setNode_tiles (s : State) (k : Nat) (x : Node) : (s.setNode k x).tiles = s.tiles := rfl
@[simp] theorem State.setNode_xbars (s : State) (k : Nat) (x : Node) : (s.setNode k x).xbars = s.xbars := rfl
@[simp] theorem State.setNode_ports (s : State) (k : Nat) (x : Node) : (s.setNode k x).ports = s.ports := rfl
@[simp] theorem State.setNode_openRows (s : State) (k : Nat) (x : Node) : (s.setNode k x).openRows = s.openRows := rfl
@[simp] theorem State.setNode_rows (s : State) (k : Nat) (x : Node) : (s.setNode k x).rows = s.rows := rfl
@[simp] theorem State.setNode_rowBad (s : State) (k : Nat) (x : Node) : (s.setNode k x).rowBad = s.rowBad := rfl
@[simp] theorem State.setNode_channels (s : State) (k : Nat) (x : Node) : (s.setNode k x).channels = s.channels := rfl
@[simp] theorem State.setNode_regions (s : State) (k : Nat) (x : Node) : (s.setNode k x).regions = s.regions := rfl
@[simp] theorem State.setNode_net (s : State) (k : Nat) (x : Node) : (s.setNode k x).net = s.net := rfl
@[simp] theorem State.setNode_inbox (s : State) (k : Nat) (x : Node) : (s.setNode k x).inbox = s.inbox := rfl
@[simp] theorem State.setNode_peerOut (s : State) (k : Nat) (x : Node) : (s.setNode k x).peerOut = s.peerOut := rfl
@[simp] theorem State.setNode_tlbs (s : State) (k : Nat) (x : Node) : (s.setNode k x).tlbs = s.tlbs := rfl
@[simp] theorem State.setNode_walks (s : State) (k : Nat) (x : Node) : (s.setNode k x).walks = s.walks := rfl
@[simp] theorem State.setNode_sched (s : State) (k : Nat) (x : Node) : (s.setNode k x).sched = s.sched := rfl
@[simp] theorem State.setNode_host (s : State) (k : Nat) (x : Node) : (s.setNode k x).host = s.host := rfl
@[simp] theorem State.setNode_mgmt (s : State) (k : Nat) (x : Node) : (s.setNode k x).mgmt = s.mgmt := rfl
@[simp] theorem State.setNode_conf (s : State) (k : Nat) (x : Node) : (s.setNode k x).conf = s.conf := rfl
@[simp] theorem State.setNode_defects (s : State) (k : Nat) (x : Node) : (s.setNode k x).defects = s.defects := rfl
@[simp] theorem State.setNode_ctxErrors (s : State) (k : Nat) (x : Node) : (s.setNode k x).ctxErrors = s.ctxErrors := rfl
@[simp] theorem State.setNode_unownedError (s : State) (k : Nat) (x : Node) : (s.setNode k x).unownedError = s.unownedError := rfl
@[simp] theorem State.setNode_schedLost (s : State) (k : Nat) (x : Node) : (s.setNode k x).schedLost = s.schedLost := rfl

@[simp] theorem State.setPort_cycle (s : State) (k : Nat) (x : Port) : (s.setPort k x).cycle = s.cycle := rfl
@[simp] theorem State.setPort_powered (s : State) (k : Nat) (x : Port) : (s.setPort k x).powered = s.powered := rfl
@[simp] theorem State.setPort_tilesOff (s : State) (k : Nat) (x : Port) : (s.setPort k x).tilesOff = s.tilesOff := rfl
@[simp] theorem State.setPort_booted (s : State) (k : Nat) (x : Port) : (s.setPort k x).booted = s.booted := rfl
@[simp] theorem State.setPort_recovery (s : State) (k : Nat) (x : Port) : (s.setPort k x).recovery = s.recovery := rfl
@[simp] theorem State.setPort_deviceError (s : State) (k : Nat) (x : Port) : (s.setPort k x).deviceError = s.deviceError := rfl
@[simp] theorem State.setPort_agenda (s : State) (k : Nat) (x : Port) : (s.setPort k x).agenda = s.agenda := rfl
@[simp] theorem State.setPort_inputs (s : State) (k : Nat) (x : Port) : (s.setPort k x).inputs = s.inputs := rfl
@[simp] theorem State.setPort_cur (s : State) (k : Nat) (x : Port) : (s.setPort k x).cur = s.cur := rfl
@[simp] theorem State.setPort_guard (s : State) (k : Nat) (x : Port) : (s.setPort k x).guard = s.guard := rfl
@[simp] theorem State.setPort_word (s : State) (k : Nat) (x : Port) : (s.setPort k x).word = s.word := rfl
@[simp] theorem State.setPort_issued (s : State) (k : Nat) (x : Port) : (s.setPort k x).issued = s.issued := rfl
@[simp] theorem State.setPort_late (s : State) (k : Nat) (x : Port) : (s.setPort k x).late = s.late := rfl
@[simp] theorem State.setPort_clash (s : State) (k : Nat) (x : Port) : (s.setPort k x).clash = s.clash := rfl
@[simp] theorem State.setPort_atStart (s : State) (k : Nat) (x : Port) : (s.setPort k x).atStart = s.atStart := rfl
@[simp] theorem State.setPort_free (s : State) (k : Nat) (x : Port) : (s.setPort k x).free = s.free := rfl
@[simp] theorem State.setPort_mem (s : State) (k : Nat) (x : Port) : (s.setPort k x).mem = s.mem := rfl
@[simp] theorem State.setPort_badSectors (s : State) (k : Nat) (x : Port) : (s.setPort k x).badSectors = s.badSectors := rfl
@[simp] theorem State.setPort_badWords (s : State) (k : Nat) (x : Port) : (s.setPort k x).badWords = s.badWords := rfl
@[simp] theorem State.setPort_softWords (s : State) (k : Nat) (x : Port) : (s.setPort k x).softWords = s.softWords := rfl
@[simp] theorem State.setPort_symbolErrors (s : State) (k : Nat) (x : Port) : (s.setPort k x).symbolErrors = s.symbolErrors := rfl
@[simp] theorem State.setPort_softPosted (s : State) (k : Nat) (x : Port) : (s.setPort k x).softPosted = s.softPosted := rfl
@[simp] theorem State.setPort_ctxs (s : State) (k : Nat) (x : Port) : (s.setPort k x).ctxs = s.ctxs := rfl
@[simp] theorem State.setPort_cores (s : State) (k : Nat) (x : Port) : (s.setPort k x).cores = s.cores := rfl
@[simp] theorem State.setPort_tiles (s : State) (k : Nat) (x : Port) : (s.setPort k x).tiles = s.tiles := rfl
@[simp] theorem State.setPort_xbars (s : State) (k : Nat) (x : Port) : (s.setPort k x).xbars = s.xbars := rfl
@[simp] theorem State.setPort_nodes (s : State) (k : Nat) (x : Port) : (s.setPort k x).nodes = s.nodes := rfl
@[simp] theorem State.setPort_openRows (s : State) (k : Nat) (x : Port) : (s.setPort k x).openRows = s.openRows := rfl
@[simp] theorem State.setPort_rows (s : State) (k : Nat) (x : Port) : (s.setPort k x).rows = s.rows := rfl
@[simp] theorem State.setPort_rowBad (s : State) (k : Nat) (x : Port) : (s.setPort k x).rowBad = s.rowBad := rfl
@[simp] theorem State.setPort_channels (s : State) (k : Nat) (x : Port) : (s.setPort k x).channels = s.channels := rfl
@[simp] theorem State.setPort_regions (s : State) (k : Nat) (x : Port) : (s.setPort k x).regions = s.regions := rfl
@[simp] theorem State.setPort_net (s : State) (k : Nat) (x : Port) : (s.setPort k x).net = s.net := rfl
@[simp] theorem State.setPort_inbox (s : State) (k : Nat) (x : Port) : (s.setPort k x).inbox = s.inbox := rfl
@[simp] theorem State.setPort_peerOut (s : State) (k : Nat) (x : Port) : (s.setPort k x).peerOut = s.peerOut := rfl
@[simp] theorem State.setPort_tlbs (s : State) (k : Nat) (x : Port) : (s.setPort k x).tlbs = s.tlbs := rfl
@[simp] theorem State.setPort_walks (s : State) (k : Nat) (x : Port) : (s.setPort k x).walks = s.walks := rfl
@[simp] theorem State.setPort_sched (s : State) (k : Nat) (x : Port) : (s.setPort k x).sched = s.sched := rfl
@[simp] theorem State.setPort_host (s : State) (k : Nat) (x : Port) : (s.setPort k x).host = s.host := rfl
@[simp] theorem State.setPort_mgmt (s : State) (k : Nat) (x : Port) : (s.setPort k x).mgmt = s.mgmt := rfl
@[simp] theorem State.setPort_conf (s : State) (k : Nat) (x : Port) : (s.setPort k x).conf = s.conf := rfl
@[simp] theorem State.setPort_defects (s : State) (k : Nat) (x : Port) : (s.setPort k x).defects = s.defects := rfl
@[simp] theorem State.setPort_ctxErrors (s : State) (k : Nat) (x : Port) : (s.setPort k x).ctxErrors = s.ctxErrors := rfl
@[simp] theorem State.setPort_unownedError (s : State) (k : Nat) (x : Port) : (s.setPort k x).unownedError = s.unownedError := rfl
@[simp] theorem State.setPort_schedLost (s : State) (k : Nat) (x : Port) : (s.setPort k x).schedLost = s.schedLost := rfl

@[simp] theorem State.setSched_cycle (s : State) (x : Sched) : (s.setSched x).cycle = s.cycle := rfl
@[simp] theorem State.setSched_powered (s : State) (x : Sched) : (s.setSched x).powered = s.powered := rfl
@[simp] theorem State.setSched_tilesOff (s : State) (x : Sched) : (s.setSched x).tilesOff = s.tilesOff := rfl
@[simp] theorem State.setSched_booted (s : State) (x : Sched) : (s.setSched x).booted = s.booted := rfl
@[simp] theorem State.setSched_recovery (s : State) (x : Sched) : (s.setSched x).recovery = s.recovery := rfl
@[simp] theorem State.setSched_deviceError (s : State) (x : Sched) : (s.setSched x).deviceError = s.deviceError := rfl
@[simp] theorem State.setSched_agenda (s : State) (x : Sched) : (s.setSched x).agenda = s.agenda := rfl
@[simp] theorem State.setSched_inputs (s : State) (x : Sched) : (s.setSched x).inputs = s.inputs := rfl
@[simp] theorem State.setSched_cur (s : State) (x : Sched) : (s.setSched x).cur = s.cur := rfl
@[simp] theorem State.setSched_guard (s : State) (x : Sched) : (s.setSched x).guard = s.guard := rfl
@[simp] theorem State.setSched_word (s : State) (x : Sched) : (s.setSched x).word = s.word := rfl
@[simp] theorem State.setSched_issued (s : State) (x : Sched) : (s.setSched x).issued = s.issued := rfl
@[simp] theorem State.setSched_late (s : State) (x : Sched) : (s.setSched x).late = s.late := rfl
@[simp] theorem State.setSched_clash (s : State) (x : Sched) : (s.setSched x).clash = s.clash := rfl
@[simp] theorem State.setSched_atStart (s : State) (x : Sched) : (s.setSched x).atStart = s.atStart := rfl
@[simp] theorem State.setSched_free (s : State) (x : Sched) : (s.setSched x).free = s.free := rfl
@[simp] theorem State.setSched_mem (s : State) (x : Sched) : (s.setSched x).mem = s.mem := rfl
@[simp] theorem State.setSched_badSectors (s : State) (x : Sched) : (s.setSched x).badSectors = s.badSectors := rfl
@[simp] theorem State.setSched_badWords (s : State) (x : Sched) : (s.setSched x).badWords = s.badWords := rfl
@[simp] theorem State.setSched_softWords (s : State) (x : Sched) : (s.setSched x).softWords = s.softWords := rfl
@[simp] theorem State.setSched_symbolErrors (s : State) (x : Sched) : (s.setSched x).symbolErrors = s.symbolErrors := rfl
@[simp] theorem State.setSched_softPosted (s : State) (x : Sched) : (s.setSched x).softPosted = s.softPosted := rfl
@[simp] theorem State.setSched_ctxs (s : State) (x : Sched) : (s.setSched x).ctxs = s.ctxs := rfl
@[simp] theorem State.setSched_cores (s : State) (x : Sched) : (s.setSched x).cores = s.cores := rfl
@[simp] theorem State.setSched_tiles (s : State) (x : Sched) : (s.setSched x).tiles = s.tiles := rfl
@[simp] theorem State.setSched_xbars (s : State) (x : Sched) : (s.setSched x).xbars = s.xbars := rfl
@[simp] theorem State.setSched_nodes (s : State) (x : Sched) : (s.setSched x).nodes = s.nodes := rfl
@[simp] theorem State.setSched_ports (s : State) (x : Sched) : (s.setSched x).ports = s.ports := rfl
@[simp] theorem State.setSched_openRows (s : State) (x : Sched) : (s.setSched x).openRows = s.openRows := rfl
@[simp] theorem State.setSched_rows (s : State) (x : Sched) : (s.setSched x).rows = s.rows := rfl
@[simp] theorem State.setSched_rowBad (s : State) (x : Sched) : (s.setSched x).rowBad = s.rowBad := rfl
@[simp] theorem State.setSched_channels (s : State) (x : Sched) : (s.setSched x).channels = s.channels := rfl
@[simp] theorem State.setSched_regions (s : State) (x : Sched) : (s.setSched x).regions = s.regions := rfl
@[simp] theorem State.setSched_net (s : State) (x : Sched) : (s.setSched x).net = s.net := rfl
@[simp] theorem State.setSched_inbox (s : State) (x : Sched) : (s.setSched x).inbox = s.inbox := rfl
@[simp] theorem State.setSched_peerOut (s : State) (x : Sched) : (s.setSched x).peerOut = s.peerOut := rfl
@[simp] theorem State.setSched_tlbs (s : State) (x : Sched) : (s.setSched x).tlbs = s.tlbs := rfl
@[simp] theorem State.setSched_walks (s : State) (x : Sched) : (s.setSched x).walks = s.walks := rfl
@[simp] theorem State.setSched_host (s : State) (x : Sched) : (s.setSched x).host = s.host := rfl
@[simp] theorem State.setSched_mgmt (s : State) (x : Sched) : (s.setSched x).mgmt = s.mgmt := rfl
@[simp] theorem State.setSched_conf (s : State) (x : Sched) : (s.setSched x).conf = s.conf := rfl
@[simp] theorem State.setSched_defects (s : State) (x : Sched) : (s.setSched x).defects = s.defects := rfl
@[simp] theorem State.setSched_ctxErrors (s : State) (x : Sched) : (s.setSched x).ctxErrors = s.ctxErrors := rfl
@[simp] theorem State.setSched_unownedError (s : State) (x : Sched) : (s.setSched x).unownedError = s.unownedError := rfl
@[simp] theorem State.setSched_schedLost (s : State) (x : Sched) : (s.setSched x).schedLost = s.schedLost := rfl

@[simp] theorem State.setMe_cycle (s : State) (x : Ctx) : (s.setMe x).cycle = s.cycle := rfl
@[simp] theorem State.setMe_powered (s : State) (x : Ctx) : (s.setMe x).powered = s.powered := rfl
@[simp] theorem State.setMe_tilesOff (s : State) (x : Ctx) : (s.setMe x).tilesOff = s.tilesOff := rfl
@[simp] theorem State.setMe_booted (s : State) (x : Ctx) : (s.setMe x).booted = s.booted := rfl
@[simp] theorem State.setMe_recovery (s : State) (x : Ctx) : (s.setMe x).recovery = s.recovery := rfl
@[simp] theorem State.setMe_deviceError (s : State) (x : Ctx) : (s.setMe x).deviceError = s.deviceError := rfl
@[simp] theorem State.setMe_agenda (s : State) (x : Ctx) : (s.setMe x).agenda = s.agenda := rfl
@[simp] theorem State.setMe_inputs (s : State) (x : Ctx) : (s.setMe x).inputs = s.inputs := rfl
@[simp] theorem State.setMe_cur (s : State) (x : Ctx) : (s.setMe x).cur = s.cur := rfl
@[simp] theorem State.setMe_guard (s : State) (x : Ctx) : (s.setMe x).guard = s.guard := rfl
@[simp] theorem State.setMe_word (s : State) (x : Ctx) : (s.setMe x).word = s.word := rfl
@[simp] theorem State.setMe_issued (s : State) (x : Ctx) : (s.setMe x).issued = s.issued := rfl
@[simp] theorem State.setMe_late (s : State) (x : Ctx) : (s.setMe x).late = s.late := rfl
@[simp] theorem State.setMe_clash (s : State) (x : Ctx) : (s.setMe x).clash = s.clash := rfl
@[simp] theorem State.setMe_atStart (s : State) (x : Ctx) : (s.setMe x).atStart = s.atStart := rfl
@[simp] theorem State.setMe_free (s : State) (x : Ctx) : (s.setMe x).free = s.free := rfl
@[simp] theorem State.setMe_mem (s : State) (x : Ctx) : (s.setMe x).mem = s.mem := rfl
@[simp] theorem State.setMe_badSectors (s : State) (x : Ctx) : (s.setMe x).badSectors = s.badSectors := rfl
@[simp] theorem State.setMe_badWords (s : State) (x : Ctx) : (s.setMe x).badWords = s.badWords := rfl
@[simp] theorem State.setMe_softWords (s : State) (x : Ctx) : (s.setMe x).softWords = s.softWords := rfl
@[simp] theorem State.setMe_symbolErrors (s : State) (x : Ctx) : (s.setMe x).symbolErrors = s.symbolErrors := rfl
@[simp] theorem State.setMe_softPosted (s : State) (x : Ctx) : (s.setMe x).softPosted = s.softPosted := rfl
@[simp] theorem State.setMe_cores (s : State) (x : Ctx) : (s.setMe x).cores = s.cores := rfl
@[simp] theorem State.setMe_tiles (s : State) (x : Ctx) : (s.setMe x).tiles = s.tiles := rfl
@[simp] theorem State.setMe_xbars (s : State) (x : Ctx) : (s.setMe x).xbars = s.xbars := rfl
@[simp] theorem State.setMe_nodes (s : State) (x : Ctx) : (s.setMe x).nodes = s.nodes := rfl
@[simp] theorem State.setMe_ports (s : State) (x : Ctx) : (s.setMe x).ports = s.ports := rfl
@[simp] theorem State.setMe_openRows (s : State) (x : Ctx) : (s.setMe x).openRows = s.openRows := rfl
@[simp] theorem State.setMe_rows (s : State) (x : Ctx) : (s.setMe x).rows = s.rows := rfl
@[simp] theorem State.setMe_rowBad (s : State) (x : Ctx) : (s.setMe x).rowBad = s.rowBad := rfl
@[simp] theorem State.setMe_channels (s : State) (x : Ctx) : (s.setMe x).channels = s.channels := rfl
@[simp] theorem State.setMe_regions (s : State) (x : Ctx) : (s.setMe x).regions = s.regions := rfl
@[simp] theorem State.setMe_net (s : State) (x : Ctx) : (s.setMe x).net = s.net := rfl
@[simp] theorem State.setMe_inbox (s : State) (x : Ctx) : (s.setMe x).inbox = s.inbox := rfl
@[simp] theorem State.setMe_peerOut (s : State) (x : Ctx) : (s.setMe x).peerOut = s.peerOut := rfl
@[simp] theorem State.setMe_tlbs (s : State) (x : Ctx) : (s.setMe x).tlbs = s.tlbs := rfl
@[simp] theorem State.setMe_walks (s : State) (x : Ctx) : (s.setMe x).walks = s.walks := rfl
@[simp] theorem State.setMe_sched (s : State) (x : Ctx) : (s.setMe x).sched = s.sched := rfl
@[simp] theorem State.setMe_host (s : State) (x : Ctx) : (s.setMe x).host = s.host := rfl
@[simp] theorem State.setMe_mgmt (s : State) (x : Ctx) : (s.setMe x).mgmt = s.mgmt := rfl
@[simp] theorem State.setMe_conf (s : State) (x : Ctx) : (s.setMe x).conf = s.conf := rfl
@[simp] theorem State.setMe_defects (s : State) (x : Ctx) : (s.setMe x).defects = s.defects := rfl
@[simp] theorem State.setMe_ctxErrors (s : State) (x : Ctx) : (s.setMe x).ctxErrors = s.ctxErrors := rfl
@[simp] theorem State.setMe_unownedError (s : State) (x : Ctx) : (s.setMe x).unownedError = s.unownedError := rfl
@[simp] theorem State.setMe_schedLost (s : State) (x : Ctx) : (s.setMe x).schedLost = s.schedLost := rfl

@[simp] theorem State.used_cycle (s : State)  : (s.used ).cycle = s.cycle := rfl
@[simp] theorem State.used_powered (s : State)  : (s.used ).powered = s.powered := rfl
@[simp] theorem State.used_tilesOff (s : State)  : (s.used ).tilesOff = s.tilesOff := rfl
@[simp] theorem State.used_booted (s : State)  : (s.used ).booted = s.booted := rfl
@[simp] theorem State.used_recovery (s : State)  : (s.used ).recovery = s.recovery := rfl
@[simp] theorem State.used_deviceError (s : State)  : (s.used ).deviceError = s.deviceError := rfl
@[simp] theorem State.used_agenda (s : State)  : (s.used ).agenda = s.agenda := rfl
@[simp] theorem State.used_inputs (s : State)  : (s.used ).inputs = s.inputs := rfl
@[simp] theorem State.used_cur (s : State)  : (s.used ).cur = s.cur := rfl
@[simp] theorem State.used_guard (s : State)  : (s.used ).guard = s.guard := rfl
@[simp] theorem State.used_word (s : State)  : (s.used ).word = s.word := rfl
@[simp] theorem State.used_late (s : State)  : (s.used ).late = s.late := rfl
@[simp] theorem State.used_clash (s : State)  : (s.used ).clash = s.clash := rfl
@[simp] theorem State.used_atStart (s : State)  : (s.used ).atStart = s.atStart := rfl
@[simp] theorem State.used_free (s : State)  : (s.used ).free = s.free := rfl
@[simp] theorem State.used_mem (s : State)  : (s.used ).mem = s.mem := rfl
@[simp] theorem State.used_badSectors (s : State)  : (s.used ).badSectors = s.badSectors := rfl
@[simp] theorem State.used_badWords (s : State)  : (s.used ).badWords = s.badWords := rfl
@[simp] theorem State.used_softWords (s : State)  : (s.used ).softWords = s.softWords := rfl
@[simp] theorem State.used_symbolErrors (s : State)  : (s.used ).symbolErrors = s.symbolErrors := rfl
@[simp] theorem State.used_softPosted (s : State)  : (s.used ).softPosted = s.softPosted := rfl
@[simp] theorem State.used_ctxs (s : State)  : (s.used ).ctxs = s.ctxs := rfl
@[simp] theorem State.used_cores (s : State)  : (s.used ).cores = s.cores := rfl
@[simp] theorem State.used_tiles (s : State)  : (s.used ).tiles = s.tiles := rfl
@[simp] theorem State.used_xbars (s : State)  : (s.used ).xbars = s.xbars := rfl
@[simp] theorem State.used_nodes (s : State)  : (s.used ).nodes = s.nodes := rfl
@[simp] theorem State.used_ports (s : State)  : (s.used ).ports = s.ports := rfl
@[simp] theorem State.used_openRows (s : State)  : (s.used ).openRows = s.openRows := rfl
@[simp] theorem State.used_rows (s : State)  : (s.used ).rows = s.rows := rfl
@[simp] theorem State.used_rowBad (s : State)  : (s.used ).rowBad = s.rowBad := rfl
@[simp] theorem State.used_channels (s : State)  : (s.used ).channels = s.channels := rfl
@[simp] theorem State.used_regions (s : State)  : (s.used ).regions = s.regions := rfl
@[simp] theorem State.used_net (s : State)  : (s.used ).net = s.net := rfl
@[simp] theorem State.used_inbox (s : State)  : (s.used ).inbox = s.inbox := rfl
@[simp] theorem State.used_peerOut (s : State)  : (s.used ).peerOut = s.peerOut := rfl
@[simp] theorem State.used_tlbs (s : State)  : (s.used ).tlbs = s.tlbs := rfl
@[simp] theorem State.used_walks (s : State)  : (s.used ).walks = s.walks := rfl
@[simp] theorem State.used_sched (s : State)  : (s.used ).sched = s.sched := rfl
@[simp] theorem State.used_host (s : State)  : (s.used ).host = s.host := rfl
@[simp] theorem State.used_mgmt (s : State)  : (s.used ).mgmt = s.mgmt := rfl
@[simp] theorem State.used_conf (s : State)  : (s.used ).conf = s.conf := rfl
@[simp] theorem State.used_defects (s : State)  : (s.used ).defects = s.defects := rfl
@[simp] theorem State.used_ctxErrors (s : State)  : (s.used ).ctxErrors = s.ctxErrors := rfl
@[simp] theorem State.used_unownedError (s : State)  : (s.used ).unownedError = s.unownedError := rfl
@[simp] theorem State.used_schedLost (s : State)  : (s.used ).schedLost = s.schedLost := rfl

@[simp] theorem State.used_issued (s : State) : s.used.issued = true := rfl

/-- Reading the part that was written, or another of its kind. -/
theorem State.ctx_setCtx (s : State) (k : Nat) (x : Ctx) (j : Nat) : (s.setCtx k x).ctx j = if j = k then x else s.ctx j := AMap.get_set ..
@[simp] theorem State.ctx_setCtx_self (s : State) (k : Nat) (x : Ctx) : (s.setCtx k x).ctx k = x := AMap.get_set_self ..
theorem State.ctx_setCtx_ne (s : State) (k : Nat) (x : Ctx) (j : Nat) (h : j ≠ k) : (s.setCtx k x).ctx j = s.ctx j := AMap.get_set_ne _ _ _ _ _ h
@[simp] theorem State.ctx_setCore (s : State) (k : Nat) (x : Core) (j : Nat) : (s.setCore k x).ctx j = s.ctx j := rfl
@[simp] theorem State.ctx_setTile (s : State) (k : Nat) (x : Tile) (j : Nat) : (s.setTile k x).ctx j = s.ctx j := rfl
@[simp] theorem State.ctx_setXbar (s : State) (k : Nat) (x : Xbar) (j : Nat) : (s.setXbar k x).ctx j = s.ctx j := rfl
@[simp] theorem State.ctx_setNode (s : State) (k : Nat) (x : Node) (j : Nat) : (s.setNode k x).ctx j = s.ctx j := rfl
@[simp] theorem State.ctx_setPort (s : State) (k : Nat) (x : Port) (j : Nat) : (s.setPort k x).ctx j = s.ctx j := rfl
@[simp] theorem State.ctx_used (s : State) (j : Nat) : s.used.ctx j = s.ctx j := rfl
@[simp] theorem State.ctx_setSched (s : State) (x : Sched) (j : Nat) : (s.setSched x).ctx j = s.ctx j := rfl

/-- Reading the part that was written, or another of its kind. -/
theorem State.core_setCore (s : State) (k : Nat) (x : Core) (j : Nat) : (s.setCore k x).core j = if j = k then x else s.core j := AMap.get_set ..
@[simp] theorem State.core_setCore_self (s : State) (k : Nat) (x : Core) : (s.setCore k x).core k = x := AMap.get_set_self ..
theorem State.core_setCore_ne (s : State) (k : Nat) (x : Core) (j : Nat) (h : j ≠ k) : (s.setCore k x).core j = s.core j := AMap.get_set_ne _ _ _ _ _ h
@[simp] theorem State.core_setCtx (s : State) (k : Nat) (x : Ctx) (j : Nat) : (s.setCtx k x).core j = s.core j := rfl
@[simp] theorem State.core_setTile (s : State) (k : Nat) (x : Tile) (j : Nat) : (s.setTile k x).core j = s.core j := rfl
@[simp] theorem State.core_setXbar (s : State) (k : Nat) (x : Xbar) (j : Nat) : (s.setXbar k x).core j = s.core j := rfl
@[simp] theorem State.core_setNode (s : State) (k : Nat) (x : Node) (j : Nat) : (s.setNode k x).core j = s.core j := rfl
@[simp] theorem State.core_setPort (s : State) (k : Nat) (x : Port) (j : Nat) : (s.setPort k x).core j = s.core j := rfl
@[simp] theorem State.core_used (s : State) (j : Nat) : s.used.core j = s.core j := rfl
@[simp] theorem State.core_setSched (s : State) (x : Sched) (j : Nat) : (s.setSched x).core j = s.core j := rfl
@[simp] theorem State.core_setMe (s : State) (x : Ctx) (j : Nat) : (s.setMe x).core j = s.core j := rfl

/-- Reading the part that was written, or another of its kind. -/
theorem State.tile_setTile (s : State) (k : Nat) (x : Tile) (j : Nat) : (s.setTile k x).tile j = if j = k then x else s.tile j := AMap.get_set ..
@[simp] theorem State.tile_setTile_self (s : State) (k : Nat) (x : Tile) : (s.setTile k x).tile k = x := AMap.get_set_self ..
theorem State.tile_setTile_ne (s : State) (k : Nat) (x : Tile) (j : Nat) (h : j ≠ k) : (s.setTile k x).tile j = s.tile j := AMap.get_set_ne _ _ _ _ _ h
@[simp] theorem State.tile_setCtx (s : State) (k : Nat) (x : Ctx) (j : Nat) : (s.setCtx k x).tile j = s.tile j := rfl
@[simp] theorem State.tile_setCore (s : State) (k : Nat) (x : Core) (j : Nat) : (s.setCore k x).tile j = s.tile j := rfl
@[simp] theorem State.tile_setXbar (s : State) (k : Nat) (x : Xbar) (j : Nat) : (s.setXbar k x).tile j = s.tile j := rfl
@[simp] theorem State.tile_setNode (s : State) (k : Nat) (x : Node) (j : Nat) : (s.setNode k x).tile j = s.tile j := rfl
@[simp] theorem State.tile_setPort (s : State) (k : Nat) (x : Port) (j : Nat) : (s.setPort k x).tile j = s.tile j := rfl
@[simp] theorem State.tile_used (s : State) (j : Nat) : s.used.tile j = s.tile j := rfl
@[simp] theorem State.tile_setSched (s : State) (x : Sched) (j : Nat) : (s.setSched x).tile j = s.tile j := rfl
@[simp] theorem State.tile_setMe (s : State) (x : Ctx) (j : Nat) : (s.setMe x).tile j = s.tile j := rfl

/-- Reading the part that was written, or another of its kind. -/
theorem State.xbar_setXbar (s : State) (k : Nat) (x : Xbar) (j : Nat) : (s.setXbar k x).xbar j = if j = k then x else s.xbar j := AMap.get_set ..
@[simp] theorem State.xbar_setXbar_self (s : State) (k : Nat) (x : Xbar) : (s.setXbar k x).xbar k = x := AMap.get_set_self ..
theorem State.xbar_setXbar_ne (s : State) (k : Nat) (x : Xbar) (j : Nat) (h : j ≠ k) : (s.setXbar k x).xbar j = s.xbar j := AMap.get_set_ne _ _ _ _ _ h
@[simp] theorem State.xbar_setCtx (s : State) (k : Nat) (x : Ctx) (j : Nat) : (s.setCtx k x).xbar j = s.xbar j := rfl
@[simp] theorem State.xbar_setCore (s : State) (k : Nat) (x : Core) (j : Nat) : (s.setCore k x).xbar j = s.xbar j := rfl
@[simp] theorem State.xbar_setTile (s : State) (k : Nat) (x : Tile) (j : Nat) : (s.setTile k x).xbar j = s.xbar j := rfl
@[simp] theorem State.xbar_setNode (s : State) (k : Nat) (x : Node) (j : Nat) : (s.setNode k x).xbar j = s.xbar j := rfl
@[simp] theorem State.xbar_setPort (s : State) (k : Nat) (x : Port) (j : Nat) : (s.setPort k x).xbar j = s.xbar j := rfl
@[simp] theorem State.xbar_used (s : State) (j : Nat) : s.used.xbar j = s.xbar j := rfl
@[simp] theorem State.xbar_setSched (s : State) (x : Sched) (j : Nat) : (s.setSched x).xbar j = s.xbar j := rfl
@[simp] theorem State.xbar_setMe (s : State) (x : Ctx) (j : Nat) : (s.setMe x).xbar j = s.xbar j := rfl

/-- Reading the part that was written, or another of its kind. -/
theorem State.node_setNode (s : State) (k : Nat) (x : Node) (j : Nat) : (s.setNode k x).node j = if j = k then x else s.node j := AMap.get_set ..
@[simp] theorem State.node_setNode_self (s : State) (k : Nat) (x : Node) : (s.setNode k x).node k = x := AMap.get_set_self ..
theorem State.node_setNode_ne (s : State) (k : Nat) (x : Node) (j : Nat) (h : j ≠ k) : (s.setNode k x).node j = s.node j := AMap.get_set_ne _ _ _ _ _ h
@[simp] theorem State.node_setCtx (s : State) (k : Nat) (x : Ctx) (j : Nat) : (s.setCtx k x).node j = s.node j := rfl
@[simp] theorem State.node_setCore (s : State) (k : Nat) (x : Core) (j : Nat) : (s.setCore k x).node j = s.node j := rfl
@[simp] theorem State.node_setTile (s : State) (k : Nat) (x : Tile) (j : Nat) : (s.setTile k x).node j = s.node j := rfl
@[simp] theorem State.node_setXbar (s : State) (k : Nat) (x : Xbar) (j : Nat) : (s.setXbar k x).node j = s.node j := rfl
@[simp] theorem State.node_setPort (s : State) (k : Nat) (x : Port) (j : Nat) : (s.setPort k x).node j = s.node j := rfl
@[simp] theorem State.node_used (s : State) (j : Nat) : s.used.node j = s.node j := rfl
@[simp] theorem State.node_setSched (s : State) (x : Sched) (j : Nat) : (s.setSched x).node j = s.node j := rfl
@[simp] theorem State.node_setMe (s : State) (x : Ctx) (j : Nat) : (s.setMe x).node j = s.node j := rfl

/-- Reading the part that was written, or another of its kind. -/
theorem State.port_setPort (s : State) (k : Nat) (x : Port) (j : Nat) : (s.setPort k x).port j = if j = k then x else s.port j := AMap.get_set ..
@[simp] theorem State.port_setPort_self (s : State) (k : Nat) (x : Port) : (s.setPort k x).port k = x := AMap.get_set_self ..
theorem State.port_setPort_ne (s : State) (k : Nat) (x : Port) (j : Nat) (h : j ≠ k) : (s.setPort k x).port j = s.port j := AMap.get_set_ne _ _ _ _ _ h
@[simp] theorem State.port_setCtx (s : State) (k : Nat) (x : Ctx) (j : Nat) : (s.setCtx k x).port j = s.port j := rfl
@[simp] theorem State.port_setCore (s : State) (k : Nat) (x : Core) (j : Nat) : (s.setCore k x).port j = s.port j := rfl
@[simp] theorem State.port_setTile (s : State) (k : Nat) (x : Tile) (j : Nat) : (s.setTile k x).port j = s.port j := rfl
@[simp] theorem State.port_setXbar (s : State) (k : Nat) (x : Xbar) (j : Nat) : (s.setXbar k x).port j = s.port j := rfl
@[simp] theorem State.port_setNode (s : State) (k : Nat) (x : Node) (j : Nat) : (s.setNode k x).port j = s.port j := rfl
@[simp] theorem State.port_used (s : State) (j : Nat) : s.used.port j = s.port j := rfl
@[simp] theorem State.port_setSched (s : State) (x : Sched) (j : Nat) : (s.setSched x).port j = s.port j := rfl
@[simp] theorem State.port_setMe (s : State) (x : Ctx) (j : Nat) : (s.setMe x).port j = s.port j := rfl

/-- A second write to a context replaces the first. -/
@[simp] theorem State.setCtx_setCtx (s : State) (k : Nat) (x y : Ctx) : (s.setCtx k x).setCtx k y = s.setCtx k y := by
  simp [State.setCtx]

@[simp] theorem State.me_setMe (s : State) (x : Ctx) : (s.setMe x).me = x := AMap.get_set_self ..
@[simp] theorem State.setMe_setMe (s : State) (x y : Ctx) : (s.setMe x).setMe y = s.setMe y := State.setCtx_setCtx ..
@[simp] theorem State.me_used (s : State) : s.used.me = s.me := rfl

/-- What a write to the context whose turn it is leaves of the others. -/
theorem State.ctx_setMe (s : State) (x : Ctx) (j : Nat) : (s.setMe x).ctx j = if j = s.cur.ctx then x else s.ctx j := AMap.get_set ..

@[simp] theorem Ctx.setV_run (c : Ctx) (n : Nat) (v : W256) : (c.setV n v).run = c.run := rfl
@[simp] theorem Ctx.setV_resid (c : Ctx) (n : Nat) (v : W256) : (c.setV n v).resid = c.resid := rfl
@[simp] theorem Ctx.setV_fold (c : Ctx) (n : Nat) (v : W256) : (c.setV n v).fold = c.fold := rfl
@[simp] theorem Ctx.setV_ip (c : Ctx) (n : Nat) (v : W256) : (c.setV n v).ip = c.ip := rfl
@[simp] theorem Ctx.setV_sregs (c : Ctx) (n : Nat) (v : W256) : (c.setV n v).sregs = c.sregs := rfl
@[simp] theorem Ctx.setV_preds (c : Ctx) (n : Nat) (v : W256) : (c.setV n v).preds = c.preds := rfl
@[simp] theorem Ctx.setV_masks (c : Ctx) (n : Nat) (v : W256) : (c.setV n v).masks = c.masks := rfl
@[simp] theorem Ctx.setV_vcfg (c : Ctx) (n : Nat) (v : W256) : (c.setV n v).vcfg = c.vcfg := rfl
@[simp] theorem Ctx.setV_conv (c : Ctx) (n : Nat) (v : W256) : (c.setV n v).conv = c.conv := rfl
@[simp] theorem Ctx.setV_fstat (c : Ctx) (n : Nat) (v : W256) : (c.setV n v).fstat = c.fstat := rfl
@[simp] theorem Ctx.setV_trapvec (c : Ctx) (n : Nat) (v : W256) : (c.setV n v).trapvec = c.trapvec := rfl
@[simp] theorem Ctx.setV_trapip (c : Ctx) (n : Nat) (v : W256) : (c.setV n v).trapip = c.trapip := rfl
@[simp] theorem Ctx.setV_trapcause (c : Ctx) (n : Nat) (v : W256) : (c.setV n v).trapcause = c.trapcause := rfl
@[simp] theorem Ctx.setV_trapaddr (c : Ctx) (n : Nat) (v : W256) : (c.setV n v).trapaddr = c.trapaddr := rfl
@[simp] theorem Ctx.setV_trapinfo (c : Ctx) (n : Nat) (v : W256) : (c.setV n v).trapinfo = c.trapinfo := rfl
@[simp] theorem Ctx.setV_stake (c : Ctx) (n : Nat) (v : W256) : (c.setV n v).stake = c.stake := rfl
@[simp] theorem Ctx.setV_instret (c : Ctx) (n : Nat) (v : W256) : (c.setV n v).instret = c.instret := rfl
@[simp] theorem Ctx.setV_hold (c : Ctx) (n : Nat) (v : W256) : (c.setV n v).hold = c.hold := rfl
@[simp] theorem Ctx.setV_prio (c : Ctx) (n : Nat) (v : W256) : (c.setV n v).prio = c.prio := rfl
@[simp] theorem Ctx.setV_handler (c : Ctx) (n : Nat) (v : W256) : (c.setV n v).handler = c.handler := rfl
@[simp] theorem Ctx.setV_code (c : Ctx) (n : Nat) (v : W256) : (c.setV n v).code = c.code := rfl
@[simp] theorem Ctx.setV_shadowCode (c : Ctx) (n : Nat) (v : W256) : (c.setV n v).shadowCode = c.shadowCode := rfl
@[simp] theorem Ctx.setV_privStart (c : Ctx) (n : Nat) (v : W256) : (c.setV n v).privStart = c.privStart := rfl
@[simp] theorem Ctx.setV_privSize (c : Ctx) (n : Nat) (v : W256) : (c.setV n v).privSize = c.privSize := rfl
@[simp] theorem Ctx.setV_deque (c : Ctx) (n : Nat) (v : W256) : (c.setV n v).deque = c.deque := rfl
@[simp] theorem Ctx.setV_ring (c : Ctx) (n : Nat) (v : W256) : (c.setV n v).ring = c.ring := rfl
@[simp] theorem Ctx.setV_bars (c : Ctx) (n : Nat) (v : W256) : (c.setV n v).bars = c.bars := rfl
@[simp] theorem Ctx.setV_async (c : Ctx) (n : Nat) (v : W256) : (c.setV n v).async = c.async := rfl
@[simp] theorem Ctx.setV_asyncDrop (c : Ctx) (n : Nat) (v : W256) : (c.setV n v).asyncDrop = c.asyncDrop := rfl
@[simp] theorem Ctx.setV_wait (c : Ctx) (n : Nat) (v : W256) : (c.setV n v).wait = c.wait := rfl
@[simp] theorem Ctx.setV_heldLen (c : Ctx) (n : Nat) (v : W256) : (c.setV n v).heldLen = c.heldLen := rfl
@[simp] theorem Ctx.setV_heldIns (c : Ctx) (n : Nat) (v : W256) : (c.setV n v).heldIns = c.heldIns := rfl
@[simp] theorem Ctx.setV_walkFail (c : Ctx) (n : Nat) (v : W256) : (c.setV n v).walkFail = c.walkFail := rfl
@[simp] theorem Ctx.setV_stream (c : Ctx) (n : Nat) (v : W256) : (c.setV n v).stream = c.stream := rfl
@[simp] theorem Ctx.setV_steal (c : Ctx) (n : Nat) (v : W256) : (c.setV n v).steal = c.steal := rfl
@[simp] theorem Ctx.setV_reqSeq (c : Ctx) (n : Nat) (v : W256) : (c.setV n v).reqSeq = c.reqSeq := rfl
@[simp] theorem Ctx.setV_starts (c : Ctx) (n : Nat) (v : W256) : (c.setV n v).starts = c.starts := rfl
@[simp] theorem Ctx.setV_worker (c : Ctx) (n : Nat) (v : W256) : (c.setV n v).worker = c.worker := rfl
@[simp] theorem Ctx.setV_mid (c : Ctx) (n : Nat) (v : W256) : (c.setV n v).mid = c.mid := rfl
@[simp] theorem Ctx.setS_run (c : Ctx) (n : Nat) (v : W64) : (c.setS n v).run = c.run := by unfold Ctx.setS; split <;> rfl
@[simp] theorem Ctx.setS_resid (c : Ctx) (n : Nat) (v : W64) : (c.setS n v).resid = c.resid := by unfold Ctx.setS; split <;> rfl
@[simp] theorem Ctx.setS_fold (c : Ctx) (n : Nat) (v : W64) : (c.setS n v).fold = c.fold := by unfold Ctx.setS; split <;> rfl
@[simp] theorem Ctx.setS_ip (c : Ctx) (n : Nat) (v : W64) : (c.setS n v).ip = c.ip := by unfold Ctx.setS; split <;> rfl
@[simp] theorem Ctx.setS_vregs (c : Ctx) (n : Nat) (v : W64) : (c.setS n v).vregs = c.vregs := by unfold Ctx.setS; split <;> rfl
@[simp] theorem Ctx.setS_preds (c : Ctx) (n : Nat) (v : W64) : (c.setS n v).preds = c.preds := by unfold Ctx.setS; split <;> rfl
@[simp] theorem Ctx.setS_masks (c : Ctx) (n : Nat) (v : W64) : (c.setS n v).masks = c.masks := by unfold Ctx.setS; split <;> rfl
@[simp] theorem Ctx.setS_vcfg (c : Ctx) (n : Nat) (v : W64) : (c.setS n v).vcfg = c.vcfg := by unfold Ctx.setS; split <;> rfl
@[simp] theorem Ctx.setS_conv (c : Ctx) (n : Nat) (v : W64) : (c.setS n v).conv = c.conv := by unfold Ctx.setS; split <;> rfl
@[simp] theorem Ctx.setS_fstat (c : Ctx) (n : Nat) (v : W64) : (c.setS n v).fstat = c.fstat := by unfold Ctx.setS; split <;> rfl
@[simp] theorem Ctx.setS_trapvec (c : Ctx) (n : Nat) (v : W64) : (c.setS n v).trapvec = c.trapvec := by unfold Ctx.setS; split <;> rfl
@[simp] theorem Ctx.setS_trapip (c : Ctx) (n : Nat) (v : W64) : (c.setS n v).trapip = c.trapip := by unfold Ctx.setS; split <;> rfl
@[simp] theorem Ctx.setS_trapcause (c : Ctx) (n : Nat) (v : W64) : (c.setS n v).trapcause = c.trapcause := by unfold Ctx.setS; split <;> rfl
@[simp] theorem Ctx.setS_trapaddr (c : Ctx) (n : Nat) (v : W64) : (c.setS n v).trapaddr = c.trapaddr := by unfold Ctx.setS; split <;> rfl
@[simp] theorem Ctx.setS_trapinfo (c : Ctx) (n : Nat) (v : W64) : (c.setS n v).trapinfo = c.trapinfo := by unfold Ctx.setS; split <;> rfl
@[simp] theorem Ctx.setS_stake (c : Ctx) (n : Nat) (v : W64) : (c.setS n v).stake = c.stake := by unfold Ctx.setS; split <;> rfl
@[simp] theorem Ctx.setS_instret (c : Ctx) (n : Nat) (v : W64) : (c.setS n v).instret = c.instret := by unfold Ctx.setS; split <;> rfl
@[simp] theorem Ctx.setS_hold (c : Ctx) (n : Nat) (v : W64) : (c.setS n v).hold = c.hold := by unfold Ctx.setS; split <;> rfl
@[simp] theorem Ctx.setS_prio (c : Ctx) (n : Nat) (v : W64) : (c.setS n v).prio = c.prio := by unfold Ctx.setS; split <;> rfl
@[simp] theorem Ctx.setS_handler (c : Ctx) (n : Nat) (v : W64) : (c.setS n v).handler = c.handler := by unfold Ctx.setS; split <;> rfl
@[simp] theorem Ctx.setS_code (c : Ctx) (n : Nat) (v : W64) : (c.setS n v).code = c.code := by unfold Ctx.setS; split <;> rfl
@[simp] theorem Ctx.setS_shadowCode (c : Ctx) (n : Nat) (v : W64) : (c.setS n v).shadowCode = c.shadowCode := by unfold Ctx.setS; split <;> rfl
@[simp] theorem Ctx.setS_privStart (c : Ctx) (n : Nat) (v : W64) : (c.setS n v).privStart = c.privStart := by unfold Ctx.setS; split <;> rfl
@[simp] theorem Ctx.setS_privSize (c : Ctx) (n : Nat) (v : W64) : (c.setS n v).privSize = c.privSize := by unfold Ctx.setS; split <;> rfl
@[simp] theorem Ctx.setS_deque (c : Ctx) (n : Nat) (v : W64) : (c.setS n v).deque = c.deque := by unfold Ctx.setS; split <;> rfl
@[simp] theorem Ctx.setS_ring (c : Ctx) (n : Nat) (v : W64) : (c.setS n v).ring = c.ring := by unfold Ctx.setS; split <;> rfl
@[simp] theorem Ctx.setS_bars (c : Ctx) (n : Nat) (v : W64) : (c.setS n v).bars = c.bars := by unfold Ctx.setS; split <;> rfl
@[simp] theorem Ctx.setS_async (c : Ctx) (n : Nat) (v : W64) : (c.setS n v).async = c.async := by unfold Ctx.setS; split <;> rfl
@[simp] theorem Ctx.setS_asyncDrop (c : Ctx) (n : Nat) (v : W64) : (c.setS n v).asyncDrop = c.asyncDrop := by unfold Ctx.setS; split <;> rfl
@[simp] theorem Ctx.setS_wait (c : Ctx) (n : Nat) (v : W64) : (c.setS n v).wait = c.wait := by unfold Ctx.setS; split <;> rfl
@[simp] theorem Ctx.setS_heldLen (c : Ctx) (n : Nat) (v : W64) : (c.setS n v).heldLen = c.heldLen := by unfold Ctx.setS; split <;> rfl
@[simp] theorem Ctx.setS_heldIns (c : Ctx) (n : Nat) (v : W64) : (c.setS n v).heldIns = c.heldIns := by unfold Ctx.setS; split <;> rfl
@[simp] theorem Ctx.setS_walkFail (c : Ctx) (n : Nat) (v : W64) : (c.setS n v).walkFail = c.walkFail := by unfold Ctx.setS; split <;> rfl
@[simp] theorem Ctx.setS_stream (c : Ctx) (n : Nat) (v : W64) : (c.setS n v).stream = c.stream := by unfold Ctx.setS; split <;> rfl
@[simp] theorem Ctx.setS_steal (c : Ctx) (n : Nat) (v : W64) : (c.setS n v).steal = c.steal := by unfold Ctx.setS; split <;> rfl
@[simp] theorem Ctx.setS_reqSeq (c : Ctx) (n : Nat) (v : W64) : (c.setS n v).reqSeq = c.reqSeq := by unfold Ctx.setS; split <;> rfl
@[simp] theorem Ctx.setS_starts (c : Ctx) (n : Nat) (v : W64) : (c.setS n v).starts = c.starts := by unfold Ctx.setS; split <;> rfl
@[simp] theorem Ctx.setS_worker (c : Ctx) (n : Nat) (v : W64) : (c.setS n v).worker = c.worker := by unfold Ctx.setS; split <;> rfl
@[simp] theorem Ctx.setS_mid (c : Ctx) (n : Nat) (v : W64) : (c.setS n v).mid = c.mid := by unfold Ctx.setS; split <;> rfl
@[simp] theorem Ctx.setP_run (c : Ctx) (n : Nat) (v : Bool) : (c.setP n v).run = c.run := by unfold Ctx.setP; split <;> rfl
@[simp] theorem Ctx.setP_resid (c : Ctx) (n : Nat) (v : Bool) : (c.setP n v).resid = c.resid := by unfold Ctx.setP; split <;> rfl
@[simp] theorem Ctx.setP_fold (c : Ctx) (n : Nat) (v : Bool) : (c.setP n v).fold = c.fold := by unfold Ctx.setP; split <;> rfl
@[simp] theorem Ctx.setP_ip (c : Ctx) (n : Nat) (v : Bool) : (c.setP n v).ip = c.ip := by unfold Ctx.setP; split <;> rfl
@[simp] theorem Ctx.setP_sregs (c : Ctx) (n : Nat) (v : Bool) : (c.setP n v).sregs = c.sregs := by unfold Ctx.setP; split <;> rfl
@[simp] theorem Ctx.setP_vregs (c : Ctx) (n : Nat) (v : Bool) : (c.setP n v).vregs = c.vregs := by unfold Ctx.setP; split <;> rfl
@[simp] theorem Ctx.setP_masks (c : Ctx) (n : Nat) (v : Bool) : (c.setP n v).masks = c.masks := by unfold Ctx.setP; split <;> rfl
@[simp] theorem Ctx.setP_vcfg (c : Ctx) (n : Nat) (v : Bool) : (c.setP n v).vcfg = c.vcfg := by unfold Ctx.setP; split <;> rfl
@[simp] theorem Ctx.setP_conv (c : Ctx) (n : Nat) (v : Bool) : (c.setP n v).conv = c.conv := by unfold Ctx.setP; split <;> rfl
@[simp] theorem Ctx.setP_fstat (c : Ctx) (n : Nat) (v : Bool) : (c.setP n v).fstat = c.fstat := by unfold Ctx.setP; split <;> rfl
@[simp] theorem Ctx.setP_trapvec (c : Ctx) (n : Nat) (v : Bool) : (c.setP n v).trapvec = c.trapvec := by unfold Ctx.setP; split <;> rfl
@[simp] theorem Ctx.setP_trapip (c : Ctx) (n : Nat) (v : Bool) : (c.setP n v).trapip = c.trapip := by unfold Ctx.setP; split <;> rfl
@[simp] theorem Ctx.setP_trapcause (c : Ctx) (n : Nat) (v : Bool) : (c.setP n v).trapcause = c.trapcause := by unfold Ctx.setP; split <;> rfl
@[simp] theorem Ctx.setP_trapaddr (c : Ctx) (n : Nat) (v : Bool) : (c.setP n v).trapaddr = c.trapaddr := by unfold Ctx.setP; split <;> rfl
@[simp] theorem Ctx.setP_trapinfo (c : Ctx) (n : Nat) (v : Bool) : (c.setP n v).trapinfo = c.trapinfo := by unfold Ctx.setP; split <;> rfl
@[simp] theorem Ctx.setP_stake (c : Ctx) (n : Nat) (v : Bool) : (c.setP n v).stake = c.stake := by unfold Ctx.setP; split <;> rfl
@[simp] theorem Ctx.setP_instret (c : Ctx) (n : Nat) (v : Bool) : (c.setP n v).instret = c.instret := by unfold Ctx.setP; split <;> rfl
@[simp] theorem Ctx.setP_hold (c : Ctx) (n : Nat) (v : Bool) : (c.setP n v).hold = c.hold := by unfold Ctx.setP; split <;> rfl
@[simp] theorem Ctx.setP_prio (c : Ctx) (n : Nat) (v : Bool) : (c.setP n v).prio = c.prio := by unfold Ctx.setP; split <;> rfl
@[simp] theorem Ctx.setP_handler (c : Ctx) (n : Nat) (v : Bool) : (c.setP n v).handler = c.handler := by unfold Ctx.setP; split <;> rfl
@[simp] theorem Ctx.setP_code (c : Ctx) (n : Nat) (v : Bool) : (c.setP n v).code = c.code := by unfold Ctx.setP; split <;> rfl
@[simp] theorem Ctx.setP_shadowCode (c : Ctx) (n : Nat) (v : Bool) : (c.setP n v).shadowCode = c.shadowCode := by unfold Ctx.setP; split <;> rfl
@[simp] theorem Ctx.setP_privStart (c : Ctx) (n : Nat) (v : Bool) : (c.setP n v).privStart = c.privStart := by unfold Ctx.setP; split <;> rfl
@[simp] theorem Ctx.setP_privSize (c : Ctx) (n : Nat) (v : Bool) : (c.setP n v).privSize = c.privSize := by unfold Ctx.setP; split <;> rfl
@[simp] theorem Ctx.setP_deque (c : Ctx) (n : Nat) (v : Bool) : (c.setP n v).deque = c.deque := by unfold Ctx.setP; split <;> rfl
@[simp] theorem Ctx.setP_ring (c : Ctx) (n : Nat) (v : Bool) : (c.setP n v).ring = c.ring := by unfold Ctx.setP; split <;> rfl
@[simp] theorem Ctx.setP_bars (c : Ctx) (n : Nat) (v : Bool) : (c.setP n v).bars = c.bars := by unfold Ctx.setP; split <;> rfl
@[simp] theorem Ctx.setP_async (c : Ctx) (n : Nat) (v : Bool) : (c.setP n v).async = c.async := by unfold Ctx.setP; split <;> rfl
@[simp] theorem Ctx.setP_asyncDrop (c : Ctx) (n : Nat) (v : Bool) : (c.setP n v).asyncDrop = c.asyncDrop := by unfold Ctx.setP; split <;> rfl
@[simp] theorem Ctx.setP_wait (c : Ctx) (n : Nat) (v : Bool) : (c.setP n v).wait = c.wait := by unfold Ctx.setP; split <;> rfl
@[simp] theorem Ctx.setP_heldLen (c : Ctx) (n : Nat) (v : Bool) : (c.setP n v).heldLen = c.heldLen := by unfold Ctx.setP; split <;> rfl
@[simp] theorem Ctx.setP_heldIns (c : Ctx) (n : Nat) (v : Bool) : (c.setP n v).heldIns = c.heldIns := by unfold Ctx.setP; split <;> rfl
@[simp] theorem Ctx.setP_walkFail (c : Ctx) (n : Nat) (v : Bool) : (c.setP n v).walkFail = c.walkFail := by unfold Ctx.setP; split <;> rfl
@[simp] theorem Ctx.setP_stream (c : Ctx) (n : Nat) (v : Bool) : (c.setP n v).stream = c.stream := by unfold Ctx.setP; split <;> rfl
@[simp] theorem Ctx.setP_steal (c : Ctx) (n : Nat) (v : Bool) : (c.setP n v).steal = c.steal := by unfold Ctx.setP; split <;> rfl
@[simp] theorem Ctx.setP_reqSeq (c : Ctx) (n : Nat) (v : Bool) : (c.setP n v).reqSeq = c.reqSeq := by unfold Ctx.setP; split <;> rfl
@[simp] theorem Ctx.setP_starts (c : Ctx) (n : Nat) (v : Bool) : (c.setP n v).starts = c.starts := by unfold Ctx.setP; split <;> rfl
@[simp] theorem Ctx.setP_worker (c : Ctx) (n : Nat) (v : Bool) : (c.setP n v).worker = c.worker := by unfold Ctx.setP; split <;> rfl
@[simp] theorem Ctx.setP_mid (c : Ctx) (n : Nat) (v : Bool) : (c.setP n v).mid = c.mid := by unfold Ctx.setP; split <;> rfl
@[simp] theorem Ctx.setK_run (c : Ctx) (n : Nat) (v : BitVec 32) : (c.setK n v).run = c.run := by unfold Ctx.setK; split <;> rfl
@[simp] theorem Ctx.setK_resid (c : Ctx) (n : Nat) (v : BitVec 32) : (c.setK n v).resid = c.resid := by unfold Ctx.setK; split <;> rfl
@[simp] theorem Ctx.setK_fold (c : Ctx) (n : Nat) (v : BitVec 32) : (c.setK n v).fold = c.fold := by unfold Ctx.setK; split <;> rfl
@[simp] theorem Ctx.setK_ip (c : Ctx) (n : Nat) (v : BitVec 32) : (c.setK n v).ip = c.ip := by unfold Ctx.setK; split <;> rfl
@[simp] theorem Ctx.setK_sregs (c : Ctx) (n : Nat) (v : BitVec 32) : (c.setK n v).sregs = c.sregs := by unfold Ctx.setK; split <;> rfl
@[simp] theorem Ctx.setK_vregs (c : Ctx) (n : Nat) (v : BitVec 32) : (c.setK n v).vregs = c.vregs := by unfold Ctx.setK; split <;> rfl
@[simp] theorem Ctx.setK_preds (c : Ctx) (n : Nat) (v : BitVec 32) : (c.setK n v).preds = c.preds := by unfold Ctx.setK; split <;> rfl
@[simp] theorem Ctx.setK_vcfg (c : Ctx) (n : Nat) (v : BitVec 32) : (c.setK n v).vcfg = c.vcfg := by unfold Ctx.setK; split <;> rfl
@[simp] theorem Ctx.setK_conv (c : Ctx) (n : Nat) (v : BitVec 32) : (c.setK n v).conv = c.conv := by unfold Ctx.setK; split <;> rfl
@[simp] theorem Ctx.setK_fstat (c : Ctx) (n : Nat) (v : BitVec 32) : (c.setK n v).fstat = c.fstat := by unfold Ctx.setK; split <;> rfl
@[simp] theorem Ctx.setK_trapvec (c : Ctx) (n : Nat) (v : BitVec 32) : (c.setK n v).trapvec = c.trapvec := by unfold Ctx.setK; split <;> rfl
@[simp] theorem Ctx.setK_trapip (c : Ctx) (n : Nat) (v : BitVec 32) : (c.setK n v).trapip = c.trapip := by unfold Ctx.setK; split <;> rfl
@[simp] theorem Ctx.setK_trapcause (c : Ctx) (n : Nat) (v : BitVec 32) : (c.setK n v).trapcause = c.trapcause := by unfold Ctx.setK; split <;> rfl
@[simp] theorem Ctx.setK_trapaddr (c : Ctx) (n : Nat) (v : BitVec 32) : (c.setK n v).trapaddr = c.trapaddr := by unfold Ctx.setK; split <;> rfl
@[simp] theorem Ctx.setK_trapinfo (c : Ctx) (n : Nat) (v : BitVec 32) : (c.setK n v).trapinfo = c.trapinfo := by unfold Ctx.setK; split <;> rfl
@[simp] theorem Ctx.setK_stake (c : Ctx) (n : Nat) (v : BitVec 32) : (c.setK n v).stake = c.stake := by unfold Ctx.setK; split <;> rfl
@[simp] theorem Ctx.setK_instret (c : Ctx) (n : Nat) (v : BitVec 32) : (c.setK n v).instret = c.instret := by unfold Ctx.setK; split <;> rfl
@[simp] theorem Ctx.setK_hold (c : Ctx) (n : Nat) (v : BitVec 32) : (c.setK n v).hold = c.hold := by unfold Ctx.setK; split <;> rfl
@[simp] theorem Ctx.setK_prio (c : Ctx) (n : Nat) (v : BitVec 32) : (c.setK n v).prio = c.prio := by unfold Ctx.setK; split <;> rfl
@[simp] theorem Ctx.setK_handler (c : Ctx) (n : Nat) (v : BitVec 32) : (c.setK n v).handler = c.handler := by unfold Ctx.setK; split <;> rfl
@[simp] theorem Ctx.setK_code (c : Ctx) (n : Nat) (v : BitVec 32) : (c.setK n v).code = c.code := by unfold Ctx.setK; split <;> rfl
@[simp] theorem Ctx.setK_shadowCode (c : Ctx) (n : Nat) (v : BitVec 32) : (c.setK n v).shadowCode = c.shadowCode := by unfold Ctx.setK; split <;> rfl
@[simp] theorem Ctx.setK_privStart (c : Ctx) (n : Nat) (v : BitVec 32) : (c.setK n v).privStart = c.privStart := by unfold Ctx.setK; split <;> rfl
@[simp] theorem Ctx.setK_privSize (c : Ctx) (n : Nat) (v : BitVec 32) : (c.setK n v).privSize = c.privSize := by unfold Ctx.setK; split <;> rfl
@[simp] theorem Ctx.setK_deque (c : Ctx) (n : Nat) (v : BitVec 32) : (c.setK n v).deque = c.deque := by unfold Ctx.setK; split <;> rfl
@[simp] theorem Ctx.setK_ring (c : Ctx) (n : Nat) (v : BitVec 32) : (c.setK n v).ring = c.ring := by unfold Ctx.setK; split <;> rfl
@[simp] theorem Ctx.setK_bars (c : Ctx) (n : Nat) (v : BitVec 32) : (c.setK n v).bars = c.bars := by unfold Ctx.setK; split <;> rfl
@[simp] theorem Ctx.setK_async (c : Ctx) (n : Nat) (v : BitVec 32) : (c.setK n v).async = c.async := by unfold Ctx.setK; split <;> rfl
@[simp] theorem Ctx.setK_asyncDrop (c : Ctx) (n : Nat) (v : BitVec 32) : (c.setK n v).asyncDrop = c.asyncDrop := by unfold Ctx.setK; split <;> rfl
@[simp] theorem Ctx.setK_wait (c : Ctx) (n : Nat) (v : BitVec 32) : (c.setK n v).wait = c.wait := by unfold Ctx.setK; split <;> rfl
@[simp] theorem Ctx.setK_heldLen (c : Ctx) (n : Nat) (v : BitVec 32) : (c.setK n v).heldLen = c.heldLen := by unfold Ctx.setK; split <;> rfl
@[simp] theorem Ctx.setK_heldIns (c : Ctx) (n : Nat) (v : BitVec 32) : (c.setK n v).heldIns = c.heldIns := by unfold Ctx.setK; split <;> rfl
@[simp] theorem Ctx.setK_walkFail (c : Ctx) (n : Nat) (v : BitVec 32) : (c.setK n v).walkFail = c.walkFail := by unfold Ctx.setK; split <;> rfl
@[simp] theorem Ctx.setK_stream (c : Ctx) (n : Nat) (v : BitVec 32) : (c.setK n v).stream = c.stream := by unfold Ctx.setK; split <;> rfl
@[simp] theorem Ctx.setK_steal (c : Ctx) (n : Nat) (v : BitVec 32) : (c.setK n v).steal = c.steal := by unfold Ctx.setK; split <;> rfl
@[simp] theorem Ctx.setK_reqSeq (c : Ctx) (n : Nat) (v : BitVec 32) : (c.setK n v).reqSeq = c.reqSeq := by unfold Ctx.setK; split <;> rfl
@[simp] theorem Ctx.setK_starts (c : Ctx) (n : Nat) (v : BitVec 32) : (c.setK n v).starts = c.starts := by unfold Ctx.setK; split <;> rfl
@[simp] theorem Ctx.setK_worker (c : Ctx) (n : Nat) (v : BitVec 32) : (c.setK n v).worker = c.worker := by unfold Ctx.setK; split <;> rfl
@[simp] theorem Ctx.setK_mid (c : Ctx) (n : Nat) (v : BitVec 32) : (c.setK n v).mid = c.mid := by unfold Ctx.setK; split <;> rfl
@[simp] theorem Ctx.retire_run (c : Ctx) (len : Nat) : (c.retire len).run = c.run := rfl
@[simp] theorem Ctx.retire_resid (c : Ctx) (len : Nat) : (c.retire len).resid = c.resid := rfl
@[simp] theorem Ctx.retire_fold (c : Ctx) (len : Nat) : (c.retire len).fold = c.fold := rfl
@[simp] theorem Ctx.retire_sregs (c : Ctx) (len : Nat) : (c.retire len).sregs = c.sregs := rfl
@[simp] theorem Ctx.retire_vregs (c : Ctx) (len : Nat) : (c.retire len).vregs = c.vregs := rfl
@[simp] theorem Ctx.retire_preds (c : Ctx) (len : Nat) : (c.retire len).preds = c.preds := rfl
@[simp] theorem Ctx.retire_masks (c : Ctx) (len : Nat) : (c.retire len).masks = c.masks := rfl
@[simp] theorem Ctx.retire_vcfg (c : Ctx) (len : Nat) : (c.retire len).vcfg = c.vcfg := rfl
@[simp] theorem Ctx.retire_conv (c : Ctx) (len : Nat) : (c.retire len).conv = c.conv := rfl
@[simp] theorem Ctx.retire_fstat (c : Ctx) (len : Nat) : (c.retire len).fstat = c.fstat := rfl
@[simp] theorem Ctx.retire_trapvec (c : Ctx) (len : Nat) : (c.retire len).trapvec = c.trapvec := rfl
@[simp] theorem Ctx.retire_trapip (c : Ctx) (len : Nat) : (c.retire len).trapip = c.trapip := rfl
@[simp] theorem Ctx.retire_trapcause (c : Ctx) (len : Nat) : (c.retire len).trapcause = c.trapcause := rfl
@[simp] theorem Ctx.retire_trapaddr (c : Ctx) (len : Nat) : (c.retire len).trapaddr = c.trapaddr := rfl
@[simp] theorem Ctx.retire_trapinfo (c : Ctx) (len : Nat) : (c.retire len).trapinfo = c.trapinfo := rfl
@[simp] theorem Ctx.retire_stake (c : Ctx) (len : Nat) : (c.retire len).stake = c.stake := rfl
@[simp] theorem Ctx.retire_hold (c : Ctx) (len : Nat) : (c.retire len).hold = c.hold := rfl
@[simp] theorem Ctx.retire_prio (c : Ctx) (len : Nat) : (c.retire len).prio = c.prio := rfl
@[simp] theorem Ctx.retire_handler (c : Ctx) (len : Nat) : (c.retire len).handler = c.handler := rfl
@[simp] theorem Ctx.retire_code (c : Ctx) (len : Nat) : (c.retire len).code = c.code := rfl
@[simp] theorem Ctx.retire_shadowCode (c : Ctx) (len : Nat) : (c.retire len).shadowCode = c.shadowCode := rfl
@[simp] theorem Ctx.retire_privStart (c : Ctx) (len : Nat) : (c.retire len).privStart = c.privStart := rfl
@[simp] theorem Ctx.retire_privSize (c : Ctx) (len : Nat) : (c.retire len).privSize = c.privSize := rfl
@[simp] theorem Ctx.retire_deque (c : Ctx) (len : Nat) : (c.retire len).deque = c.deque := rfl
@[simp] theorem Ctx.retire_ring (c : Ctx) (len : Nat) : (c.retire len).ring = c.ring := rfl
@[simp] theorem Ctx.retire_bars (c : Ctx) (len : Nat) : (c.retire len).bars = c.bars := rfl
@[simp] theorem Ctx.retire_async (c : Ctx) (len : Nat) : (c.retire len).async = c.async := rfl
@[simp] theorem Ctx.retire_asyncDrop (c : Ctx) (len : Nat) : (c.retire len).asyncDrop = c.asyncDrop := rfl
@[simp] theorem Ctx.retire_wait (c : Ctx) (len : Nat) : (c.retire len).wait = c.wait := rfl
@[simp] theorem Ctx.retire_heldLen (c : Ctx) (len : Nat) : (c.retire len).heldLen = c.heldLen := rfl
@[simp] theorem Ctx.retire_heldIns (c : Ctx) (len : Nat) : (c.retire len).heldIns = c.heldIns := rfl
@[simp] theorem Ctx.retire_stream (c : Ctx) (len : Nat) : (c.retire len).stream = c.stream := rfl
@[simp] theorem Ctx.retire_steal (c : Ctx) (len : Nat) : (c.retire len).steal = c.steal := rfl
@[simp] theorem Ctx.retire_reqSeq (c : Ctx) (len : Nat) : (c.retire len).reqSeq = c.reqSeq := rfl
@[simp] theorem Ctx.retire_starts (c : Ctx) (len : Nat) : (c.retire len).starts = c.starts := rfl
@[simp] theorem Ctx.retire_worker (c : Ctx) (len : Nat) : (c.retire len).worker = c.worker := rfl
@[simp] theorem Ctx.orFlags_run (c : Ctx) (f : BitVec 6) : (c.orFlags f).run = c.run := rfl
@[simp] theorem Ctx.orFlags_resid (c : Ctx) (f : BitVec 6) : (c.orFlags f).resid = c.resid := rfl
@[simp] theorem Ctx.orFlags_fold (c : Ctx) (f : BitVec 6) : (c.orFlags f).fold = c.fold := rfl
@[simp] theorem Ctx.orFlags_ip (c : Ctx) (f : BitVec 6) : (c.orFlags f).ip = c.ip := rfl
@[simp] theorem Ctx.orFlags_sregs (c : Ctx) (f : BitVec 6) : (c.orFlags f).sregs = c.sregs := rfl
@[simp] theorem Ctx.orFlags_vregs (c : Ctx) (f : BitVec 6) : (c.orFlags f).vregs = c.vregs := rfl
@[simp] theorem Ctx.orFlags_preds (c : Ctx) (f : BitVec 6) : (c.orFlags f).preds = c.preds := rfl
@[simp] theorem Ctx.orFlags_masks (c : Ctx) (f : BitVec 6) : (c.orFlags f).masks = c.masks := rfl
@[simp] theorem Ctx.orFlags_vcfg (c : Ctx) (f : BitVec 6) : (c.orFlags f).vcfg = c.vcfg := rfl
@[simp] theorem Ctx.orFlags_conv (c : Ctx) (f : BitVec 6) : (c.orFlags f).conv = c.conv := rfl
@[simp] theorem Ctx.orFlags_trapvec (c : Ctx) (f : BitVec 6) : (c.orFlags f).trapvec = c.trapvec := rfl
@[simp] theorem Ctx.orFlags_trapip (c : Ctx) (f : BitVec 6) : (c.orFlags f).trapip = c.trapip := rfl
@[simp] theorem Ctx.orFlags_trapcause (c : Ctx) (f : BitVec 6) : (c.orFlags f).trapcause = c.trapcause := rfl
@[simp] theorem Ctx.orFlags_trapaddr (c : Ctx) (f : BitVec 6) : (c.orFlags f).trapaddr = c.trapaddr := rfl
@[simp] theorem Ctx.orFlags_trapinfo (c : Ctx) (f : BitVec 6) : (c.orFlags f).trapinfo = c.trapinfo := rfl
@[simp] theorem Ctx.orFlags_stake (c : Ctx) (f : BitVec 6) : (c.orFlags f).stake = c.stake := rfl
@[simp] theorem Ctx.orFlags_instret (c : Ctx) (f : BitVec 6) : (c.orFlags f).instret = c.instret := rfl
@[simp] theorem Ctx.orFlags_hold (c : Ctx) (f : BitVec 6) : (c.orFlags f).hold = c.hold := rfl
@[simp] theorem Ctx.orFlags_prio (c : Ctx) (f : BitVec 6) : (c.orFlags f).prio = c.prio := rfl
@[simp] theorem Ctx.orFlags_handler (c : Ctx) (f : BitVec 6) : (c.orFlags f).handler = c.handler := rfl
@[simp] theorem Ctx.orFlags_code (c : Ctx) (f : BitVec 6) : (c.orFlags f).code = c.code := rfl
@[simp] theorem Ctx.orFlags_shadowCode (c : Ctx) (f : BitVec 6) : (c.orFlags f).shadowCode = c.shadowCode := rfl
@[simp] theorem Ctx.orFlags_privStart (c : Ctx) (f : BitVec 6) : (c.orFlags f).privStart = c.privStart := rfl
@[simp] theorem Ctx.orFlags_privSize (c : Ctx) (f : BitVec 6) : (c.orFlags f).privSize = c.privSize := rfl
@[simp] theorem Ctx.orFlags_deque (c : Ctx) (f : BitVec 6) : (c.orFlags f).deque = c.deque := rfl
@[simp] theorem Ctx.orFlags_ring (c : Ctx) (f : BitVec 6) : (c.orFlags f).ring = c.ring := rfl
@[simp] theorem Ctx.orFlags_bars (c : Ctx) (f : BitVec 6) : (c.orFlags f).bars = c.bars := rfl
@[simp] theorem Ctx.orFlags_async (c : Ctx) (f : BitVec 6) : (c.orFlags f).async = c.async := rfl
@[simp] theorem Ctx.orFlags_asyncDrop (c : Ctx) (f : BitVec 6) : (c.orFlags f).asyncDrop = c.asyncDrop := rfl
@[simp] theorem Ctx.orFlags_wait (c : Ctx) (f : BitVec 6) : (c.orFlags f).wait = c.wait := rfl
@[simp] theorem Ctx.orFlags_heldLen (c : Ctx) (f : BitVec 6) : (c.orFlags f).heldLen = c.heldLen := rfl
@[simp] theorem Ctx.orFlags_heldIns (c : Ctx) (f : BitVec 6) : (c.orFlags f).heldIns = c.heldIns := rfl
@[simp] theorem Ctx.orFlags_walkFail (c : Ctx) (f : BitVec 6) : (c.orFlags f).walkFail = c.walkFail := rfl
@[simp] theorem Ctx.orFlags_stream (c : Ctx) (f : BitVec 6) : (c.orFlags f).stream = c.stream := rfl
@[simp] theorem Ctx.orFlags_steal (c : Ctx) (f : BitVec 6) : (c.orFlags f).steal = c.steal := rfl
@[simp] theorem Ctx.orFlags_reqSeq (c : Ctx) (f : BitVec 6) : (c.orFlags f).reqSeq = c.reqSeq := rfl
@[simp] theorem Ctx.orFlags_starts (c : Ctx) (f : BitVec 6) : (c.orFlags f).starts = c.starts := rfl
@[simp] theorem Ctx.orFlags_worker (c : Ctx) (f : BitVec 6) : (c.orFlags f).worker = c.worker := rfl
@[simp] theorem Ctx.orFlags_mid (c : Ctx) (f : BitVec 6) : (c.orFlags f).mid = c.mid := rfl

/-- Reading a scalar register after a write to one (R184). -/
theorem Ctx.s_setS (c : Ctx) (n : Nat) (v : W64) (m : Nat) : (c.setS n v).s m = if m = n ∧ n ≠ 0 then v else c.s m := by
  unfold Ctx.s Ctx.setS
  by_cases hm : m = 0 <;> by_cases hn : n = 0 <;> simp [hm, hn, AMap.get_set]
  intro h; exact absurd h.symm hn

theorem Ctx.v_setV (c : Ctx) (n : Nat) (v : W256) (m : Nat) : (c.setV n v).v m = if m = n then v else c.v m := AMap.get_set ..

/-- Reading a predicate after a write to one (R205). -/
theorem Ctx.p_setP (c : Ctx) (n : Nat) (v : Bool) (m : Nat) : (c.setP n v).p m = if m = n ∧ n ≠ 0 then v else c.p m := by
  unfold Ctx.p Ctx.setP
  by_cases hm : m = 0 <;> by_cases hn : n = 0 <;> simp [hm, hn, AMap.get_set]
  exact Or.inl fun h => hn h.symm

/-- Reading a lane mask after a write to one (R256). -/
theorem Ctx.k_setK (c : Ctx) (n : Nat) (v : BitVec 32) (m : Nat) : (c.setK n v).k m = if m = n ∧ n ≠ 0 then v else c.k m := by
  unfold Ctx.k Ctx.setK
  by_cases hm : m = 0 <;> by_cases hn : n = 0 <;> simp [hm, hn, AMap.get_set]
  intro h; exact absurd h.symm hn

end Machine

end Sys2Proof
end

