-- ==== Sys2Proof/Laws/Issue.lean ====
section
/-! SUPPORT. What issuing an instruction gives: one lemma per way the wrapper of `State.issue` can go (10_encoding_assembly.md R189,
11_scalar_control.md R206, R207), and the destinations. -/

namespace Sys2Proof.Machine

/-- No head acts: the instruction goes on in the same state. -/
theorem State.heads_go (s : State) (a : Bool) (l : List (Nat × Bool))
    (h : (l.all fun p => !s.flipAt p.1 && (!p.2 || (s.ctlAt p.1).isNone)) = true) : s.heads a l = .go s a := by
  induction l with
  | nil => rfl
  | cons p ps ih =>
    simp only [List.all_cons, Bool.and_eq_true, Bool.not_eq_true', Bool.or_eq_true, Option.isNone_iff_eq_none] at h
    obtain ⟨⟨hf, hc⟩, hr⟩ := h
    have hctl : (if p.2 then s.ctlAt p.1 else none) = none := by
      rcases hc with hc | hc
      · simp [hc]
      · split <;> simp [hc]
    have hh : s.head p.1 p.2 a = .go s a := by
      simp [State.head, hctl, hf]
    simp only [State.heads, hh]
    exact ih (by simpa [List.all_eq_true] using hr)

/-- A ready instruction whose width is allowed runs its body over its operands. -/
theorem State.issue_ready (s : State) (len : Nat) (srcs : List Src) (vec : Nat → Bool) (outs : List (BitVec 5)) (width : Ctx → Bool)
    (body : (Nat → W256) → State → Res) (h : s.ready srcs outs = true) (hw : width s.me = false) :
    s.issue len srcs vec outs width body = s.conclude len (popsOf srcs) false (body (s.operand srcs vec) s) := by
  simp only [State.ready, Bool.and_eq_true, Option.isNone_iff_eq_none] at h
  obtain ⟨⟨⟨⟨⟨h1, h2⟩, h3⟩, h4⟩, h5⟩, h6⟩ := h
  simp [State.issue, h1, h2, h3, h4, s.heads_go false _ h5, hw, h6]

/-- A ready scalar instruction runs its body over its operands. -/
theorem State.issueS_ready (s : State) (len : Nat) (srcs : List Src) (outs : List (BitVec 5)) (body : (Nat → W64) → State → Res)
    (h : s.ready srcs outs = true) :
    s.issueS len srcs outs body = s.conclude len (popsOf srcs) false (body (s.src srcs) s) :=
  s.issue_ready len srcs _ outs _ _ h rfl

/-- An instruction whose fields name no port is ready when its guard is true. -/
theorem State.ready_regs (s : State) (srcs : List Src) (outs : List (BitVec 5)) (hs : ∀ x ∈ srcs, x.f < 27)
    (ho : ∀ d ∈ outs, d.toNat < 27) (hg : s.me.p s.guard.toNat = true) : s.ready srcs outs = true := by
  have none_of (p : Src → Bool) : portsOf (srcs.filter p) = [] := by
    simp only [portsOf, List.map_eq_nil_iff, List.filter_eq_nil_iff, decide_eq_true_eq]
    intro x hx; exact Nat.not_le.2 (hs x (List.mem_filter.1 hx).1)
  have h0 : portsOf srcs = [] := by
    simp only [portsOf, List.map_eq_nil_iff, List.filter_eq_nil_iff, decide_eq_true_eq]
    intro x hx; exact Nat.not_le.2 (hs x hx)
  have h1 : outPorts outs = [] := by
    simp only [outPorts, List.map_eq_nil_iff, List.filter_eq_nil_iff, decide_eq_true_eq]
    intro x hx; exact Nat.not_le.2 (ho x hx)
  have h2 : s.tokenFault srcs = none := by
    unfold State.tokenFault
    dsimp only
    split
    · rfl
    · rename_i i hi
      have hb := List.find?_some hi
      cases hx : srcs[i]? with
      | none => rfl
      | some x => simp [hx, Nat.not_le.2 (hs x (List.mem_of_getElem? hx))] at hb
  simp [State.ready, h0, h1, h2, none_of, hg, State.ownFault, State.portsFull, State.portsRoom, actingPorts, uniq]

/-- The guard is false: the instruction retires without any effect (R207). -/
theorem State.issue_guard (s : State) (len : Nat) (srcs : List Src) (vec : Nat → Bool) (outs : List (BitVec 5)) (width : Ctx → Bool)
    (body : (Nat → W256) → State → Res) (h1 : s.ownFault (portsOf srcs) (outPorts outs) = none)
    (h2 : s.portsFull (portsOf (srcs.filter Src.need)) = true) (h3 : s.portsRoom (outPorts outs) = true)
    (h4 : s.me.p s.guard.toNat = false) : s.issue len srcs vec outs width body = (s.setMe (s.me.retire len)).used := by
  simp [State.issue, h1, h2, h3, h4]

/-- A port that does not belong to the core is a precise fault (R77). -/
theorem State.issue_own (s : State) (len : Nat) (srcs : List Src) (vec : Nat → Bool) (outs : List (BitVec 5)) (width : Ctx → Bool)
    (body : (Nat → W256) → State → Res) (c : Trap) (h : s.ownFault (portsOf srcs) (outPorts outs) = some c) :
    s.issue len srcs vec outs width body = s.fault c := by
  simp [State.issue, h]

/-- Without words in its sources or room in its destinations an instruction is not ready: nothing changes (R34). -/
theorem State.issue_wait (s : State) (len : Nat) (srcs : List Src) (vec : Nat → Bool) (outs : List (BitVec 5)) (width : Ctx → Bool)
    (body : (Nat → W256) → State → Res) (h1 : s.ownFault (portsOf srcs) (outPorts outs) = none)
    (h2 : s.portsFull (portsOf (srcs.filter Src.need)) = false ∨ s.portsRoom (outPorts outs) = false) :
    s.issue len srcs vec outs width body = s := by
  simp [State.issue, h1, h2]

@[simp] theorem State.conclude_ok (s s' : State) (len : Nat) (srcs : List Src) (a : Bool) :
    s.conclude len (popsOf srcs) a (.ok s') = s'.finish len srcs := rfl

@[simp] theorem State.conclude_jump (s s' : State) (len : Nat) (srcs : List Src) (a : Bool) (t : W64) :
    s.conclude len (popsOf srcs) a (.jump s' t) = s'.finishAt len srcs t := rfl

@[simp] theorem State.conclude_trap (s : State) (len : Nat) (pops : List Nat) (a : Bool) (c : Trap) :
    s.conclude len pops a (.trap c) = s.fault c := rfl

@[simp] theorem State.conclude_hold (s s' : State) (len : Nat) (pops : List Nat) (a : Bool) :
    s.conclude len pops a (.hold s') = (s'.holds len pops).used := rfl

@[simp] theorem State.conclude_pause (s s' : State) (len : Nat) (pops : List Nat) (a : Bool) :
    s.conclude len pops a (.pause s') = (s'.setMe { s'.me with mid := true }).used := rfl

@[simp] theorem State.conclude_wait (s : State) (len : Nat) (pops : List Nat) (a : Bool) :
    s.conclude len pops a .wait = if a then s.used else s := rfl

/-- A held instruction keeps IP until its answer comes. -/
theorem State.holds_late (s : State) (len : Nat) (pops : List Nat) (h : s.me.wait.sure = false) :
    s.holds len pops = s.setMe { s.me with heldLen := len, heldIns := pops, mid := false } := by
  simp [State.holds, h]

/-- A scalar destination that is a register. -/
theorem State.put_reg (s : State) (d : BitVec 5) (v : W64) (h : d.toNat < 27) : s.put d v = s.setMe (s.me.setS d.toNat v) := by
  simp [State.put, Nat.not_le.2 h]

/-- A scalar destination that is a port. -/
theorem State.put_port (s : State) (d : BitVec 5) (v : W64) (h : 27 ≤ d.toNat) : s.put d v = s.pushPort d.toNat ⟨v.setWidth 256, 0⟩ := by
  simp [State.put, h]

/-- A vector destination that is a register. -/
theorem State.putV_reg (s : State) (d : BitVec 5) (v : W256) (h : d.toNat < 27) : s.putV d v = s.setMe (s.me.setV d.toNat v) := by
  simp [State.putV, Nat.not_le.2 h]

/-- A scalar source that is a register (R184). -/
theorem State.src_reg (s : State) (fs : List (BitVec 5)) (i : Nat) (f : BitVec 5) (h : fs[i]? = some f) (hf : f.toNat < 27) :
    s.src (fs.map rd) i = s.me.s f.toNat := by
  simp [State.src, State.operand, List.getElem?_map, h, rd, Nat.not_le.2 hf]

end Sys2Proof.Machine
end

