-- ==== Sys2Proof/Laws/Memory.lean ====
section
/-! SUPPORT. The laws of memory: what a read after a write gives, and that every operation keeps the canonical form. -/

namespace Sys2Proof.Machine

namespace Memory

/-- The canonical form, cell by cell: no blank is held, and every later address is higher. -/
theorem wf_cons (a : Nat) (x : BitVec 8) (r : Memory) :
    Memory.wf ((a, x) :: r) = true ↔ x ≠ blank ∧ (∀ c ∈ r, a < c.1) ∧ Memory.wf r = true := by
  induction r generalizing a x with
  | nil => simp [Memory.wf]
  | cons c r ih =>
    obtain ⟨b, y⟩ := c
    simp only [Memory.wf, Bool.and_eq_true, bne_iff_ne, decide_eq_true_eq, List.mem_cons, forall_eq_or_imp]
    constructor
    · rintro ⟨⟨h1, h2⟩, h3⟩
      exact ⟨h1, ⟨h2, fun c hc => lt_trans h2 (((ih b y).1 h3).2.1 c hc)⟩, h3⟩
    · rintro ⟨h1, ⟨h2, -⟩, h3⟩
      exact ⟨⟨h1, h2⟩, h3⟩

/-- Below the first cell everything reads as blank. -/
theorem read_below (m : Memory) (a : Nat) (h : ∀ c ∈ m, a < c.1) : Memory.read m a = blank := by
  cases m with
  | nil => rfl
  | cons c r =>
    obtain ⟨b, y⟩ := c
    have hb : a < b := h (b, y) (by simp)
    simp [Memory.read, hb, Nat.ne_of_gt hb]

/-- A write adds no address but its own. -/
theorem mem_write (m : Memory) (a : Nat) (v : BitVec 8) (c : Host.Cell) (h : c ∈ Memory.write m a v) : c ∈ m ∨ c = (a, v) := by
  induction m with
  | nil =>
    simp only [Memory.write] at h
    split at h <;> simp_all
  | cons d r ih =>
    obtain ⟨b, x⟩ := d
    simp only [Memory.write] at h
    split at h
    · split at h <;> simp_all
      rcases h with h | h <;> simp [h]
    · split at h
      · split at h <;> simp_all
        rcases h with h | h | h <;> simp [h]
      · simp only [List.mem_cons] at h ⊢
        rcases h with h | h
        · exact .inl (.inl h)
        · rcases ih h with h | h
          · exact .inl (.inr h)
          · exact .inr h

/-- A write keeps the canonical form. -/
theorem write_wf (m : Memory) (a : Nat) (v : BitVec 8) (h : Memory.wf m = true) : Memory.wf (Memory.write m a v) = true := by
  induction m with
  | nil =>
    simp only [Memory.write]
    split <;> simp_all [Memory.wf]
  | cons c r ih =>
    obtain ⟨b, x⟩ := c
    obtain ⟨h1, h2, h3⟩ := (wf_cons b x r).1 h
    simp only [Memory.write]
    split
    · rename_i hb
      subst hb
      split
      · exact h3
      · exact (wf_cons ..).2 ⟨by assumption, h2, h3⟩
    · split
      · split
        · exact h
        · rename_i hl hv
          refine (wf_cons ..).2 ⟨hv, ?_, h⟩
          intro c hc
          rcases List.mem_cons.1 hc with rfl | hc
          · exact hl
          · exact lt_trans hl (h2 c hc)
      · rename_i hn hl
        refine (wf_cons ..).2 ⟨h1, ?_, ih h3⟩
        intro c hc
        rcases mem_write _ _ _ _ hc with hc | rfl
        · exact h2 c hc
        · exact lt_of_le_of_ne (Nat.le_of_not_lt hl) hn

/-- Reading a byte after a write: the byte written has the new value, any other its old one. -/
theorem read_write (m : Memory) (a : Nat) (v : BitVec 8) (j : Nat) (h : Memory.wf m = true) :
    Memory.read (Memory.write m a v) j = if j = a then v else Memory.read m j := by
  induction m with
  | nil =>
    by_cases hv : v = blank <;> by_cases hj : j = a <;> simp_all [Memory.write, Memory.read]
    intro h1; exact absurd h1.symm hj
  | cons c r ih =>
    obtain ⟨b, x⟩ := c
    obtain ⟨-, h2, h3⟩ := (wf_cons b x r).1 h
    have hr := ih h3
    simp only [Memory.write]
    by_cases hb : b = a
    · subst hb
      by_cases hv : v = blank
      · simp only [if_true, hv]
        by_cases hj : j = b
        · subst hj; simp only [if_true]; exact read_below r _ h2
        · simp only [hj, if_false, Memory.read, show ¬ b = j from fun e => hj e.symm]
          split
          · rename_i hlt; exact read_below r j fun c hc => lt_trans hlt (h2 c hc)
          · rfl
      · by_cases hj : j = b
        · subst hj; simp [hv, Memory.read]
        · simp [hv, Memory.read, hj, show ¬ b = j from fun e => hj e.symm]
    · by_cases hl : a < b
      · by_cases hv : v = blank
        · simp only [hb, hl, hv, if_true, if_false]
          by_cases hj : j = a
          · subst hj; simp [Memory.read, hb, hl]
          · simp [hj]
        · simp only [hb, hl, hv, if_true, if_false]
          by_cases hj : j = a
          · subst hj; simp [Memory.read]
          · simp only [hj, if_false]
            by_cases hja : j < a
            · have hjb : j < b := lt_trans hja hl
              simp [Memory.read, show ¬ a = j from fun e => hj e.symm, hja, hjb, show ¬ b = j by omega]
            · rw [Memory.read]; simp [show ¬ a = j from fun e => hj e.symm, hja]
      · simp only [hb, hl, if_false]
        by_cases hbj : b = j
        · subst hbj; simp [Memory.read, hb]
        · by_cases hjb : j < b
          · simp [Memory.read, hbj, hjb, show ¬ j = a by omega]
          · simp [Memory.read, hbj, hjb, hr]

/-- Writing several bytes keeps the canonical form. -/
theorem writeN_wf (n : Nat) : ∀ (m : Memory) (a v : Nat), Memory.wf m = true → Memory.wf (Memory.writeN m a n v) = true := by
  induction n with
  | zero => intro m a v h; exact h
  | succ n ih => intro m a v h; exact ih _ _ _ (write_wf _ _ _ h)

/-- Reading a byte after several were written: one of them has its byte of the value, any other its old one. -/
theorem read_writeN (n : Nat) : ∀ (m : Memory) (a v j : Nat), Memory.wf m = true →
    Memory.read (Memory.writeN m a n v) j = if a ≤ j ∧ j < a + n then BitVec.ofNat 8 (v / 256 ^ (j - a)) else Memory.read m j := by
  induction n with
  | zero =>
    intro m a v j _
    have : ¬ (a ≤ j ∧ j < a + 0) := by omega
    simp [Memory.writeN, this]
  | succ n ih =>
    intro m a v j h
    simp only [Memory.writeN]
    rw [ih _ _ _ _ (write_wf _ _ _ h), read_write _ _ _ _ h]
    by_cases hj : j = a
    · subst hj
      simp
    · by_cases h1 : a + 1 ≤ j ∧ j < a + 1 + n
      · have h2 : a ≤ j ∧ j < a + (n + 1) := by omega
        have h3 : j - a = j - (a + 1) + 1 := by omega
        simp only [h1, h2, if_true, and_self, h3, pow_succ]
        rw [Nat.div_div_eq_div_mul, Nat.mul_comm 256]
      · have h2 : ¬ (a ≤ j ∧ j < a + (n + 1)) := by omega
        rw [if_neg h1, if_neg h2, if_neg hj]

/-- Reading several bytes depends on those bytes alone. -/
theorem readN_congr (n : Nat) : ∀ (m m' : Memory) (a : Nat), (∀ j, a ≤ j → j < a + n → Memory.read m j = Memory.read m' j) →
    Memory.readN m a n = Memory.readN m' a n := by
  induction n with
  | zero => intros; rfl
  | succ n ih =>
    intro m m' a h
    simp only [Memory.readN]
    rw [h a (by omega) (by omega), ih m m' (a + 1) fun j h1 h2 => h j (by omega) (by omega)]

/-- Reading back the bytes that were written gives their value (R4). -/
theorem readN_writeN (n : Nat) : ∀ (m : Memory) (a v : Nat), Memory.wf m = true →
    Memory.readN (Memory.writeN m a n v) a n = v % 256 ^ n := by
  induction n with
  | zero => intro m a v _; simp [Memory.readN, Nat.mod_one]
  | succ n ih =>
    intro m a v h
    have hw := write_wf m a (BitVec.ofNat 8 v) h
    simp only [Memory.writeN, Memory.readN]
    rw [read_writeN n _ _ _ _ hw, ih _ _ _ hw, read_write _ _ _ _ h]
    have h1 : ¬ (a + 1 ≤ a ∧ a < a + 1 + n) := by omega
    simp only [h1, if_false, if_true, BitVec.toNat_ofNat]
    rw [show 256 ^ (n + 1) = 2 ^ 8 * 256 ^ n by rw [pow_succ]; ring, Nat.mod_mul]
    norm_num

/-- Keeping a part of the cells keeps the canonical form. -/
theorem filter_wf (p : Host.Cell → Bool) (m : Memory) (h : Memory.wf m = true) : Memory.wf (m.filter p) = true := by
  induction m with
  | nil => rfl
  | cons c r ih =>
    obtain ⟨b, x⟩ := c
    obtain ⟨h1, h2, h3⟩ := (wf_cons b x r).1 h
    by_cases hp : p (b, x)
    · rw [List.filter_cons_of_pos hp]
      exact (wf_cons ..).2 ⟨h1, fun c hc => h2 c (List.mem_filter.1 hc).1, ih h3⟩
    · rw [List.filter_cons_of_neg hp]
      exact ih h3

/-- Clearing a range keeps the canonical form. -/
theorem clear_wf (m : Memory) (a n : Nat) (h : Memory.wf m = true) : Memory.wf (Memory.clear m a n) = true := filter_wf _ _ h

/-- A cleared range reads as blank, and nothing else changes. -/
theorem read_clear (m : Memory) (a n j : Nat) (h : Memory.wf m = true) :
    Memory.read (Memory.clear m a n) j = if a ≤ j ∧ j < a + n then blank else Memory.read m j := by
  induction m with
  | nil => simp [Memory.clear, Memory.read]
  | cons c r ih =>
    obtain ⟨b, x⟩ := c
    obtain ⟨-, h2, h3⟩ := (wf_cons b x r).1 h
    have hr := ih h3
    by_cases hb : a ≤ b ∧ b < a + n
    · have hc : Memory.clear ((b, x) :: r) a n = Memory.clear r a n := by
        simp [Memory.clear, hb]
      rw [hc, hr]
      by_cases hj : a ≤ j ∧ j < a + n
      · simp [hj]
      · have hbj : b ≠ j := by rintro rfl; exact hj hb
        simp only [hj, if_false, Memory.read, hbj]
        split
        · rename_i hlt; exact read_below r j fun c hc => lt_trans hlt (h2 c hc)
        · rfl
    · have hc : Memory.clear ((b, x) :: r) a n = (b, x) :: Memory.clear r a n := by
        simp only [Memory.clear]
        rw [List.filter_cons_of_pos]
        simp only [Bool.not_eq_true', Bool.and_eq_false_iff, decide_eq_false_iff_not]
        by_contra hcon; push Not at hcon; exact hb hcon
      rw [hc]
      simp only [Memory.read]
      by_cases hbj : b = j
      · subst hbj; simp [hb]
      · by_cases hl : j < b
        · simp [hbj, hl]
        · simp [hbj, hl, hr]

/-- A masked write keeps the canonical form. -/
theorem writeMask_wf (m : Memory) (a : Nat) (mask : BitVec 32) (data : W256) (h : Memory.wf m = true) :
    Memory.wf (Memory.writeMask m a mask data) = true := by
  unfold Memory.writeMask
  generalize List.range 32 = l
  induction l generalizing m with
  | nil => exact h
  | cons j l ih =>
    simp only [List.foldl_cons]
    apply ih
    split
    · exact write_wf _ _ _ h
    · exact h

end Memory

end Sys2Proof.Machine
end

