-- ==== Sys2Proof/Laws/Parts.lean ====
section
/-! SUPPORT. The small lemmas of the parts of a tile, a node and the scheduler: what reading a part after a write to one gives. -/

namespace Sys2Proof.Machine

theorem Tile.bank_setBank (x : Tile) (n m : Nat) (b : Bank) : (x.setBank n b).bank m = if m = n then b else x.bank m := AMap.get_set ..

@[simp] theorem Tile.bank_setBank_self (x : Tile) (n : Nat) (b : Bank) : (x.setBank n b).bank n = b := AMap.get_set_self ..

theorem Tile.template_setTemplate (x : Tile) (n m : Nat) (p : Template) :
    (x.setTemplate n p).template m = if m = n then p else x.template m := AMap.get_set ..

@[simp] theorem Tile.template_setTemplate_self (x : Tile) (n : Nat) (p : Template) : (x.setTemplate n p).template n = p :=
  AMap.get_set_self ..

@[simp] theorem Tile.template_setBank (x : Tile) (n m : Nat) (b : Bank) : (x.setBank n b).template m = x.template m := rfl

@[simp] theorem Tile.bank_setTemplate (x : Tile) (n m : Nat) (p : Template) : (x.setTemplate n p).bank m = x.bank m := rfl

theorem Node.slot_setSlot (x : Node) (n m : Nat) (v : Slot) : (x.setSlot n v).slot m = if m = n then v else x.slot m := AMap.get_set ..

@[simp] theorem Node.slot_setSlot_self (x : Node) (n : Nat) (v : Slot) : (x.setSlot n v).slot n = v := AMap.get_set_self ..

/-- Reading a bank after a write to one. -/
theorem State.bank_setBank (s : State) (t n : Nat) (b : Bank) (u m : Nat) :
    (s.setBank t n b).bank u m = if u = t ∧ m = n then b else s.bank u m := by
  unfold State.bank State.setBank
  rw [State.tile_setTile]
  by_cases h : u = t
  · subst h; simp [Tile.bank_setBank]
  · simp [h]

@[simp] theorem State.bank_setBank_self (s : State) (t n : Nat) (b : Bank) : (s.setBank t n b).bank t n = b := by
  simp [State.bank_setBank]

@[simp] theorem State.bank_setCtx (s : State) (k : Nat) (x : Ctx) (t n : Nat) : (s.setCtx k x).bank t n = s.bank t n := rfl

@[simp] theorem State.bank_setMe (s : State) (x : Ctx) (t n : Nat) : (s.setMe x).bank t n = s.bank t n := rfl

@[simp] theorem State.bank_used (s : State) (t n : Nat) : s.used.bank t n = s.bank t n := rfl

@[simp] theorem State.ctx_setBank (s : State) (t n : Nat) (b : Bank) (k : Nat) : (s.setBank t n b).ctx k = s.ctx k := rfl

@[simp] theorem State.mem_setBank (s : State) (t n : Nat) (b : Bank) : (s.setBank t n b).mem = s.mem := rfl

/-- The entry of a residency after its replacement; another's stays. -/
theorem State.findRes_setRes (s : State) (x : Residency) (r : Nat) :
    (s.setRes x).findRes r = (s.findRes r).map fun y => if y.num = x.num then x else y := by
  unfold State.findRes State.setRes
  induction s.sched.res with
  | nil => rfl
  | cons y l ih =>
    by_cases h : y.num = x.num
    · by_cases hr : x.num = r
      · simp [h, hr]
      · have h' : ¬ y.num = r := fun e => hr (h ▸ e)
        simpa [h, hr, h'] using ih
    · by_cases hr : y.num = r
      · subst hr; simp [h]
      · simpa [h, hr] using ih

@[simp] theorem State.mem_setRes (s : State) (x : Residency) : (s.setRes x).mem = s.mem := rfl

@[simp] theorem State.ctx_setRes (s : State) (x : Residency) (k : Nat) : (s.setRes x).ctx k = s.ctx k := rfl

theorem State.launchQueue_setLaunchQueue (s : State) (q p : Nat) (x : LaunchQueue) :
    (s.setLaunchQueue q x).launchQueue p = if p = q then x else s.launchQueue p := AMap.get_set ..

theorem State.eventQueue_setEventQueue (s : State) (q p : Nat) (x : EventQueue) :
    (s.setEventQueue q x).eventQueue p = if p = q then x else s.eventQueue p := AMap.get_set ..

theorem State.channel_setChannel (s : State) (q p : Nat) (x : Channel) :
    (s.setChannel q x).channel p = if p = q then x else s.channel p := AMap.get_set ..

end Sys2Proof.Machine
end

