-- ==== Sys2Proof/Tests/Slice0.lean ====
section
/-! SUPPORT. Tests of the model on fixed values: ill-formed terms that the checks refuse, words of the manual's encodings, one step of some
instructions, and for the hypotheses of every statement a state and operands that meet them. -/

namespace Sys2Proof.Tests

set_option Elab.async false

open Sys2Proof.Machine

/-! ## WellFormed: an ill-formed term for each check -/

theorem test_wf_lhi : wellFormed (.lhi 27 1 0) = false ∧ wellFormed (.lhi 27 0 0) = true ∧ wellFormed (.lhi 26 3 0) = true := by decide
theorem test_wf_cmp : wellFormed (.cmp 1 2 3 3 0) = false ∧ wellFormed (.cmp 1 2 3 0 8) = false ∧ wellFormed (.cmp 1 2 3 2 7) = true := by decide
theorem test_wf_scope : wellFormed (.fence 6) = false ∧ wellFormed (.aadd 1 2 3 0 6) = false ∧ wellFormed (.cas 1 2 3 0 7 0) = false ∧
    wellFormed (.fence 5) = true := by decide
theorem test_wf_gcast : wellFormed (.gcast 1 2 5) = false ∧ wellFormed (.gcast 1 2 4) = true := by decide
theorem test_wf_stdone : wellFormed (.stdone 26 2 3) = false ∧ wellFormed (.stdone 27 2 3) = true ∧ wellFormed (.stdoneq 1 2 6) = false := by decide
theorem test_wf_stq : wellFormed (.stq 0 2 3 0 64 0 0 0 1) = false ∧ wellFormed (.stq 1 2 3 0 0 0 0 0 0) = false ∧
    wellFormed (.stq 0 2 3 0 0 0 0 1 0) = false ∧ wellFormed (.stq 4 2 3 0 63 0 0 7 1) = true := by decide
theorem test_wf_int_type : wellFormed (.vadd 1 2 3 0 2) = false ∧ wellFormed (.vadd 1 2 3 0 1) = true := by decide
theorem test_wf_float_type : wellFormed (.vfadd 1 2 3 0 1) = false ∧ wellFormed (.vfadd 1 2 3 0 2) = true := by decide
theorem test_wf_vins : wellFormed (.vins 27 2 0) = false ∧ wellFormed (.vins 26 2 0) = true := by decide
theorem test_wf_vcmp : wellFormed (.vcmp 1 2 3 7 0 0 0) = false ∧ wellFormed (.vcmp 1 2 3 0 3 0 0) = false ∧
    wellFormed (.vcmp 1 2 3 6 0 0 1) = false ∧ wellFormed (.vcmp 1 2 3 6 2 0 2) = true := by decide
theorem test_wf_token : wellFormed (.tkpop 1 26) = false ∧ wellFormed (.tksend 26 1 0) = false ∧ wellFormed (.tksend 27 1 11) = false ∧
    wellFormed (.tksendQ 1 1 11) = false ∧ wellFormed (.tksend 27 1 10) = true := by decide
theorem test_wf_stream : wellFormed (.tee 1 2 3 5) = false ∧ wellFormed (.tee 13 2 3 0) = false ∧ wellFormed (.tee 2 2 3 0) = false ∧
    wellFormed (.tee 1 8 8 4) = true := by decide
theorem test_wf_join : wellFormed (.fisect 0 1 1 2) = false ∧ wellFormed (.fzip 0 1 2 3 3 0) = false ∧ wellFormed (.fisect 4 1 2 12) = true := by decide
theorem test_wf_fibre : wellFormed (.fscan 0 1 2 27 1 1) = false ∧ wellFormed (.fload 0 1 15 0 1 1) = false ∧
    wellFormed (.fwrite 0 1 14 0 1 1) = false ∧ wellFormed (.fwrite 0 1 15 0 1 1) = true := by decide
theorem test_wf_btag : wellFormed (.btag 27 27 0) = false ∧ wellFormed (.btag 1 26 0) = false ∧ wellFormed (.btag 1 27 14) = false ∧
    wellFormed (.btag 1 27 15) = true := by decide
theorem test_wf_wload : wellFormed (.wload 1 2 0 3 0 0) = false ∧ wellFormed (.wload 1 2 3 0 0 0) = false ∧ wellFormed (.wload 27 2 3 0 1 0) = false ∧
    wellFormed (.wload 1 2 3 0 1 0) = true := by decide
theorem test_wf_mmq : wellFormed (.mmq 8 1 0 0 0 0 0 0) = false ∧ wellFormed (.mmq 1 1 0 0 0 0 0 0xA000000) = false ∧
    wellFormed (.mmq 1 1 1 0 0 0 0 0) = false ∧ wellFormed (.mmq 1 1 0 1 0 0 0 0) = false ∧ wellFormed (.mmq 1 1 0 0 0 0 0 0xC) = false ∧
    wellFormed (.mmq 1 1 0 0 0 0 0 0) = true := by decide
theorem test_wf_accrd : wellFormed (.accrd 1 3 0 0 0) = false ∧ wellFormed (.accrd 1 1 0 0 4) = false ∧ wellFormed (.accrd 1 1 0 0 3) = true := by decide
theorem test_wf_registers : wellFormed (.wexport 27 0) = false ∧ wellFormed (.carm 27 0) = false ∧ wellFormed (.cstat 27 0) = false := by decide
theorem test_wf_control : wellFormed (.crd 1 18) = false ∧ wellFormed (.cwr 0 1) = false ∧ wellFormed (.cwr 13 1) = false ∧
    wellFormed (.cwr 17 1) = true := by decide
theorem test_wf_host : wellFormed (.hostRegisterWrite 0 9 0) = false ∧ wellFormed (.hostRegisterWrite 0 8 0) = true := by decide

/-! ## Words of the manual's encoding examples (10_encoding_assembly.md to 16_switch_image.md) -/

theorem test_decode_scalar : decode 0x2022_1910 0 = some (.cmp 1 2 3 2 2) ∧ decode 0x2444_5FD8 0 = some (.cmpi 2 4 2 0x3FB) ∧
    decode 0x18C6_2018 0 = some (.shri 6 6 3) ∧ decode 0x1C3F_C000 0 = some (.lhi 1 3 0xF800) ∧ decode 0x04E8_4820 0 = some (.div 7 8 9) ∧
    decode 0x3800_0010 0 = some .ret ∧ decode 0x0840_0020 0 = some (.addi 2 0 4) ∧ decode 0x0063_D878 0 = some (.adds 3 3 27) := by decide
theorem test_decode_memory : decode 0x4064_FFD0 0 = some (.ld 3 4 0x7FE 2) ∧ decode 0x4C46_0040 0 = some (.vst 2 6 2) ∧
    decode 0x594B_6700 0 = some (.cas 10 11 12 3 4 0) ∧ decode 0x5C22_0000 0 = some (.gtest 1 2) ∧
    decode 0x5C62_00A0 0 = some (.gcast 3 2 4) ∧ decode 0x6002_1800 0 = some (.cinv 2 3) := by decide
theorem test_decode_ordering : decode 0x6400_0020 0 = some (.fence 2) ∧ decode 0x67A5_00C0 0 = some (.stdone 29 5 4) ∧
    decode 0x6864_0008 0 = some (.stm 3 4 2) ∧ decode 0x70C5_0010 0 = some (.qpop 6 5) ∧ decode 0x7467_0000 0 = some (.bset 3 7) := by decide
theorem test_decode_stq : decode 0x6C82_1C18 0x0123_02B0 = some (.stq 4 2 3 1 3 0x123 2 5 1) := by decide
theorem test_decode_vector : decode 0x8022_1800 0 = some (.vadd 1 2 3 0 0) ∧ decode 0x8422_1800 0 = some (.valusVadd 1 2 3 0 0 0) ∧
    decode 0x8422_EC00 0 = some (.valusVadd 1 2 0x1D 1 0 0) ∧ decode 0x8CE8_4A83 0 = some (.vfma 7 8 9 10 0 3) ∧
    decode 0x949B_0202 0 = some (.vcvtn 4 27 0 0 0 2) := by decide
theorem test_decode_lanes : decode 0xA043_2910 0 = some (.vcomp 2 3 5 4) ∧ decode 0xA402_00C0 0 = some (.vcfg 0 2) ∧
    decode 0xA861_1200 0 = some (.vcmp 3 1 2 2 0 0 0) := by decide
theorem test_decode_stream : decode 0xB3A0_0188 0 = some (.tksend 29 0 1) ∧ decode 0xBD3B_5000 0 = some (.btag 9 27 5) ∧
    decode 0xB448_79C0 0 = some (.tee 2 8 3 4) := by decide
theorem test_decode_matrix : decode 0xC0C7_4000 0x6000_0004 = some (.wload 6 7 8 1 1 4) ∧
    decode 0xC044_0150 0x2122_3900 = some (.mmq 2 4 0 5 0 0 1 0x1223900) ∧ decode 0xC480_0000 3 = some (.carm 4 3) := by decide
theorem test_decode_system : decode 0xC822_1810 0 = some (.bwait 1 2 3) ∧ decode 0xCC61_1000 0 = some (.spawn 3 1 2) ∧
    decode 0xCC00_0008 0 = some .tdone ∧ decode 0xD000_0000 0 = some .potinit ∧ decode 0xD000_0008 0 = some .wquiet ∧
    decode 0xD000_0018 0 = some .commit ∧ decode 0xD427_0000 0 = some (.crd 1 7) ∧ decode 0xD800_0008 0 = some .eret ∧
    decode 0xD800_0020 0 = some .halt := by decide
theorem test_decode_switch : decodeSwitch 0x0040_4000_0000_1801 = some .sdbr ∧ decodeSwitch 0x0040_0000_0000_2A60 = some .swait ∧
    decodeSwitch 0x0000_0000_0000_0800 = some .sjump ∧ decodeSwitch 0xD000_0000_0000_0000 = none := by decide
theorem test_decode_frame : decodeFrame 0 = none ∧ decodeFrame (1#8 ++ 0#32 ++ 1#8 ++ 0#208) = some .header ∧
    decodeFrame (8#8 ++ 0#248) = some .start ∧ decodeFrame (9#8 ++ 0#248) = none := by decide

/-! ## A small machine -/

/-- A context of residency 1, live at 0x400 of a partition of 64 bytes, with a handler and 1 KiB of private scratch. -/
def ctxA : Ctx where
  run := .live
  resid := some 1
  ip := 0x400
  sregs := [(1, 5), (2, 3), (3, 0xF800000000000040), (4, 0x10000), (5, 0xF800000000000041), (6, 0x404), (7, 0x402), (8, 0xF800000000000400),
    (9, 1), (10, 1024), (11, 0), (12, 0xFF000404), (13, 0xFF010404), (14, 0xFA00000000000040), (15, 0xFB00000000000040),
    (16, 0xF900100000000040), (17, 0xFA00800000000040), (18, 64), (19, 0x8000), (21, 0xF900000000000000), (26, 0x43C)]
  vregs := [(1, 0x40302010), (2, 0x7F80FF01), (3, 2)]
  masks := [(1, 2), (2, 1)]
  preds := [(1, true)]
  trapvec := 0x420
  code := ⟨0x400, 64, 0x400⟩
  privSize := 1024
  bars := [(0, 8)]
  stake := 64
  prio := 3
  wait := .none

/-- The words at its inputs: two DATA words, an ERR token, nothing, a CTL that writes VCFG; and a DATA word at `qx`. -/
def xbarA : Xbar where
  rx := [(0, [⟨7, 0⟩, ⟨8, 0⟩]), (1, [⟨0x55, 0xA⟩]), (3, [⟨2, 7⟩])]
  toCore := [(0, [⟨9, 0⟩])]
  credits := [(0, 4), (1, 4), (2, 4)]
  linkIn := [(0, 4), (1, 4), (2, 4), (3, 12)]
  linkOut := [(0, 4), (1, 4), (2, 4), (3, 5)]

def tileA : Tile where
  banks := [(0, { owner := some 0 }), (1, { owner := some 1 }), (2, { owner := some 0 }), (3, {}), (4, { owner := some 0, mode := .fifo, queue := [⟨3, 0⟩, ⟨4, 0xA⟩] }),
    (5, { owner := some 0, mode := .fifo, queue := [⟨4, 0xA⟩] }), (6, { owner := some 0, mode := .fifo }), (7, { owner := some 0, mode := .cache })]

/-- A translation of a page of 64 KiB from 0x10000, held by tile 0. -/
def entryA : TlbEntry := ⟨1, 0, 7, 0, 16, 1, 0x30000, true⟩

/-- Residency 1: 2 by 2 tiles from tile 0 in context bank 0, its launch record of address space 7 with its tables at 0x100000, which map the
page of 1 GiB from 0x40000000 on to itself. -/
def residA : Residency where
  num := 1
  cand := { lq := 0, dwords := [0x410C0000000, 0, 0, 0, 0, 0, 0, 0x7000000100000], age := 0, since := 0 }
  x := 0
  y := 0
  w := 2
  h := 2
  fold := 1
  banks := [0]
  state := .uncommitted
  started := true

def base : State := { State.reset with
  booted := true
  agenda := []
  mem := [(0x100000, 1), (0x100001, 0x10), (0x100002, 0x10), (0x101000, 1), (0x101001, 0x20), (0x101002, 0x10), (0x102008, 7), (0x10200B, 0x40),
    (sramKey 0 0 0x40, 0x21), (sramKey 0 0 0x41, 0x43)]
  ctxs := [(0, ctxA), (1, { run := .live, resid := some 2 }), (4, { ctxA with run := .idle, worker := true })]
  tiles := [(0, tileA)]
  xbars := [(0, xbarA)]
  tlbs := [entryA]
  sched := { res := [residA] } }

/-- Another context, ports, tile, bank or residency. -/
def withMe (f : Ctx → Ctx) (s : State := base) : State := s.setMe (f s.me)
def withX (f : Xbar → Xbar) (s : State := base) : State := s.setXbar s.cur.tb (f (s.xbar s.cur.tb))
def withT (f : Tile → Tile) (s : State := base) : State := s.setTile s.cur.t (f (s.tile s.cur.t))
def withB (n : Nat) (f : Bank → Bank) (s : State := base) : State := s.setBank s.cur.t n (f (s.bank s.cur.t n))
def withR (f : Residency → Residency) (s : State := base) : State := s.setSched { s.sched with res := s.sched.res.map f }
def withNode (f : Node → Node) (s : State := base) : State := s.setNode s.cur.t (f (s.node s.cur.t))
def withIn (node : Nat) (h : Hdr) (pay : List W256) (s : State := base) : State := { s with inbox := [⟨node, ⟨h, pay⟩⟩] }
/-- The guard p2 is false. -/
def noGuard : State := { base with guard := 2 }
/-- The lanes are 32 bits wide, or 16. -/
def wide : State := withMe fun c => { c with vcfg := 2 }
def half : State := withMe fun c => { c with vcfg := 1 }

/-! ## The hypotheses of every statement are met: scalar -/

theorem witness_ScalarBinary : base.ready [rd 1, rd 0] [26] = true ∧ base.ready [rd 27, rd 27] [29] = true ∧ base.ready [rd 31, rd 26] [31] = true ∧
    base.ready [rd 26, rd 27] [0] = true := by decide +kernel
theorem witness_ScalarSaturating : base.ready [rd 27, rd 31] [27] = true ∧ base.ready [rd 26, rd 0] [26] = true := by decide +kernel
theorem witness_ScalarUnary : base.ready [rd 27] [31] = true ∧ base.ready [rd 0] [0] = true := by decide +kernel
theorem witness_ScalarFormed : base.ready [] [27] = true ∧ base.ready [] [26] = true ∧ base.ready [rd 31, rd 27] [28] = true := by decide +kernel
theorem witness_PredicateWrites : base.ready [rd 27, rd 27] [] = true ∧ base.ready [rd 31] [] = true ∧ base.ready [] [] = true := by decide +kernel
theorem witness_Transfers : noGuard.me.p noGuard.guard.toNat = false ∧ base.ready [] [] = true ∧ base.ready [rd 27] [] = true ∧
    base.ready [rd 6] [31] = true := by decide +kernel
/-- The bank holds a change that has not taken effect. -/
def changingB (n : Nat) (s : State := base) : State := withB n (fun b => { b with pending := [⟨.fifo, 0, false, 0⟩] }) s
/-- A DONE token of the context waits for its entry in a queue. -/
def doneWaits (q : Nat) : State :=
  { (withT fun x => { x with deferred := [⟨[9], .doneQueue 0 q ⟨0, 5⟩⟩] }) with guard := 2 }
theorem witness_GuardFalse : (noGuard.me.p noGuard.guard.toNat = false ∧ (doneWaits 4).me.p (doneWaits 4).guard.toNat = false) ∧
    (∀ i ∈ [Instr.add 31 1 27, .ld 26 27 3 0, .cas 31 27 28 3 1 0, .qpush 4 27, .vfma 31 27 28 27 0 3, .bwait 26 27 31, .mmq 1 1 0 0 0 0 0 0, .halt],
      (Claims.form i).any (fun g => Claims.ported noGuard g.srcs g.outs) = true ∧
        (Claims.pushes i).all (fun q => !noGuard.donePending 0 true q.toNat) = true) ∧
    ((Claims.form (.tksendQ 4 27 1)).any (fun g => Claims.ported (doneWaits 4) g.srcs g.outs) = true ∧ Claims.pushes (.tksendQ 4 27 1) = some 4 ∧
      (doneWaits 4).donePending 0 true 4 = true) ∧
    (∀ i ∈ [Instr.steer 6 8 4 12 4, .fload 6 8 4 0 1 2], (Claims.streaming i).isSome = true ∧ let h := shapeOf i
      Claims.ported noGuard ((h.ins.filterMap epPort).map streamRd) ((h.outs.filterMap epPort).map (BitVec.ofNat 5)) = true) ∧
    noGuard.shapeReady (shapeOf (.tee 6 8 4 4)) = true ∧ noGuard.shapeReady (shapeOf (.tee 5 6 4 4)) = false := by decide +kernel
theorem witness_PortFaults : (∀ i ∈ [Instr.add 30 1 2, .vins 30 1 0, .qpop 30 4],
      (Claims.form i).any (fun g => base.ownFault (portsOf g.srcs) (outPorts g.outs) == some ⟨0x04, 0, 30⟩) = true) ∧
    (Claims.form (.add 1 29 2)).any (fun g => base.ownFault (portsOf g.srcs) (outPorts g.outs) == none && !Claims.ported base g.srcs g.outs) = true ∧
    (Claims.form (.vfadd 1 27 28 0 2)).any (fun g => Claims.ported base g.srcs g.outs && Claims.quiet base g.srcs && g.width base.me) = true ∧
    (∀ i ∈ [Instr.add 1 27 28, .adds 1 2 28, .sel 1 2 28 1, .vadd 1 27 28 0 0], (Claims.form i).any (fun g =>
      Claims.ported base g.srcs g.outs && Claims.quiet base g.srcs && !g.width base.me && (base.wordAt g.srcs 1).tag != 0) = true) ∧
    (base.wordAt [rd 27, rd 28] 0).tag = 0 ∧ base.me.p base.guard.toNat = true := by decide +kernel
theorem witness_ScalarFrame : base.ready [rd 1, rd 27] [26] = true ∧ base.ready [rd 31] [27] = true ∧ base.ready [] [0] = true ∧
    answers (exec (.add 26 1 27) base) = true := by decide +kernel

/-! ## Memory -/

theorem witness_LocalLoads : base.ready [rd 3] [26] = true ∧ base.changing (Claims.address base [rd 3] 3 8) 8 = false ∧
    base.checkAccess base.me 0 (Claims.address base [rd 3] 3 8) 8 1 = none ∧
    Claims.local_ base (fun _ => none) false (parts (Claims.address base [rd 3] 3 8) 8) = true ∧ base.ready [rd 5] [31] = true ∧
    base.changing (Claims.address base [rd 5] 0 32) 32 = false ∧ base.checkAccess base.me 0 (Claims.address base [rd 5] 0 32) 32 1 = none ∧
    Claims.local_ base (fun _ => none) false (parts (Claims.address base [rd 5] 0 32) 32) = true := by decide +kernel
theorem witness_LocalStores : base.memOk = true ∧ base.ready [rd 14, rd 27] [] = true ∧
    base.changing (Claims.address base [rd 14, rd 27] 0x7FF 16) 16 = false ∧
    base.checkAccess base.me 0 (Claims.address base [rd 14, rd 27] 0x7FF 16) 16 1 = none ∧
    Claims.local_ base (fun _ => none) true (parts (Claims.address base [rd 14, rd 27] 0x7FF 16) 16) = true := by decide +kernel
theorem witness_AccessFaults : base.ready [rd 8] [1] = true ∧ base.changing (Claims.address base [rd 8] 0 1) 1 = false ∧
    base.checkAccess base.me 0 (Claims.address base [rd 8] 0 1) 1 1 = some ⟨0x11, 0xF800000000000400, 0⟩ ∧ base.ready [rd 16, rd 1] [] = true ∧
    base.changing (Claims.address base [rd 16, rd 1] 0 32) 32 = false ∧
    base.checkAccess base.me 0 (Claims.address base [rd 16, rd 1] 0 32) 32 1 = some ⟨0x12, 0xF900100000000040, 0⟩ ∧
    ((changingB 0).ready [rd 3] [1] = true ∧ (changingB 0).changing (Claims.address (changingB 0) [rd 3] 0 1) 1 = true) ∧
    (changingB 0).ready [rd 3, rd 1] [] = true ∧ (changingB 0).changing (Claims.address (changingB 0) [rd 3, rd 1] 0 1) 1 = true := by decide +kernel
theorem witness_WindowChecks : winOf 0x8000000000000000 = none ∧
    ((winOf 0xF978000000000040 = some .scratch ∧ base.present 1920 = false) ∧ winOf 0xFB0000000001FFFD = some .fabric ∧
      2 ^ 17 < ((0xFB0000000001FFFD : W64).extractLsb' 0 17).toNat + 4) ∧
    ((winOf 0xFA00600000000040 = some .cluster ∧ ((0xFA00600000000040 : W64).extractLsb' 44 3).toNat = 6) ∧ winOf 0xFAFF800000000040 = some .cluster ∧
      base.present (clusterTile 511 0) = false) ∧
    (winOf 0xF8000000000003FD = some .priv ∧ base.me.privSize < ((0xF8000000000003FD : W64).extractLsb' 0 16).toNat + 4) ∧
    (winOf 0xF900100000000040 = some .scratch ∧ base.present 1 = true ∧ ((0xF900100000000040 : W64).extractLsb' 0 17).toNat + 32 ≤ 2 ^ 17) ∧
    (winOf 0xFA00800000000040 = some .cluster ∧ ((0xFA00800000000040 : W64).extractLsb' 44 3).toNat < 6 ∧ base.present (clusterTile 1 0) = true ∧
      1 ≠ clusterOf 0) ∧
    (winOf 0xF900000000010000 = some .scratch ∧ base.checkWindow base.me 0 0xF900000000010000 4 = none ∧
      sramPlace base.me 0 .scratch 0xF900000000010000 = (0, 0x10000) ∧ base.banksOf 0 0x10000 4 = [] ++ 4 :: [] ∧ (base.bank 0 4).mode ≠ .scratch) ∧
    (winOf 0xF900000000003FFE = some .scratch ∧ base.checkWindow base.me 0 0xF900000000003FFE 4 = none ∧
      base.banksOf 0 0x3FFE 4 = [0] ++ 1 :: [] ∧ (∀ m ∈ [0, 1], (base.bank 0 m).mode = .scratch) ∧ base.ownsBank 1 0 0 = true ∧
      base.ownsBank 1 0 1 = false) := by decide +kernel
theorem witness_RemoteLoad : base.ready [rd 4] [26] = true ∧ winOf (Claims.address base [rd 4] 3 8) = some .global ∧
    (Claims.address base [rd 4] 3 8).toNat % 32 + 8 ≤ 32 ∧
    base.tlbFind 0 (base.rootOf (base.me.resid.getD 0)).1 (Claims.address base [rd 4] 3 8).toNat false = some entryA ∧
    base.stqPending base.cur.ctx 0x30018 = false ∧ base.hit 0 (base.me.resid.getD 0) 0x30018 = none := by decide +kernel
theorem witness_RemoteStore : base.ready [rd 4, rd 31] [] = true ∧ winOf (Claims.address base [rd 4, rd 31] 31 1) = some .global ∧
    (Claims.address base [rd 4, rd 31] 31 1).toNat % 32 + 1 ≤ 32 ∧
    base.tlbFind 0 (base.rootOf (base.me.resid.getD 0)).1 (Claims.address base [rd 4, rd 31] 31 1).toNat true = some entryA ∧
    base.stqPending base.cur.ctx 0x3001F = false ∧ base.hit 0 (base.me.resid.getD 0) 0x3001F = none := by decide +kernel
/-- The die's miss queue is full of walks of other pages. -/
def missing : State := { base with walks := (List.range 256).map fun i => ⟨0, 0, 1, 7, 0x100000, BitVec.ofNat 64 (0x100000 + i * 0x10000), false, .access, none⟩ }
theorem witness_TranslationMiss : base.ready [rd 19] [1] = true ∧ winOf (Claims.address base [rd 19] 0 8) = some .global ∧
    base.tlbFind 0 (base.rootOf (base.me.resid.getD 0)).1 (Claims.address base [rd 19] 0 8).toNat false = none ∧
    base.me.walkFail ≠ some (Claims.address base [rd 19] 0 8) ∧ base.walkRoom 0 1 (Claims.address base [rd 19] 0 8) = true ∧
    missing.walkRoom 0 1 (Claims.address base [rd 19] 0 8) = false ∧
    (withMe fun c => { c with walkFail := some 0x8000 }).me.walkFail = some (Claims.address base [rd 19] 0 8) := by decide +kernel
theorem witness_GatherScatter :
    (wide.ready [rd 1, rd 3] [31] = true ∧ Claims.local_ wide wide.checkElement false
      (wide.elements (wide.src [rd 1, rd 3] 1) (wide.operand [rd 1, rd 3] (fun i => i == 0) 0) 1 0 0) = true) ∧
    (wide.memOk = true ∧ wide.ready [rd 3, rd 3, rd 27] [] = true ∧
      (∀ j, j < wide.me.laneN → ((wide.me.k 2).getLsbD j = true ↔ j = 0)) ∧
      Claims.local_ wide wide.checkElement true (wide.elements (wide.src [rd 3, rd 3, rd 27] 1)
        (wide.operand [rd 3, rd 3, rd 27] (fun i => i != 1) 0) 2 2 1) = true) ∧
    (base.ready [rd 3, rd 1] [] = true ∧ base.me.k 1 ≠ 0 ∧ base.checkAccess base.me 0 (base.src [rd 3, rd 1] 0) 32 32 = none ∧
      Claims.local_ base (fun _ => none) true [⟨base.src [rd 3, rd 1] 0, 0, 32⟩] = true) := by decide +kernel
theorem witness_LocalAtomics : base.memOk = true ∧ (base.ready [rd 3, rd 27] [31] = true ∧
    base.checkAccess base.me 0 (base.src [rd 3, rd 27] 0) 8 8 = none ∧
    Claims.local_ base (fun _ => none) false [⟨base.src [rd 3, rd 27] 0, 0, 8⟩] = true ∧ base.releaseSet 0 5 = []) ∧
    (base.ready [rd 3, rd 26, rd 1] [26] = true ∧ base.checkAccess base.me 0 (base.src [rd 3, rd 26, rd 1] 0) 4 4 = none ∧
      Claims.local_ base (fun _ => none) false [⟨base.src [rd 3, rd 26, rd 1] 0, 0, 4⟩] = true) := by decide +kernel
theorem witness_SpaceTests : base.ready [rd 3] [26] = true ∧ winOf (base.src [rd 3] 0) = some .priv ∧
    base.cast (base.src [rd 3] 0) (castTo 2) = some 0xF900000000000040 ∧ base.cast (base.src [rd 4] 0) (castTo 1) = none ∧
    winOf 0x0100000000000000 = none ∧ winOf 0x00FFFFFFFFFFFFFF = some .global ∧ winOf 0xF900000000000000 = some .scratch ∧
    winOf 0xFA00000000000000 = some .cluster ∧ winOf 0xFB00000000000000 = some .fabric ∧
    base.checkWindow base.me 0 (base.src [rd 3] 0) 1 = none ∧ base.checkWindow base.me 0 (base.src [rd 8] 0) 1 ≠ none := by decide +kernel
/-- A write of the context is not yet performed, of `n` sectors. -/
def write9 (addr : W64) (pa n : Nat) : Txn :=
  { tid := 9, resid := 1, key := 0, owner := .ctx 0, write := true, target := .device, addr := addr, pa := pa, stq := n != 1, n := n }
def storing : State := withT fun x => { x with txns := [write9 0 0 1] }
def storing4 : State := withT fun x => { x with txns := [write9 0xFFE0 0x2FFE0 4] }
theorem witness_Fences : base.ready [] [] = true ∧ base.fenceSet 0 5 = [] ∧ storing.fenceSet 0 2 = [9] ∧ storing.ready [] [] = true ∧
    (base.ready [rd 4, rd 9] [] = true ∧ winOf (base.src [rd 4, rd 9] 0) = some .global ∧
      (base.src [rd 4, rd 9] 0).toNat + (base.src [rd 4, rd 9] 1).toNat ≤ 2 ^ 56 ∧ (base.tile 0).txns = []) ∧
    (storing.rangeWrites 0 (storing.src [rd 4, rd 9] 0) (storing.src [rd 4, rd 9] 1) = [] ∧
      storing4.rangeWrites 0 (storing4.src [rd 4, rd 9] 0) (storing4.src [rd 4, rd 9] 1) = [9] ∧ storing4.ready [rd 4, rd 9] [] = true) ∧
    winOf (base.src [rd 3, rd 11] 0) ≠ some .global ∧ base.ready [rd 3, rd 11] [] = true ∧
    (let s := withMe fun c => c.setS 20 0x00FFFFFFFFFFFFFF
     s.ready [rd 20, rd 2] [] = true ∧ 2 ^ 56 < (s.src [rd 20, rd 2] 0).toNat + (s.src [rd 20, rd 2] 1).toNat) := by decide +kernel
/-- A fill of the sector at 0x10000 is under way. -/
def filling : State := withT fun x => { x with txns := [{ write9 0x10000 0x30000 1 with write := false, fill := true }] }
theorem witness_CacheOps : base.ready [] [] = true ∧
    (base.ready [rd 4, rd 11] [] = true ∧ base.src [rd 4, rd 11] 1 = 0 ∧ winOf (base.src [rd 4, rd 11] 0) = some .global ∧
      base.ready [rd 3, rd 11] [] = true ∧ winOf (base.src [rd 3, rd 11] 0) ≠ some .global) ∧
    (base.ready [rd 4, rd 18] [] = true ∧ rangeList (base.src [rd 4, rd 18] 0) (base.src [rd 4, rd 18] 1) = [0x10000, 0x10020] ∧
      Claims.sectorOf base 0x10000 = some 0x30000 ∧ Claims.sectorOf base 0x10020 = some 0x30020) ∧
    (base.ready [rd 19, rd 9] [] = true ∧ rangeList (base.src [rd 19, rd 9] 0) (base.src [rd 19, rd 9] 1) = [0x8000] ∧
      Claims.sectorOf base 0x8000 = none ∧ base.walkRoom 0 1 0x8000 = true ∧ (base.tile 0).walkFails = [] ∧ base.walks = []) ∧
    (let w := base.walkFor 0 1 0 0x8000 false .engine
     let s := withT fun x => { x with walkFails := [(w, 0)] }
     s.walkFor 0 1 0 0x8000 false .engine = w ∧ w.again w = true ∧ s.cycle < 0 + failCycles ∧ (s.tile 0).walkFails = [(w, 0)] ∧
      Claims.sectorOf s 0x8000 = none ∧ s.ready [rd 19, rd 9] [] = true) ∧
    Claims.sectorOf (withMe fun c => { c with wait := .sweep 0x10000 1 }) 0x10000 = some 0x30000 ∧
    (rangeList (base.src [rd 19, rd 9] 0) (clipLength (base.src [rd 19, rd 9] 0) (base.src [rd 19, rd 9] 1)) = [0x8000] ∧
      missing.walkRoom 0 1 0x8000 = false ∧ (∀ v ∈ missing.walks, v.key ≠ 0) ∧ Claims.sectorOf missing 0x8000 = none ∧
      missing.ready [rd 19, rd 9] [] = true) ∧
    ((withB 7 fun b => { b with mode := .scratch }).ways 0 1 = [] ∧ base.ways 0 1 ≠ []) ∧
    (rangeList (base.src [rd 4, rd 9] 0) (clipLength (base.src [rd 4, rd 9] 0) (base.src [rd 4, rd 9] 1)) = [0x10000] ∧
      base.ready [rd 4, rd 9] [] = true ∧ base.hit 0 1 0x30000 = none ∧ (base.tile 0).txns = [] ∧ filling.ready [rd 4, rd 9] [] = true ∧
      (∃ y ∈ (filling.tile 0).txns, y.fill = true ∧ y.resid = 1 ∧ y.pa / 32 = 0x30000 / 32)) := by decide +kernel
theorem witness_DoneTokens : base.ready [rd 31] [27] = true ∧ base.releaseSet 0 0 = [] ∧ base.queueFault 0 1 6 = none ∧ base.queueRoom 6 = true ∧
    (base.bank 0 6).queue.length + (base.bank 0 6).reserved < 512 ∧ (base.bank 0 6).ringCount = 0 ∧ (base.bank 0 6).staging = [] := by
  decide +kernel
theorem witness_QueueOps : (base.queueFault 0 (base.me.resid.getD 0) 4 = none ∧ (base.bank 0 4).pending = [] ∧ base.ready [rd 27] [] = true ∧
      base.queueRoom 4 = true ∧ base.ready [] [31] = true ∧ ((base.bank 0 4).queue.headD ⟨0, 9⟩).tag = 0) ∧
    (base.queueFault 0 (base.me.resid.getD 0) 5 = none ∧ ((base.bank 0 5).queue.headD ⟨0, 0⟩).tag ≠ 0) ∧ (base.bank 0 6).queue = [] ∧
    (base.bank 0 0).mode ≠ .fifo ∧
    (let s := withB 5 fun b => { b with owner := some 1 }
     (s.bank 0 5).mode = .fifo ∧ s.ownsBank 1 0 5 = false ∧ (s.bank 0 5).pending = []) ∧
    ((changingB 6).bank 0 6).pending ≠ [] ∧ (∀ i ∈ [Instr.qpush 6 27, .qpopv 31 6, .qdrop 6],
      (Claims.form i).any (fun g => (changingB 6).ready g.srcs g.outs) = true) := by decide +kernel
theorem witness_BankSettings : (base.ready [rd 1] [] = true ∧ (withMe fun c => c.setS 1 1).bsetFault 2 1 = none) ∧
    ((withMe fun c => c).ready [rd 27] [] = true) ∧
    (base.ready [rd 4, rd 11] [] = true ∧ base.ownsBank 1 0 6 = true ∧ (base.bank 0 6).pending = [] ∧ (base.bank 0 6).mode = .fifo ∧
      (base.bank 0 6).entries = 0 ∧ winOf (base.src [rd 4, rd 11] 0) = some .global ∧ (base.src [rd 4, rd 11] 0).toNat % 32 = 0 ∧
      (base.src [rd 4, rd 11] 1).toNat % 1056 = 0) ∧ base.ready [] [31] = true := by decide +kernel
def isAll : Homes → Bool
  | .all _ => true
  | _ => false
def isFail : Homes → Bool
  | .fail _ => true
  | _ => false
theorem witness_StoreAndQueue : base.ready [rd 4, rd 3, rd 11] [] = true ∧ base.changing (base.src [rd 4, rd 3] 1) (32 * 30) = false ∧
    base.checkAccess base.me 0 (base.src [rd 4, rd 3] 1) (32 * 30) 1 = none ∧ base.checkAccess base.me 0 (base.src [rd 4, rd 3] 1) (32 * 31) 1 ≠ none ∧
    isAll (base.stqSource (base.src [rd 4, rd 3] 1) 30) = true ∧
    (match base.stqSource (base.src [rd 4, rd 3] 1) 30 with | .all l => !base.stqBad l | _ => false) = true ∧
    base.stqFault (base.src [rd 4, rd 3] 0) (base.src [rd 4, rd 3] 1) 0 30 1 0 true = none ∧
    (let s := withMe fun c => { c with walkFail := some 0x8000 }
     s.changing 0x8000 32 = false ∧ s.checkAccess s.me 0 0x8000 32 1 = none ∧ isFail (s.stqSource 0x8000 1) = true) ∧
    base.host.devnum = 0 ∧ base.present 0 = true ∧ base.releaseSet 0 4 = [] ∧
    (base.stqFault 0x10000 0xF800000000000041 0 1 1 0 false).isSome = true ∧ isAll (base.stqSource 0xF800000000000041 1) = true := by decide +kernel
/-! ## Vectors -/

theorem witness_VectorWrapping : base.ready [rd 1, rd 27] [31] = true ∧ base.ready (Claims.secondSrcs 2 31 1) [26] = true ∧
    base.ready (Claims.secondSrcs 2 31 0) [26] = true ∧ wide.ready [rd 26, rd 0] [0] = true := by decide +kernel
theorem witness_VectorBitwise : half.ready [rd 27, rd 31] [27] = true ∧ half.ready (Claims.secondSrcs 27 27 0) [26] = true ∧
    half.ready (Claims.secondSrcs 27 27 1) [26] = true := by decide +kernel
theorem witness_VectorSaturating : wide.ready [rd 1, rd 27] [31] = true ∧ wide.ready (Claims.secondSrcs 2 16 1) [26] = true ∧
    wide.ready (Claims.secondSrcs 2 31 0) [0] = true ∧ wide.ready [rd 31] [26] = true := by decide +kernel
theorem witness_VectorFloat : typeFault 2 wide.me = false ∧ typeFault 3 half.me = false ∧ wide.ready [rd 1, rd 27] [31] = true ∧
    half.ready [rd 31] [26] = true ∧ half.ready [rd 27, rd 27, rd 31] [0] = true := by decide +kernel
theorem witness_FloatRounding : fmtF16.read 0x3C00 = .num false 1024 (-10) ∧ (0x3C00 : Nat) < 2 ^ fmtF16.width ∧ fmtB16.read 0x8000 = .num true 0 (-133) ∧
    fmtF32.read 1 = .num false 1 (-149) := by decide +kernel
theorem witness_VectorAccumulate : base.ready [rd 1, rd 27, rd 31] [31] = true ∧ base.me.laneW < 32 ∧ half.me.laneW < 32 := by decide +kernel
theorem witness_VectorConversion : half.ready [rd 27] [31] = true ∧ (convType 3 half.me.laneW = true ∧ convType 2 half.me.laneW = true) ∧
    (convType 2 half.me.laneW = true ∧ convType 0 (half.me.laneW / 2) = true) ∧
    (wide.ready [rd 26] [0] = true ∧ convType 3 (wide.me.laneW / 2) = true ∧ convType 2 wide.me.laneW = true) := by decide +kernel
theorem witness_VectorSelection : (∀ p ∈ Claims.selections 26 27 31 1 base, base.ready (p.2.1.map rd) [26] = true) ∧
    base.ready [rd 27, rd 1] [31] = true ∧ base.ready [rd 31] [26] = true ∧ base.ready [] [27] = true ∧ base.ready [rd 27] [31, 29] = true ∧
    (∀ t ∈ [0, 1], typeFault t base.me = false) ∧ (∀ t ∈ [2, 3], typeFault t half.me = false) := by
  decide +kernel
theorem witness_VectorReductions : base.ready [rd 27] [26] = true ∧ (typeFault 2 wide.me = false ∧ wide.ready [rd 1] [31] = true) ∧
    Claims.active (withMe (fun c => { c with masks := [(3, 0)] }) wide) 1 3 = [] := by decide +kernel
theorem witness_MasksAndConfig : base.ready [] [] = true ∧ base.ready [rd 27] [] = true ∧ base.ready [] [31] = true := by decide +kernel
theorem witness_VectorCompare : wide.ready [rd 1, rd 27] [] = true ∧ typeFault 2 wide.me = false ∧ wide.me.laneN ≤ 32 ∧
    base.ready [rd 2, rd 31] [] = true ∧ typeFault 1 base.me = false ∧ base.me.laneN = 32 := by decide +kernel
theorem witness_WidthFault : (∀ t ∈ [2, 3], typeFault t base.me = true) ∧ base.me.laneW = 8 ∧ typeFault 3 wide.me = true ∧ wide.me.laneW = 32 ∧
    (∀ i ∈ [Instr.vfadd 31 1 27 0 2, .vfsqrt 31 27 0 3, .vfma 31 1 27 0 0 2, .vrfsum 31 27 0 2, .vcmp 1 1 27 0 0 0 3],
      (Claims.form i).any (fun g => base.ready g.srcs g.outs && g.width base.me) = true) ∧
    (∀ i ∈ [Instr.vdot 0 26 2 1 0 0, .vcvt 0 26 3 0 2, .vcvtn 0 26 0 0 0 3, .vcvtw 0 26 3 0 0 0], (Claims.form i).any (fun g =>
      wide.ready g.srcs g.outs && g.width wide.me) = true) := by decide +kernel
/-! ## Control, handlers, barriers, tasks -/

/-- The context is in its handler, and goes back to 0x404, or to an address outside its partition; it has no handler; it has a record. -/
def handlerA : State := withMe fun c => { c with handler := true, trapip := 0x404 }
def handlerB : State := withMe fun c => { c with handler := true, trapip := 0x440 }
def bare : State := withMe fun c => { c with trapvec := 0 }
def queued : State := withMe fun c => { c with async := [⟨1, 0, 0x1B, 0x20⟩] }
/-- It asks for nothing at its inputs. -/
def silent : State := withX fun x => { x with rx := [], toCore := [] }

theorem witness_FaultEntry : base.cur.q < 4 ∧ base.cur.b < 4 ∧ (base.me.handler = false ∧ base.me.trapvec ≠ 0) ∧ handlerA.me.handler = true ∧
    (bare.me.trapvec = 0 ∧ bare.me.resid = some 1) := by decide +kernel
theorem witness_ControlRegisters : base.ready [] [31] = true ∧ (Claims.controls base)[17]? = some 3 ∧ (Claims.controls base)[0]? = some 0x400 ∧
    base.ready [rd 2] [] = true ∧ (Claims.written base.me 5 3 0) = none ∧ (Claims.written base.me 17 3 0) ≠ none ∧
    (Claims.written base.me 8 0x422 0) = none ∧ (Claims.written base.me 6 0x7F 0) = none ∧ (Claims.written base.me 16 0xFFF 0) ≠ none := by
  decide +kernel
theorem witness_TrapInstructions : base.ready [] [] = true ∧ base.me.handler = false ∧ base.me.trapvec ≠ 0 := by decide +kernel
theorem witness_ReturnFromHandler : (handlerA.ready [] [] = true ∧ handlerA.me.handler = true ∧
      handlerA.me.targetOk (handlerA.me.trapip.setWidth 64) = true) ∧ base.me.handler = false ∧
    (handlerB.ready [] [] = true ∧ handlerB.me.targetOk (handlerB.me.trapip.setWidth 64) = false) := by decide +kernel
/-- The context's write is not performed; the turn is the owning tile's, another tile's, and a late one of another tile. -/
def elsewhere (late : Bool) : State := { base with
  cur := { t := 1 }, ctxs := [(16, { ctxA with bars := [] }), (0, ctxA)], late := late }
theorem witness_SleepAndHalt : (base.ready [] [] = true ∧ base.wfiDone = true) ∧ (silent.ready [] [] = true ∧ silent.wfiDone = false) ∧
    (let s := withMe fun c => { c with wait := .wfi, heldLen := 4 }
     s.me.wait = .wfi ∧ s.inputWord = true ∧ s.me.async = []) := by decide +kernel
theorem witness_ContextFaultEvents : (queued.me.takesRecord = true ∧ queued.me.async = [⟨1, 0, 0x1B, 0x20⟩] ∧ queued.me.trapvec ≠ 0) ∧
    (let s := base.setSched { base.sched with asyncs := [(0, ⟨1, 0, 0x1B, 0x20⟩)] }
     s.sched.asyncs = (0, ⟨1, 0, 0x1B, 0x20⟩) :: [] ∧ (s.ctx 0).run = .live) := by decide +kernel
theorem witness_BarrierOps : (base.ready [rd 11, rd 1] [] = true ∧ base.barPlace 0 1 (base.src [rd 11, rd 1] 0).toNat = some (0, 0)) ∧
    (base.ready [rd 1] [31] = true ∧ base.barPlace 0 1 (base.src [rd 1] 0).toNat = some (0, 5) ∧ base.releaseSet 0 2 = [] ∧
      storing.ready [rd 1] [31] = true ∧ storing.releaseSet 0 2 = [9]) ∧
    (∀ late ∈ [true, false], ((elsewhere late).setMe { (elsewhere late).me with wait := .barr 1 0 5 [] }).me.wait = .barr 1 0 5 []) ∧
    (base.ready [rd 2, rd 1] [26] = true ∧ (base.barrier 0 3).phase ≠ (base.src [rd 2, rd 1] 1).getLsbD 0) ∧
    (base.ready [rd 2, rd 11] [26] = true ∧ (base.barrier 0 3).phase = (base.src [rd 2, rd 11] 1).getLsbD 0) ∧
    (base.ready [rd 27] [31] = true ∧ base.barPlace 0 1 (base.src [rd 27] 0).toNat = some (0, 7) ∧
      base.ready [rd 31] [1] = true ∧ base.barPlace 0 1 (base.src [rd 31] 0).toNat = none ∧ base.ready [rd 31, rd 1] [1] = true) ∧
    (∀ late ∈ [true, false], (elsewhere late).ready [rd 1] [1] = true ∧ (elsewhere late).ready [rd 1, rd 1] [1] = true ∧
      (elsewhere late).barPlace 1 1 ((elsewhere late).src [rd 1] 0).toNat = some (0, 5) ∧ (elsewhere late).cur.t ≠ 0) := by decide +kernel
theorem witness_BarrierEvents : ((withT fun x => { x with arrivals := [⟨0, 5, true⟩] }).tile 0).arrivals = [⟨0, 5, true⟩] ∧
    (let s := withMe fun c => { c with wait := .bwait 31 5 true, heldLen := 4 }
     s.me.wait = .bwait 31 5 true ∧ s.barPlace 0 (s.me.resid.getD 0) 5 = some (0, 5) ∧ (s.barrier 0 5).phase ≠ true) := by decide +kernel
theorem witness_SpawnRecord : base.ready [rd 27, rd 31, rd 6] [] = true ∧ base.myRes = some residA ∧
    (base.me.entryOk (base.src [rd 27, rd 31, rd 6] 2) = true ∧ base.me.deque.length < 64 ∧ 1 < base.me.stake.toNat) ∧
    (base.ready [rd 1, rd 1, rd 7] [] = true ∧ base.me.entryOk (base.src [rd 1, rd 1, rd 7] 2) = false) := by decide +kernel
theorem witness_SendMessage : base.ready [rd 27, rd 31, rd 12] [] = true ∧ base.myRes = some residA ∧
    (let s := withMe fun c => c.setS 20 0xFF00010404
     (s.src [rd 27, rd 31, rd 20] 2).extractLsb' 32 8 = 0xFF ∧ s.sendOk residA (s.src [rd 27, rd 31, rd 20] 2) = true ∧ s.releaseSet 0 4 = [] ∧
      residA.potValid = false) ∧
    (let s := withMe (fun c => c.setS 20 0xFF00010404) storing
     s.sendOk residA (s.src [rd 27, rd 31, rd 20] 2) = true ∧ s.releaseSet 0 4 = [9] ∧ s.ready [rd 27, rd 31, rd 20] [] = true) ∧
    (let s := withMe fun c => c.setS 20 0xFF7FFF0404
     (s.src [rd 1, rd 1, rd 20] 2).extractLsb' 32 8 = 0xFF ∧ s.sendOk residA (s.src [rd 1, rd 1, rd 20] 2) = false) := by decide +kernel
theorem witness_TaskDone : base.ready [] [] = true ∧ base.potOn = false ∧ base.me.async = [] ∧ base.me.deque = [] ∧ base.me.ring.count = 0 ∧
    (withMe fun c => { c with deque := [⟨0, 1, 2, 3, []⟩] }).me.deque = [] ++ [⟨0, 1, 2, 3, []⟩] := by decide +kernel
/-- The pot is valid and holds 64 units less than its total; the other worker's turn; the residency is committed. -/
def potted : State := withR fun r => { r with potValid := true, pot := 36, total := 100 }
def worker : State := { base with cur := { q := 1 } }
/-- A packet of the pot waits at the root; its turn names the residency. -/
def potAsk (h : Hdr) (s : State := potted) : State := { withIn 0 { h with kind := 9, resid := 1, stile := 1 } [] s with cur := { n := 1 } }
theorem witness_RootInstructions : (base.ready [] [] = true ∧ base.myRes = some residA ∧ base.isRoot = true ∧ residA.potValid = false) ∧
    (worker.ready [] [] = true ∧ worker.isRoot = false) ∧ (potted.isRoot = true ∧ (potted.myRes.map Residency.potValid) = some true ∧
      potted.me.resid = some 1 ∧ (potted.myRes.map potted.potNow) = some true ∧
      ((potAsk { op := opBorrow }).myRes.map (potAsk { op := opBorrow }).potNow) = some false) ∧
    ((withR fun r => { r with state := .committed }).isRoot = true ∧
      ((withR fun r => { r with state := .committed }).myRes.map Residency.state) = some .committed) ∧ residA.state ≠ .committed := by
  decide +kernel
theorem witness_PotEvents :
    ((withR (fun r => { r with potAt := some 0 }) (potAsk { op := opBorrow })).findRes 1).map Residency.potAt = some (some 0) ∧
    ((potAsk { op := opBorrow }).potEvent.map (fun p => p.h.op) = some opBorrow ∧ ((potAsk { op := opBorrow }).liveRes 1).map Residency.total = some 100) ∧
    (let s := potAsk { op := opBorrow } (withR fun r => { r with potValid := true, total := 2 ^ 63 - 1 })
     s.potEvent.isSome = true ∧ ((s.liveRes 1).map fun r => decide (2 ^ 63 ≤ r.total + 2 ^ 40)) = some true) ∧
    (potAsk { op := opReturn, info := 64 }).potEvent.map (fun p => (p.h.op, p.h.info)) = some (opReturn, 64) ∧
    (let s := withIn 0 { kind := 9, op := opGrant, resid := 1 } [] (withMe fun c => { c with wait := .borrow })
     (s.arrived 0 isPotReply).map (fun p => (p.h.op, p.h.info, p.h.resid)) = some (opGrant, 0, 1) ∧ (s.ctx 0).wait = .borrow ∧
      (s.ctx 0).resid = some 1 ∧ (s.ctx 0).handler = false ∧ (s.ctx 0).trapvec ≠ 0) ∧
    ((withIn 0 { kind := 9, op := opExhaust, resid := 1 } [] (withMe fun c => { c with wait := .borrow })).arrived 0 isPotReply).map
      (fun p => p.h.op) = some opExhaust ∧
    (∀ f ∈ [none, some 5, some 4],
      let s := { (withMe (fun c => { c with wait := .wquiet, heldLen := 4 }) (withR fun r => { r with potValid := true, full := f })) with cycle := 5 }
      s.me.wait = .wquiet ∧ s.myRes.map Residency.full = some f) := by decide +kernel
theorem witness_AggregatorReturns :
    (let s := { (withT (fun x => { x with aggs := [⟨1, 2 ^ 48, 0⟩] }) potted) with cur := { n := 1 } }
     (s.tile 0).aggs.find? (fun x => x.resid == s.cur.n) = some ⟨1, 2 ^ 48, 0⟩ ∧ (s.liveRes 1).isSome = true) ∧
    (let s := { (withT (fun x => { x with aggs := [⟨1, 1, 0⟩] }) potted) with cur := { n := 1 }, cycle := 4096 }
     (s.tile 0).aggs.find? (fun x => x.resid == s.cur.n) = some ⟨1, 1, 0⟩ ∧ 0 + 4096 ≤ s.cycle) ∧
    (let s := { (withT (fun x => { x with aggs := [⟨1, 1, 0⟩] }) potted) with cur := { n := 1 }, ctxs := [] }
     s.quietTile 0 1 = true) := by decide +kernel
/-- An answer to the thief, the worker of core 1, which has asked the first or the last tile of its order. -/
def thief (pos : Nat) (op : BitVec 32) : State :=
  withIn 0 { kind := 8, resid := 1, info := 4, op := op } [0] { base with ctxs := base.ctxs.set 4 { base.ctx 4 with steal := .asking pos } }
theorem witness_StealEvents :
    (worker.me.run = .idle ∧ worker.me.resid = some 1 ∧ worker.liveRes 1 = some residA ∧ worker.me.steal = .start ∧
      (worker.victims residA 0)[0]? = some 1) ∧
    (let s := { (withR fun r => { r with w := 1, h := 1 }) with cur := { q := 1 } }
     s.me.run = .idle ∧ (s.liveRes 1).map (fun r => s.victims r 0) = some []) ∧
    (let s := withIn 0 { kind := 7, resid := 1, stile := 1 } [] (withMe fun c => { c with deque := [⟨0, 1, 2, 3, []⟩] })
     (s.arrived 0 (fun p => p.h.kind == 7)).isSome = true ∧ s.liveRes 1 = some residA ∧ s.ctxsOf 0 residA = [] ++ 0 :: (s.ctxsOf 0 residA).tail ∧
      (s.ctx 0).deque = ⟨0, 1, 2, 3, []⟩ :: []) ∧
    (let s := withIn 0 { kind := 7, resid := 1 } [] (withMe fun c => { c with deque := [⟨0, 1, 2, 3, [9]⟩] })
     (s.arrived 0 (fun p => p.h.kind == 7)).isSome = true ∧ ((s.ctxsOf 0 residA).all fun j => match (s.ctx j).deque with
        | x :: _ => x.waits != []
        | [] => (s.ctx j).ring.count == 0) = true) ∧
    (∀ pos ∈ [0, 2], (thief pos opEmpty).liveRes 1 = some residA ∧ ((thief pos opEmpty).ctx 4).resid = some residA.num ∧
      ((thief pos opEmpty).ctx 4).run = .idle ∧ ((thief pos opEmpty).ctx 4).steal = .asking pos) ∧
    ((thief 0 opEmpty).arrived 0 (fun p => p.h.kind == 8)).map (fun p => (p.h.info, p.h.op)) = some (4, opEmpty) ∧
    ((thief 0 opRecord).arrived 0 (fun p => p.h.kind == 8)).map (fun p => (p.h.info, p.h.op)) = some (4, opRecord) ∧
    ((thief 2 opEmpty).victims residA 0)[2 + 1]? = none ∧ (((thief 0 opEmpty).victims residA 0)[0 + 1]?).isSome = true := by decide +kernel
theorem witness_MessageArrival :
    (let s := withIn 0 { kind := 6, resid := 1, dq := 1, op := opMessage } [0]
     (s.arrived 0 (s.isMessage 0)).map (fun p => (p.h.op, p.h.dq, p.h.dfold)) = some (opMessage, 1, 0) ∧ s.liveRes 1 = some residA ∧
      residA.started = true ∧ s.inResidency residA 1 0 = true ∧ (s.ctx 4).run = .idle) ∧
    (let s := withIn 0 { kind := 6, resid := 1, dq := 0, op := opMessage } [0]
     (s.arrived 0 (s.isMessage 0)).isSome = true ∧ s.inResidency residA 0 0 = true ∧ (s.ctx 0).run = .live ∧ (s.ctx 0).deque.length < 64 ∧
      s.sched.spills = []) := by decide +kernel

/-! ## Streams, tokens, copies -/

/-- The context runs a streaming instruction, with a private array of words from its sixty-fourth byte on. -/
def stream (i : Instr) (f : StreamRun → StreamRun := id) (s : State := base) : State :=
  withMe (fun c => { c with stream := some (f { instr := i, len := 8, x := 0xF800000000000040, y := 0xF800000000000040, z := 4 }) }) s
/-- The words of queues 4 and 5. -/
def queues (l r : List NetWord) (s : State := base) : State := withB 5 (fun b => { b with queue := r }) (withB 4 (fun b => { b with queue := l }) s)
/-- What `runs` and `headIs` say, as a test. -/
def runsNow (s : State) (i : Instr) : Bool := s.me.stream.any fun r => r.instr == i && !r.drain
def headNow (s : State) (c : BitVec 4) (w : NetWord) : Bool := (s.epWords c).head? == some w

theorem runs_of (s : State) (i : Instr) (h : runsNow s i = true) : ∃ r, Claims.runs s i r := by
  unfold runsNow at h
  cases hr : s.me.stream with
  | none => simp [hr] at h
  | some r =>
    refine ⟨r, hr, ?_⟩
    simpa [hr] using h

theorem headIs_of (s : State) (c : BitVec 4) (w : NetWord) (h : headNow s c w = true) : Claims.headIs s c w := by
  simpa [headNow, Claims.headIs] using h

theorem witness_StreamStart :
    ((.steer 6 8 4 12 4, 4, [8, 4], [6, 12], []) ∈ Claims.streams 8 4 6 12 4 3 3 3 0 0 0 ∧
      base.ready (Claims.portSrcs [8, 4]) (Claims.portOuts [6, 12]) = true ∧
      (∀ c ∈ [8, 4], base.epFault c = none ∧ base.epWords c ≠ []) ∧ ∀ c ∈ [6, 12], base.epFault c = none ∧ base.epRoom c = true) ∧
    ((.fload 4 8 6 1 3 3, 8, [8], [6], [3]) ∈ Claims.streams 8 4 6 12 4 3 3 3 0 0 1 ∧ (base.me.s 3).toNat % 4 = 0) ∧
    ((.fwrite 4 8 15 1 5 3, 8, [8], [], [5]) ∈ Claims.streams 8 4 15 12 4 5 3 3 0 0 1 ∧ (base.me.s 5).toNat % 4 ≠ 0) := by decide +kernel
/-- Queue 6 has no room. -/
def crammed (s : State) : State := withB 6 (fun b => { b with queue := List.replicate 512 ⟨0, 0⟩ }) s
theorem witness_SteeringSteps :
    (let s := queues [⟨7, 0⟩] [⟨1, 0⟩] (stream (.steer 6 4 5 12 4))
     runsNow s (.steer 6 4 5 12 4) = true ∧ headNow s 4 ⟨7, 0⟩ = true ∧ headNow s 5 ⟨1, 0⟩ = true ∧ s.epRoom 12 = true ∧ s.epRoom 6 = true) ∧
    (let s := queues [⟨0, 0⟩] [⟨7, 0⟩] (stream (.merge 6 4 5 8 4))
     runsNow s (.merge 6 4 5 8 4) = true ∧ headNow s 4 ⟨0, 0⟩ = true ∧ headNow s 5 ⟨7, 0⟩ = true ∧ s.epRoom 6 = true ∧ headNow s 8 ⟨7, 0⟩ = true) ∧
    (let s (w : NetWord) := queues [w] [] (stream (.tee 6 4 12 3))
     runsNow (s ⟨7, 0⟩) (.tee 6 4 12 3) = true ∧ (s ⟨7, 0⟩).epRoom 12 = true ∧ (s ⟨7, 0⟩).epRoom 6 = true ∧
      ∀ w ∈ [⟨7, 0⟩, ⟨7, 0xB⟩, ⟨0, 4⟩, ⟨0, 5⟩, ⟨0, 6⟩, ⟨9, 0xA⟩], headNow (s w) 4 w = true) ∧
    (let s := crammed (queues [⟨9, 0xA⟩] [] (stream (.tee 6 4 12 3)))
     runsNow s (.tee 6 4 12 3) = true ∧ s.epRoom 6 = false ∧ headNow s 4 ⟨9, 0xA⟩ = true) := by decide +kernel
theorem witness_JoinSteps :
    (∀ i ∈ [Instr.fisect 4 4 5 6, .funion 4 4 5 6, .frep 4 4 5 6, .fzip 4 4 5 6 2 3], ∀ n ∈ [1, 2, 3],
      let u : W256 := BitVec.ofNat 256 n
      let s := queues [⟨u, 0⟩] [⟨2, 0⟩] (stream i fun r => { r with prevA := some 0 })
      runsNow s i = true ∧ headNow s 4 ⟨u, 0⟩ = true ∧ headNow s 5 ⟨2, 0⟩ = true ∧ s.epRoom 6 = true ∧ 0 < crd u) ∧
    (let s := queues [⟨1, 0⟩] [⟨2, 0⟩] (stream (.fisect 4 4 5 6) fun r => { r with prevA := some 1 })
     (s.me.stream.bind StreamRun.prevA) = some 1 ∧ crd (1 : W256) ≤ 1) ∧
    (∀ l ∈ [[⟨7, 0⟩], [⟨7, 0⟩, (⟨0, 1⟩ : NetWord)]], let s := queues [⟨0, 2⟩] l (stream (.frep 4 4 5 6))
     runsNow s (.frep 4 4 5 6) = true ∧ headNow s 4 ⟨0, BitVec.ofNat 4 (1 + 1)⟩ = true ∧ headNow s 5 ⟨7, 0⟩ = true ∧ s.epRoom 6 = true ∧
      s.epWords 5 = l) ∧
    (let s := queues [⟨0, 1⟩] [⟨0, 5⟩] (stream (.fisect 4 4 5 6))
     headNow s 4 ⟨0, BitVec.ofNat 4 (0 + 1)⟩ = true ∧ headNow s 5 ⟨0, BitVec.ofNat 4 (4 + 1)⟩ = true ∧ (crammed s).epRoom 6 = false) := by
  decide +kernel
/-- The word of a read is in memory, and the checks of its address pass. -/
def readsNow (s : State) (e : W64) : Bool :=
  !s.changing e 4 && s.checkAccess s.me s.cur.t e 4 1 == none && Claims.local_ s (fun _ => none) false (parts e 4)
theorem witness_FibreSteps :
    (∀ f ∈ [fun r : StreamRun => r, fun r => { r with phase := 1, mem := some (some 0) }, fun r => { r with phase := 2, mem := some (some 3) },
        fun r => { r with phase := 3, hi := 1 }, fun r => { r with phase := 3, mem := some (some 9) }, fun r => { r with phase := 3 },
        fun r => { r with phase := 4 }],
      let s := queues [⟨3 * 2 ^ 32, 0⟩] [] (stream (.fscan 4 4 6 3 3 3) f)
      runsNow s (.fscan 4 4 6 3 3 3) = true ∧ headNow s 4 ⟨3 * 2 ^ 32, 0⟩ = true ∧ s.epRoom 6 = true ∧ (crammed s).epRoom 6 = false) ∧
    ref0 (3 * 2 ^ 32) = 3 ∧ ref0 (4 * 2 ^ 32) = 4 ∧ ref1 (3 * 2 ^ 64) = 3 ∧
    (∀ n ∈ [0, 12, 16], readsNow base (0xF800000000000040 + BitVec.ofNat 64 n) = true) ∧
    (let s := queues [⟨3 * 2 ^ 32, 0⟩] [] (stream (.fload 4 4 6 0 3 3))
     runsNow s (.fload 4 4 6 0 3 3) = true ∧ headNow s 4 ⟨3 * 2 ^ 32, 0⟩ = true ∧ s.epRoom 6 = true ∧ (crammed s).epRoom 6 = false) ∧
    (let s := queues [⟨3 * 2 ^ 64, 0⟩] [] (stream (.fwrite 4 4 15 1 3 3))
     runsNow s (.fwrite 4 4 15 1 3 3) = true ∧ s.memOk = true ∧ readsNow s 0xF80000000000004C = true ∧
      Claims.local_ s (fun _ => none) true (parts 0xF80000000000004C 4) = true) ∧
    (let s := queues [⟨0, 4⟩] [] (stream (.fred 4 4 6 1 0))
     runsNow s (.fred 4 4 6 1 0) = true ∧ headNow s 4 ⟨0, BitVec.ofNat 4 (3 + 1)⟩ = true ∧ s.epRoom 6 = true) ∧
    (let s := queues [⟨7, 0⟩] [] (stream (.fred 4 4 6 0 0))
     runsNow s (.fred 4 4 6 0 0) = true ∧ headNow s 4 ⟨7, 0⟩ = true) := by decide +kernel
theorem witness_FibreSteps_limits :
    (∀ i ∈ [Instr.fscan 4 4 6 3 3 3, .fload 4 4 6 0 3 3], let s := queues [⟨4 * 2 ^ 32, 0⟩] [] (stream i)
     runsNow s i = true ∧ headNow s 4 ⟨4 * 2 ^ 32, 0⟩ = true ∧ s.epRoom 6 = true) ∧
    (∀ n ∈ [3, 2], let s := queues [⟨3 * 2 ^ 32, 0⟩] [] (stream (.fload 4 4 6 0 3 3) fun r => { r with mem := some (some 9), lo := n })
     runsNow s (.fload 4 4 6 0 3 3) = true ∧ s.epRoom 6 = true) ∧
    (let s := queues [⟨0, 1⟩] [] (stream (.fred 4 4 6 1 0))
     runsNow s (.fred 4 4 6 1 0) = true ∧ headNow s 4 ⟨0, 1⟩ = true ∧ s.epRoom 6 = true) ∧
    (let s := queues [⟨0, 4⟩] [] (stream (.fred 4 4 6 1 0) fun r => { r with phase := 1 })
     runsNow s (.fred 4 4 6 1 0) = true ∧ headNow s 4 ⟨0, 4⟩ = true ∧ s.epRoom 6 = true) := by decide +kernel
theorem witness_TokenOps : base.ready [lookAt 29 false] [31] = true ∧ base.ready [lookAt 26 false] [1] = true ∧
    (base.ready [rawRd 28] [27] = true) ∧ (base.ready [] [31] = true ∧ base.queueFault 0 (base.me.resid.getD 0) 4 = none ∧
      (base.bank 0 4).queue ≠ [] ∧ (base.bank 0 4).pending = []) ∧ (base.ready [rawRd 31] [] = true ∧ base.queueRoom 4 = true) ∧
    (base.ready [lookAt 28 (10#4 != 15#4)] [] = true ∧ Claims.tagHolds 10 (base.portIn 28) = true ∧ Claims.tagHolds 0 (base.portIn 28) = false) ∧
    (base.ready [lookAt 29 (15#4 != 15#4)] [] = true ∧ base.portIn 29 = []) ∧
    (let s : State := { base with atStart := [0, 9] }
     s.ready [lookAt 31 false] [] = true ∧ s.atStart.contains (2 * (4 * s.cur.tb + s.cur.q)) = true ∧
      base.atStart.contains (2 * (4 * base.cur.tb + base.cur.q)) = false ∧ s.atStart.contains (2 * (8 * 0 + 4) + 1) = true ∧
      base.queueFault 0 1 6 = none ∧ (base.bank 0 6).pending = []) ∧ base.ready [] [] = true := by decide +kernel
/-- A descriptor: `n` elements of 32 bytes from the private address 0xF8…0 (or a queue's number) to a queue or an address, with barrier 3 and
trigger queue 4. -/
def desc (n : Nat) (src dst : W64) (dk : BitVec 2) : Desc :=
  (9#16 ++ 0#2 ++ dk ++ 5#3 ++ 0#1 ++ 0#3 ++ 12#4 ++ 1#1 ++ 3#15 ++ 0#17 ++ 0#128 : BitVec 192) ++ (0#96 ++ 32#32 : BitVec 128) ++
    (1#16 ++ 1#16 ++ 1#16 ++ BitVec.ofNat 16 n) ++ dst ++ src
/-- Template 1 of tile 0 with a descriptor and a copy. -/
def copying (d : Desc) (c : Option Copy) (f : Template → Template := id) : State :=
  { (withT fun x => x.setTemplate 1 (f { owner := some 0, arm := { desc := some d }, active := c })) with cur := { n := 1 } }
/-- The spot of a copy's access is an SRAM bank's, and nothing else has happened. -/
def at_ (s : State) (x : CSpot) (key : Nat) : Bool := match x with
  | .home u (.sram k) => k == key && decide (u = s)
  | _ => false
def descA : Desc := desc 1 0xF800000000000040 6 1
theorem witness_CopyInstructions : base.ownsTemplate 2 = false ∧ base.ready [rd 27] [] = true ∧ base.ready [] [31] = true ∧
    (let s := copying descA none
     s.ownsTemplate 1 = true ∧ (s.ready [rd 5] [] = true ∧ (s.src [rd 5] 0).toNat % 64 ≠ 0) ∧
      (s.ready [rd 3] [] = true ∧ (s.src [rd 3] 0).toNat % 64 = 0 ∧ s.changing (s.src [rd 3] 0) 64 = false ∧ s.checkAccess s.me 0 (s.src [rd 3] 0) 64 1 = none ∧
        Claims.local_ s (fun _ => none) false (parts (s.src [rd 3] 0) 64) = true ∧ (s.tmpl 1).active = none ∧ (s.tmpl 1).fires = [] ∧
        s.checkDesc s.me 0 1 1 (BitVec.ofNat 512 (Claims.bytes s (s.src [rd 3] 0) 64)) = some ⟨0x21, 0, 1⟩ ∧
        s.checkDesc s.me 0 1 1 descA = none)) ∧
    (copying descA (some { age := 0 })).ownsTemplate 1 = true ∧ ((copying descA (some { age := 0 })).tmpl 1).active ≠ none ∧
    ((copying descA none fun x => { x with fires := List.replicate 255 (0, []) }).tmpl 1).fires.length = 255 ∧
    (let s := copying descA none fun x => { x with arm := {} }
     s.ownsTemplate 1 = true ∧ (s.tmpl 1).arm.desc = none) := by decide +kernel
theorem witness_CopyInstructions_arms :
    (let s := { copying descA none with mem := Memory.writeN base.mem (sramKey 0 0 0x40) 64 descA.toNat }
     s.checkDesc s.me 0 1 1 (BitVec.ofNat 512 (Claims.bytes s (s.src [rd 3] 0) 64)) = none ∧ (s.tmpl 1).active = none ∧ (s.tmpl 1).fires = [] ∧
      s.ready [rd 3] [] = true ∧ Claims.local_ s (fun _ => none) false (parts (s.src [rd 3] 0) 64) = true) := by decide +kernel
theorem witness_CopyFiring :
    (let s := copying descA none
     (s.tmpl 1).arm.desc = some descA ∧ descA.trigger = some 4 ∧ (s.tmpl 1).disarm = false ∧ (s.tmpl 1).fires.length < 255 ∧
      s.queueFault 0 (s.templateRes 0 1) 4 = none ∧ (s.bank 0 4).pending = [] ∧ (s.bank 0 4).queue ≠ []) ∧
    ((copying descA none fun x => { x with fires := [(3, [])] }).tmpl 1).fires = (3, []) :: [] ∧
    (let s := copying descA (some { age := 0 })
     1 = ((s.tile 0).copyLast + 1) % 16 ∧ (s.tmpl 1).active = some { age := 0 } ∧ 0 < descA.total ∧ ({ age := 0 } : Copy).hasSlack descA = true ∧
      descA.srcKind = 0 ∧ descA.indexed = false ∧ descA.bytes = 32 ∧ s.badAt (sramKey 0 0 0x40) 32 = false ∧
      at_ s (s.copySpot (s.tmpl 1) (s.templateRes 0 1) (descA.srcAddr 0 0) descA.bytes false) (sramKey 0 0 0x40) = true) := by decide +kernel
/-- A copy to a private address, and a read answer for a copy to a full queue. -/
def descB : Desc := desc 2 0xF800000000000040 0xF800000000000080 0
/-- Three elements of 16 bytes, one behind the other at the destination. -/
def descC : Desc := desc 3 0xF800000000000040 0xF800000000000080 0 ^^^ (1#512 <<< 489) ^^^ (16#512 <<< 320)
theorem witness_CopyDelivery :
    (let s := copying descB (some { age := 0, issue := 1, reads := [⟨0, none, 0xF800000000000040, some (.data 5)⟩] })
     s.arrived 0 (s.isCopyRead 0) = none ∧ descB.dstKind = 0 ∧ 1 < descB.total ∧ descB.bytes = 32 ∧
      at_ s (s.copySpot (s.tmpl 1) (s.templateRes 0 1) (descB.dstAddr 0) descB.bytes true) (sramKey 0 0 0x80) = true) ∧
    (let s := copying descC (some { age := 0, issue := 2, reads := [⟨0, none, 0xF800000000000040, some (.data 5)⟩,
        ⟨1, none, 0xF800000000000060, some (.data 6)⟩] })
     s.arrived 0 (s.isCopyRead 0) = none ∧ descC.dstKind = 0 ∧ 2 < descC.total ∧ descC.bytes = 16 ∧ (descC.dstAddr 0).toNat % 32 = 0 ∧
      descC.dstAddr 1 = descC.dstAddr 0 + 16 ∧ winOf 0xF800000000000040 ≠ some .global ∧
      at_ s (s.copySpot (s.tmpl 1) (s.templateRes 0 1) (descC.dstAddr 0) 16 true) (sramKey 0 0 0x80) = true) ∧
    (let s := withB 6 (fun b => { b with queue := List.replicate 512 ⟨0, 0⟩ })
        (withIn 0 { kind := 3, tid := 4 } [7] (withT (fun x => { x with
          txns := [{ tid := 4, resid := 1, key := 0, owner := .copy 1 0, write := false, target := .fabric, addr := 0, pa := 0 }] })
          (copying descA (some { age := 0, issue := 1, reads := [⟨0, some 4, 0xFB00100000000040, none⟩] }))))
     (s.arrived 0 (s.isCopyRead 0)).map (fun p => p.h.kind) = some 3 ∧ s.copyTxn 0 4 = some (1, 0) ∧ descA.dstKind = 1 ∧ descA.bytes = 32 ∧
      descA.total = 1 ∧ (s.bank 0 ((descA.dword 1).toNat % 8)).pushTo = .blocked ∧ s.queueFault 0 1 ((descA.dword 1).toNat % 8) = none) ∧
    (let c : Copy := { age := 0, closed := true }
     let s := copying descA (some c)
     (s.tmpl 1).active = some c ∧ c.words = [] ∧ c.writes = [] ∧ c.digest = [] ∧ descA.barrier = some 3 ∧ c.fail = none ∧ c.skipped = none) ∧
    (let c : Copy := { age := 0, closed := true, fail := some ⟨0x42, 0, 0⟩ }
     ((copying descA (some c)).tmpl 1).active = some c) := by decide +kernel
/-- A FLIP stands at the stream port of bank 0. -/
def flipped (c : Option Copy) (sh : Shadow) : State :=
  withX (fun x => { x with shadow := sh }) (withT (fun x => { x with flips := [(0, ⟨2, 8⟩)] }) (copying descA c))
theorem witness_StreamPortFlip : (∀ s ∈ [flipped (some { age := 0 }) .ready, flipped none .empty, flipped none .ready, flipped none .loading],
      ((s.tile 0).flips.any fun e => e.1 == s.cur.b) = true) ∧
    (flipped (some { age := 0 }) .ready).firedDone 0 0 = false ∧ (flipped none .ready).firedDone 0 0 = true ∧
    ((flipped none .empty).xbar 0).shadow = .empty ∧ ((flipped none .ready).xbar 0).shadow = .ready ∧
    ((flipped none .loading).xbar 0).shadow = .loading := by decide +kernel

/-! ## Matrix -/

/-- The node of tile 0: bank 0 owns slot 1 with I8 weights, the pair 2 and 3, and slice 0; another bank owns slot 4. -/
def nodeA : Node where
  slots := [(1, { owner := some 0, fmt := .i8 }), (2, { owner := some 0, fmt := .lo }), (3, { owner := some 0, fmt := .hi }), (4, { owner := some 1 })]
  sliceOwner := [(0, 0), (7, 1)]
def matrix (f : Node → Node := id) (s : State := base) : State := withNode (fun _ => f nodeA) s
/-- A buffer that holds 32 requests. -/
def filled : State := matrix fun x => { x with wloads := List.replicate 32 { id := 0, slots := [], slot := 0, f := 0, base := 0, pitch := 0, bar := none, key := 0, resid := 1, waits := [] } }
/-- A request of one LOCAL row from private memory against slot 1. -/
def tokA : W256 := base.me.mmqToken 1 3 0 0 0 0 0 0x608000
def reqA : MReq := { base.newReq tokA with id := 5, slot := 1, rows := [1, 2], fetched := true }
def groupA : Group := { id := 5, slot := 1, gen := 0, af := 0, d := 1, cls := 0, members := [reqA], opened := 0, hold := 64, prio := 2, ready := true, overdue := false, isOpen := true }
def isAllS : Sectors → Bool
  | .all _ => true
  | _ => false
def isBadS : Sectors → Bool
  | .bad _ => true
  | _ => false
def isWaitS : Sectors → Bool
  | .wait => true
  | _ => false

theorem witness_WeightLoadIssue : base.ready [] [] = true ∧ (matrix).ownsSlot 0 1 4 = false ∧ (matrix).ownsSlot 0 1 1 = true ∧
    ((matrix).me.s 5).toNat % 32 ≠ 0 ∧ (matrix).wloadFault ((matrix).me.s 21) ((matrix).me.s 18) none 0 1 = none ∧
    ((matrix).node 0).hasEntry = true ∧ (filled.wloadFault (filled.me.s 21) (filled.me.s 18) none 0 1 = none ∧ (filled.node 0).hasEntry = false) := by
  decide +kernel
/-- A `wload` of slot 1 from an address. -/
def loading (a : W64) : WReq := { id := 0, slots := [1], slot := 1, f := 0, base := a, pitch := 64, bar := none, key := 0, resid := 1, waits := [] }
theorem witness_WeightLoadWrite : (∀ a ∈ [0xF900000000000000, 0xF8000000000003C0],
      let s := matrix fun x => { x with wloads := [loading (BitVec.ofNat 64 a)] }
      (s.node 0).wloads.find? (fun w => w.id == s.cur.n) = some (loading (BitVec.ofNat 64 a)) ∧
        (s.node 0).loadReady (loading (BitVec.ofNat 64 a)) s.cycle = true ∧ s.memOk = true ∧ (s.liveRes 1).isSome = true) ∧
    (let y (a : W64) := fetchOutcome (loading a).sectors.length ((matrix).nodeFetch 0 1 0 0 (loading a).sectors []).1
     isAllS (y 0xF900000000000000) = true ∧ isBadS (y 0xF8000000000003C0) = true ∧ isWaitS (y 0x10000) = true) ∧
    (matrix fun x => { x with wloads := [loading 0x10000] }).memOk = true := by decide +kernel
theorem witness_WeightExports : (matrix).ready [] [31] = true ∧ (matrix).ownsSlot 0 1 4 = false ∧
    ((matrix).ownsSlot 0 1 3 = true ∧ ((matrix).node 0).pendFmt 3 = .hi) ∧ ((matrix).ownsSlot 0 1 2 = true ∧ ((matrix).node 0).pendFmt 2 ≠ .hi ∧
      (((matrix).node 0).slot 2).issued.length < 2 ^ 32 - 1) ∧ (matrix).ready [] [] = true := by decide +kernel
theorem witness_MatrixRequests : (matrix).ready [] [] = true ∧
    (matrix).mCheck 0 1 false ((matrix).me.mmqToken 4 3 0 0 0 0 0 0x608000) = some 0x32 ∧
    ((matrix).mCheck 0 1 false ((matrix).me.mmqToken 1 5 0 0 0 0 0 0x608000) = none ∧
      MTok.src ((matrix).me.mmqToken 1 5 0 0 0 0 0 0x608000) = 0 ∧ (MTok.addr ((matrix).me.mmqToken 1 5 0 0 0 0 0 0x608000)).toNat % 32 ≠ 0) ∧
    ((matrix).mmqFault tokA none = none ∧ ((matrix).findRes 1) = some residA ∧ residA.replay = none ∧ residA.capture = none ∧
      ((matrix).node 0).hasEntry = true) ∧ (filled.mmqFault tokA none = none ∧ (filled.node 0).hasEntry = false) := by decide +kernel
theorem witness_RequestArrival :
    (let s := matrix fun x => { x with mTok := [(0, tokA)] }
     (s.node 0).mTok.find? (fun e => e.1 == s.cur.b) = some (0, tokA) ∧ MTok.barrier tokA = none ∧
      s.mCheck 0 1 false (MTok.withPrio tokA (min (MTok.prio tokA) s.me.prio.toNat)) = none ∧ MTok.isHandle tokA = false) ∧
    (∀ v ∈ [true, false],
      let s := withIn 0 { kind := 10, resid := 1, stile := 1 } [MTok.withPrio (BitVec.ofNat 256 (4 * 2 ^ 249 + 2 ^ 239 + 2 ^ 207 + (2 ^ 32 + 9) * 2 ^ 128)) 1, 1, 2]
        (matrix fun x => x.setSlot 1 { x.slot 1 with expValid := v, expKey := 9 })
      let k : W256 := ((s.arrived 0 isRemoteReq).map fun p => p.pay.headD 0).getD 0
      (s.node 0).hasEntry = true ∧ s.pastRequests 0 1 = false ∧ MTok.isHandle k = true ∧ k.extractLsb' 252 4 = 0 ∧ 3 = 1 + MTok.sectors k ∧
        s.mCheck 0 1 true k = if v then none else some 0x31) := by decide +kernel
theorem witness_GroupTimes :
    (let q : MReq := { reqA with rows := [], fetched := false }
     let s := { matrix (fun x => { x with groups := [{ groupA with members := [q] }] }) with cur := { n := 5 } }
     (s.node 0).waiting.find? (fun q => q.id == s.cur.n) = some q ∧ q.waits = [] ∧ q.err = none ∧ MTok.src q.tok = 0 ∧
      (MTok.addr q.tok).toNat % 32 = 0 ∧ (s.node 0).sending = [] ∧
      isAllS (fetchOutcome (MTok.sectors q.tok) (s.nodeFetch 0 1 q.key 5 ((List.range (MTok.sectors q.tok)).map fun i =>
        MTok.addr q.tok + BitVec.ofNat 64 (32 * i)) []).1) = true ∧
      (∀ g ∈ (s.node 0).groups, (g.members.any fun m => m.err.isNone) = true) ∧
      isWaitS (fetchOutcome 2 (s.nodeFetch 0 1 q.key 5 [0x10000, 0x10020] []).1) = true) ∧
    (∀ c ∈ [63, 64, 255, 256],
      let s := { matrix (fun x => { x with groups := [groupA] }) with cur := { n := 5 }, cycle := c }
      (s.node 0).groups.find? (fun g => g.id == s.cur.n) = some groupA ∧ (((s.node 0).slot 1).wc = false ∧ groupA.full = false)) ∧
    ({ matrix (fun x => { x with groups := [{ groupA with overdue := true }] }) with cur := { n := 5 } }.node 0).groups.any Group.overdue = true := by
  decide +kernel
theorem witness_GroupTimes_waits :
    (let q : MReq := { reqA with tok := BitVec.ofNat 256 (reqA.tok.toNat / 2 ^ 128 * 2 ^ 128 + 0x10000 * 2 ^ 64 + reqA.tok.toNat % 2 ^ 64), rows := [], fetched := false }
     let s := { matrix (fun x => { x with groups := [{ groupA with members := [q] }] }) with cur := { n := 5 } }
     (s.node 0).waiting.find? (fun q => q.id == s.cur.n) = some q ∧ MTok.src q.tok = 0 ∧ MTok.addr q.tok = 0x10000 ∧
      isWaitS (fetchOutcome (MTok.sectors q.tok) (s.nodeFetch 0 1 q.key 5 ((List.range (MTok.sectors q.tok)).map fun i =>
        MTok.addr q.tok + BitVec.ofNat 64 (32 * i)) []).1) = true) := by decide +kernel
theorem witness_GroupIssueRows :
    (let s := matrix fun x => { x with groups := [groupA] }
     (s.node 0).firstGroup = some groupA ∧ (∀ q ∈ groupA.members, q.err = none) ∧ fmtMatch ((s.node 0).slot 1).fmt 0 = true ∧
      (s.node 0).isPair 1 = false ∧ s.weightBad 0 [1] = false ∧ (s.node 0).freeLanes s.cycle = 0 :: [1, 2, 3]) := by decide +kernel
theorem witness_AccumulatorRows :
    (let x : LaneRow := ⟨reqA, 0, [{}]⟩
     let s := { matrix (fun n => { n with lanes := [(2, { slots := [1], d := 1, rows := [x] })] }) with cur := { n := 2 }, cycle := 16 }
     (s.node 0).chains = [] ∧ (s.node 0).poisons = [] ∧ ((s.node 0).lane 2).rows = x :: [] ∧ 0 + 16 + (0 + 1) * 1 - 1 ≤ s.cycle ∧ MTok.mode x.req.tok = 0 ∧
      s.accRoom 0 true 1 = true) ∧
    ((matrix fun n => { n with accQ := [.row 0 15 true [{ v := 3 }] false none] }).node 0).accQ = .row 0 15 true [{ v := 3 }] false none :: [] ∧
    ((matrix fun n => { n with accQ := [.clear 7 0 16] }).node 0).accQ = .clear 7 0 16 :: [] ∧
    (let s := withMe (fun c => { c with wait := .accrd 26 }) (matrix fun n => { n with accQ := [.read 0 0 15 7 0 26] })
     (s.node 0).accQ = .read 0 0 15 7 0 26 :: [] ∧ (s.ctx 0).wait = .accrd 26 ∧ (s.node 0).poison.get false 15 = false ∧ (s.node 0).accBad = []) := by decide +kernel
theorem witness_AccumulatorOps : (matrix).ownsSlice 0 1 7 = false ∧ (matrix).ready [] [31] = true ∧ (matrix).ready [] [] = true ∧
    (matrix).ownsSlice 0 1 0 = true ∧ (matrix).accRoom 0 false 1 = true ∧
    (matrix fun n => { n with accQ := List.replicate 48 (.clear 0 0 1) }).accRoom 0 false 1 = false := by decide +kernel
theorem witness_PsumPackets :
    (let h : W256 := BitVec.ofNat 256 (2 ^ 252 + 15 * 2 ^ 228)
     let s := withIn 0 { kind := 11, resid := 1 } (h :: List.replicate 20 0) (matrix)
     (s.arrived 0 isPsum).map (fun p => (psumOk p, p.pay.headD 0)) = some (true, h) ∧ h.extractLsb' 235 4 = 0 ∧
      s.ownsSlice 0 1 (h.extractLsb' 232 3).toNat = true ∧ s.accRoom 0 true 1 = true ∧ s.accRoom 0 false 1 = true) ∧
    (((withIn 0 { kind := 11, resid := 1 } [0] (matrix)).arrived 0 isPsum).map psumOk = some false) ∧
    (let s := withIn 0 { kind := 4, op := opMatrixDone, resid := 1 } [BitVec.ofNat 256 (2 ^ 223 + 7 * 2 ^ 208)] (matrix)
     (s.arrived 0 isMatrixDone).map (fun p => MTok.barrier (p.pay.headD 0)) = some (some 7) ∧ (s.liveRes 1).isSome = true ∧
      s.barPlace 0 1 7 = some (0, 7) ∧ (s.inbox.any fun x => isPsum x.p) = false) := by decide +kernel

/-! ## Switches, lanes, banks, packets of `stq` -/

/-- The switch of bank 0 is at an instruction: routes, operation and operand. North takes core 0's word; words of tags 0 and 8 at the cores. -/
def switching (route op o : Nat) (w : NetWord := ⟨9, 0⟩) (sh : Shadow := .ready) : State :=
  { (withX fun x => { x with fromCore := [(0, [w, ⟨5, 0⟩])], halted := false, shadow := sh }) with
    word := BitVec.ofNat 256 (route + op * 2 ^ 11 + o) }
/-- Core 1 receives core 0's word. -/
def toCore1 : Nat := 5 * 2 ^ 40

theorem witness_SwitchInstructions : (switching toCore1 3 (1024 + 511)).swReady = true ∧ (switching toCore1 3 (1024 + 511)).word.getLsbD 10 = true ∧
    (switching toCore1 2 1023).word.getLsbD 10 = false ∧
    (let s := switching 0 5 (5 * 128)
     s.swReady = true ∧ (s.swHead 5).isSome = true ∧ (s.word.extractLsb' 7 4).toNat = 5) ∧
    (let s := switching 0 6 (5 * 128) ⟨1, 8⟩
     s.swReady = true ∧ s.swHead 5 = some ⟨1, 8⟩ ∧ (⟨1, 8⟩ : NetWord).data.getLsbD 0 = true ∧ (s.xbar s.cur.tb).shadow = .ready) ∧
    (switching 0 6 (5 * 128)).swHead 5 = some ⟨9, 0⟩ ∧
    (let s := switching (6 * 2 ^ 40) 0 0
     s.swReady = false ∧ s.routeCode 8 = 0 ∧ s.routeCode 9 = 0) := by decide +kernel
theorem witness_SwitchMoves :
    (let s := switching (toCore1 + 5 * 2 ^ 20) 0 0
     s.swReady = true ∧ s.routeCode 8 = 0 ∧ s.routeCode 9 = 0 ∧ s.routeCode 5 = 5 ∧ s.routeCode 10 = 5 ∧
      ∀ i, i < 12 → s.routeCode i ≠ 9 ∧ s.routeCode i ≠ 10) := by decide +kernel
theorem witness_LaneEvents :
    (let s := { withX (fun x => { x with flight := [⟨3, 5, ⟨1, 11⟩, 4, 1, false⟩, ⟨2, 5, ⟨1, 12⟩, 4, 1, false⟩] }) with cycle := 5, cur := { n := 2 } }
     ((s.xbar 0).flight.find? fun y => y.dir == s.cur.n && decide (y.at_ ≤ s.cycle)) = some ⟨2, 5, ⟨1, 12⟩, 4, 1, false⟩ ∧ s.bankResid 0 0 = some 1) ∧
    (let s := { base with ctxs := [], xbars := [(0, { flight := [⟨0, 0, ⟨1, 0⟩, 4, 1, false⟩] })] }
     ((s.xbar 0).flight.find? fun y => y.dir == s.cur.n && decide (y.at_ ≤ s.cycle)) = some ⟨0, 0, ⟨1, 0⟩, 4, 1, false⟩ ∧ s.bankResid 0 0 = none) ∧
    ((withX fun x => { x with creditBack := [(1, 9), (3, 0)] }).xbar 0).creditBack.find? (fun y => decide (y.2 ≤ 0)) = some (3, 0) := by decide +kernel
/-- Queue 6 with a ring of two blocks at an address. -/
def ringed (a : W64) (f : Bank → Bank) : State := { (withB 6 fun b => f { b with spillBase := a, spillSize := 2112, spillEn := true }) with cur := { n := 6 } }
def isBegun : Begun → Bool
  | .begun _ _ => true
  | _ => false
def isMiss : Begun → Bool
  | .miss _ _ => true
  | _ => false
/-- The answered, and the refused, pieces of a refill. -/
def pieceA (bad : Nat) : Piece := ⟨9, 0x10000, 0, 32, some 0, bad⟩
theorem witness_BankEvents :
    (let s := ringed 0x40000000 fun b => { b with staging := [⟨1, 0⟩] }
     (s.bank 0 6).mode = .fifo ∧ (s.bank 0 6).staging = ⟨1, 0⟩ :: [] ∧ (s.bank 0 6).ringCount = 0 ∧ (s.bank 0 6).spillFaulted = false) ∧
    (let s := ringed 0x10000 fun b => { b with staging := List.replicate 32 ⟨1, 0⟩, queue := List.replicate 512 ⟨1, 0⟩ }
     let b := s.bank 0 6
     b.staging.length = 32 ∧ b.ringCount < b.ringSize ∧ 480 < b.queue.length + b.reserved ∧
      isBegun (s.move 0 (s.bankOwner 0 6) .engine (b.block (b.ringHead + b.ringCount)) 1056 (some (blockOf b.staging))) = true) ∧
    (let s := ringed 0xF900000000000000 fun b => { b with staging := List.replicate 32 ⟨1, 0⟩ }
     let b := s.bank 0 6
     isMiss (s.move 0 (s.bankOwner 0 6) .engine (b.block (b.ringHead + b.ringCount)) 1056 (some (blockOf b.staging))) = true) ∧
    (let s := ringed 0x10000 fun b => { b with ringCount := 1, queue := List.replicate 480 ⟨1, 0⟩ }
     let b := s.bank 0 6
     b.staging.length < 32 ∧ 0 < b.ringCount ∧ b.queue.length + b.reserved + 32 ≤ 512 ∧ b.fetch = [] ∧ b.refillBad = false ∧
      isBegun (s.move 0 (s.bankOwner 0 6) (.bank 6) (b.block b.ringHead) 1056 none) = true) ∧
    (let s := ringed 0xF900000000000000 fun b => { b with ringCount := 1, queue := List.replicate 480 ⟨1, 0⟩ }
     isMiss (s.move 0 (s.bankOwner 0 6) (.bank 6) ((s.bank 0 6).block (s.bank 0 6).ringHead) 1056 none) = true) ∧
    (∀ l ∈ [[pieceA 0], [pieceA 1], [{ pieceA 0 with val := none }]],
      let b := (ringed 0x10000 fun b => { b with ringCount := 1, fetch := l }).bank 0 6
      b.fetch = l ∧ b.staging.length < 32 ∧ 0 < b.ringCount ∧ b.queue.length + b.reserved + 32 ≤ 512) ∧
    (allAnswered [pieceA 0] = true ∧ anyFailed [pieceA 0] = false ∧ allAnswered [pieceA 1] = true ∧ anyFailed [pieceA 1] = true ∧
      allAnswered [{ pieceA 0 with val := none }] = false) ∧
    (∀ m ∈ [BankMode.scratch, .cache, .fifo],
      let s := { withMe (fun c => { c with wait := .bank 6, heldLen := 4 }) (withB 6 fun b => { b with pending := [⟨m, 0, false, 0⟩] }) with cur := { n := 6 } }
      s.memOk = true ∧ (s.bank 0 6).pending = ⟨m, 0, false, 0⟩ :: [] ∧ (s.ctx 0).wait = .bank 6) := by decide +kernel
/-- An `stq` packet of residency `r` waits at a node, for an address, with queue 6 or without. -/
def stqAt (node r : Nat) (a : W64) (q : Bool) (s : State := base) : State :=
  withIn node { kind := 1, resid := r, addr := a, info := BitVec.ofNat 64 (2 ^ 63 + if q then 2 ^ 35 + 6 * 2 ^ 32 else 0) } [1] s
theorem witness_StqDelivery :
    (∀ r ∈ [1, 2], let s := { stqAt 4097 r 0x40000000 false with cur := { n := 1 } }
      s.cur.n = 1 ∧ (s.arrived 4097 Packet.isStq).isSome = true ∧ (s.liveRes r).isSome = decide (r = 1)) ∧
    (let s := stqAt 0 2 0x40000000 true
     s.cur.n ≠ 1 ∧ (s.arrived 0 Packet.isStq).map (fun p => s.stqCheck 0 p (some 6)) = some (some 2) ∧
      (s.arrived 0 Packet.isStq).map (fun p => p.h.info.getLsbD 35) = some true ∧ (s.bank 0 6).pending = [] ∧
      ((changingB 6 s).bank 0 6).pending ≠ []) ∧
    (∀ a ∈ [0x10000, 0x8000],
      let s := withT (fun x => { x with walkFails := [(base.walkFor 0 1 0 0x8000 true .engine, 0)] }) (stqAt 0 1 (BitVec.ofNat 64 a) false)
      let y (p : Packet) : Begun := s.move 0 p.h.resid .engine p.h.addr (32 * p.pay.length) (some p.bytes) p.h.bad
      (s.arrived 0 Packet.isStq).map (fun p => s.stqCheck 0 p none) = some none ∧
        (s.arrived 0 Packet.isStq).map (fun p => isBegun (y p)) = some (a == 0x10000) ∧
        (s.arrived 0 Packet.isStq).map (fun p => isMiss (y p)) = some (a != 0x10000)) ∧
    (let s := { stqAt 0 1 0x40000000 false with walks := (List.range 256).map fun i => ⟨0, 0, 1, 7, 0x100000, BitVec.ofNat 64 (0x100000 + i * 0x10000), false, .access, none⟩ }
     (s.arrived 0 Packet.isStq).map (fun p => match s.move 0 p.h.resid .engine p.h.addr 32 (some p.bytes) with
       | .wait _ => true
       | _ => false) = some true) ∧
    (let j : StqJob := ⟨⟨{ kind := 1, resid := 1 }, [1]⟩, some 6, []⟩
     let s := withB 6 (fun b => { b with reserved := 1 }) (withT fun x => { x with stqJobs := [j] })
     (s.tile 0).stqJobs = j :: [] ∧ s.queueFault 0 1 6 = none ∧ 0 < (s.bank 0 6).reserved) ∧
    (∀ k ∈ [4, 5],
      let s := withIn 0 { kind := k, tid := 9 } [] (withMe (fun c => { c with wait := .stq 9, heldLen := 8 })
        (withT fun x => { x with txns := [{ tid := 9, resid := 1, key := 0, owner := .ctx 0, write := true, target := .device, addr := 0, pa := 0, stq := true }] }))
      (s.arrived 0 (s.isStqAnswer 0)).map (fun p => p.h.kind) = some k ∧ (s.txn 0 9).isSome = true ∧ (s.ctx 0).wait = .stq 9 ∧
        (s.ctx 0).resid = some 1 ∧ (s.ctx 0).handler = false ∧ (s.ctx 0).trapvec ≠ 0) := by decide +kernel

/-! ## Frames -/

/-- Load 0 of residency 1 is at a frame: cores named, and the fields below the mask. -/
def jobA : LoadJob where
  id := 0
  resid := 1
  shadow := false
  cand := residA.cand
  image := 0x200000
  next := 1
  total := 9
def framed (cores body : Nat) (f : LoadJob → LoadJob := id) (s : State := base) : State :=
  { s with sched := { s.sched with loads := [f jobA] }, word := BitVec.ofNat 256 (cores * 2 ^ 240 + body) }
def spotA : Spot := ⟨0, 0, 0, 0⟩
/-- What `frameAt` says, as a test. -/
def frameNow (s : State) (j : LoadJob) : Bool :=
  s.sched.loads.find? (fun j => j.id == s.cur.n) == some j && s.findRes j.resid == some residA && !j.shadow && !s.word.getLsbD 247 &&
  decide (j.next ≠ 0) && !j.started && s.frameCores.all (fun q => decide (q < j.cores)) && s.frameSpots residA == some [spotA]
theorem frameAt_of (s : State) (j : LoadJob) (h : frameNow s j = true) : Claims.frameAt s j residA spotA := by
  simp only [frameNow, Bool.and_eq_true, beq_iff_eq, decide_eq_true_eq, Bool.not_eq_true', List.all_eq_true] at h
  obtain ⟨⟨⟨⟨⟨⟨⟨h1, h2⟩, h3⟩, h4⟩, h5⟩, h6⟩, h7⟩, h8⟩ := h
  exact ⟨h1, h2, h3, h4, h5, h6, h7, h8⟩
/-- The fields of a HEADER of nine frames, of four partitions of 64 bytes. -/
def headerBody : Nat := 2 ^ 208 + 2 ^ 200 + 2 ^ 194 + 9 * 2 ^ 160 + 16 * (2 ^ 146 + 2 ^ 132 + 2 ^ 118 + 2 ^ 104)
theorem witness_ProgramFrames :
    (let s := framed 0 headerBody fun j => { j with next := 0 }
     let sizes := (List.range 4).map fun q => 4 * Claims.fields s (146 - 14 * q) 14
     s.word.getLsbD 247 = false ∧ Claims.fields s 208 8 = 1 ∧ Claims.fields s 160 32 = 9 ∧ 0x200000 + 32 * 9 ≤ 2 ^ 40 ∧
      Claims.fields s 200 6 = (((0x410C0000000 : W64).extractLsb' 42 6)).toNat ∧ Claims.fields s 194 6 = ((0x410C0000000 : W64).extractLsb' 36 6).toNat ∧
      Claims.fields s 192 2 = 0 ∧ 0 ≤ Claims.fields s 206 2 ∧ sizes = [64, 64, 64, 64] ∧ (sizes.map round64).sum ≤ 2 ^ 14 - 64 ∧
      (0, 0) ∈ s.places residA ∧ (s.ctx 0).resid ≠ none ∧ ∀ p' ∈ s.places residA, p'.2 < 4) ∧
    (framed 1 (2 ^ 247)).word.getLsbD 247 ≠ jobA.shadow ∧
    (let s := framed 1 (6 * 2 ^ 199 + 10 * 2 ^ 202 + 7)
     frameNow s jobA = true ∧ s.frameCores = [0] ∧ Claims.fields s 0 192 < 2 ^ (32 * Claims.fields s 199 3) ∧ Claims.fields s 193 6 = 0 ∧
      4 * (Claims.fields s 202 14 + 6) ≤ (s.ctx (spotA.ctx 0)).code.size ∧ s.memOk = true) ∧
    (let s := framed 0 (2 ^ 205 + 511 * 2 ^ 207 + 0x0050000000001003)
     let ws := [s.word.extractLsb' 0 64]
     frameNow s jobA = true ∧ Claims.fields s 0 192 < 2 ^ (64 * 1) ∧ Claims.fields s 207 9 + 1 ≤ 512 ∧
      (∀ i, i < ws.length → (decodeSwitch (ws.getD i 0)).isSome = true ∧
        ∀ z ∈ routesOf (ws.getD i 0), lacksCore jobA.cores z = false ∧ residA.routeClosed 0 0 z = false) ∧
      jobA.links.contains spotA.tb = false) ∧
    (let s := framed 0 (4 * 2 ^ 204 + 12 * 2 ^ 196 + 15 * 2 ^ 180)
     frameNow s jobA = true ∧ (List.range 8).all (s.linkFits residA jobA.cores 0 0) = true ∧ Claims.fields s 180 4 < 2 ^ jobA.cores ∧
      jobA.routes = []) := by decide +kernel
theorem witness_ClaimFrames :
    (let s := framed 0 (3 * 2 ^ 212 + 2 * 2 ^ 210 + 2 ^ 207 + 0x40000000 * 2 ^ 144 + 1056 * 2 ^ 112) id { base with tiles := [] }
     frameNow s jobA = true ∧ Claims.fields s 210 2 = 2 ∧ Claims.fields s 208 2 = 0 ∧ Claims.fields s 144 56 % 32 = 0 ∧
      Claims.fields s 112 32 % 1056 = 0 ∧ (s.bank 0 3).owner = none ∧ s.banksHeld 1 0 = []) ∧
    (let s := framed 0 (0x3FFF * 2 ^ 198 + 255)
     frameNow s jobA = true ∧ s.memOk = true ∧ Claims.fields s 193 5 = 0 ∧ Claims.fields s 0 192 < 256 ∧ s.inScratch 1 0 0x3FFF = true) ∧
    (let s := framed 0 (15 * 2 ^ 212 + 5)
     frameNow s jobA = true ∧ Claims.fields s 210 2 = 0 ∧ jobA.parts = [] ∧ ((s.tile 0).template 15).owner = none) ∧
    (let s := framed 0 (2 ^ 215 + 7 * 2 ^ 212)
     frameNow s jobA = true ∧ s.word.getLsbD 215 = true ∧ (s.node 0).sliceOwner = []) ∧
    (let s := framed 0 (7 * 2 ^ 212 + 2 ^ 210)
     frameNow s jobA = true ∧ s.word.getLsbD 215 = false ∧ s.word.getLsbD 211 = false ∧ ((s.node 0).slot 7).owner = none) ∧
    (let s := framed 1 (15 * 2 ^ 201 + 8 * 2 ^ 187 + 127 * 2 ^ 180)
     frameNow s jobA = true ∧ s.frameCores = [0] ∧ s.word.getLsbD 215 = false ∧ Claims.fields s 173 7 = 0 ∧ jobA.starts = [] ∧
      4 * Claims.fields s 201 14 < (s.ctx 0).code.size ∧ 4 * Claims.fields s 187 14 ≠ 0 ∧ 4 * Claims.fields s 187 14 < (s.ctx 0).code.size ∧ 0 < s.coresOn 0) ∧
    (let s := framed 0 0 fun j => { j with next := 9 }
     (s.sched.loads.find? fun j => j.id == s.cur.n) = some { jobA with next := 9 } ∧ s.findRes 1 = some residA ∧
      (match s.lastChecks residA { jobA with next := 9 } with | .ok _ => true | .error _ => false) = true ∧
      (match s.lastChecks residA { jobA with next := 9, routes := [(0, 0, 1)] } with | .ok _ => false | .error _ => true) = true) := by decide +kernel

/-! ## The fabric, memory, host, scheduler, management and the turns -/

/-- A request of residency 1 from core 0 of tile 0, for a tile, for memory port 0, and what comes back for transaction 9. -/
def ask (kind : Nat) (addr : W64) : Hdr := { kind := kind, addr := addr, resid := 1, stile := 5, tid := 9, op := 0x80000001 }
def memAsk (kind : Nat) (addr : W64) : State := withIn 2048 (ask kind addr) [0xABCD]
def txnA (write : Bool) : Txn := ⟨9, 1, 0, .ctx 0, write, .device, 0x10018, 0x30018, false, false, 1⟩
def awaiting (s : State := base) : State :=
  withT (fun x => { x with txns := [txnA false] }) (withMe (fun c => { c with wait := .mem (.load 26) [⟨9, 0x10018, 0, 8, none, 0⟩] }) s)
def posted (s : State := base) : State := withT (fun x => { x with txns := [txnA true] }) s
def answer (kind : Nat) (info : W64) (s : State) : State := withIn 0 { kind := kind, tid := 9, info := info, resid := 1 } [0x77] s

theorem witness_SectorRequests :
    (let s := withIn 0 (ask 0 0x40) [] (withB 1 fun b => { b with owner := some 3 })
     let u := withIn 0 (ask 1 0x4000) [1] (withB 1 fun b => { b with owner := some 3 })
     (s.arrived 0 isFabricRequest).isSome = true ∧ scratchHome (s.tile 0) 0x40 = (0, 0x40) ∧ (s.bank 0 0).pending = [] ∧ (s.bank 0 0).mode = .scratch ∧
      s.ownsBank 1 0 0 = true ∧ s.badAt (sramKey 0 0 0x40) 32 = false ∧ (u.arrived 0 isFabricRequest).isSome = true ∧
      (scratchHome (u.tile 0) 0x4000).1 = 1 ∧ u.ownsBank 1 0 1 = false ∧ (u.bank 0 1).pending = [] ∧ (u.bank 0 4).mode ≠ .scratch) ∧
    (let s := memAsk 0 0x30018
     let u := memAsk 1 0xFFFFFFFFE0
     s.admits s.cur.n = some ⟨ask 0 0x30018, [0xABCD]⟩ ∧ (s.port 0).last ≠ some s.cycle ∧ (ask 0 0x30018).host = false ∧
      ({ s with ports := [(0, { s.port 0 with last := some 0 })] }.port 0).last = some s.cycle ∧ s.dramCoord 0x30018 = some 0x1800 ∧ s.inDescriptor 0x30018 = false ∧
      (s.openRows.get {} (bankOf 0x1800)).row = none ∧ (s.arrive 0x30018).1 = true ∧ (s.openRows.get {} (bankOf 0x1800)).blocked ≤ s.cycle ∧
      s.badSectors = [] ∧ s.symbolErrors = [] ∧ u.admits u.cur.n = some ⟨ask 1 0xFFFFFFFFE0, [0xABCD]⟩ ∧
      (u.dramCoord 0xFFFFFFFFE0).isSome = true ∧
      ({ u with regions := [] } : State).admits 0 = some ⟨ask 1 0xFFFFFFFFE0, [0xABCD]⟩ ∧ ({ u with regions := [] } : State).dramCoord 0xFFFFFFFFE0 = none) := by
  decide +kernel
theorem witness_SectorRequests_writes :
    (let s := withIn 0 (ask 1 0x40) [1]
     (s.arrived 0 isFabricRequest).isSome = true ∧ (s.bank 0 0).mode = .scratch ∧ s.ownsBank 1 0 0 = true ∧ s.badAt (sramKey 0 0 0x40) 32 = false) ∧
    (∀ k ∈ [0, 1], let s := { memAsk k 0x30018 with regions := [] }
     (s.admits s.cur.n).map (fun p => p.h.kind) = some k ∧ s.dramCoord 0x30018 = none) ∧
    (memAsk 1 0x30018).admits 0 = some ⟨ask 1 0x30018, [0xABCD]⟩ ∧ (memAsk 1 0x30018).dramCoord 0x30018 = some 0x1800 := by decide +kernel
theorem witness_RequestAnswers :
    (let s := answer 3 0 awaiting
     (s.arrived 0 (s.isLoadAnswer 0)).isSome = true ∧ s.txn 0 9 = some (txnA false) ∧ (s.ctx 0).resid = some 1 ∧
      (s.ctx 0).wait = .mem (.load 26) [⟨9, 0x10018, 0, 8, none, 0⟩]) ∧
    (let s := answer 4 0 (withMe (fun c => { c with wait := .acks [9] .retire }) posted)
     (s.arrived 0 (s.isWriteAck 0)).isSome = true ∧ (s.ctx 0).wait = .acks [9] .retire) ∧
    (let s := answer 5 0x1B posted
     (s.arrived 0 (s.isNack 0)).isSome = true ∧ s.txn 0 9 = some (txnA true) ∧ (s.ctx 0).wait = .none ∧ (s.ctx 0).run = .live ∧ (s.ctx 0).async = []) ∧
    (let s := answer 5 0x1B awaiting
     (s.arrived 0 (s.isNack 0)).isSome = true ∧ s.txn 0 9 = some (txnA false) ∧ (s.ctx 0).handler = false ∧ (s.ctx 0).trapvec ≠ 0) := by
  decide +kernel
/-- A walk of the first tile for a write of a context. -/
def walkA (k : Nat) (va : W64) : Walk := ⟨0, 0, k, 7, 0x100000, va, true, .access, none⟩
def isEnded : Walked → Bool
  | .ended _ => true
  | _ => false
theorem witness_Routing :
    (let f : Flight := ⟨50, ⟨{ dst := 1919 }, []⟩⟩
     let g : Flight := ⟨0, ⟨{ dst := 0 }, []⟩⟩
     f.p.malformed = false ∧ nodeTile f.p.h.node ≠ f.at_ ∧ f.p.h.ddev = base.host.devnum.toNat ∧ g.p.malformed = false ∧ nodeTile g.p.h.node = g.at_ ∧
      g.p.h.node ≠ 4096 ∧ base.present g.p.h.node = true ∧ ({ f.p with h := { f.p.h with kind := 14 } } : Packet).malformed = true) ∧
    (let s := { base with host := { base.host with route := [(3, 1)] } }
     (s.peerLink 50 3).isSome = true ∧ 3 ≠ s.host.devnum.toNat) ∧
    (let h (d t : Nat) : Hdr := Hdr.ofBits (BitVec.ofNat 256 (d * 2 ^ 240 + t * 2 ^ 182))
     (⟨h 0 1, []⟩ : Packet).malformed = false ∧ (h 0 1).kind = 0 ∧ (h 5 1).ddev ≠ base.host.devnum.toNat ∧ (h 0 1).ddev = base.host.devnum.toNat ∧
      (⟨h 0 1, []⟩ : Packet).isStq = false ∧ (base.liveRes 1).isSome = true ∧ base.liveRes 2 = none) ∧
    (let w : Walk := walkA 0 0x40000018
     let s := { withMe (fun c => { c with wait := .walk 0x40000018 true }) with walks := [w], tlbs := [] }
     w.die = s.cur.n ∧ w.use_ = .access ∧ (s.ctx w.key).wait = .walk w.va w.wr ∧ (s.walk w.root w.va.toNat w.wr).isSome = true ∧
      s.walk w.root 0x80000000 w.wr = none ∧ isEnded (s.walkOn w.va.toNat 5 0 w.root).1 = true ∧ s.tlbs = [] ∧ s.walks = [w] ∧
      isEnded (({ s with openRows := [(bankOf (0x100000 / 32), { blocked := 9 })] } : State).walkOn w.va.toNat 5 0 w.root).1 = false) ∧
    (let s := { base with
       ctxs := (base.ctxs.set 0 { base.ctx 0 with wait := .walk 0x40000018 true }).set 1 { base.ctx 1 with wait := .walk 0x40000020 true }
       walks := [walkA 0 0x40000018, walkA 1 0x40000020] }
     (walkA 1 0x40000020).same (walkA 0 0x40000018) = true ∧ (s.ctx 0).wait = .walk 0x40000018 true ∧ (s.ctx 1).wait = .walk 0x40000020 true) ∧
    (let l := (List.range 9).map fun i => { walkA 0 (BitVec.ofNat 64 (0x40000000 + i * 0x10000)) with use_ := .engine }
     (∀ w ∈ l, w.die = 0 ∧ w.use_ = .engine) ∧ (∀ w ∈ l, ∀ v ∈ l, v.same w = true → v = w) ∧ l.Nodup) := by decide +kernel
theorem witness_Routing_mesh :
    (let f : Flight := ⟨50, ⟨{ dst := 1919, kind := 14 }, []⟩⟩
     ({ base with net := [f] } : State).net = f :: [] ∧ f.p.malformed = true) ∧
    (let f : Flight := ⟨0, ⟨{ dst := 0, kind := 3, vc := 1, bad := true, len := 1 }, [5]⟩⟩
     ({ base with net := [f] } : State).net = f :: [] ∧ f.p.malformed = false ∧ f.p.h.bad = true ∧ f.p.h.kind = 3 ∧ nodeTile f.p.h.node = f.at_ ∧
      base.present f.p.h.node = true) ∧
    (let s := { base with host := { base.host with route := [(3, 1)] } }
     let f : Flight := ⟨linkTile ((s.peerLink 50 3).getD 0), ⟨{ stile := 50, ddev := 3, dst := 4 }, []⟩⟩
     f.p.malformed = false ∧ f.p.h.via = 0 ∧ f.p.h.ddev ≠ s.host.devnum.toNat ∧ s.peerLink 50 3 = some ((s.peerLink 50 3).getD 0)) := by
  decide +kernel
/-- Row 7 of bank 0 is open since cycle 0, with a count of activations, and the time is 64. -/
def opened (count : Nat) (cycle : Nat := 64) : State := { base with cycle := cycle, openRows := [(0, { row := some 7 })], rows := [(7, count)] }
theorem witness_MemoryCare :
    (let s := { base with cur := { base.cur with n := 0x1800 } }
     s.conf.channels.contains (channelOf s.cur.n) = false ∧ ({ s.conf with channels := [0] } : Conf).channels.contains 0 = true ∧ s.badSectors = [] ∧ s.symbolErrors = [] ∧
      ({ s with badSectors := [0x1800] } : State).sectorBad 0x1800 = true ∧ ({ s with symbolErrors := [(0x1800, 5)] } : State).sectorBad 0x1800 = true ∧
      ({ s with symbolErrors := [(0x1800, 4)] } : State).sectorSoft 0x1800 = true ∧ s.sectorBad 0x1800 = false ∧ s.sectorSoft 0x1800 = false) ∧
    ((opened 0).openRows.get {} 0).row = some 7 ∧ (opened 0).rowBad = [] ∧ (opened 0 63).cycle < 0 + 64 ∧ (opened 0).cycle = 64 ∧
    ((opened 0).port 0).mgmt = 4096 ∧ (opened 4095).rows.get 0 (0 * 2 ^ 15 + 7) + 1 = ((opened 0).port 0).mgmt ∧
    (opened 8191).rows.get 0 7 + 1 = ((opened 0).port 0).mit ∧ (opened 0xFFFF).rows.get 0 7 = 0xFFFF ∧
    (base.channel 0).thT = 6 ∧ (base.channel 0).thV = 10 ∧ (base.channel 0).auto = false ∧
    (let s := { base with channels := [(0, { auto := true, training := some 0, spares := 1 }), (1, { training := some 9, spares := 2 })] }
     (s.channel 0).auto = true ∧ (s.channel 0).training = some 0 ∧ 0 ≤ s.cycle ∧ (s.channel 0).spares < 2 ∧ 2 ≤ (s.channel 1).spares ∧
      (s.channel 1).training = some 9 ∧ s.cycle < 9 ∧ (base.channel 0).training = none) := by decide +kernel
theorem witness_MemoryCare_channels :
    (let s := { base with conf := { base.conf with channels := [0] } }
     s.conf.channels.contains (channelOf s.cur.n) = true) ∧
    (let s := { base with channels := [(0, { training := some 0, spares := 2, margins := [(3, (5, 9))] })] }
     (s.channel s.cur.n).training = some 0 ∧ 0 ≤ s.cycle ∧ 2 ≤ (s.channel s.cur.n).spares) ∧
    (let s := { opened 8191 with channels := [(0, { training := some 5 })] }
     (s.channel (s.cur.n / 32)).training = some 5 ∧ (s.port 0).mit ≤ s.rows.get 0 7 + 1) ∧
    (let s := { base with channels := [(0, { auto := true })], openRows := [(3, { blocked := 77 })] }
     (s.channel s.cur.n).auto = true ∧ (s.channel s.cur.n).training = none ∧ 3 / 32 = s.cur.n) := by decide +kernel
theorem witness_HostMemory : base.booted = true ∧ base.memOk = true ∧ base.dramCoord 0xFFFFFFFFE0 = some 0x7FFFFFFFF ∧
    base.inDescriptor 0xFFFFFFFFE0 = false ∧ base.inDescriptor 0x3FE0 = true ∧ base.badSectors = [] ∧
    (base.portWaiting (base.portFor 0xFFFFFFFFE0) = [] ∧ (base.port (base.portFor 0xFFFFFFFFE0)).last ≠ some base.cycle ∧
      (base.arrive 0xFFFFFFFFE0).1 = true ∧ (base.openRows.get {} (bankOf 0x7FFFFFFFF)).row = none) ∧
    (memAsk 0 0x30018).portWaiting ((memAsk 0 0x30018).portFor 0) ≠ [] ∧
    ({ base with regions := [] } : State).dramCoord 0 = none ∧ ({ base with badSectors := [0] } : State).sectorBad 0 = true ∧
    base.dramCoord 0 = some 0 := by decide +kernel
theorem witness_HostRegisters :
    (let s := base.setLaunchQueue 15 { size := 6, head := 0xFFFFFFFF, tail := 1 }
     let x := s.launchQueue 15
     (1 - x.head).toNat = 2 ∧ (2 ≤ (63 - x.head).toNat ∧ (63 - x.head).toNat ≤ 2 ^ x.size) ∧ (0 - x.head).toNat < 2 ∧ 2 ^ x.size < (64 - x.head).toNat) ∧
    ringOk 0x40000 6 64 = true ∧ ringOk 0xFFFFFFFFC0 6 64 = false ∧
    (let w : W64 := 0x000001FF00000000
     let s := { base with host := { base.host with windows := [(0, { target := w }), (1, { target := w ||| 0x100000000000000 })] } }
     (w.extractLsb' 40 16).toNat = 1 ∧ (s.liveRes 1).isSome = true ∧ base.liveRes 0 = none ∧ s.badTarget residA w = false ∧
      s.badTarget residA (w ||| 0x100000000000000) = true ∧ residA.potValid = false) := by decide +kernel
/-- A launch record of one tile in queue 3, at 0x40000; and it as its queue's candidate, of an age and with settings of its queue. -/
def candA : Cand := { lq := 3, dwords := [0x41000000000, 0x50000, 0, 0, 0, 0, 0, 0x7000000100000], age := 4, since := 0 }
def waitingCand (f : Cand → Cand := id) (g : LaunchQueue → LaunchQueue := id) (s : State := base) : State :=
  let s := s.setLaunchQueue 3 (g { base := 0x40000, size := 6, enable := true, prio := 3, preempt := true, starve := 1, held := some (f candA) })
  { s.setSched { s.sched with requeued := [f candA] } with cur := { base.cur with n := 3 } }
/-- No context bank of the device is free for it. -/
def candB : Cand := { candA with dwords := candA.dwords.set 0 0xBE7000000000 }
def fullUp (s : State) : State :=
  { s with ctxs := [(0, { resid := some 1 }), (1, { resid := some 1 }), (2, { resid := some 1 }), (3, { resid := some 1 })] }
theorem witness_Scheduling :
    (let s := waitingCand
     s.booted = true ∧ s.sched.picked = none ∧ s.sched.buffer.length < 64 ∧ s.sched.lastPlace = none ∧ s.candidate 3 = some candA ∧
      s.verdict candA = 0 ∧ (s.look.considered.findSome? (fun c => if s.look.verdict c = 0 then (s.look.takes c).map fun p => (c, p) else none)) =
        some (candA, 0, [2])) ∧
    (let s := base.setSched { base.sched with lastPlace := some 5 }
     ({ s with cycle := 20 } : State).cycle < 5 + 16 ∧ 5 + 16 ≤ ({ s with cycle := 21 } : State).cycle ∧ s.sched.lastPlace = some 5) ∧
    (base.sched.picked = none ∧ base.booted = true ∧ base.look.considered = []) ∧
    64 ≤ (base.setSched { base.sched with buffer := List.replicate 64 ⟨0, 0, 0, 0⟩ }).sched.buffer.length := by decide +kernel
/-- A candidate breaks its layout, and the buffer has room for one record. -/
def nearlyFull : State :=
  let s := waitingCand fun c => { c with dwords := c.dwords.set 7 1 }
  s.setSched { s.sched with buffer := List.replicate 63 ⟨0, 0, 0, 0⟩ }
theorem witness_Scheduling_full : nearlyFull.booted = true ∧ nearlyFull.sched.picked = none ∧ nearlyFull.sched.buffer.length < 64 ∧
    64 ≤ nearlyFull.look.sched.buffer.length := by decide +kernel
theorem witness_Scheduling_overdue :
    (let s := { waitingCand with cycle := 1024 }
     (s.launchQueue 3).starve ≠ 0 ∧ s.candidate s.cur.n = some candA ∧ candA.since + (s.launchQueue 3).starve * 1024 ≤ s.cycle ∧
      waitingCand.cycle < candA.since + (waitingCand.launchQueue 3).starve * 1024) ∧
    (let s := { fullUp (waitingCand fun _ => candB) with cycle := 1024 }
     s.candidate s.cur.n = some candB ∧ (s.launchQueue 3).preempt = true ∧ candB.kind = 0 ∧ s.verdict candB = 0 ∧ (s.launchQueue 3).lastPreempt = 0 ∧
      s.fit candB = none ∧ s.youngest (s.candPrio candB) = some residA ∧ s.findRes residA.num = some residA) ∧
    (let s := waitingCand id fun q => { q with lastPreempt := 7 }
     (s.launchQueue 3).lastPreempt ≠ 0 ∧ s.cycle < (s.launchQueue 3).lastPreempt + 4096) := by decide +kernel
theorem witness_Scheduling_picked :
    (let c := { candA with dwords := candA.dwords.set 0 0x10000000 |>.set 4 0x100000000 }
     let s := base.setSched { base.sched with picked := some (c, 0, 0, []) }
     s.sched.picked = some (c, 0, 0, []) ∧ c.kind = 1 ∧ s.findRes c.target = some residA ∧ residA.running = true ∧ candA.kind = 0) ∧
    (let c := { candA with dwords := candA.dwords.set 0 0x20000000 |>.set 4 0x100000000 }
     c.kind = 2 ∧ base.sched.buffer = [] ∧ base.findRes c.target = some residA ∧ residA.state = .uncommitted ∧
      (withR fun r => { r with state := .committed }).findRes c.target = some { residA with state := .committed } ∧
      (base.findRes 2).filter Residency.running = none) := by decide +kernel

/-- A launch that replays is picked: its capture at 0x40000 holds the run of its tag, which a full buffer has cut or not. -/
def replaying (cut : Nat) : State :=
  let c := { candA with dwords := candA.dwords.set 0 (BitVec.ofNat 64 (2 ^ 27)) }
  let m := Memory.writeN base.mem 0x40008 8 2
  let m := Memory.writeN m 0x40020 32 (2 ^ 56 + 5 * 2 ^ 32 + c.tag * 2 ^ 64 + 5 * 2 ^ 128 + cut * 2 ^ 192)
  { base.setSched { base.sched with picked := some (c, 0, 0, [3]) } with
    mem := Memory.writeN m 0x40040 32 (5 * 2 ^ 56 + 5 * 2 ^ 32), mgmt := { base.mgmt with replay := [(c.tag, 0x40000, 4)] } }
theorem witness_Scheduling_replays :
    (∀ cut ∈ [0, 1], ∀ c ∈ ((replaying cut).sched.picked.map Prod.fst).toList, c.kind = 0 ∧ (c.d 0).getLsbD 27 = true ∧
      (replaying cut).sched.buffer.length < 64 ∧ ((replaying cut).readRun c).1 = some (some (cut == 1, [(1, 5 * 2 ^ 56)])) ∧
      (({ replaying cut with openRows := [(bankOf (0x40000 / 32), { blocked := 9 })] } : State).readRun c).1 = none) ∧
    (replaying 0).sched.picked.isSome = true ∧ candA.kind = 0 ∧ (candA.d 0).getLsbD 27 = false := by decide +kernel
theorem witness_Scheduling_targets :
    (∀ k ∈ [1, 2], let c := { candA with dwords := candA.dwords.set 0 (BitVec.ofNat 64 (k * 2 ^ 28)) |>.set 4 0x200000000 }
     let s := base.setSched { base.sched with picked := some (c, 0, 0, []) }
     s.sched.picked = some (c, 0, 0, []) ∧ c.kind = k ∧ (s.findRes c.target).filter Residency.running = none) ∧
    (base.setSched { base.sched with picked := some (candA, 0, 0, [3]) }).sched.picked = some (candA, 0, 0, [3]) := by decide +kernel
def spillA : SpillReq := ⟨1, 0, none, 1, 0, 0, 0x10000⟩
theorem witness_ResidencyEvents :
    (let h (o : Nat) : Hdr := { kind := 12, op := BitVec.ofNat 32 o, resid := 1, info := 0 }
     (let s := withIn 4097 (h opCommit.toNat) []
      (s.arrived 4097 isCommit).isSome = true ∧ s.findRes 1 = some residA ∧ residA.running = true) ∧
     (let s := withIn 0 (h opCommitReply.toNat) [] (withMe fun c => { c with wait := .commit })
      (s.arrived 0 isCommitReply).isSome = true ∧ (s.ctx 0).wait = .commit ∧ (s.ctx 0).resid = some 1) ∧
     (let s := withIn 4097 (h opFault.toNat) [0x1001000000000000000000000000000000000000000000000000000000000000]
      (s.arrived 4097 isFault).isSome = true ∧ s.inbox.map Arrived.node = [4097] ∧ s.findRes 1 = some residA ∧ s.sched.buffer = [])) ∧
    (let s := { withR (fun r => { r with cand := { r.cand with dwords := r.cand.dwords.set 2 9 } }) with cur := { base.cur with n := 1 }, cycle := 9 }
     s.cur.n = 1 ∧ (s.findRes 1).isSome = true ∧ ∀ r ∈ s.findRes 1, r.cand.watchdog = 9 ∧ r.startCycle + 9 ≤ s.cycle ∧ r.state = .uncommitted) ∧
    (let s := { base with sched := { base.sched with spills := [spillA, { spillA with tag := some 0 }] } }
     s.sched.buffer.length < 64 ∧ (s.sched.spills.find? fun x => x.tag.isNone) = some spillA) ∧
    (let e : EventRec := ⟨2, 7, 8, 9⟩
     let s := ({ base with sched := { base.sched with buffer := [⟨1, 0, 0, 0⟩, e] } } : State).setEventQueue 2 { base := 0x40000, size := 6, enable := true, posted := 63 }
     let ok (e : EventRec) : Bool := (s.eventQueue e.queue).enable &&
       decide (((s.eventQueue e.queue).posted - (s.eventQueue e.queue).consumed).toNat < 2 ^ (s.eventQueue e.queue).size)
     s.sched.buffer.find? ok = some e ∧ (s.arrive 0x407E0).1 = true ∧ (({ s with openRows := [(bankOf (0x407E0 / 32), { blocked := 9 })] } : State).physWrite 0x407E0 32 0).1 = false ∧ base.sched.buffer.find? ok = none ∧ s.memOk = true ∧ s.inDescriptor 0x407E0 = false ∧ s.physKey 0x407E0 = some 0x407E0 ∧ 0x407E0 % 32 = 0 ∧
     s.openRows = []) ∧
    (let s := { withIn 4097 { kind := 13, stile := 5 } [BitVec.ofNat 256 (0x11 * 2 ^ 248)] with cur := { base.cur with n := 1 } }
     (s.arrived 4097 isEvent).isSome = true ∧ s.cur.n = 1) := by
  decide +kernel
theorem witness_ResidencyEvents_reports :
    (let s := { withR (fun r => { r with state := .committed, cand := { r.cand with dwords := r.cand.dwords.set 2 9 } }) with
      cur := { base.cur with n := 1 }, cycle := 9 }
     (s.findRes 1).isSome = true ∧ ∀ r ∈ s.findRes 1, r.cand.watchdog ≠ 0 ∧ r.startCycle + r.cand.watchdog ≤ s.cycle ∧ r.state = .committed) ∧
    (∀ v ∈ [1, 3], let h (n : Nat) : Hdr := { kind := 12, op := opFault, resid := v, stile := n }
     let s : State := { base with inbox := [⟨4097, ⟨h 9, [2]⟩⟩, ⟨4097, ⟨h 5, [1]⟩⟩] }
     (s.arrived 4097 isFault).isSome = true ∧ s.inbox.map (fun x => (x.node, isFault x.p, x.p.h.resid)) = [(4097, true, v), (4097, true, v)] ∧
      (s.findRes v).any Residency.running = (v == 1)) ∧
    (∀ k ∈ [0x11, 0x16], let s := { (withIn 4097 { kind := 13, stile := 5 } [BitVec.ofNat 256 (k * 2 ^ 248)]).setSched
        { base.sched with buffer := List.replicate 64 ⟨0, 0, 0, 0⟩ } with cur := { base.cur with n := 1 } }
     (s.arrived 4097 isEvent).isSome = true ∧ 64 ≤ s.sched.buffer.length) := by decide +kernel
theorem witness_DiscardSteps :
    (let going (n : Nat) : State :=
      { withR (fun r => { r with state := .discarding, step := n, reported := [0, 1, 48, 49] }) with cur := { base.cur with n := 1 } }
     (∀ n < 7, (going n).findRes 1 = some { residA with state := .discarding, step := n, reported := [0, 1, 48, 49] }) ∧
     (going 1).regionTiles residA = [0, 1, 48, 49] ∧ (going 1).arrived 4097 isStepDone = none ∧ (going 6).sched.buffer = [] ∧
     ((withR (fun r => { r with event := some ⟨0, 0, 0, 0⟩ }) (going 0)).findRes 1).map Residency.event = some (some ⟨0, 0, 0, 0⟩)) ∧
    (let s := withIn 0 { kind := 12, op := opDiscard, info := 1, resid := 1 } []
     (s.arrived 0 isDiscard).isSome = true ∧ (s.tile 0).stopping = [] ∧ ¬ (residA.reported.contains 0 = true)) ∧
    (let s := withT fun x => { x with stopping := [(1 * 8 + 6, 7)] }
     s.arrived 0 isDiscard = none ∧ (s.tile 0).stopping = [(1 * 8 + 6, 7)] ∧ s.ctxBanks 1 0 = [0]) ∧
    (let s := { base with cur := { base.cur with n := 1 } }
     s.findRes 1 = some residA ∧ residA.running = true ∧ s.ended residA = false ∧ ({ s with ctxs := [] } : State).ended residA = true) := by decide +kernel

theorem witness_DiscardSteps_waits :
    (let full : State := base.setSched { base.sched with buffer := List.replicate 64 ⟨0, 0, 0, 0⟩ }
     let going (f : Residency → Residency) (s : State) : State := { withR (fun r => f { r with state := .discarding }) s with cur := { base.cur with n := 1 } }
     (((going (fun r => { r with event := some ⟨0, 1, 2, 3⟩ }) full).findRes 1).bind Residency.event ≠ none ∧ 64 ≤ full.sched.buffer.length) ∧
      ((going (fun r => { r with step := 2, reported := [0, 1] }) base).findRes 1).map Residency.reported = some [0, 1] ∧
      ((going (fun r => { r with step := 6, reported := [0, 1, 48, 49] }) full).findRes 1).map Residency.step = some 6) ∧
    (let s := { withT (fun x => { x with stopping := [(1 * 8 + 6, 7)] }) with cycle := 600 }
     s.arrived s.cur.t isDiscard = none ∧ (s.tile s.cur.t).stopping = [(1 * 8 + 6, 7)] ∧ 7 + 512 ≤ s.cycle) := by decide +kernel
/-- A mailbox command of a code and length, with payload dwords. -/
def mailed (code len : Nat) (args : List W64) (s : State := base) : State := { s with host := { s.host with
  status := 1, command := BitVec.ofNat 64 (code * 2 ^ 48 + len * 2 ^ 32), running := BitVec.ofNat 64 (code * 2 ^ 48 + len * 2 ^ 32), cmdBuf := (List.range args.length).map fun i => (i, args.getD i 0) } }
theorem witness_MailboxForm : (∀ p ∈ Claims.commands.map Prod.snd, let s := mailed p.1 (p.2 + 1) []
    s.host.status.extractLsb' 0 2 = 1 ∧ (s.host.running.extractLsb' 48 16).toNat = p.1 ∧ (s.host.running.extractLsb' 32 16).toNat = p.2 + 1) ∧
    base.host.status.extractLsb' 0 2 ≠ 1 ∧ base.recovery = false ∧
    ({ base.host with command := 0x20000000000000 } : HostIf).command.extractLsb' 48 16 = 0x20 := by decide +kernel
theorem witness_MappingCommands :
    (let s := mailed 1 1 [1, 0xFFFF, 0x12345, 65536]
     s.host.status.extractLsb' 0 2 = 1 ∧ s.mgmt.shoot = none ∧ (Claims.arg s 0).toNat ≤ 3 ∧ (Claims.arg s 1).toNat < 2 ^ 16 ∧ Claims.arg s 0 = 1 ∧
      1 ≤ (Claims.arg s 3).toNat ∧ (Claims.arg s 3).toNat ≤ 65536) ∧
    Claims.arg (mailed 1 1 [0, 7]) 3 = 0 ∧ 65536 < (Claims.arg (mailed 1 1 [1, 7, 0, 65537]) 3).toNat ∧ (mailed 1 1 []).mgmt.shoot = none ∧
    (let s := { mailed 1 1 [1, 7, 0x12345, 1] posted with mgmt := { base.mgmt with shoot := some [(0, 9)] } }
     s.mgmt.shoot = some [(0, 9)] ∧ ((s.tile 0).txns.any fun y => y.tid == 9) = true ∧ ((base.tile 0).txns.all fun y => y.tid != 9) = true) ∧
    (let e := (List.range 8).flatMap fun i => (if i = 0 then 2 ^ 63 + 511 * 2 ^ 16 else 0) :: (List.range 35).map (2 ^ ·)
     let s := mailed 2 72 (e.map fun n => BitVec.ofNat 64 n) { base with sched := {} }
     let u := mailed 2 72 [0x8000000000000000] { base with sched := {} }
     let entry (s : State) (i : Nat) : Region := readRegion fun j => Claims.arg s (36 * i + j)
     let flaw (s : State) (i : Nat) : Nat := regionCheck (Claims.arg s) ((List.range 8).map (entry s)) i
     let v := { s with inbox := (memAsk 0 0).inbox }
     (base.sched.res ≠ [] ∧ (({ s with inbox := v.inbox.map fun x => { x with p := { x.p with h := { x.p.h with host := true } } } } : State).inbox.any fun x => x.p.h.host) = true) ∧
      (v.inbox.any fun x => x.p.h.host) = false ∧ (v.inbox.any fun x => 2048 ≤ x.node && x.node < 2176) = true ∧ s.inbox = [] ∧ s.sched.res = [] ∧ (∀ i, i < 8 → flaw s i = 0) ∧ flaw u 0 = 3) ∧
    (let s := mailed 3 1 [1, 0, 5, 1] { base with sched := { base.sched with spills := [{ spillA with tag := some 5 }] } }
     let f (s : State) := s.sched.spills.find? (fun x => x.resid == (Claims.arg s 0).toNat && x.tile == (Claims.arg s 1).toNat &&
      x.tag == some (Claims.arg s 2).toNat)
     f s = some { spillA with tag := some 5 } ∧ s.findRes 1 = some residA ∧ residA.running = true ∧ s.sched.buffer = [] ∧ Claims.arg s 3 = 1 ∧ Claims.arg (mailed 3 1 [1]) 3 = 0 ∧
      f (mailed 3 1 [1]) = none) := by decide +kernel
theorem witness_MappingCommands_ends :
    (let s := { mailed 1 1 [1, 7, 0x12345, 1] with mgmt := { base.mgmt with shoot := some [(9, 0)] } }
     s.mgmt.shoot = some [(9, 0)] ∧ ∀ y ∈ (s.tile 0).txns, y.tid ≠ 9) ∧
    (∀ n ∈ [1, 2], let p : State := base.setSched { base.sched with spills := [{ spillA with tag := some 5, party := n }] }
     let s := mailed 3 1 [1, 0, 5, 0] (withMe (fun c => { c with wait := .spill }) p)
     (s.sched.spills.find? (fun x => x.resid == (Claims.arg s 0).toNat && x.tile == (Claims.arg s 1).toNat &&
      x.tag == some (Claims.arg s 2).toNat)).map SpillReq.party = some n ∧ (s.ctx spillA.key).wait = .spill ∧ Claims.arg s 3 = 0) ∧
    ((base.setEventQueue 0 { irq := true }).eventQueue 0).irq = true := by decide +kernel
theorem witness_SettingCommands :
    (let s := mailed 4 96 ((List.range 384).map fun i => if i % 3 = 0 then 4096 else if i % 3 = 1 then 8192 else 2)
     let v (p j : Nat) : Nat := (Claims.arg s (3 * p + j)).toNat
     (∀ p, p < 128 → 2 ≤ v p 0 ∧ v p 0 < v p 1 ∧ v p 0 ≤ 4096 ∧ v p 1 ≤ 8192 ∧ (v p 2 = 1 ∨ v p 2 = 2)) ∧
      ¬ (2 ≤ (Claims.arg (mailed 4 96 []) 0).toNat)) ∧
    (let s := mailed 5 1 [511, 255, 255, 1]
     (Claims.arg s 0).toNat < 512 ∧ (Claims.arg s 1).toNat < 256 ∧ (Claims.arg s 2).toNat < 256 ∧ (Claims.arg s 3).toNat < 2 ∧
      512 ≤ (Claims.arg (mailed 5 1 [512]) 0).toNat) ∧
    (∀ v ∈ [400, 2400], 400 ≤ (Claims.arg (mailed 0x10 1 [BitVec.ofNat 64 v]) 0).toNat ∧ (Claims.arg (mailed 0x10 1 [BitVec.ofNat 64 v]) 0).toNat ≤ 2400) ∧
    (Claims.arg (mailed 0x10 1 [399]) 0).toNat < 400 ∧ 2400 < (Claims.arg (mailed 0x10 1 [2401]) 0).toNat ∧
    (let s := mailed 0x20 1 [15, 0xFFFFFFFFE0, 1]
     (Claims.arg s 0).toNat < 16 ∧ (Claims.arg s 1).toNat % 32 = 0 ∧ 0 < (Claims.arg s 2).toNat ∧
      (Claims.arg s 1).toNat + 32 * (Claims.arg s 2).toNat ≤ 2 ^ 40 ∧ (s.host.running.extractLsb' 48 16).toNat = 0x20) ∧
    (let s := mailed 0x21 1 [1, 0x101020, 2]
     (Claims.arg s 0).toNat < 2 ^ 16 ∧ (Claims.arg s 1).toNat % 32 = 0 ∧ (Claims.arg s 1).toNat + 32 * (Claims.arg s 2).toNat ≤ 2 ^ 40) := by decide +kernel
theorem witness_SettingCommands_captures :
    (let x : Capture := { lq := 3, addr := 64, size := 2, used := 0, full := false }
     let s := mailed 0x20 1 [15, 0xFFFFFFFFE0, 1] { base with mgmt := { base.mgmt with captures := [x] } }
     x ∈ s.mgmt.captures ∧ x.lq ≠ (Claims.arg s 0).toNat ∧ x.addr ≠ (Claims.arg s 1).toNat) := by decide +kernel
theorem witness_ReadCommands :
    (let s := mailed 0x12 1 [4096] { base with mgmt := { base.mgmt with logCount := 4096 } }
     s.host.status.extractLsb' 0 2 = 1 ∧ (s.host.running.extractLsb' 48 16).toNat = 0x12 ∧ s.mgmt.logCount ≤ 4096 ∧ (Claims.arg s 0).toNat ≤ s.mgmt.logCount) ∧
    (∀ c ∈ [(0x11, 0), (0x30, 1)], let s := mailed c.1 c.2 []
      s.host.status.extractLsb' 0 2 = 1 ∧ (s.host.running.extractLsb' 48 16).toNat = c.1 ∧ (s.host.running.extractLsb' 32 16).toNat = c.2) ∧
    (base.mgmt.sensors.get {} 0).seen = false ∧
    (({ base with mgmt := { base.mgmt with sensors := [(0, { seen := true, lo := 3, hi := 5 })] } } : State).mgmt.sensors.get {} 0).seen = true ∧
    ({ base with cycle := 1250000 } : State).cycle % cyclesPerMs = 0 ∧ ({ base with cycle := 1 } : State).cycle % cyclesPerMs ≠ 0 := by decide +kernel
/-- Every sensor's latest value is 0 but one. -/
def sensed (i : Nat) (v : BitVec 32) : State := { base with mgmt := { base.mgmt with sensors := [(i, { now := v, seen := true })] } }
theorem witness_Throttle : (sensed 80 2401).sensorNow 80 > 2400 ∧ (sensed 80 2279).sensorNow 80 * 100 < 95 * 2400 ∧
    95 * 2400 ≤ (sensed 80 2280).sensorNow 80 * 100 ∧ (sensed 80 2400).sensorNow 80 ≤ (sensed 80 2400).mgmt.cap ∧ 1680 ≤ (sensed 63 1680).sensorNow 63 ∧
    (∀ i, i < 16 → (sensed 63 1679).sensorNow (16 * 3 + i) < 1680) ∧ 1920 ≤ (sensed 0 1920).sensorNow 0 ∧
    (∀ d, d < 4 → ∀ i, i < 16 → (sensed 0 1919).sensorNow (16 * d + i) < 1920) := by decide +kernel
theorem witness_FirmwareUpdates : base.mgmt.fuse ≤ (0 : BitVec 64).toNat ∧ ([] : List (BitVec 8)).length + 8 ≤ 65536 ∧
    (0 : BitVec 64).toNat < ({ base.mgmt with fuse := 1 } : Mgmt).fuse := by decide +kernel
theorem witness_Attestation : base.negotiated = false ∧
    (let s := { base with mgmt := { base.mgmt with spdmVersion := true, spdmAlgs := 3 } }
     s.mgmt.spdmVersion = true ∧ s.negotiated = true) ∧ (3 : BitVec 32).getLsbD 0 = true ∧ (3 : BitVec 32).getLsbD 1 = true := by decide +kernel

theorem witness_PowerEvents :
    (∀ st ∈ [1, 2], (({ base with mgmt := { base.mgmt with fuse := 1 } } : State).restarted.mgmt.verify st).slot = none) ∧
    (∀ m : Mgmt, (m.image 1 (m.active.get 0 1)).check m.fuse = 0 → (m.verify 1).slot ≠ none) ∧
    (0x03C3 : BitVec 64).extractLsb' 56 8 ≠ 1 ∧ (0x03C3 : BitVec 64).extractLsb' 56 8 ≠ 2 ∧ (0x0100000000000000 : BitVec 64).extractLsb' 56 8 = 1 ∧
    (0x0200000000000000 : BitVec 64).extractLsb' 56 8 = 2 ∧ (base.tileAt 3 23 19).isSome = true := by
  have old : ∀ (m : Mgmt) (st : Nat), (m.image st (m.active.get 0 st)).sec < m.fuse → (m.image st (1 - m.active.get 0 st)).sec < m.fuse →
      (m.verify st).slot = none := fun m st h h' => by
    have late : ∀ (f : Firmware) (n : Nat), f.sec < n → f.check n ≠ 0 := fun f n h => by unfold Firmware.check; split; all_goals simp
    simp [Mgmt.verify, late _ _ h, late _ _ h']
  refine ⟨fun st h => ?_, fun m h => by simp [Mgmt.verify, h], by decide +kernel⟩
  simp only [List.mem_cons, List.not_mem_nil, or_false] at h
  rcases h with rfl | rfl <;> exact old _ _ (by decide +kernel) (by decide +kernel)
/-! ## Turns -/

/-- It is the turn of tile 0's core 0, whose bank 0 is next, with an instruction's words at its IP. -/
def turning (w v : Nat) (s : State := base) : State := { s with
  agenda := [⟨base.cur, .core⟩], cores := [(0, { counter := 3 })],
  mem := ((List.range 8).foldl (fun m i => Memory.write m (storeKey 0 (0x438 + i)) (BitVec.ofNat 8 ((w + 2 ^ 32 * v) / 2 ^ (8 * i)))) s.mem),
  ctxs := s.ctxs.set 0 { ctxA with ip := 0x438 } }
theorem witness_StepRunsInstruction :
    (let s := turning 0xC4800000 3
     let c := s.ctx 0
     s.powered = true ∧ s.agenda = [⟨base.cur, .core⟩] ∧ ((s.core 0).counter.toNat + 1) % 4 = 0 ∧ c.run = .live ∧ c.wait = .none ∧ c.takesRecord = false ∧
      c.stream = none ∧ s.ctxErrors = [] ∧ s.badAt (storeKey 0 0x438) 8 = false ∧ ({ s with agenda := [⟨base.cur, .late⟩] } : State).agenda = [⟨base.cur, .late⟩] ∧ c.code.base ≤ c.ip.toNat ∧ c.ip.toNat + 8 = c.code.base + c.code.size ∧
      isWide (BitVec.ofNat 32 (Memory.readN s.mem (storeKey 0 0x438) 4)) = true ∧
      BitVec.ofNat 32 (Memory.readN s.mem (storeKey 0 0x438) 4) = 0xC4800000) ∧
    (let s := turning 0x00632003 0
     decode (BitVec.ofNat 32 (Memory.readN s.mem (storeKey 0 0x438) 4)) 0 = some (.add 3 3 4)) := by decide +kernel
theorem witness_StepRunsInstruction_ends :
    (∀ l ∈ [true, false], let s := { elsewhere l with cur := { t := 1 }, issued := false, clash := false }
     let o := exec (.btest 31 11) { s with ctxs := s.ctxs.set 16 { s.me with sregs := [(11, 0)], bars := [] } }
     (match o with | .next t => t.clash || t.issued | _ => false) = true) ∧
    (match exec (.bt 1 5) { noGuard with issued := false } with | .next t => t.issued && !t.clash | _ => false) = true ∧
    (match exec .streamStep { crammed (queues [⟨7, 0⟩] [] (stream (.tee 6 4 12 4))) with issued := false } with
      | .next t => !t.issued && !t.clash | _ => false) = true := by decide +kernel
theorem witness_StepTurns :
    (let s := { base with agenda := [⟨base.cur, .event .schedulerPlacement⟩, ⟨base.cur, .switch⟩], mem := Memory.writeN base.mem (switchKey 0 0 0 0) 8 0x1003, xbars := [(0, { xbarA with halted := false })] }
     s.powered = true ∧ (s.xbar 0).halted = false ∧ (s.xbar 0).pc = 0 ∧ s.badAt (switchKey 0 0 (s.xbar 0).store 0) 8 = false ∧
      decodeSwitch (BitVec.ofNat 64 (Memory.readN s.mem (switchKey 0 0 (s.xbar 0).store 0) 8)) = some .sloop ∧
      ({ s.xbar 0 with halted := true } : Xbar).halted = true) ∧
    (let s := turning 0xBFFFFFFF 0
     isWide (BitVec.ofNat 32 (Memory.readN s.mem (storeKey 0 0x438) 4)) = false ∧
      decode (BitVec.ofNat 32 (Memory.readN s.mem (storeKey 0 0x438) 4)) 0 = none ∧ s.badWords = [] ∧ (s.ctx 0).handler = false ∧ (s.ctx 0).trapvec ≠ 0 ∧
      (s.ctx 0).code.base + (s.ctx 0).code.size < 0x43D + 4) ∧
    (let s := { base with ctxErrors := [0] }
     s.ctxErrors.contains s.cur.ctx = true ∧ s.cur.ctx = 0 ∧ s.me.run = .live ∧ s.me.resid ≠ none ∧ s.me.code.base ≤ s.me.ip.toNat ∧ s.me.ip.toNat + 8 ≤ s.me.code.base + s.me.code.size) ∧
    base.agenda = [] ∧ base.powered = true ∧ ({ base with powered := false, inputs := [⟨base.cur, .event .deviceReset⟩] } : State).inputs ≠ [] := by
  decide +kernel

theorem witness_DecodeOfEncode : ((encode (.add 3 3 4) 3).isSome = true ∧ (encode (.jmp 0x1FFFFFF) 0).isSome = true ∧ wellFormed (.add 31 31 31) = true ∧
    (∀ j, j < 12 → ((0xCCCCCCCCCCCC : BitVec 48).extractLsb' (4 * j) 4).toNat ≤ 12)) ∧ Claims.switchLegal .sbtag 0x66F :=
  ⟨by decide +kernel, .inr (.inr (.inr (.inr (.inr (.inl ⟨rfl, by decide +kernel⟩)))))⟩
theorem witness_EncodeOfDecode : (decode 0x00632003 0).isSome = true ∧ (decodeSwitch 0x1003).isSome = true ∧
    (decodeFrame (BitVec.ofNat 256 (2 ^ 248))).isSome = true := by decide +kernel
theorem witness_MemoryKept : base.memOk = true ∧ answers (step { base with agenda := [⟨base.cur, .switch⟩] }) = true := by decide +kernel
theorem witness_LoadsKeepMemory : answers (exec (.ld 26 3 0 3) base) = true ∧ answers (exec (.vld 31 5 0) base) = true ∧
    answers (exec (.vldLo 31 5 0) base) = true ∧ answers (exec (.vgat 31 1 3 1 0 0) wide) = true := by decide +kernel
/-! ## One step, on the manual's worked examples -/

/-- What is left of a step's answer. -/
def after (o : Host.Outcome State Fault Refusal) (f : State → Bool) : Bool := match o with | .next t => f t | _ => false

/-- 01_topology.md, worked example of R16: tile (25, 21) is in cluster 168, of die 3; its tile 2 is 986. -/
theorem test_numbers : clusterOf 1033 = 168 ∧ clusterTile 168 2 = 986 ∧ colOf 1033 = 25 ∧ rowOf 1033 = 21 := by decide +kernel
/-- 03_memory_spaces.md, worked examples of R58 and R61. -/
def pointing (v : W64) : State := { base with
  cur := { base.cur with t := 1033 }, ctxs := [(16528, { ctxA with sregs := [(1, v)] })] }
theorem test_gcast : after (exec (.gcast 2 1 4) (pointing 0xFA54_2000_0000_4A40)) (fun t => t.me.s 2 == 0xFB3D_A000_0000_4A40) = true := by decide +kernel
theorem test_gcast_fault : after (exec (.gcast 2 1 2) (pointing 0xFA54_2000_0000_4A40)) (fun t => t.me.handler && t.me.ip == 0x420) = true := by
  decide +kernel
theorem test_gtest : after (exec (.gtest 2 1) (pointing 0xFA54_2000_0000_4A40)) (fun t => t.me.s 2 == 0xB) = true := by decide +kernel
theorem test_gtest_remote : after (exec (.gtest 2 1) (withMe fun c => { c with sregs := [(1, 0xFA54_2000_0000_4A40)] })) (fun t => t.me.s 2 == 3) = true := by
  decide +kernel
theorem test_interleave : scratchHome {} 0x4A40 = (1, 0xA40) ∧
    scratchHome { banks := [(0, { il := 2 }), (1, { il := 2 }), (2, { il := 2 }), (3, { il := 2 })] } 0x4A40 = (2, 0x1280) := by decide +kernel
/-- 06_numerics.md, worked examples of R122 and R126. -/
theorem test_digits : rowExp 2 [0x4040, 0xBEA0, 0x3C40] = -13 ∧ rowField 2 (-13) 0x4040 = 24576 ∧ rowField 2 (-13) 0xBEA0 = -2560 ∧
    rowField 2 (-13) 0x3C40 = 96 ∧ cutDigits 2 2 (-2560) = -4096 ∧ cutDigits 2 2 24576 = 24576 ∧ cutDigits 2 2 96 = 0 := by decide +kernel
theorem test_accumulate : Elem.add ⟨2 ^ 62 - 1, 0, false, false, false⟩ ⟨1, 0, false, false, false⟩ = ⟨2 ^ 61 - 1, 1, false, false, false⟩ ∧
    Elem.add ⟨2 ^ 61 - 1, 1, false, false, false⟩ ⟨1, 0, false, false, false⟩ = ⟨2 ^ 62 - 1, 0, false, false, false⟩ ∧
    Elem.add ⟨2 ^ 62 - 1, 0, false, false, false⟩ ⟨2, 0, false, false, false⟩ = ⟨2 ^ 61, 1, false, false, false⟩ := by decide +kernel
/-- 08_copies_barriers.md, worked example of R162: in cycle 4 the entry names id 7, which has nothing, and 9 passes. -/
theorem test_slot_table :
    (let p (n : Nat) (a : W64) : Packet := ⟨{ kind := 0, info := BitVec.ofNat 64 n, addr := a }, []⟩
     let s := { base with cycle := 4, inbox := [⟨2048, p 0 0x30000⟩, ⟨2048, p 9 0x30020⟩], ports := [(0, { slots := (List.range 64).map fun i => (i, [7, 7, 9, 0].getD (i % 4) 0) })] }
     s.admits 0 = some (p 9 0x30020) ∧ ({ s with cycle := 7 } : State).admits 0 = some (p 0 0x30000)) := by decide +kernel
/-- 13_vector_instructions.md, the example of R257. -/
def packed : State := withMe fun c => { c with vcfg := 2, masks := [(2, 0xA6)], vregs := [(3, vecOf 32 8 fun l => 10 + l), (4, vecOf 32 8 fun _ => 99)] }
theorem test_vcomp : after (exec (.vcomp 2 3 5 2) packed) (fun t => t.me.s 5 == 4 && t.me.v 2 == vecOf 32 8 fun l => [11, 12, 15, 17].getD l 0) = true := by
  decide +kernel
theorem test_vexp : after (exec (.vexp 4 3 2) packed) (fun t => t.me.v 4 == vecOf 32 8 fun l => [99, 10, 11, 99, 99, 12, 99, 13].getD l 0) = true := by
  decide +kernel
/-- 13_vector_instructions.md, the worked example of R260: the CTL, here at the west head where it is enabled, and the conversion. -/
def eight : W256 := vecOf 32 8 fun l => [0x3FC00000, 0xC0200000, 0x43960000, 0x7FC00000, 0x3F000000, 0xC71C4000, 0x40E00000, 0x40200000].getD l 0
def narrowing (conv : W64) (l : List NetWord) : State := withX (fun x => { x with rx := [(3, l)] })
  (withMe fun c => { c with vcfg := 2, conv := conv, vregs := [(4, vecOf 16 16 fun l => if l < 8 then 0 else 0x7777)] })
theorem test_ctl : after (exec (.vcvtn 4 30 0 0 0 2) (narrowing 0 [⟨8 * 2 ^ 64 + 1, 7⟩, ⟨eight, 0⟩])) (fun t => t.me.conv == 8 && !t.me.handler) = true := by
  decide +kernel
theorem test_vcvtn : after (exec (.vcvtn 4 30 0 0 0 2) (narrowing 8 [⟨eight, 0⟩])) (fun t => t.me.fstat == 0x19 &&
    t.me.v 4 == vecOf 16 16 fun l => [2, 0xFFFE, 0x12C, 0, 0, 0x8000, 7, 2].getD l 0x7777) = true := by decide +kernel
/-- 23_management.md, worked example of R389: with a cap of 1,600 W, 1,620 W at level 13 gives 12, and 1,500 W at 12 gives 13. -/
def drawing (w : BitVec 32) (level : Nat) : State := { sensed 80 w with mgmt := { (sensed 80 w).mgmt with cap := 1600, level := level } }
theorem test_throttle : after (exec .throttleUpdate (drawing 1620 13)) (fun t => t.mgmt.level == 12) = true ∧
    after (exec .throttleUpdate (drawing 1500 12)) (fun t => t.mgmt.level == 13) = true := by decide +kernel

/-! ## One step, at corners that the rules state -/

/-- A context whose s1 and s2 hold two values, in a machine with nothing else. -/
def two (a b : W64) : State := withMe fun c => { c with sregs := [(1, a), (2, b)] }
def gives (i : Instr) (a b : W64) (n : Nat) (v : W64) : Bool := after (exec i (two a b)) fun t => t.me.s n == v

/-- R208: sums wrap, or saturate; shifts take six bits; s1 is source and destination. -/
theorem test_add_wraps : gives (.add 1 1 2) 0xFFFFFFFFFFFFFFFF 2 1 1 = true ∧ gives (.adds 3 1 2) 0x7FFFFFFFFFFFFFFF 1 3 0x7FFFFFFFFFFFFFFF = true ∧
    gives (.subus 3 1 2) 1 2 3 0 = true ∧ gives (.sub 3 1 2) 1 2 3 0xFFFFFFFFFFFFFFFF = true := by decide +kernel
theorem test_shifts : gives (.shl 3 1 2) 1 0x43 3 8 = true ∧ gives (.sar 3 1 2) 0x8000000000000000 63 3 0xFFFFFFFFFFFFFFFF = true ∧
    gives (.ror 3 1 2) 1 1 3 0x8000000000000000 = true ∧ gives (.andn 3 1 2) 0xFF 0x0F 3 0xF0 = true := by decide +kernel
theorem test_counts : gives (.clz 3 1) 0 0 3 64 = true ∧ gives (.ctz 3 1) 0 0 3 64 = true ∧ gives (.pcnt 3 1) 0xFF00000000000001 0 3 9 = true ∧
    gives (.sxb 3 1) 0x80 0 3 0xFFFFFFFFFFFFFF80 = true ∧ gives (.zxw 3 1) 0xFFFFFFFF80000000 0 3 0x80000000 = true := by decide +kernel
/-- R212: division by zero, and of the smallest number by −1. -/
theorem test_divide : gives (.div 3 1 2) 7 0 3 0xFFFFFFFFFFFFFFFF = true ∧ gives (.rem 3 1 2) 7 0 3 7 = true ∧
    gives (.div 3 1 2) 0x8000000000000000 0xFFFFFFFFFFFFFFFF 3 0x8000000000000000 = true ∧ gives (.rem 3 1 2) 0xFFFFFFFFFFFFFFF9 2 3 0xFFFFFFFFFFFFFFFF = true := by
  decide +kernel
theorem test_multiply : gives (.mulh 3 1 2) 0xFFFFFFFFFFFFFFFF 2 3 0xFFFFFFFFFFFFFFFF = true ∧ gives (.mulhu 3 1 2) 0xFFFFFFFFFFFFFFFF 2 3 1 = true ∧
    gives (.mulhsu 3 1 2) 0xFFFFFFFFFFFFFFFF 2 3 0xFFFFFFFFFFFFFFFF = true := by decide +kernel
/-- R293 to R295: a trap saves IP + 4 and its number, and a handler's `eret` goes back there. -/
theorem test_trap : after (exec (.trap 9) base) (fun t => t.me.handler && t.me.ip == 0x420 && t.me.trapip == 0x404 && t.me.trapcause == 8 && t.me.trapinfo == 9) = true := by
  decide +kernel
theorem test_eret : after (exec .eret (withMe fun c => { c with handler := true, trapip := 0x404 })) (fun t => !t.me.handler && t.me.ip == 0x404) = true ∧
    after (exec .eret base) (fun t => t.me.handler && t.me.trapcause == 1) = true := by decide +kernel
/-- R185, R186: a call links, and a jump that leaves the partition faults with its target. -/
theorem test_call : after (exec (.call 8) base) (fun t => t.me.ip == 0x420 && t.me.s 26 == 0x404) = true ∧
    after (exec (.call 0x1FFFFFF) base) (fun t => t.me.handler && t.me.trapcause == 3 && t.me.trapaddr == 0x3FC && t.me.s 26 == 0x43C) = true := by decide +kernel
/-- R225, R226: the private byte 0x40 lies at scratch byte 0x40; a load extends with zeros, a store takes the low bits, at an address of any
alignment. -/
theorem test_ld : after (exec (.ld 22 3 0 3) base) (fun t => t.me.s 22 == 0x4321) = true ∧ after (exec (.ld 22 3 1 0) base) (fun t => t.me.s 22 == 0x43) = true := by
  decide +kernel
theorem test_st : after (exec (.st 1 5 0 1) (withMe fun c => c.setS 1 0x123456)) (fun t => Memory.readN t.mem (sramKey 0 0 0x40) 4 == 0x00345621) = true := by decide +kernel

end Sys2Proof.Tests
end

namespace Sys2Proof.Machine

/-! ## Packets that leave and packets that arrive -/

/-- A packet as it stands on the mesh once a tile has sent it (R89). -/
def State.flight (s : State) (t : Nat) (p : Packet) : Flight :=
  ⟨t, { p with h := { p.h with vc := p.h.channel, sdev := s.host.devnum.toNat, len := p.pay.length } }⟩

theorem State.send_net (s : State) (t : Nat) (p : Packet) : (s.send t p).net = s.net ++ [s.flight t p] := rfl
@[simp] theorem State.send_ctx (s : State) (t : Nat) (p : Packet) (k : Nat) : (s.send t p).ctx k = s.ctx k := rfl
@[simp] theorem State.send_me (s : State) (t : Nat) (p : Packet) : (s.send t p).me = s.me := rfl
@[simp] theorem State.send_tile (s : State) (t : Nat) (p : Packet) (u : Nat) : (s.send t p).tile u = s.tile u := rfl

@[simp] theorem State.takeArrived_mem (s : State) (n : Nat) (p : Packet → Bool) : (s.takeArrived n p).mem = s.mem := rfl
@[simp] theorem State.takeArrived_ctx (s : State) (n : Nat) (p : Packet → Bool) (k : Nat) : (s.takeArrived n p).ctx k = s.ctx k := rfl
@[simp] theorem State.takeArrived_findRes (s : State) (n : Nat) (p : Packet → Bool) (r : Nat) :
    (s.takeArrived n p).findRes r = s.findRes r := rfl
@[simp] theorem State.takeArrived_liveRes (s : State) (n : Nat) (p : Packet → Bool) (r : Nat) :
    (s.takeArrived n p).liveRes r = s.liveRes r := rfl

/-- A packet that has arrived is one of the inbox, at its node, and passes the test. -/
theorem State.arrived_mem {s : State} {n : Nat} {t : Packet → Bool} {p : Packet} (h : s.arrived n t = some p) :
    (⟨n, p⟩ : Arrived) ∈ s.inbox ∧ t p = true := by
  obtain ⟨x, hx, rfl⟩ := Option.map_eq_some_iff.1 h
  obtain ⟨node, q⟩ := x
  have ht := List.find?_some hx
  simp only [Bool.and_eq_true, beq_iff_eq] at ht
  exact ⟨ht.1 ▸ List.mem_of_find?_eq_some hx, ht.2⟩

/-! ## An event that acts on a context elsewhere -/

@[simp] theorem placeOf_ctx (k : Nat) : (placeOf k).ctx = k := by
  simp only [placeOf, Cur.ctx]
  omega

/-- A state at the place of a context, where an event acts on it. -/
def State.atCtx (s : State) (k : Nat) : State := { s with cur := placeOf k }

theorem State.withCur_eq (s : State) (k : Nat) (f : State → State) : s.withCur k f = { f (s.atCtx k) with cur := s.cur } := rfl

@[simp] theorem State.withCur_ctx (s : State) (k : Nat) (f : State → State) (j : Nat) :
    (s.withCur k f).ctx j = (f (s.atCtx k)).ctx j := rfl
@[simp] theorem State.withCur_net (s : State) (k : Nat) (f : State → State) : (s.withCur k f).net = (f (s.atCtx k)).net := rfl
@[simp] theorem State.withCur_mem (s : State) (k : Nat) (f : State → State) : (s.withCur k f).mem = (f (s.atCtx k)).mem := rfl

/-- At the place of a context, it is the one whose turn it is. -/
@[simp] theorem State.me_atCtx (s : State) (k : Nat) : (s.atCtx k).me = s.ctx k := by
  rw [State.me, State.atCtx, placeOf_ctx]
  rfl

@[simp] theorem State.cur_atCtx (s : State) (k : Nat) : (s.atCtx k).cur = placeOf k := rfl
@[simp] theorem State.ctx_atCtx (s : State) (k j : Nat) : (s.atCtx k).ctx j = s.ctx j := rfl
@[simp] theorem State.mem_atCtx (s : State) (k : Nat) : (s.atCtx k).mem = s.mem := rfl

/-- There, a write to it is a write at its key. -/
theorem State.setMe_atCtx (s : State) (k : Nat) (c : Ctx) : (s.atCtx k).setMe c = (s.setCtx k c).atCtx k := by
  rw [State.setMe, State.cur_atCtx, placeOf_ctx]
  rfl

/-- An event that only writes a context elsewhere. -/
theorem State.withCur_setMe (s : State) (k : Nat) (c : Ctx) (f : State → State) (h : f (s.atCtx k) = (s.atCtx k).setMe c) :
    s.withCur k f = s.setCtx k c := by
  rw [State.withCur_eq, h, State.setMe_atCtx]
  rfl

/-- R294: a fault of a context with a handler free enters the handler. -/
theorem State.deliver_handling (s : State) (k : Nat) (f : Trap) (ret : BitVec 16) (hh : (s.ctx k).handler = false)
    (hv : (s.ctx k).trapvec ≠ 0) : s.deliver k f ret = s.setCtx k (Claims.handling (s.ctx k) f ret) := by
  simp only [State.deliver, hh, hv, Bool.false_or, decide_false, Bool.false_eq_true, if_false]
  rfl

/-- A context elsewhere faults in the instruction it waits in, with a handler free. -/
theorem State.ctx_withCur_failHeld (s : State) (k : Nat) (f : Trap) (hh : (s.ctx k).handler = false) (hv : (s.ctx k).trapvec ≠ 0) :
    (s.withCur k fun u => u.failHeld f).ctx k =
      Claims.handling { s.ctx k with wait := .none, heldIns := [], heldLen := 0 } f (s.ctx k).ip := by
  rw [State.withCur_ctx, State.failHeld, State.me_atCtx, State.setMe_atCtx, State.me_atCtx, State.cur_atCtx, placeOf_ctx,
    State.deliver_handling]
  · simp
  · simpa using hh
  · simpa using hv

/-! ## Entries of residencies -/

theorem State.findRes_num {s : State} {n : Nat} {r : Residency} (h : s.findRes n = some r) : r.num = n := by
  simpa using List.find?_some h

/-! ## What posting, popping and repeated operations leave as they were -/

/-- What every operation of a list keeps, all of them keep. -/
theorem foldl_keeps {σ α β : Type} (g : σ → β) (f : σ → α → σ) (h : ∀ s a, g (f s a) = g s) (l : List α) (s : σ) :
    g (l.foldl f s) = g s := by
  induction l generalizing s with
  | nil => rfl
  | cons a l ih => exact (ih _).trans (h s a)

@[simp] theorem State.post_sched (s : State) (e : EventRec) : (s.post e).sched = { s.sched with buffer := s.sched.buffer ++ [e] } := by
  unfold State.post
  dsimp only
  split <;> rfl

@[simp] theorem State.post_net (s : State) (e : EventRec) : (s.post e).net = s.net := by
  unfold State.post
  dsimp only
  split <;> rfl

@[simp] theorem State.post_conf (s : State) (e : EventRec) : (s.post e).conf = s.conf := by
  unfold State.post
  dsimp only
  split <;> rfl

@[simp] theorem State.post_mem (s : State) (e : EventRec) : (s.post e).mem = s.mem := (s.post_still e).1

theorem State.findRes_congr {s u : State} (h : u.sched.res = s.sched.res) (n : Nat) : u.findRes n = s.findRes n := by
  unfold State.findRes
  rw [h]

@[simp] theorem State.post_findRes (s : State) (e : EventRec) (n : Nat) : (s.post e).findRes n = s.findRes n :=
  State.findRes_congr (by rw [State.post_sched]) n

@[simp] theorem State.setRes_buffer (s : State) (x : Residency) : (s.setRes x).sched.buffer = s.sched.buffer := rfl

/-- The entry of a residency that is live, once it has been replaced. -/
theorem State.findRes_setRes_self {s : State} {n : Nat} {r : Residency} (h : s.findRes n = some r) (x : Residency) (hx : x.num = r.num) :
    (s.setRes x).findRes r.num = some x := by
  have hn := State.findRes_num h
  rw [State.findRes_setRes, hn, h]
  simp [hx]

@[simp] theorem State.popLane_ctxs (s : State) (t b d : Nat) : (s.popLane t b d).ctxs = s.ctxs := by
  unfold State.popLane
  dsimp only
  split <;> rfl
@[simp] theorem State.popLane_cur (s : State) (t b d : Nat) : (s.popLane t b d).cur = s.cur := by
  unfold State.popLane
  dsimp only
  split <;> rfl
@[simp] theorem State.popLane_mem (s : State) (t b d : Nat) : (s.popLane t b d).mem = s.mem := by
  unfold State.popLane
  dsimp only
  split <;> rfl

@[simp] theorem State.popPort_ctxs (s : State) (p : Nat) : (s.popPort p).ctxs = s.ctxs := by
  unfold State.popPort
  split
  · rfl
  · exact s.popLane_ctxs ..
@[simp] theorem State.popPort_cur (s : State) (p : Nat) : (s.popPort p).cur = s.cur := by
  unfold State.popPort
  split
  · rfl
  · exact s.popLane_cur ..
@[simp] theorem State.popPort_mem (s : State) (p : Nat) : (s.popPort p).mem = s.mem := by
  unfold State.popPort
  split
  · rfl
  · exact s.popLane_mem ..

@[simp] theorem State.popPorts_ctxs (s : State) (l : List Nat) : (s.popPorts l).ctxs = s.ctxs :=
  foldl_keeps State.ctxs State.popPort State.popPort_ctxs l s
@[simp] theorem State.popPorts_cur (s : State) (l : List Nat) : (s.popPorts l).cur = s.cur :=
  foldl_keeps State.cur State.popPort State.popPort_cur l s
@[simp] theorem State.popPorts_mem (s : State) (l : List Nat) : (s.popPorts l).mem = s.mem :=
  foldl_keeps State.mem State.popPort State.popPort_mem l s
@[simp] theorem State.popPorts_me (s : State) (l : List Nat) : (s.popPorts l).me = s.me := by
  simp [State.me, State.ctx]

/-- The context that completes a waiting instruction: it retires, and waits no more. -/
theorem State.me_complete (s : State) :
    s.complete.me = { s.me.retire s.me.heldLen with wait := .none, heldIns := [], heldLen := 0 } := by
  simp [State.complete]

@[simp] theorem State.complete_cur (s : State) : s.complete.cur = s.cur := by simp [State.complete]
@[simp] theorem State.complete_mem (s : State) : s.complete.mem = s.mem := by simp [State.complete]

/-- A context elsewhere completes the instruction it waits in. -/
theorem State.resumed_withCur_complete (s : State) (k : Nat) : Claims.resumed s (s.withCur k State.complete) k := by
  have hme : (s.atCtx k).complete.ctx k = (s.atCtx k).complete.me := by
    rw [State.me, State.complete_cur, State.cur_atCtx, placeOf_ctx]
  have hctx : (s.withCur k State.complete).ctx k = _ := hme.trans (s.atCtx k).me_complete
  unfold Claims.resumed
  rw [hctx, State.me_atCtx]
  exact ⟨rfl, rfl⟩

/-! ## A core's turn (R33, R34, R164) -/

/-- The two words of a latched instruction, as they were put together. -/
theorem extract_latched (v w : BitVec 32) :
    ((v ++ w).setWidth 256).extractLsb' 0 32 = w ∧ ((v ++ w).setWidth 256).extractLsb' 32 32 = v := by
  constructor
  · ext i hi
    simp [show i < 64 by omega, show i < 256 by omega]
    rw [BitVec.getElem_append]
    simp [hi]
  · ext i hi
    simp [show 32 + i < 64 by omega, show 32 + i < 256 by omega]
    rw [BitVec.getElem_append]
    simp

/-- Errors that are nowhere recorded stop no context (R377). -/
theorem State.upset_eq_false (s : State) (he : s.ctxErrors = [])
    (hb : s.badAt (storeKey s.cur.t s.me.ip.toNat) (if isWide (s.fetchWord s.cur.t s.me.ip.toNat) then 8 else 4) = false) :
    s.upset = false := by
  simp [State.upset, he, hb]

/-- An instruction whose words all lie in the partition is no fetch miss (R179). -/
theorem State.fetchMiss_eq_false (s : State) (hlo : s.me.code.base ≤ s.me.ip.toNat)
    (hhi : s.me.ip.toNat + (if isWide (s.fetchWord s.cur.t s.me.ip.toNat) then 8 else 4) ≤ s.me.code.base + s.me.code.size) :
    s.fetchMiss = false := by
  unfold State.fetchMiss Ctx.fetchMiss
  split at hhi
  · simp [*]; omega
  · simp [*]

/-- R34: a context that runs and waits for nothing executes the instruction that it fetches. -/
theorem tryContext_fetched (s : State) (i : Instr) (hrun : s.me.run = .live) (hwait : s.me.wait = .none)
    (hrec : s.me.takesRecord = false) (hstream : s.me.stream = none) (hmiss : s.fetchMiss = false) (hup : s.upset = false)
    (hi : s.fetched = some i) : tryContext s = exec i s.latch := by
  simp [tryContext, Ctx.awake, hrun, hwait, hrec, hstream, hmiss, hup, hi]

/-- R33: what the first bank examined answers decides whether the look ends with it. -/
theorem tryBanks_succ (s t : State) (tile q n b : Nat)
    (h : tryContext { s with cur := { t := tile, q := q, b := b % 4 }, issued := false } = .next t) :
    tryBanks s tile q (n + 1) b =
      if t.clash then .next t
      else if t.issued then .next (t.setCore (tile * 4 + q) { t.core (tile * 4 + q) with counter := BitVec.ofNat 2 b })
      else tryBanks t tile q n (b + 1) := by
  simp [tryBanks, h]

/-- A step of a powered machine whose next turn is a core's, or a late one, is that core's turn. -/
theorem step_coreTurn (s : State) (p : Cur) (r : List Turn) (late : Bool) (hp : s.powered = true)
    (ha : s.agenda = ⟨p, if late then .late else .core⟩ :: r) : step s = coreTurn { s with agenda := r, cur := p } p late := by
  cases late <;> simp [step, hp, liveStep, ha, runTurn]

/-- What a core's turn makes of the answer of the look at its banks (R33, R164). -/
def State.endTurn (s : State) (p : Cur) : Host.Outcome State Fault Refusal → Host.Outcome State Fault Refusal
  | .next u => .next (if u.clash then { s with agenda := behindCores ⟨p, .late⟩ s.agenda } else { u with late := false })
  | o => o

/-- A core's turn looks at its four banks, the one behind its last first (R33). -/
theorem coreTurn_eq (s : State) (p : Cur) (late : Bool) :
    coreTurn s p late =
      s.endTurn p (tryBanks { s with late := late, clash := false } p.t p.q 4 ((s.core p.core).counter.toNat + 1)) := by
  unfold coreTurn
  split <;> simp [State.endTurn, *]

/-- Settles O54: the next bank's context reaches `exec` of its instruction, and the turn goes on by what that leaves. -/
theorem stepRunsInstruction : Obligations.StepRunsInstruction := by
  intro s p r i late hp ha n c ip w v hrun hwait hrec hstream hlo hhi hdec herr hbad x behind t hx
  let y : State := { s with agenda := r, cur := { t := p.t, q := p.q, b := n % 4 }, issued := false, late := late, clash := false }
  have hfetched : y.fetched = some i := by
    have hw : y.latch.word = (v ++ w).setWidth 256 := rfl
    rw [State.fetched, hw, (extract_latched v w).1, (extract_latched v w).2, hdec]
  have hctx : tryContext y = .next t := by
    rw [tryContext_fetched y i hrun hwait hrec hstream (y.fetchMiss_eq_false hlo hhi) (y.upset_eq_false herr hbad) hfetched]
    exact hx
  have hbanks := tryBanks_succ { s with agenda := r, cur := p, late := late, clash := false } t p.t p.q 3 n hctx
  have hturn := (step_coreTurn s p r late hp ha).trans (coreTurn_eq { s with agenda := r, cur := p } p late)
  rw [hturn.trans (congrArg (State.endTurn { s with agenda := r, cur := p } p) hbanks)]
  refine ⟨fun hc => ?_, fun hc hi => ?_, fun hc hi => ?_⟩
  · simp [hc, behind, State.endTurn]
  · simp [hc, hi, State.endTurn]
  · simp only [hc, hi, Bool.false_eq_true, if_false]
    cases tryBanks t p.t p.q 3 (n + 1) <;> rfl

/-! ## The pot (R42 to R45) -/

theorem exec_borrowRequest (s : State) : exec .borrowRequest s = execBorrowRequest s := rfl
theorem exec_returnMessage (s : State) : exec .returnMessage s = execReturnMessage s := rfl
theorem exec_borrowReply (s : State) : exec .borrowReply s = execBorrowReply s := rfl
theorem exec_wquietWake (s : State) : exec .wquietWake s = execWquietWake s := rfl
theorem exec_aggregatorSend (s : State) : exec .aggregatorSend s = execAggregatorSend s := rfl

/-- A pot whose event of this cycle has been handled takes no other (R43). -/
theorem State.potEvent_of_handled (s : State) (r : Residency) (hr : s.findRes s.cur.n = some r) (hat : r.potAt = some s.cycle) :
    s.potEvent = none := by
  simp [State.potEvent, hr, hat]

/-- Without an event of its pot, the place of a residency sees nothing happen. -/
theorem potEvents_idle (s : State) (r : Residency) (hr : s.findRes s.cur.n = some r) (h : s.potEvent = none) :
    exec .borrowRequest s = .next s ∧ exec .returnMessage s = .next s := by
  have hn : ¬ (s.cur.n = 0 ∧ (s.findRes 0).isNone = true) := by
    rintro ⟨h0, hnone⟩
    simp [← h0, hr] at hnone
  simp only [exec_borrowRequest, exec_returnMessage, execBorrowRequest, execReturnMessage, h, hn, if_false, and_self]

/-- The answer of a root to a borrow (R43). -/
def State.borrowAnswer (s : State) (p : Packet) (r : Residency) : Packet :=
  let hd : Hdr := s.toTile 9 s.cur.t p.h.stile r.num
  ⟨{ hd with op := if (s.grantUnits r).1 then opGrant else opExhaust, dq := p.h.sq, dfold := p.h.sfold, info := p.h.info }, []⟩

/-- R43: a borrow is answered, with a grant or an exhaust. -/
theorem exec_borrowRequest_borrow (s : State) (p : Packet) (r : Residency) (hp : s.potEvent = some p) (hr : s.liveRes p.h.resid = some r)
    (hop : p.h.op = opBorrow) :
    exec .borrowRequest s = .next
      (((s.takeArrived s.cur.t (isPotOf s.cur.n)).grantUnits r).2.send s.cur.t (s.borrowAnswer p r)) := by
  have h1 : opBorrow ≠ opReturn := by decide
  have h2 : opBorrow ≠ opHostMessage := by decide
  have h3 : opBorrow ≠ opInject := by decide
  simp only [exec_borrowRequest, execBorrowRequest, hp, hop, h1, h2, h3, if_false, State.takeArrived_liveRes, hr]
  rfl

/-- R43: the total of a pot grows with a grant, unless it would reach 2^63. -/
theorem State.grantUnits_grant (s : State) (r : Residency) (h : r.total + 2 ^ 40 < 2 ^ 63) :
    s.grantUnits r = (true, s.setRes { r with total := r.total + 2 ^ 40, potAt := some s.cycle }) := by
  simp only [State.grantUnits, h, decide_true, if_true]

theorem State.grantUnits_exhaust (s : State) (r : Residency) (h : 2 ^ 63 ≤ r.total + 2 ^ 40) :
    s.grantUnits r = (false, s.setRes { r with potAt := some s.cycle }) := by
  simp only [State.grantUnits, Nat.not_lt.2 h, decide_false, Bool.false_eq_true, if_false]

/-- R43: a return adds its units to the pot. -/
theorem exec_returnMessage_return (s : State) (p : Packet) (r : Residency) (hp : s.potEvent = some p) (hr : s.liveRes p.h.resid = some r)
    (hop : p.h.op = opReturn) (hv : r.potValid = true) :
    exec .returnMessage s = .next ((s.takeArrived s.cur.t (isPotOf s.cur.n)).potReturn r p.h.info.toNat) := by
  simp [exec_returnMessage, execReturnMessage, hp, hop, hr, Option.filter, hv]

/-- R42: a grant reaches the borrower that sleeps for it. -/
theorem exec_borrowReply_grant (s : State) (p : Packet) (hp : s.arrived s.cur.t isPotReply = some p)
    (hw : (s.ctx p.h.info.toNat).wait = .borrow) (hr : (s.ctx p.h.info.toNat).resid = some p.h.resid) (hop : p.h.op = opGrant) :
    exec .borrowReply s = .next ((s.takeArrived s.cur.t isPotReply).setCtx p.h.info.toNat
      { s.ctx p.h.info.toNat with wait := .none, stake := (s.ctx p.h.info.toNat).stake + BitVec.ofNat 64 (2 ^ 40) }) := by
  simp only [exec_borrowReply, execBorrowReply, hp]
  congr 1
  apply State.withCur_setMe
  simp [hw, hr, hop]

/-- R42: an exhaust is the fault of the borrower that sleeps. -/
theorem exec_borrowReply_exhaust (s : State) (p : Packet) (hp : s.arrived s.cur.t isPotReply = some p)
    (hw : (s.ctx p.h.info.toNat).wait = .borrow) (hr : (s.ctx p.h.info.toNat).resid = some p.h.resid) (hop : p.h.op = opExhaust) :
    exec .borrowReply s = .next ((s.takeArrived s.cur.t isPotReply).withCur p.h.info.toNat fun u => u.failHeld ⟨0x26, 0, 0⟩) := by
  have h1 : opExhaust ≠ opGrant := by decide
  simp [exec_borrowReply, execBorrowReply, hp, State.withCur_eq, hw, hr, hop, h1]

/-- R45: a root asleep in `wquiet` wakes behind an event that left its pot full, and not before. -/
theorem exec_wquietWake_eq (s : State) (r : Residency) (hw : s.me.wait = .wquiet) (hr : s.myRes = some r) :
    exec .wquietWake s = .next (if r.full.any fun c => decide (c < s.cycle) then s.complete else s) := by
  simp [exec_wquietWake, execWquietWake, hw, hr]

/-- R42, R43, R45: the packets of the pot, one after the other. -/
theorem potEvents : Parts.PotEvents := by
  refine ⟨?_, ?_, ?_, ?_, ?_⟩
  · rintro s ⟨r, hr, hat⟩
    exact potEvents_idle s r hr (s.potEvent_of_handled r hr hat)
  · intro s p r hp hr
    refine ⟨fun hop => ⟨_, _, exec_borrowRequest_borrow s p r hp hr hop, State.send_net .., rfl, rfl, rfl, rfl, ?_, ?_⟩, ?_⟩
    · intro ht
      simp [State.grantUnits_grant _ r ht, State.borrowAnswer, State.flight]
      rfl
    · intro ht
      simp [State.grantUnits_exhaust _ r ht, State.borrowAnswer, State.flight]
      rfl
    · intro hop hv
      exact exec_returnMessage_return s p r hp hr hop hv
  · intro s p hp k _ hw hr hop
    exact exec_borrowReply_grant s p hp hw hr hop
  · intro s p hp k _ hw hr hop hh hv
    exact ⟨_, exec_borrowReply_exhaust s p hp hw hr hop, State.ctx_withCur_failHeld (s.takeArrived _ _) k _ hh hv⟩
  · intro s r hw hr
    refine ⟨fun c hf hc => ?_, ?_⟩
    · simp [exec_wquietWake_eq s r hw hr, hf, hc]
    · rintro (hf | hf) <;> simp [exec_wquietWake_eq s r hw hr, hf]

/-- The aggregator of a residency after its units have left (R44). -/
theorem find_emptied (l : List Agg) (n cycle : Nat) (a : Agg) (h : l.find? (fun x => x.resid == n) = some a) :
    (l.map fun b => if b.resid == a.resid then ⟨a.resid, 0, cycle⟩ else b).find? (fun x => x.resid == n) = some ⟨a.resid, 0, cycle⟩ := by
  have ha : a.resid = n := by simpa using List.find?_some h
  induction l with
  | nil => simp at h
  | cons b l ih =>
    by_cases hb : b.resid = n
    · simp [ha, hb]
    · simp only [List.find?_cons, beq_eq_false_iff_ne.2 hb] at h
      simpa [ha, hb] using ih h

/-- A tile whose aggregator of a residency is empty, since this cycle. -/
def State.emptyAgg (s : State) (t : Nat) (a : Agg) : State :=
  s.setTile t { s.tile t with aggs := (s.tile t).aggs.map fun b => if b.resid == a.resid then ⟨a.resid, 0, s.cycle⟩ else b }

/-- The return of an aggregator's units to the root (R44). -/
def State.aggPacket (s : State) (t : Nat) (a : Agg) (r : Residency) : Packet :=
  ⟨{ s.toTile 9 t r.rootTile r.num with op := opReturn, info := BitVec.ofNat 64 a.sum }, []⟩

/-- R44: an aggregator whose units are due sends them. -/
theorem exec_aggregatorSend_due (s : State) (a : Agg) (r : Residency)
    (ha : (s.tile s.cur.t).aggs.find? (fun x => x.resid == s.cur.n) = some a) (hr : s.liveRes s.cur.n = some r) (hsum : a.sum ≠ 0)
    (hdue : s.quietTile s.cur.t a.resid = true ∨ 2 ^ 48 ≤ a.sum ∨ a.last + 4096 ≤ s.cycle) :
    exec .aggregatorSend s = .next ((s.emptyAgg s.cur.t a).send s.cur.t (s.aggPacket s.cur.t a r)) := by
  simp only [exec_aggregatorSend, execAggregatorSend, ha, hr, ne_eq, hsum, not_false_eq_true, hdue, and_self, if_true]
  rfl

/-- R44: what a tile's aggregator sends, and that it is empty then. -/
theorem aggregatorReturns : Parts.AggregatorReturns := by
  intro s a r ha hr hsum hdue
  refine ⟨_, _, exec_aggregatorSend_due s a r ha hr hsum hdue, State.send_net .., rfl, rfl, rfl, rfl, ?_⟩
  simpa [State.emptyAgg] using find_emptied _ _ _ _ ha

/-- Settles O30: one lemma for each packet of the pot, and the aggregator's return. -/
theorem potReturns : Obligations.PotReturns := ⟨potEvents, aggregatorReturns⟩

/-! ## Stealing of tasks and arrival of messages (R38 to R40) -/

theorem exec_stealPassWait (s : State) : exec .stealPassWait s = execStealPassWait s := rfl
theorem exec_stealRequest (s : State) : exec .stealRequest s = execStealRequest s := rfl
theorem exec_stealResponse (s : State) : exec .stealResponse s = execStealResponse s := rfl
theorem exec_activeMessageArrival (s : State) : exec .activeMessageArrival s = execActiveMessageArrival s := rfl

/-- A steal request of the context whose turn it is. -/
def State.stealAsk (s : State) (r : Residency) (v : Nat) : Packet :=
  ⟨{ s.toTile 7 s.cur.t v r.num with sq := s.cur.q, sfold := s.me.fold, info := BitVec.ofNat 64 s.cur.ctx }, []⟩

/-- R39: the pass goes on with the victim at a position of its order, -/
theorem State.askVictim_some (s : State) (r : Residency) (pos v : Nat) (h : (s.victims r s.cur.t)[pos]? = some v) :
    s.askVictim r pos = (s.setMe { s.me with steal := .asking pos }).send s.cur.t (s.stealAsk r v) := by
  simp only [State.askVictim, h]
  rfl

/-- or it has found nothing, and the thief rests. -/
theorem State.askVictim_none (s : State) (r : Residency) (pos : Nat) (h : (s.victims r s.cur.t)[pos]? = none) :
    s.askVictim r pos = s.setMe { s.me with steal := .resting (s.cycle + 256) } := by
  simp only [State.askVictim, h]

/-- A thief elsewhere asks the next victim. -/
theorem State.withCur_askVictim (s : State) (k : Nat) (r : Residency) (pos v : Nat) (h : (s.victims r (k / 16))[pos]? = some v) :
    ∃ f : Flight, (s.withCur k fun u => u.askVictim r pos).net = s.net ++ [f] ∧ f.p.h.kind = 7 ∧ f.p.h.dst = v ∧
      (s.withCur k fun u => u.askVictim r pos).ctx k = { s.ctx k with steal := .asking pos } := by
  rw [State.withCur_net, State.withCur_ctx, (s.atCtx k).askVictim_some r pos v h]
  exact ⟨_, State.send_net .., rfl, rfl, by simp [State.setMe_atCtx]⟩

/-- A thief elsewhere rests. -/
theorem State.withCur_askVictim_none (s : State) (k : Nat) (r : Residency) (pos : Nat) (h : (s.victims r (k / 16))[pos]? = none) :
    (s.withCur k fun u => u.askVictim r pos) = s.setCtx k { s.ctx k with steal := .resting (s.cycle + 256) } := by
  apply State.withCur_setMe
  rw [(s.atCtx k).askVictim_none r pos h, State.me_atCtx]
  rfl

/-- R39: an idle worker that is not asking begins a pass. -/
theorem exec_stealPassWait_start (s : State) (n : Nat) (r : Residency) (hrun : s.me.run = .idle) (hres : s.me.resid = some n)
    (hr : s.liveRes n = some r) (hs : s.me.steal = .start) : exec .stealPassWait s = .next (s.askVictim r 0) := by
  simp [exec_stealPassWait, execStealPassWait, hrun, hres, hr, hs]

/-- Has a deque nothing for a thief: no record, or a top record that waits for its stores? -/
def State.bareDeque (s : State) (k : Nat) : Prop :=
  match (s.ctx k).deque with
  | x :: _ => x.waits ≠ []
  | [] => (s.ctx k).ring.count = 0

theorem State.topTask_bare (s : State) (k : Nat) (h : s.bareDeque k) : s.topTask k = .empty s := by
  unfold State.bareDeque at h
  unfold State.topTask
  split at h <;> simp_all

/-- R39: deques that have nothing for a thief are passed over. -/
theorem State.topOf_bare (s : State) (l m : List Nat) (h : ∀ j ∈ l, s.bareDeque j) : s.topOf (l ++ m) = s.topOf m := by
  induction l with
  | nil => rfl
  | cons j l ih =>
    have hl := ih fun i hi => h i (List.mem_cons_of_mem _ hi)
    simpa [State.topOf, s.topTask_bare j (h j List.mem_cons_self)] using hl

/-- R38: the top record of a deque whose stores are performed is taken from it. -/
theorem State.topOf_task (s : State) (k : Nat) (m : List Nat) (x : Task) (rest : List Task) (hd : (s.ctx k).deque = x :: rest)
    (hw : x.waits = []) : s.topOf (k :: m) = .task (s.setCtx k { s.ctx k with deque := rest }) x := by
  simp [State.topOf, State.topTask, hd, hw]

/-- The answer to a steal request: with a record, or empty. -/
def State.stealAnswer (s : State) (p : Packet) (r : Residency) (x : Option Task) : Packet :=
  let hd : Hdr := { s.toTile 8 s.cur.t p.h.stile r.num with dq := p.h.sq, dfold := p.h.sfold, info := p.h.info }
  match x with
  | none => ⟨{ hd with op := opEmpty }, []⟩
  | some x => ⟨{ hd with op := opRecord, addr := x.entry }, [x.bits]⟩

section
variable (s u : State) (p : Packet) (r : Residency) (hp : s.arrived s.cur.t (fun p => p.h.kind == 7) = some p)
  (hr : s.liveRes p.h.resid = some r)
include hp hr

/-- R39: a victim answers with the record it has found, -/
theorem exec_stealRequest_task (x : Task)
    (h : (s.takeArrived s.cur.t (fun p => p.h.kind == 7)).topOf (s.ctxsOf s.cur.t r) = .task u x) :
    exec .stealRequest s = .next (u.send s.cur.t (s.stealAnswer p r (some x))) := by
  simp only [exec_stealRequest, execStealRequest, hp, State.takeArrived_liveRes, hr, h]
  rfl

/-- or with none. -/
theorem exec_stealRequest_empty (h : (s.takeArrived s.cur.t (fun p => p.h.kind == 7)).topOf (s.ctxsOf s.cur.t r) = .empty u) :
    exec .stealRequest s = .next (u.send s.cur.t (s.stealAnswer p r none)) := by
  simp only [exec_stealRequest, execStealRequest, hp, State.takeArrived_liveRes, hr, h]
  rfl

end

section
variable (s : State) (p : Packet) (r : Residency) (hp : s.arrived s.cur.t (fun p => p.h.kind == 8) = some p)
  (hr : s.liveRes p.h.resid = some r) (hres : (s.ctx p.h.info.toNat).resid = some r.num) (hrun : (s.ctx p.h.info.toNat).run = .idle)
include hp hr hres hrun

/-- R39: an idle thief starts the record it is given. -/
theorem exec_stealResponse_record (hop : p.h.op = opRecord) :
    exec .stealResponse s = .next ((s.takeArrived s.cur.t (fun p => p.h.kind == 8)).setCtx p.h.info.toNat
      ((s.ctx p.h.info.toNat).startTask (Task.ofBits (p.pay.headD 0)))) := by
  simp only [exec_stealResponse, execStealResponse, hp, State.takeArrived_liveRes, hr]
  congr 1
  apply State.withCur_setMe
  simp [hres, hrun, hop]

/-- On an empty answer it goes on with its pass. -/
theorem exec_stealResponse_empty (pos : Nat) (hop : p.h.op = opEmpty) (hs : (s.ctx p.h.info.toNat).steal = .asking pos) :
    exec .stealResponse s = .next ((s.takeArrived s.cur.t (fun p => p.h.kind == 8)).withCur p.h.info.toNat
      fun u => u.askVictim r (pos + 1)) := by
  have h1 : opEmpty ≠ opRecord := by decide
  simp only [exec_stealResponse, execStealResponse, hp, State.takeArrived_liveRes, hr]
  simp [State.withCur_eq, hres, hrun, hop, h1, hs]

end

/-- R39: the steal events, packet by packet. -/
theorem stealEvents : Parts.StealEvents := by
  refine ⟨?_, ?_, ?_⟩
  · intro s n r hrun hres hr hs
    rw [exec_stealPassWait_start s n r hrun hres hr hs]
    refine ⟨fun v hv => ?_, fun hv => ?_⟩
    · rw [State.askVictim_some s r 0 v hv]
      exact ⟨_, _, rfl, State.send_net .., rfl, rfl, by simp⟩
    · rw [State.askVictim_none s r 0 (by simp [hv])]
  · intro s p r hp hr bare
    refine ⟨fun l m k x rest hk hl hd hw => ?_, fun hl => ?_, fun u x hu => ?_⟩
    · let u := s.takeArrived s.cur.t fun p => p.h.kind == 7
      have hbare := (u.topOf_bare l (k :: m) hl).trans (u.topOf_task k m x rest hd hw)
      rw [← hk] at hbare
      exact ⟨_, _, exec_stealRequest_task s _ p r hp hr x hbare, State.send_net .., rfl, rfl, rfl, rfl, by simp [u]⟩
    · have hbare := (s.takeArrived s.cur.t fun p => p.h.kind == 7).topOf_bare _ [] hl
      rw [List.append_nil] at hbare
      exact ⟨_, _, exec_stealRequest_empty s _ p r hp hr hbare, State.send_net .., rfl, rfl, rfl, rfl⟩
    · exact ⟨_, _, exec_stealRequest_task s u p r hp hr x hu, State.send_net .., rfl, rfl, rfl, rfl⟩
  · intro s p r hp hr k u _ hres hrun
    refine ⟨exec_stealResponse_record s p r hp hr hres hrun, fun pos hop hs => ?_⟩
    rw [exec_stealResponse_empty s p r hp hr hres hrun pos hop hs]
    exact ⟨fun hv => congrArg _ (u.withCur_askVictim_none k r _ hv),
      fun v hv => ⟨_, (u.withCur_askVictim k r _ v hv).imp fun _ h => ⟨rfl, h⟩⟩⟩

/-- R40: with room in the hardware deque a record needs no spill. -/
theorem State.dequeRoom_of_lt (s : State) (k : Nat) (h : (s.ctx k).deque.length < 64) : s.dequeRoom k = .ok s := by
  simp [State.dequeRoom, h]

/-- A message that is no host injection is not captured, and no replay orders it (R390). -/
theorem State.injectGate_pass (s : State) (t : Nat) (p : Packet) (h : p.h.op ≠ opHostMessage) : s.injectGate t p = .pass s := by
  simp [State.injectGate, h]

section
variable (s : State) (p : Packet) (r : Residency) (k : Nat) (hp : s.arrived s.cur.t (s.isMessage s.cur.t) = some p)
  (hop : p.h.op = opMessage) (hr : s.liveRes p.h.resid = some r) (hin : s.inResidency r (s.cur.t * 4 + p.h.dq) p.h.dfold = true)
  (hk : (s.cur.t * 4 + p.h.dq) * 4 + r.banks.getD p.h.dfold 0 = k)
include hp hop hr hin hk

/-- R40: a message starts its task at an idle worker. -/
theorem exec_activeMessageArrival_idle (hrun : (s.ctx k).run = .idle) :
    exec .activeMessageArrival s = .next ((s.takeArrived s.cur.t (s.isMessage s.cur.t)).setCtx k
      ((s.ctx k).startTask (Task.ofBits (p.pay.headD 0)))) := by
  have hinj : opMessage ≠ opInject := by decide
  have hhost : p.h.op ≠ opHostMessage := by rw [hop]; decide
  simp only [exec_activeMessageArrival, execActiveMessageArrival, hp, hr, hin, hop, hinj, false_and, if_false,
    State.injectGate_pass _ _ p hhost, State.takeArrived_ctx, hk, hrun, if_true, Bool.true_eq_false]

/-- R40: at a context that runs, it joins a deque that has room. -/
theorem exec_activeMessageArrival_live (hrun : (s.ctx k).run = .live) (hlen : (s.ctx k).deque.length < 64) :
    exec .activeMessageArrival s = .next ((s.takeArrived s.cur.t (s.isMessage s.cur.t)).pushTask k (Task.ofBits (p.pay.headD 0))) := by
  have hinj : opMessage ≠ opInject := by decide
  have hhost : p.h.op ≠ opHostMessage := by rw [hop]; decide
  have hroom := (s.takeArrived s.cur.t (s.isMessage s.cur.t)).dequeRoom_of_lt k hlen
  simp only [exec_activeMessageArrival, execActiveMessageArrival, hp, hr, hin, hop, hinj, false_and, if_false,
    State.injectGate_pass _ _ p hhost, State.takeArrived_ctx, hk, hrun, hroom, Bool.true_eq_false, reduceCtorEq]

end

/-- R40: a message starts an idle worker, or joins a deque that has room. -/
theorem messageArrival : Parts.MessageArrival := fun s p r hp hop hr _ hin =>
  ⟨fun hrun => exec_activeMessageArrival_idle s p r _ hp hop hr hin rfl hrun,
    fun hrun hlen _ => exec_activeMessageArrival_live s p r _ hp hop hr hin rfl hrun hlen⟩

/-- Settles O31: the steal events and the arrival of messages. -/
theorem stealsAndMessages : Obligations.StealsAndMessages := ⟨stealEvents, messageArrival⟩

/-! ## Commit, watchdog and fault reports (R48, R50, R374, R377, R381) -/

theorem exec_commitRequest (s : State) : exec .commitRequest s = execCommitRequest s := rfl
theorem exec_commitReply (s : State) : exec .commitReply s = execCommitReply s := rfl
theorem exec_watchdogExpiry (s : State) : exec .watchdogExpiry s = execWatchdogExpiry s := rfl
theorem exec_faultReport (s : State) : exec .faultReport s = execFaultReport s := rfl

/-- The scheduler's answer to a commit request. -/
def State.commitAnswer (s : State) (p : Packet) (r : Residency) : Packet :=
  ⟨{ s.toTile 12 0 p.h.stile r.num with op := opCommitReply, info := p.h.info }, []⟩

/-- R48: a commit request of a running residency marks it, and is answered. -/
theorem exec_commitRequest_running (s : State) (p : Packet) (r : Residency) (hp : s.arrived 4097 isCommit = some p)
    (hr : s.findRes p.h.resid = some r) (hrun : r.running = true) :
    exec .commitRequest s = .next (((s.takeArrived 4097 isCommit).setRes { r with state := .committed }).send 0 (s.commitAnswer p r)) := by
  simp only [exec_commitRequest, execCommitRequest, hp, State.takeArrived_findRes, hr, Option.filter_some, hrun, if_true]
  rfl

/-- R48: the answer completes the `commit` that its context waits in. -/
theorem exec_commitReply_waiting (s : State) (p : Packet) (hp : s.arrived s.cur.t isCommitReply = some p)
    (hw : (s.ctx p.h.info.toNat).wait = .commit) (hr : (s.ctx p.h.info.toNat).resid = some p.h.resid) :
    exec .commitReply s = .next ((s.takeArrived s.cur.t isCommitReply).withCur p.h.info.toNat State.complete) := by
  simp [exec_commitReply, execCommitReply, hp, State.withCur_eq, hw, hr]

/-- R374: the entry of a residency that is to be discarded. -/
theorem State.decideDiscard_decided (s : State) (r : Residency) (n reason : Nat) (h : s.findRes n = some r) :
    Claims.decided (s.decideDiscard r reason) r.num .discarding reason :=
  ⟨_, State.findRes_setRes_self h _ rfl, rfl, rfl⟩

/-- The record of a residency's fault (R377). -/
def Residency.faultEvent (r : Residency) (d0 d1 d2 : W64) : EventRec := ⟨r.cand.queue, d0, d1, d2⟩

/-- The entry of a residency that is faulted (R377); its record waits while the scheduler's buffer is `full`. -/
def Residency.faulted (r : Residency) (reason : Nat) (d0 d1 d2 : W64) (full : Bool) : Residency :=
  { r with
    state := .faulting, reason := reason, step := 0, faultWord := d0 &&& 0x00FFFFFFFFFFFFFF#64
    event := if full then some (r.faultEvent d0 d1 d2) else none }

/-- The entry of a residency is faulted, and its load that has not ended is abandoned. -/
def State.faultEntry (s : State) (r x : Residency) : State :=
  (s.setRes x).setSched { (s.setRes x).sched with loads := s.sched.loads.filter fun j => j.resid != r.num || j.shadow }

/-- R375, R377: a residency is faulted, and its record posted where the buffer has room. -/
theorem State.decideFault_eq (s : State) (r : Residency) (reason : Nat) (d0 d1 d2 : W64) :
    s.decideFault r reason d0 d1 d2 =
      let u := s.faultEntry r (r.faulted reason d0 d1 d2 s.bufferFull)
      if s.bufferFull then u else u.post (r.faultEvent d0 d1 d2) := rfl

section
variable (s : State) (r : Residency) (n reason : Nat) (d0 d1 d2 : W64)

theorem State.decideFault_findRes (h : s.findRes n = some r) :
    (s.decideFault r reason d0 d1 d2).findRes r.num = some (r.faulted reason d0 d1 d2 s.bufferFull) := by
  rw [State.decideFault_eq]
  dsimp only
  have hset := State.findRes_setRes_self h (r.faulted reason d0 d1 d2 s.bufferFull) rfl
  split
  · exact hset
  · exact (State.post_findRes ..).trans hset

theorem State.decideFault_decided (h : s.findRes n = some r) :
    Claims.decided (s.decideFault r reason d0 d1 d2) r.num .faulting reason :=
  ⟨_, s.decideFault_findRes r n reason d0 d1 d2 h, rfl, rfl⟩

theorem State.decideFault_mem : (s.decideFault r reason d0 d1 d2).mem = s.mem := by
  rw [State.decideFault_eq]
  dsimp only
  split
  · rfl
  · exact State.post_mem ..

/-- R375: the record of a fault enters the buffer at once, or stays with the entry while that is full. -/
theorem State.decideFault_buffer :
    (s.decideFault r reason d0 d1 d2).sched.buffer = if s.bufferFull then s.sched.buffer else s.sched.buffer ++ [r.faultEvent d0 d1 d2] := by
  rw [State.decideFault_eq]
  dsimp only
  split
  · rfl
  · rw [State.post_sched]
    rfl

end

/-- R50: the watchdog of a residency that runs, with its count at the limit. -/
theorem exec_watchdogExpiry_due (s : State) (r : Residency) (hr : s.findRes s.cur.n = some r) (hrun : r.running = true)
    (hw : r.cand.watchdog ≠ 0) (hc : r.startCycle + r.cand.watchdog ≤ s.cycle) :
    exec .watchdogExpiry s = .next
      (if r.state = .committed then s.decideFault r 5 (r.eventHead 0x10 5 0) 0 0 else s.decideDiscard r 2) := by
  simp [exec_watchdogExpiry, execWatchdogExpiry, hr, Option.filter_some, hrun, hw, Nat.not_lt.2 hc]

theorem exec_watchdogExpiry_off (s : State) (r : Residency) (hr : s.findRes s.cur.n = some r) (hw : r.cand.watchdog = 0) :
    exec .watchdogExpiry s = .next s := by
  cases hrun : r.running <;> simp [exec_watchdogExpiry, execWatchdogExpiry, hr, Option.filter_some, hrun, hw]

/-- Of two reports, that of the lower tile; of equals the first. -/
def lowerTile (a b : Packet) : Packet := if b.h.stile < a.h.stile then b else a

/-- The report that a choice of the lowest tile leaves is one of those it saw, and no tile of theirs is lower (R381). -/
theorem foldl_lowerTile (l : List Packet) (p : Packet) :
    l.foldl lowerTile p ∈ p :: l ∧ ∀ x ∈ p :: l, (l.foldl lowerTile p).h.stile ≤ x.h.stile := by
  induction l generalizing p with
  | nil => simp
  | cons b l ih =>
    obtain ⟨hmem, hle⟩ := ih (lowerTile p b)
    have hlow : lowerTile p b ∈ [p, b] ∧ (lowerTile p b).h.stile ≤ p.h.stile ∧ (lowerTile p b).h.stile ≤ b.h.stile := by
      unfold lowerTile
      split
      · simp; omega
      · simp; omega
    obtain ⟨hin, hlp, hlb⟩ := hlow
    have hfold := hle _ List.mem_cons_self
    simp only [List.foldl_cons, List.mem_cons, List.not_mem_nil, or_false] at hmem hin ⊢
    refine ⟨?_, ?_⟩
    · rcases hmem with h | h
      · rw [h]
        exact hin.imp_right .inl
      · exact .inr (.inr h)
    rintro x (rfl | rfl | hx)
    · exact hfold.trans hlp
    · exact hfold.trans hlb
    · exact hle x (List.mem_cons_of_mem _ hx)

/-- The fault reports of a residency that have arrived at the scheduler. -/
def State.reportsOf (s : State) (r : Nat) : List Packet :=
  (s.inbox.filter fun x => x.node == 4097 && isFault x.p && x.p.h.resid == r).map Arrived.p

/-- They leave the inbox together. -/
def State.takeReports (s : State) (r : Nat) : State :=
  { s with inbox := s.inbox.filter fun x => !(x.node == 4097 && isFault x.p && x.p.h.resid == r) }

theorem State.takeReports_findRes (s : State) (r n : Nat) : (s.takeReports r).findRes n = s.findRes n := rfl

/-- A field of a field of a word is a field of it. -/
theorem extract_extract {w : Nat} (x : BitVec w) (a n b m : Nat) (h : b + m ≤ n) :
    (x.extractLsb' a n).extractLsb' b m = x.extractLsb' (a + b) m := by
  ext i hi
  simp [show b + i < n by omega, Nat.add_assoc]

theorem State.mem_reportsOf {s : State} {r : Nat} {q : Packet} :
    q ∈ s.reportsOf r ↔ (⟨4097, q⟩ : Arrived) ∈ s.inbox ∧ isFault q = true ∧ q.h.resid = r := by
  unfold State.reportsOf
  simp only [List.mem_map, List.mem_filter, Bool.and_eq_true, beq_iff_eq]
  constructor
  · rintro ⟨⟨n, x⟩, ⟨hx, ⟨hn, hf⟩, hr⟩, rfl⟩
    exact ⟨hn ▸ hx, hf, hr⟩
  · rintro ⟨hx, hf, hr⟩
    exact ⟨_, ⟨hx, ⟨rfl, hf⟩, hr⟩, rfl⟩

/-- R381: the report that counts is that of the lowest tile. -/
theorem State.lowest_report (s : State) (p q : Packet) (hp : s.arrived 4097 isFault = some p) (hq : (⟨4097, q⟩ : Arrived) ∈ s.inbox)
    (hf : isFault q = true) (hr : q.h.resid = p.h.resid)
    (hlow : ∀ x ∈ s.inbox, x.node = 4097 → isFault x.p = true → x.p.h.resid = p.h.resid → x.p = q ∨ q.h.stile < x.p.h.stile) :
    (s.reportsOf p.h.resid).foldl lowerTile p = q := by
  obtain ⟨hpin, hpf⟩ := State.arrived_mem hp
  have hpm : p ∈ s.reportsOf p.h.resid := State.mem_reportsOf.2 ⟨hpin, hpf, rfl⟩
  have hqm : q ∈ s.reportsOf p.h.resid := State.mem_reportsOf.2 ⟨hq, hf, hr⟩
  obtain ⟨hmem, hle⟩ := foldl_lowerTile (s.reportsOf p.h.resid) p
  have hm : (s.reportsOf p.h.resid).foldl lowerTile p ∈ s.reportsOf p.h.resid := by
    rcases List.mem_cons.1 hmem with h | h
    · rw [h]
      exact hpm
    · exact h
  obtain ⟨hin, hfm, hrm⟩ := State.mem_reportsOf.1 hm
  rcases hlow _ hin rfl hfm hrm with h | h
  · exact h
  · exact absurd (hle q (List.mem_cons_of_mem _ hqm)) (Nat.not_le.2 h)

section
variable (s : State) (p q : Packet) (hp : s.arrived 4097 isFault = some p) (hq : (s.reportsOf p.h.resid).foldl lowerTile p = q)
include hp hq

/-- R374, R377: the report faults the residency, if it runs. -/
theorem exec_faultReport_eq :
    exec .faultReport s = .next
      (((s.findRes p.h.resid).filter Residency.running).elim (s.takeReports p.h.resid) fun r =>
        (s.takeReports p.h.resid).decideFault r ((q.pay.headD 0).extractLsb' 240 8).toNat
          ((q.pay.headD 0).extractLsb' 192 64) ((q.pay.headD 0).extractLsb' 128 64) ((q.pay.headD 0).extractLsb' 64 64)) := by
  subst hq
  rw [exec_faultReport, execFaultReport, hp, ← State.takeReports_findRes s p.h.resid, ← extract_extract _ 192 64 48 8 (by decide)]
  dsimp only [State.takeReports]
  cases Option.filter Residency.running _ <;> rfl

end

/-- R377, R374, R381: of the reports for a residency one counts, and only while it runs. -/
theorem faultReports (s : State) (p q : Packet) (hp : s.arrived 4097 isFault = some p) (hq : (⟨4097, q⟩ : Arrived) ∈ s.inbox)
    (hf : isFault q = true) (hr : q.h.resid = p.h.resid)
    (hlow : ∀ x ∈ s.inbox, x.node = 4097 → isFault x.p = true → x.p.h.resid = p.h.resid → x.p = q ∨ q.h.stile < x.p.h.stile) :
    let w := q.pay.headD 0
    let e : EventRec := ⟨((s.findRes p.h.resid).map fun r => r.cand.queue).getD 0, w.extractLsb' 192 64, w.extractLsb' 128 64, w.extractLsb' 64 64⟩
    (∀ r, s.findRes p.h.resid = some r → r.running = true → ∃ t, exec .faultReport s = .next t ∧ t.mem = s.mem ∧
      Claims.decided t r.num .faulting (w.extractLsb' 240 8).toNat ∧
      (s.sched.buffer.length < 64 → t.sched.buffer = s.sched.buffer ++ [e]) ∧
      (64 ≤ s.sched.buffer.length → t.sched.buffer = s.sched.buffer ∧ (t.findRes r.num).bind Residency.event = some e)) ∧
    ((s.findRes p.h.resid).filter Residency.running = none → ∃ t, exec .faultReport s = .next t ∧ t.sched = s.sched ∧ t.mem = s.mem) := by
  intro w e
  have hexec := exec_faultReport_eq s p q hp (s.lowest_report p q hp hq hf hr hlow)
  refine ⟨fun r hfind hrun => ?_, fun hnone => ?_⟩
  · rw [hfind, Option.filter_some, if_pos hrun] at hexec
    have he : e = r.faultEvent (w.extractLsb' 192 64) (w.extractLsb' 128 64) (w.extractLsb' 64 64) := by simp [e, hfind, Residency.faultEvent]
    refine ⟨_, hexec, State.decideFault_mem .., State.decideFault_decided _ r _ _ _ _ _ hfind, fun hlt => ?_, fun hle => ?_⟩
    · have hfull : (s.takeReports p.h.resid).bufferFull = false := decide_eq_false (Nat.not_le.2 hlt)
      simp only [Option.elim, State.decideFault_buffer, hfull, he]
      rfl
    · have hfull : (s.takeReports p.h.resid).bufferFull = true := decide_eq_true hle
      have hentry := State.decideFault_findRes (s.takeReports p.h.resid) r p.h.resid (w.extractLsb' 240 8).toNat (w.extractLsb' 192 64)
        (w.extractLsb' 128 64) (w.extractLsb' 64 64) hfind
      refine ⟨(State.decideFault_buffer ..).trans (if_pos hfull), (congrArg (Option.bind · Residency.event) hentry).trans ?_⟩
      rw [hfull, he]
      rfl
  · rw [hnone] at hexec
    exact ⟨_, hexec, rfl, rfl⟩

/-! ## Requests for spill service (R378) -/

/-- The kind of an event stands at the top of its dword 0 (R375). -/
theorem eventWord_kind (kind spec r t q b low : Nat) : (eventWord kind spec r t q b low).extractLsb' 56 8 = BitVec.ofNat 8 kind := by
  unfold eventWord
  iterate 6 rw [BitVec.extractLsb'_append_eq_of_le (by decide)]
  exact BitVec.extractLsb'_eq_self

theorem exec_spillFault (s : State) : exec .spillFault s = execSpillFault s := rfl

/-- A fresh tag is none of those in use. -/
theorem freshTag_not_mem (used : List Nat) (k : Nat) : freshTag used k ∉ used := by
  unfold freshTag
  split
  · rename_i h
    simpa using h
  · cases hf : (List.range (used.length + 1)).find? fun j => !used.contains j with
    | some j => simpa using List.find?_some hf
    | none =>
      have hsub : List.range (used.length + 1) ⊆ used := fun j hj => by simpa using List.find?_eq_none.1 hf j hj
      have hlen := (List.nodup_range.subperm hsub).length_le
      simp at hlen

/-- The tags of a residency's outstanding requests are in use. -/
theorem State.mem_usedTags (s : State) (y : SpillReq) (n : Nat) (hy : y ∈ s.sched.spills) (ht : y.tag = some n) :
    n ∈ s.usedTags y.resid := by
  have ho : n ∈ s.sched.spills.filterMap fun z => if z.resid = y.resid then z.tag else none :=
    List.mem_filterMap.2 ⟨y, hy, by simp [ht]⟩
  have hboth : ∀ g : List Nat, n ∈ if 2 ^ 16 - 1 ≤ g.length then (_ : List Nat) else g ++ _ := fun g => by
    split
    · exact ho
    · exact List.mem_append_right _ ho
  exact hboth _

/-- The tag that a request for spill service is given. -/
def State.spillTag (s : State) (x : SpillReq) : Nat := freshTag (s.usedTags x.resid) (Config.serviceTag s.free).toNat

/-- The request of a party, once it is tagged; others stay. -/
def SpillReq.tagIf (x : SpillReq) (n : Nat) (y : SpillReq) : SpillReq :=
  if y.tile = x.tile ∧ y.party = x.party ∧ y.key = x.key ∧ y.queue = x.queue ∧ y.tag = none then { y with tag := some n } else y

/-- The tag is given, and kept among those of the residency. -/
def State.tagSpill (s : State) (x : SpillReq) (n : Nat) : State :=
  let u : State := { s with
    free := s.free + 1
    sched := { s.sched with spills := s.sched.spills.map (x.tagIf n) } }
  match u.findRes x.resid with
  | none => u
  | some r => u.setRes { r with tags := n :: r.tags }

theorem State.tagSpill_mem (s : State) (x : SpillReq) (n : Nat) : (s.tagSpill x n).mem = s.mem := by
  unfold State.tagSpill
  dsimp only
  split <;> rfl

theorem State.tagSpill_buffer (s : State) (x : SpillReq) (n : Nat) : (s.tagSpill x n).sched.buffer = s.sched.buffer := by
  unfold State.tagSpill
  dsimp only
  split <;> rfl

/-- The request that is tagged is then outstanding with its tag. -/
theorem State.mem_tagSpill (s : State) (x : SpillReq) (n : Nat) (hx : x ∈ s.sched.spills) (ht : x.tag = none) :
    { x with tag := some n } ∈ (s.tagSpill x n).sched.spills := by
  have hmap : (s.tagSpill x n).sched.spills = s.sched.spills.map (x.tagIf n) := by
    unfold State.tagSpill
    dsimp only
    split <;> rfl
  rw [hmap]
  exact List.mem_map.2 ⟨x, hx, by simp [SpillReq.tagIf, ht]⟩

/-- The record of a request for spill service (R378). -/
def State.spillEvent (s : State) (x : SpillReq) (n : Nat) : EventRec :=
  let p : Cur := if x.party = 2 then { b := (s.bank x.tile x.queue).owner.getD 0 } else placeOf x.key
  ⟨(s.tagSpill x n).queueOf x.resid, eventWord 0x16 x.party x.resid x.tile p.q p.b x.queue, x.va, BitVec.ofNat 64 n⟩

/-- R378: the oldest request without a tag is given one, and posted. -/
theorem exec_spillFault_eq (s : State) (x : SpillReq) (hlen : s.sched.buffer.length < 64)
    (hx : s.sched.spills.find? (fun x => x.tag.isNone) = some x) :
    exec .spillFault s = .next ((s.tagSpill x (s.spillTag x)).post (s.spillEvent x (s.spillTag x))) := by
  rw [exec_spillFault, execSpillFault, if_neg (Nat.not_le.2 hlen), hx]
  rfl

/-- R378: what a posted request for spill service leaves. -/
theorem spillFaults (s : State) (x : SpillReq) (hlen : s.sched.buffer.length < 64)
    (hx : s.sched.spills.find? (fun x => x.tag.isNone) = some x) :
    ∃ (t : State) (e : EventRec) (n : Nat), exec .spillFault s = .next t ∧ t.mem = s.mem ∧ t.sched.buffer = s.sched.buffer ++ [e] ∧
      e.d0.extractLsb' 56 8 = 0x16 ∧ e.d1 = x.va ∧ e.d2 = BitVec.ofNat 64 n ∧ { x with tag := some n } ∈ t.sched.spills ∧
      ∀ y ∈ s.sched.spills, y.resid = x.resid → y.tag ≠ some n := by
  have ht : x.tag = none := by simpa using List.find?_some hx
  refine ⟨_, s.spillEvent x (s.spillTag x), s.spillTag x, exec_spillFault_eq s x hlen hx, ?_, ?_, ?_, rfl, rfl, ?_, ?_⟩
  · rw [State.post_mem, State.tagSpill_mem]
  · rw [State.post_sched]
    exact congrArg (· ++ _) (s.tagSpill_buffer x _)
  · exact eventWord_kind ..
  · rw [State.post_sched]
    exact s.mem_tagSpill x _ (List.mem_of_find?_eq_some hx) ht
  · intro y hy hr hn
    exact freshTag_not_mem _ _ (hr ▸ s.mem_usedTags y _ hy hn)

/-! ## Records that reach their ring (R348, R349, R375) -/

/-- Records may join the scheduler's buffer, behind those that stand there. -/
def State.Posts (s u : State) : Prop := ∃ l, u.sched.buffer = s.sched.buffer ++ l

theorem State.Posts.of_eq {s u : State} (h : u.sched.buffer = s.sched.buffer) : s.Posts u := ⟨[], by rw [h, List.append_nil]⟩

theorem State.Posts.trans {s u v : State} (a : s.Posts u) (b : u.Posts v) : s.Posts v := by
  obtain ⟨l, hl⟩ := a
  obtain ⟨m, hm⟩ := b
  exact ⟨l ++ m, by rw [hm, hl, List.append_assoc]⟩

theorem State.memEvent_posts (s : State) (kind : Nat) (d1 : W64) (port : Nat) : s.Posts (s.memEvent kind d1 port) :=
  ⟨_, by rw [State.memEvent, State.post_sched]⟩

theorem State.Posts.ite {s u v : State} (q : Prop) [Decidable q] (a : s.Posts u) (b : s.Posts v) : s.Posts (if q then u else v) := by
  split
  · exact a
  · exact b

theorem State.closeRow_posts (s : State) (bk : Nat) : s.Posts (s.closeRow bk) := by
  unfold State.closeRow
  dsimp only
  split
  · exact .of_eq rfl
  · rename_i r _
    have hsu := State.Posts.ite (s.rowBad.contains (bk * 2 ^ 15 + r) = true)
      (s.memEvent_posts 0x22 (BitVec.ofNat 64 (s.openRows.get {} bk).pa) (bk / 128)) (.of_eq (s := s) rfl)
    exact .ite _ (hsu.trans (.trans (.of_eq rfl) (State.memEvent_posts ..)))
      (.ite _ (hsu.trans (.trans (.of_eq rfl) (State.memEvent_posts ..))) (hsu.trans (.of_eq rfl)))

theorem State.openRow_posts (s : State) (c pa : Nat) : s.Posts (s.openRow c pa) := by
  unfold State.openRow
  have hsu := State.Posts.ite ((s.openRows.get {} (bankOf c)).row.isSome ∧ (s.openRows.get {} (bankOf c)).row ≠ some (rowNumber c))
    (s.closeRow_posts (bankOf c)) (.of_eq (s := s) rfl)
  exact .ite _ hsu (hsu.trans (.of_eq rfl))

theorem State.arrive_posts (s : State) (pa : Nat) : s.Posts (s.arrive pa).2 := by
  unfold State.arrive
  split
  · exact .of_eq rfl
  · split
    · exact s.memEvent_posts ..
    · split
      · exact .of_eq rfl
      · dsimp only
        split
        · exact (s.openRow_posts ..).trans (.of_eq rfl)
        · exact s.openRow_posts ..

theorem State.visit_of_held (s : State) (pa : Nat) (u : Touch) (h : (s.arrive pa).1 = false) : s.visit pa u = (false, (s.arrive pa).2) := by
  have he : s.arrive pa = (false, (s.arrive pa).2) := Prod.ext h rfl
  rw [State.visit, he]

/-- An access that comes to its row visits its sector. -/
theorem State.visit_of_arrived (s : State) (pa : Nat) (u : Touch) (h : (s.arrive pa).1 = true) :
    s.visit pa u = (true, (((s.arrive pa).2.dramCoord pa).filter fun _ => decide (pa < 2 ^ 40)).elim (s.arrive pa).2
      fun c => (s.arrive pa).2.checkTouch c pa u) := by
  have he : s.arrive pa = (true, (s.arrive pa).2) := Prod.ext h rfl
  rw [State.visit, he]
  dsimp only
  cases Option.filter _ _ <;> rfl

/-- A write that is held is held at its row, whatever it would write. -/
theorem State.physWrite_held (s : State) (pa n v w : Nat) (h : (s.physWrite pa n v).1 = false) :
    s.physWrite pa n w = (false, (s.arrive pa).2) := by
  have hd : s.inDescriptor pa = false := by
    by_contra hd
    rw [Bool.not_eq_false] at hd
    simp [State.physWrite, hd] at h
  have ha : (s.arrive pa).1 = false := by
    by_contra ha
    rw [Bool.not_eq_false] at ha
    simp only [State.physWrite, hd, Bool.false_eq_true, if_false, State.visit_of_arrived _ _ _ ha] at h
    split at h <;> simp at h
  simp [State.physWrite, hd, State.visit_of_held _ _ _ ha]

/-- The row of a sector that is active, or whose bank has none active, is come to without a closing. -/
theorem State.openRow_free (s : State) (c pa : Nat) (h : Claims.rowFree s c) : ∃ o, s.openRow c pa = { s with openRows := o } := by
  obtain ⟨hrow, hblocked⟩ := h
  have hclose : ¬ ((s.openRows.get {} (bankOf c)).row.isSome ∧ (s.openRows.get {} (bankOf c)).row ≠ some (rowNumber c)) := by
    rintro ⟨hsome, hne⟩
    rcases hrow with h | h
    · simp [h] at hsome
    · exact hne h
  simp only [State.openRow, hclose, if_false, Nat.not_lt.2 hblocked]
  exact ⟨_, rfl⟩

/-- Rows and marks alone may have changed. -/
def State.RowsOnly (s u : State) : Prop := ∃ o e, u = { s with openRows := o, symbolErrors := e }

/-- A mapped address has a coordinate in DRAM. -/
theorem State.dramCoord_of_physKey (s : State) (pa k : Nat) (h : s.physKey pa = some k) (hlt : ¬ 2 ^ 40 ≤ pa) :
    ∃ c, s.dramCoord pa = some c ∧ k = c * 32 + pa % 32 := by
  unfold State.physKey at h
  unfold State.dramCoord
  rw [if_neg hlt] at h
  cases hc : s.coordOf pa with
  | none => simp [hc] at h
  | some c =>
    cases hb : s.conf.channels.contains (channelOf c) with
    | true => simp only [hc, hb, if_true, reduceCtorEq] at h
    | false =>
      simp only [hc, hb, Bool.false_eq_true, if_false, Option.some.injEq] at h
      exact ⟨c, by simp only [Option.filter_some, hb]; rfl, h.symm⟩

/-- An access to a mapped address whose row is free comes there without any record. -/
theorem State.arrive_free (s : State) (pa k : Nat) (ha : (s.arrive pa).1 = true) (hk : s.physKey pa = some k)
    (hfree : ∀ c, s.dramCoord pa = some c → Claims.rowFree s c) : ∃ o, (s.arrive pa).2 = { s with openRows := o } := by
  by_cases hpa : 2 ^ 40 ≤ pa
  · exact ⟨s.openRows, by simp only [State.arrive, hpa, if_true]⟩
  · obtain ⟨c, hc, -⟩ := s.dramCoord_of_physKey pa k hk hpa
    obtain ⟨o, ho⟩ := s.openRow_free c pa (hfree c hc)
    simp only [State.arrive, hpa, if_false, hc, ho] at ha ⊢
    split at ha
    · simp at ha
    · rename_i hheld
      rw [if_neg hheld]
      split at ha
      · simp at ha
      · rename_i hb
        rw [if_neg hb]
        exact ⟨o, rfl⟩

/-- A write of a whole sector at a free row changes its bytes, and marks and rows, alone. -/
theorem State.physWrite_whole (s : State) (pa k v : Nat) (ha : (s.arrive pa).1 = true) (hd : s.inDescriptor pa = false)
    (hk : s.physKey pa = some k) (hk0 : k % 32 = 0) (hfree : ∀ c, s.dramCoord pa = some c → Claims.rowFree s c) :
    ∃ u, s.RowsOnly u ∧ s.physWrite pa 32 v = (true, u.writeSector k (BitVec.allOnes 32) (BitVec.ofNat 256 v)) := by
  have hpa : pa % 32 = 0 := by
    by_cases hlt : 2 ^ 40 ≤ pa
    · rw [State.physKey, if_pos hlt] at hk
      exact Option.some.inj hk ▸ hk0
    · obtain ⟨c, -, hc⟩ := s.dramCoord_of_physKey pa k hk hlt
      omega
  have hmask : byteMask 0 32 = BitVec.allOnes 32 := by decide
  obtain ⟨o, ho⟩ := s.arrive_free pa k ha hk hfree
  obtain ⟨u, hvisit, hrows⟩ : ∃ u, s.visit pa .whole = (true, u) ∧ s.RowsOnly u := by
    rw [State.visit_of_arrived _ _ _ ha, ho]
    cases Option.filter _ _ with
    | none => exact ⟨_, rfl, o, _, rfl⟩
    | some c => exact ⟨_, rfl, o, _, rfl⟩
  have hkey : u.physKey pa = some k := by
    obtain ⟨o', e, rfl⟩ := hrows
    exact hk
  have htouch : touchOf (BitVec.allOnes 32) = .whole := if_pos rfl
  have hplaced : placed v 0 = BitVec.ofNat 256 v := by simp [placed]
  refine ⟨u, hrows, ?_⟩
  simp only [State.physWrite, hd, hpa, hmask, htouch, hvisit, hkey, hplaced, Bool.false_eq_true, if_false]

/-! ### Bytes of a whole sector -/

/-- The value of two words side by side. -/
theorem toNat_append_eq {m n : Nat} (x : BitVec m) (y : BitVec n) : (x ++ y).toNat = x.toNat * 2 ^ n + y.toNat := by
  rw [BitVec.toNat_append, ← Nat.shiftLeft_add_eq_or_of_lt y.isLt, Nat.shiftLeft_eq]

/-- Writing bytes one by one is writing their value. -/
theorem Memory.foldl_write (n : Nat) : ∀ (m : Memory) (a v : Nat),
    (List.range n).foldl (fun m j => Memory.write m (a + j) (BitVec.ofNat 8 (v / 256 ^ j))) m = Memory.writeN m a n v := by
  induction n with
  | zero => intros; rfl
  | succ n ih =>
    intro m a v
    rw [List.range_succ_eq_map, List.foldl_cons, List.foldl_map, Memory.writeN, ← ih]
    simp only [pow_zero, Nat.div_one, Nat.add_zero, Nat.succ_eq_add_one, pow_succ', ← Nat.div_div_eq_div_mul, Nat.add_assoc, Nat.add_comm 1]

/-- A byte of a word. -/
theorem extract_byte (x : W256) (j : Nat) : x.extractLsb' (8 * j) 8 = BitVec.ofNat 8 (x.toNat / 256 ^ j) := by
  apply BitVec.eq_of_toNat_eq
  simp [BitVec.extractLsb'_toNat, Nat.shiftRight_eq_div_pow, pow_mul]

theorem State.readSector_congr {s u : State} (h : u.mem = s.mem) (k : Nat) : u.readSector k = s.readSector k := by
  unfold State.readSector
  rw [h]

/-- A sector that is written whole reads as what was written (R4). -/
theorem State.readSector_writeSector (s : State) (k : Nat) (data : W256) (h : s.memOk = true) :
    (s.writeSector k (BitVec.allOnes 32) data).readSector k = data := by
  have hw : Memory.writeMask s.mem (k / 32 * 32) (BitVec.allOnes 32) data = Memory.writeN s.mem (k / 32 * 32) 32 data.toNat := by
    rw [← Memory.foldl_write, Memory.writeMask]
    refine List.foldl_ext _ _ _ fun m j hj => ?_
    rw [BitVec.getLsbD_allOnes, decide_eq_true (List.mem_range.1 hj), if_pos rfl, extract_byte]
  simp only [State.readSector, State.writeSector, hw]
  rw [Memory.readN_writeN _ _ _ _ h, show (256 : Nat) ^ 32 = 2 ^ 256 by norm_num, Nat.mod_eq_of_lt data.isLt, BitVec.ofNat_toNat,
    BitVec.setWidth_eq]

theorem exec_eventRecordPost (s : State) : exec .eventRecordPost s = execEventRecordPost s := rfl

/-! ### A tile's event at the scheduler -/

/-- The record of a tile's event (R348, R375). -/
def State.eventOf (s : State) (p : Packet) : EventRec :=
  ⟨if p.h.op = 1 then s.queueOf p.h.resid else 0, (p.pay.headD 0).extractLsb' 192 64, (p.pay.headD 0).extractLsb' 128 64,
    (p.pay.headD 0).extractLsb' 64 64⟩

section
variable (s : State) (p : Packet) (hn : s.cur.n = 1) (hp : s.arrived 4097 isEvent = some p)
include hn hp

/-- With room it enters the buffer. -/
theorem exec_eventRecordPost_room (hlen : s.sched.buffer.length < 64) :
    exec .eventRecordPost s = .next ((s.takeArrived 4097 isEvent).post (s.eventOf p)) := by
  have hfull : s.bufferFull = false := decide_eq_false (Nat.not_le.2 hlen)
  simp only [exec_eventRecordPost, execEventRecordPost, hn, if_true, State.takeEvent, hp, hfull]
  rfl

/-- In a full one, an event of a limited kind is dropped, and counted at its tile; -/
theorem exec_eventRecordPost_dropped (hlen : 64 ≤ s.sched.buffer.length)
    (hk : 0x11 ≤ ((p.pay.headD 0).extractLsb' 248 8).toNat ∧ ((p.pay.headD 0).extractLsb' 248 8).toNat ≤ 0x15) :
    ∃ x, exec .eventRecordPost s = .next ((s.takeArrived 4097 isEvent).setTile p.h.stile x) := by
  have hfull : s.bufferFull = true := decide_eq_true hlen
  have hrate : rateKind (((p.pay.headD 0).extractLsb' 192 64).extractLsb' 56 8).toNat = true := by
    rw [extract_extract _ _ _ _ _ (by decide)]
    exact decide_eq_true hk
  simp only [exec_eventRecordPost, execEventRecordPost, hn, if_true, State.takeEvent, hp, hfull, hrate, Bool.true_eq_false, if_false]
  exact ⟨_, rfl⟩

/-- another waits. -/
theorem exec_eventRecordPost_waits (hlen : 64 ≤ s.sched.buffer.length)
    (hk : ¬ (0x11 ≤ ((p.pay.headD 0).extractLsb' 248 8).toNat ∧ ((p.pay.headD 0).extractLsb' 248 8).toNat ≤ 0x15)) :
    exec .eventRecordPost s = .next s := by
  have hfull : s.bufferFull = true := decide_eq_true hlen
  have hrate : rateKind (((p.pay.headD 0).extractLsb' 192 64).extractLsb' 56 8).toNat = false := by
    rw [extract_extract _ _ _ _ _ (by decide)]
    exact decide_eq_false hk
  simp only [exec_eventRecordPost, execEventRecordPost, hn, if_true, State.takeEvent, hp, hfull, hrate, Bool.true_eq_false,
    Bool.false_eq_true, if_false]

end

/-- A packet that is taken leaves one fewer. -/
theorem State.takeArrived_length {s : State} {n : Nat} {t : Packet → Bool} {p : Packet} (h : s.arrived n t = some p) :
    (s.takeArrived n t).inbox.length + 1 = s.inbox.length := by
  obtain ⟨hin, ht⟩ := State.arrived_mem h
  have hlen := List.length_eraseP_of_mem (p := fun x : Arrived => x.node == n && t x.p) hin (by simp [ht])
  have hpos := List.length_pos_of_mem hin
  simp only [State.takeArrived]
  omega

/-! ### A record and its ring -/

/-- Where the next record of an event queue goes, and what is written there (R348). -/
def EventQueue.slot (x : EventQueue) : Nat := x.base.toNat + 32 * (x.posted.toNat % 2 ^ x.size)
def EventQueue.phase (x : EventQueue) : Nat := if x.posted.toNat / 2 ^ x.size % 2 = 0 then 1 else 0
def EventQueue.sector (x : EventQueue) (e : EventRec) : Nat :=
  e.d0.toNat + e.d1.toNat * 2 ^ 64 + e.d2.toNat * 2 ^ 128 + (x.posted.toNat * 2 ^ 32 + x.phase) * 2 ^ 192

/-- The four dwords of a record in its ring: the record, its sequence number and its phase. -/
theorem EventQueue.sector_eq (x : EventQueue) (e : EventRec) :
    BitVec.ofNat 256 (x.sector e) =
      (x.posted ++ (if x.posted.toNat / 2 ^ x.size % 2 = 0 then 1#32 else 0#32)) ++ (e.d2 ++ (e.d1 ++ e.d0)) := by
  have hphase : (if x.posted.toNat / 2 ^ x.size % 2 = 0 then 1#32 else 0#32).toNat = x.phase := by
    unfold EventQueue.phase
    split <;> rfl
  have hle : x.phase ≤ 1 := by
    unfold EventQueue.phase
    split <;> decide
  apply BitVec.eq_of_toNat_eq
  rw [BitVec.toNat_ofNat]
  iterate 4 rw [toNat_append_eq]
  rw [hphase, EventQueue.sector]
  have h0 := e.d0.isLt
  have h1 := e.d1.isLt
  have h2 := e.d2.isLt
  have h3 := x.posted.isLt
  omega

/-- Without a record whose ring has room nothing happens. -/
theorem exec_eventRecordPost_none (s : State) (hn : s.cur.n ≠ 1)
    (hf : s.sched.buffer.find? (fun e => (s.eventQueue e.queue).room) = none) : exec .eventRecordPost s = .next s := by
  simp only [exec_eventRecordPost, execEventRecordPost, hn, if_false, hf]

section
variable (s : State) (e : EventRec) (hn : s.cur.n ≠ 1) (hf : s.sched.buffer.find? (fun e => (s.eventQueue e.queue).room) = some e)
include hn hf

/-- A record whose sector is held stays. -/
theorem exec_eventRecordPost_held (hw : (s.physWrite (s.eventQueue e.queue).slot 32 0).1 = false) :
    exec .eventRecordPost s = .next (s.arrive (s.eventQueue e.queue).slot).2 := by
  have hheld := s.physWrite_held _ _ _ ((s.eventQueue e.queue).sector e) hw
  simp only [EventQueue.slot, EventQueue.sector, EventQueue.phase] at hheld ⊢
  simp only [exec_eventRecordPost, execEventRecordPost, hn, if_false, hf, hheld]

/-- The queue after a record of it has been written. -/
def EventQueue.next (x : EventQueue) : EventQueue :=
  { x with posted := x.posted + 1, signalled := x.signalled || (x.irq && !x.signalled) }

/-- A record that is written leaves the buffer, and its queue goes on. -/
theorem exec_eventRecordPost_written (u : State)
    (hw : s.physWrite (s.eventQueue e.queue).slot 32 ((s.eventQueue e.queue).sector e) = (true, u)) :
    ∃ t, exec .eventRecordPost s = .next t ∧ t.mem = u.mem ∧ t.eventQueue e.queue = (s.eventQueue e.queue).next ∧
      t.sched.buffer = u.sched.buffer.eraseP fun e => (s.eventQueue e.queue).room := by
  have hqueue : ∀ v : State, (v.setEventQueue e.queue (s.eventQueue e.queue).next).eventQueue e.queue = (s.eventQueue e.queue).next :=
    fun v => by rw [State.eventQueue_setEventQueue, if_pos rfl]
  simp only [EventQueue.slot, EventQueue.sector, EventQueue.phase] at hw
  simp only [exec_eventRecordPost, execEventRecordPost, hn, if_false, hf, hw]
  split
  · exact ⟨_, rfl, rfl, hqueue _, rfl⟩
  · exact ⟨_, rfl, rfl, hqueue _, rfl⟩

end

/-- R348, R375: a tile's event at the scheduler. -/
theorem tileEvents (s : State) (p : Packet) (hn : s.cur.n = 1) (hp : s.arrived 4097 isEvent = some p) :
    let w := p.pay.headD 0
    let limited := 0x11 ≤ (w.extractLsb' 248 8).toNat ∧ (w.extractLsb' 248 8).toNat ≤ 0x15
    ∃ t, exec .eventRecordPost s = .next t ∧ t.mem = s.mem ∧
      (s.sched.buffer.length < 64 → t.sched.buffer = s.sched.buffer ++ [s.eventOf p]) ∧
      (64 ≤ s.sched.buffer.length → limited → t.sched = s.sched ∧ t.inbox.length + 1 = s.inbox.length) ∧
      (64 ≤ s.sched.buffer.length → ¬ limited → t = s) := by
  intro w limited
  by_cases hlen : s.sched.buffer.length < 64
  · have hnot := Nat.not_le.2 hlen
    refine ⟨_, exec_eventRecordPost_room s p hn hp hlen, State.post_mem .., fun _ => ?_, fun h => absurd h hnot, fun h => absurd h hnot⟩
    rw [State.post_sched]
    rfl
  · by_cases hk : limited
    · obtain ⟨x, hx⟩ := exec_eventRecordPost_dropped s p hn hp (Nat.not_lt.1 hlen) hk
      exact ⟨_, hx, rfl, fun h => absurd h hlen, fun _ _ => ⟨rfl, State.takeArrived_length hp⟩, fun _ h => absurd hk h⟩
    · exact ⟨_, exec_eventRecordPost_waits s p hn hp (Nat.not_lt.1 hlen) hk, rfl, fun h => absurd h hlen, fun _ h => absurd h hk, fun _ _ => rfl⟩

/-- R48, R50, R374, R377, R381: the scheduler's events, one after the other. -/
theorem residencyEvents : Parts.ResidencyEvents := by
  refine ⟨?_, ?_, ?_, faultReports, spillFaults, fun s => ⟨fun hn hnone => ?_, fun p hn hp => tileEvents s p hn hp, fun e hf hn hw => ?_,
    fun e k hf hn ha hm hd hk hk0 hfree => ?_⟩⟩
  · intro s p r hp hr hrun
    refine ⟨_, _, exec_commitRequest_running s p r hp hr hrun, rfl, ?_, State.send_net .., rfl, rfl, rfl, rfl⟩
    exact congrArg (Option.map Residency.state)
      (State.findRes_setRes_self (s := s.takeArrived 4097 isCommit) hr { r with state := .committed } rfl)
  · intro s p hp hw hr
    exact ⟨_, exec_commitReply_waiting s p hp hw hr, by simp, State.resumed_withCur_complete (s.takeArrived _ _) _⟩
  · intro s r hr
    refine ⟨exec_watchdogExpiry_off s r hr, fun hw hc => ⟨fun hs => ?_, fun hs => ?_⟩⟩
    · have hrun : r.running = true := by simp [Residency.running, hs]
      have hexec := exec_watchdogExpiry_due s r hr hrun hw hc
      rw [if_neg (by simp [hs])] at hexec
      exact ⟨_, hexec, s.decideDiscard_decided r _ 2 hr⟩
    · have hrun : r.running = true := by simp [Residency.running, hs]
      have hexec := exec_watchdogExpiry_due s r hr hrun hw hc
      rw [if_pos hs] at hexec
      exact ⟨_, hexec, s.decideFault_decided r _ 5 _ _ _ hr⟩
  · exact exec_eventRecordPost_none s hn hnone
  · obtain ⟨l, hl⟩ := s.arrive_posts (s.eventQueue e.queue).slot
    refine ⟨_, exec_eventRecordPost_held s e hn hf hw, ?_, (s.arrive_still _).1⟩
    rw [hl, List.find?_append, hf]
    rfl
  · obtain ⟨u, ⟨o, c, hu⟩, hw⟩ := s.physWrite_whole _ k ((s.eventQueue e.queue).sector e) ha hd hk hk0 hfree
    obtain ⟨t, hexec, hmem, hqueue, hbuffer⟩ := exec_eventRecordPost_written s e hn hf _ hw
    have hum : u.memOk = true := by rw [hu]; exact hm
    refine ⟨t, hexec, by rw [hqueue]; rfl, ?_, ?_⟩
    · rw [hbuffer, hu]
      rfl
    · rw [State.readSector_congr hmem, u.readSector_writeSector k _ hum, EventQueue.sector_eq]

/-! ## The steps of a discard (R49, R376) -/

theorem exec_discard (s : State) : exec .discard s = execDiscard s := rfl
theorem exec_discardArrival (s : State) : exec .discardArrival s = execDiscardArrival s := rfl
theorem exec_discardStepDone (s : State) : exec .discardStepDone s = execDiscardStepDone s := rfl
theorem exec_residencyEnd (s : State) : exec .residencyEnd s = execResidencyEnd s := rfl

/-! ### Sending a step -/

/-- Packets sent one after the other join the mesh, and nothing else changes. -/
theorem foldl_send_net {α : Type} (p : State → α → Packet) (t : Nat) (l : List α) (s : State) :
    (l.foldl (fun s a => s.send t (p s a)) s).net.length = s.net.length + l.length := by
  induction l generalizing s with
  | nil => rfl
  | cons a l ih =>
    rw [List.foldl_cons, ih, State.send_net]
    simp only [List.length_append, List.length_cons, List.length_nil]
    omega

theorem foldl_send_keeps {α β : Type} (g : State → β) (hg : ∀ s t p, g (State.send s t p) = g s) (p : State → α → Packet) (t : Nat)
    (l : List α) (s : State) : g (l.foldl (fun s a => s.send t (p s a)) s) = g s :=
  foldl_keeps g _ (fun s a => hg s t (p s a)) l s

section
variable (s : State) (r : Residency) (step : Nat)

theorem State.sendStep_sched : (s.sendStep r step).sched = (s.setRes { r with step := step, reported := [] }).sched :=
  foldl_send_keeps State.sched (fun _ _ _ => rfl) _ 0 _ _

theorem State.sendStep_mem : (s.sendStep r step).mem = s.mem :=
  foldl_send_keeps State.mem (fun _ _ _ => rfl) _ 0 _ _

theorem State.sendStep_net : (s.sendStep r step).net.length = s.net.length + (s.regionTiles r).length :=
  foldl_send_net _ 0 _ _

/-- R376: the step of a residency whose tiles have been sent one. -/
theorem State.sendStep_step (n : Nat) (h : s.findRes n = some r) (x : Residency) (hx : x.num = r.num) :
    ((s.sendStep x step).findRes r.num).map Residency.step = some step := by
  have hset := State.findRes_setRes_self h { x with step := step, reported := [] } hx
  rw [State.findRes_congr (congrArg Sched.res (s.sendStep_sched x step)), hset]
  rfl

end

theorem State.regionTiles_congr {s u : State} (h : u.conf = s.conf) (r : Residency) : u.regionTiles r = s.regionTiles r := by
  have hp : u.present = s.present := funext fun t => by rw [State.present, State.present, h]
  rw [State.regionTiles, State.regionTiles, hp]

/-- A residency that the scheduler takes down (R374). -/
def Residency.ending (r : Residency) : Prop := r.state = .discarding ∨ r.state = .faulting

section
variable (s : State) (r : Residency) (hr : s.findRes s.cur.n = some r) (hend : r.ending) (hstep : r.step = 0)
include hr hend hstep

/-- R375: the record of a fault has no room, and the discard waits. -/
theorem exec_discard_waits (hev : r.event ≠ none) (hlen : 64 ≤ s.sched.buffer.length) : exec .discard s = .next s := by
  have hfull : s.bufferFull = true := decide_eq_true hlen
  have hend' : r.state = .discarding ∨ r.state = .faulting := hend
  obtain ⟨e, he⟩ := Option.ne_none_iff_exists'.1 hev
  simp only [exec_discard, execDiscard, hr, hend', hstep, and_self, if_true, he, hfull]

/-- R376: step 1 begins, behind the record of the fault. -/
theorem exec_discard_begins (hev : r.event = none ∨ s.sched.buffer.length < 64) :
    ∃ t, exec .discard s = .next t ∧ t.mem = s.mem ∧ (t.findRes r.num).map Residency.step = some 1 ∧
      t.sched.buffer = s.sched.buffer ++ r.event.toList ∧ t.net.length = s.net.length + (s.regionTiles r).length := by
  have hend' : r.state = .discarding ∨ r.state = .faulting := hend
  cases he : r.event with
  | none =>
    refine ⟨s.sendStep r 1, ?_, s.sendStep_mem r 1, s.sendStep_step r 1 _ hr r rfl, ?_, s.sendStep_net r 1⟩
    · simp only [exec_discard, execDiscard, hr, hend', hstep, and_self, if_true, he]
    · rw [State.sendStep_sched]
      simp
  | some e =>
    have hlen := hev.resolve_left (by simp [he])
    have hfull : s.bufferFull = false := decide_eq_false (Nat.not_le.2 hlen)
    have hfind : (s.post e).findRes s.cur.n = some r := (s.post_findRes e _).trans hr
    refine ⟨(s.post e).sendStep { r with event := none } 1, ?_, ?_, State.sendStep_step _ r 1 _ hfind _ rfl, ?_, ?_⟩
    · simp only [exec_discard, execDiscard, hr, hend', hstep, and_self, if_true, he, hfull, Bool.false_eq_true, if_false]
    · rw [State.sendStep_mem, State.post_mem]
    · rw [State.sendStep_sched, State.setRes_buffer, State.post_sched]
      rfl
    · rw [State.sendStep_net, State.post_net, State.regionTiles_congr (s.post_conf e)]
      rfl

end

/-! ### Reports of the tiles -/

section
variable (s : State) (r : Residency) (hp : s.arrived 4097 isStepDone = none) (hr : s.findRes s.cur.n = some r)
include hp hr

/-- R376: while a tile has not reported, the step goes on. -/
theorem exec_discardStepDone_waits (h : ∃ t ∈ s.regionTiles r, t ∉ r.reported) : exec .discardStepDone s = .next s := by
  obtain ⟨t, ht, hn⟩ := h
  have hall : (s.regionTiles r).all r.reported.contains = false := List.all_eq_false.2 ⟨t, ht, by simpa using hn⟩
  simp [exec_discardStepDone, execDiscardStepDone, hp, hr, hall]

/-- With every report in, the next step begins; behind the last, the scheduler's own. -/
theorem exec_discardStepDone_all (hend : r.ending) (hstep : r.step ≠ 0) (h : ∀ t ∈ s.regionTiles r, t ∈ r.reported) :
    exec .discardStepDone s = .next (if r.step = 6 then (if r.state = .faulting ∨ s.bufferFull = false then s.discardEnd r else s)
      else s.sendStep r (r.step + 1)) := by
  have hall : (s.regionTiles r).all r.reported.contains = true := List.all_eq_true.2 fun t ht => by simpa using h t ht
  have hgo : ¬ (r.step = 0 ∨ (r.state ≠ .discarding ∧ r.state ≠ .faulting)) := by
    rintro (h0 | ⟨hd, hf⟩)
    · exact hstep h0
    · exact hend.elim hd hf
  simp only [exec_discardStepDone, execDiscardStepDone, hp, hr, hgo, if_false, hall, Bool.true_eq_false]

end

/-! ### The entry is free -/

@[simp] theorem State.completion_findRes (s : State) (c : Cand) (status detail num : Nat) (d1 d2 : W64) (n : Nat) :
    (s.completion c status detail num d1 d2).findRes n = s.findRes n := s.post_findRes ..

/-- R374: a residency that is freed has no entry. -/
theorem State.freeRes_findRes (s : State) (r : Residency) : (s.freeRes r).findRes r.num = none := by
  refine List.find?_eq_none.2 fun x hx => ?_
  have hne := (List.mem_filter.1 hx).2
  simpa using hne

/-- The record is requeued, or completed. -/
theorem State.discardEnd_findRes (s : State) (r : Residency) : (s.discardEnd r).findRes r.num = none := by
  have hfree := s.freeRes_findRes r
  unfold State.discardEnd
  dsimp only
  split
  · rw [State.completion_findRes, hfree]
  · rw [State.post_findRes]
    split
    · rw [State.completion_findRes, hfree]
    · split
      · rw [State.completion_findRes, hfree]
      · exact hfree

/-- R51: a residency whose conditions hold ends, -/
theorem exec_residencyEnd_ended (s : State) (r : Residency) (hr : s.findRes s.cur.n = some r) (hrun : r.running = true)
    (he : s.ended r = true) :
    exec .residencyEnd s = .next ((s.freeRes r).completion r.cand 0 0 r.num 0 (s.cycleSince r)) := by
  simp only [exec_residencyEnd, execResidencyEnd, hr, Option.filter_some, hrun, if_true, he]

/-- and no other. -/
theorem exec_residencyEnd_goes_on (s : State) (r : Residency) (hr : s.findRes s.cur.n = some r) (hrun : r.running = true)
    (he : s.ended r = false) : exec .residencyEnd s = .next s := by
  simp only [exec_residencyEnd, execResidencyEnd, hr, Option.filter_some, hrun, if_true, he, Bool.false_eq_true, if_false]

/-- The record of a completion (R349). -/
def completionEvent (c : Cand) (status detail num : Nat) (d1 d2 : W64) : EventRec :=
  ⟨c.queue, BitVec.ofNat 8 1 ++ BitVec.ofNat 8 status ++ BitVec.ofNat 8 detail ++ BitVec.ofNat 8 c.retry ++
    BitVec.ofNat 16 num ++ BitVec.ofNat 16 c.tag, d1, d2⟩

section
variable (c : Cand) (status detail num : Nat) (d1 d2 : W64)

theorem completionEvent_kind : (completionEvent c status detail num d1 d2).d0.extractLsb' 56 8 = 1 := by
  unfold completionEvent
  iterate 5 rw [BitVec.extractLsb'_append_eq_of_le (by decide)]
  exact BitVec.extractLsb'_eq_self

theorem completionEvent_status : (completionEvent c status detail num d1 d2).d0.extractLsb' 48 8 = BitVec.ofNat 8 status := by
  unfold completionEvent
  iterate 4 rw [BitVec.extractLsb'_append_eq_of_le (by decide)]
  rw [BitVec.extractLsb'_append_eq_of_add_le (by decide)]
  exact BitVec.extractLsb'_eq_self

theorem completionEvent_tag : (completionEvent c status detail num d1 d2).d0.extractLsb' 0 16 = BitVec.ofNat 16 c.tag := by
  unfold completionEvent
  rw [BitVec.extractLsb'_append_eq_of_add_le (by decide)]
  exact BitVec.extractLsb'_eq_self

theorem State.completion_buffer (s : State) :
    (s.completion c status detail num d1 d2).sched.buffer = s.sched.buffer ++ [completionEvent c status detail num d1 d2] := by
  rw [State.completion, State.post_sched]
  rfl

end

/-! ### A tile that stops (R376 step 1) -/

/-- Reading a table whose values were all mapped: a value other than the default is mapped. -/
theorem AMap.get_map {α : Type} (m : AMap α) (d : α) (f : Nat × α → Nat × α) (hf : ∀ e, (f e).1 = e.1) (k : Nat) (hk : m.get d k ≠ d) :
    AMap.get (m.map f) d k = (f (k, m.get d k)).2 := by
  induction m with
  | nil => exact absurd rfl hk
  | cons e m ih =>
    obtain ⟨j, x⟩ := e
    by_cases hj : j = k
    · subst hj
      simp [AMap.get, hf]
    · simp only [AMap.get, hj, if_false, List.map_cons, hf] at hk ⊢
      exact ih hk

/-- Halting switch programs leaves everything but the switches. -/
theorem foldl_setXbar_keeps {β : Type} (g : State → β) (hg : ∀ s k x, g (State.setXbar s k x) = g s) (k : Nat → Nat) (x : State → Nat → Xbar)
    (l : List Nat) (s : State) : g (l.foldl (fun s b => s.setXbar (k b) (x s b)) s) = g s :=
  foldl_keeps g _ (fun s b => hg s (k b) (x s b)) l s

theorem State.stopTile_mem (s : State) (r t : Nat) : (s.stopTile r t).mem = s.mem := foldl_setXbar_keeps State.mem (fun _ _ _ => rfl) _ _ _ _
theorem State.stopTile_net (s : State) (r t : Nat) : (s.stopTile r t).net = s.net := foldl_setXbar_keeps State.net (fun _ _ _ => rfl) _ _ _ _
theorem State.stopTile_tiles (s : State) (r t : Nat) : (s.stopTile r t).tiles = s.tiles :=
  foldl_setXbar_keeps State.tiles (fun _ _ _ => rfl) _ _ _ _

/-- A context of the residency on the tile, at step 1; any other stays. -/
def State.stopEntry (s : State) (r t : Nat) (e : Nat × Ctx) : Nat × Ctx :=
  if e.1 / 16 == t && (s.ctx e.1).resid == some r then (e.1, { e.2 with run := .stopped, wait := .none, async := [] }) else e

theorem State.stopTile_ctxs (s : State) (r t : Nat) : (s.stopTile r t).ctxs = s.ctxs.map (s.stopEntry r t) :=
  foldl_setXbar_keeps State.ctxs (fun _ _ _ => rfl) _ _ _ _

/-- The contexts of the residency on the tile are stopped, and their records gone. -/
theorem State.stopTile_ctx (s : State) (r t k : Nat) (hk : k / 16 = t) (hr : (s.ctx k).resid = some r) :
    (s.stopTile r t).ctx k = { s.ctx k with run := .stopped, wait := .none, async := [] } := by
  have hkey : ∀ e, (s.stopEntry r t e).1 = e.1 := fun e => by
    unfold State.stopEntry
    split <;> rfl
  have hne : s.ctxs.get {} k ≠ {} := fun h => by
    rw [State.ctx, h] at hr
    simp at hr
  rw [State.ctx, State.stopTile_ctxs, AMap.get_map _ _ _ hkey k hne]
  exact congrArg Prod.snd (if_pos (by simp [hk, hr]))

/-! ### The steps that a tile runs -/

/-- A tile reports the steps that are over. -/
def State.reportSteps (s : State) (t : Nat) : State :=
  let isOver (z : Nat × Nat) : Bool := s.stepDone (z.1 / 8) t (z.1 % 8) z.2
  ((s.tile t).stopping.filter isOver).foldl (fun s z => s.reportStep t z.1)
    (s.setTile t { s.tile t with stopping := (s.tile t).stopping.filter fun z => !isOver z })

/-- A step of a residency's discard begins on a tile. -/
def State.beginStep (s : State) (t r n : Nat) : State :=
  let s := s.discardStep r t n
  s.setTile t { s.tile t with stopping := (s.tile t).stopping ++ [(r * 8 + n, s.cycle)] }

theorem exec_discardArrival_some (s : State) (p : Packet) (hp : s.arrived s.cur.t isDiscard = some p) :
    exec .discardArrival s =
      .next (((s.takeArrived s.cur.t isDiscard).beginStep s.cur.t p.h.resid (p.h.info.toNat % 8)).reportSteps s.cur.t) := by
  simp only [exec_discardArrival, execDiscardArrival, hp]
  rfl

theorem exec_discardArrival_none (s : State) (hp : s.arrived s.cur.t isDiscard = none) :
    exec .discardArrival s = .next (s.reportSteps s.cur.t) := by
  simp only [exec_discardArrival, execDiscardArrival, hp]
  rfl

section
variable (s : State) (t : Nat) (z : Nat × Nat) (hz : (s.tile t).stopping = [z])
include hz

/-- The one step that a tile runs is over, and reported; -/
theorem State.reportSteps_over (h : s.stepDone (z.1 / 8) t (z.1 % 8) z.2 = true) :
    s.reportSteps t = (s.setTile t { s.tile t with stopping := [] }).reportStep t z.1 := by
  simp [State.reportSteps, hz, h]

/-- or it goes on. -/
theorem State.reportSteps_on (h : s.stepDone (z.1 / 8) t (z.1 % 8) z.2 = false) :
    s.reportSteps t = s.setTile t { s.tile t with stopping := [z] } := by
  simp [State.reportSteps, hz, h]

end

/-- The report of a step (R376). -/
def State.stepReport (s : State) (t z : Nat) : Packet :=
  ⟨{ s.toAttach 12 t 1 (z / 8) with op := opStepDone, info := BitVec.ofNat 64 (z % 8) }, []⟩

theorem State.reportStep_send (s : State) (t z : Nat) (h : z % 8 ≠ 6) : s.reportStep t z = s.send t (s.stepReport t z) := by
  rw [State.reportStep, if_neg h]
  rfl

/-- What step 6 clears is free then. -/
theorem State.reportStep_free (s : State) (t z : Nat) (h : z % 8 = 6) :
    s.reportStep t z = (s.freeTile (z / 8) t).send t ((s.freeTile (z / 8) t).stepReport t z) := by
  rw [State.reportStep, if_pos h]
  rfl

section
variable (s : State) (t r : Nat)

/-- Step 1 is over as soon as it has begun. -/
theorem State.reportSteps_stop (c : Nat) (h : (s.tile t).stopping = [(r * 8 + 1, c)]) :
    s.reportSteps t = (s.setTile t { s.tile t with stopping := [] }).send t
      ((s.setTile t { s.tile t with stopping := [] }).stepReport t (r * 8 + 1)) := by
  have hmod : (r * 8 + 1) % 8 = 1 := by omega
  have hover : s.stepDone ((r * 8 + 1) / 8) t ((r * 8 + 1) % 8) c = true := by
    rw [hmod]
    rfl
  rw [s.reportSteps_over t _ h hover, State.reportStep_send _ t _ (by omega)]

/-- A tile that runs no step begins step 1. -/
theorem State.beginStep_stop (h : (s.tile t).stopping = []) :
    s.beginStep t r 1 =
      (s.stopTile r t).setTile t { (s.stopTile r t).tile t with stopping := [(r * 8 + 1, (s.stopTile r t).cycle)] } := by
  have hst : ((s.stopTile r t).tile t).stopping = [] := by rwa [State.tile, State.stopTile_tiles]
  have hgo : s.discardStep r t 1 = s.stopTile r t := if_pos rfl
  rw [State.beginStep, hgo]
  dsimp only
  rw [hst, List.nil_append]

end

/-- The header of a report. -/
theorem State.stepReport_flight (s : State) (t r n : Nat) (h : n < 8) :
    (s.flight t (s.stepReport t (r * 8 + n))).p.h.kind = 12 ∧ (s.flight t (s.stepReport t (r * 8 + n))).p.h.op = opStepDone ∧
      (s.flight t (s.stepReport t (r * 8 + n))).p.h.info = BitVec.ofNat 64 n ∧
      (s.flight t (s.stepReport t (r * 8 + n))).p.h.resid = r :=
  ⟨rfl, rfl, congrArg (BitVec.ofNat 64) (by omega), show (r * 8 + n) / 8 = r by omega⟩

/-- R376: DISCARD stops the contexts of the residency on the tile, -/
theorem exec_discardArrival_stop (s : State) (p : Packet) (hp : s.arrived s.cur.t isDiscard = some p) (hinfo : p.h.info = 1)
    (hst : (s.tile s.cur.t).stopping = []) :
    ∃ w : State, exec .discardArrival s = .next (w.send s.cur.t (w.stepReport s.cur.t (p.h.resid * 8 + 1))) ∧ w.mem = s.mem ∧
      w.net = s.net ∧ w.ctxs = ((s.takeArrived s.cur.t isDiscard).stopTile p.h.resid s.cur.t).ctxs := by
  have hn : p.h.info.toNat % 8 = 1 := by
    rw [hinfo]
    rfl
  have hgo := exec_discardArrival_some s p hp
  rw [hn, State.beginStep_stop (s.takeArrived s.cur.t isDiscard) _ _ hst,
    State.reportSteps_stop _ _ p.h.resid _ (by rw [State.tile_setTile_self])] at hgo
  exact ⟨_, hgo, (s.takeArrived s.cur.t isDiscard).stopTile_mem .., (s.takeArrived s.cur.t isDiscard).stopTile_net .., rfl⟩

/-- which reports at once. -/
theorem discardArrival_stops (s : State) (p : Packet) (hp : s.arrived s.cur.t isDiscard = some p) (hinfo : p.h.info = 1)
    (hst : (s.tile s.cur.t).stopping = []) :
    ∃ (t : State) (f : Flight), exec .discardArrival s = .next t ∧ t.mem = s.mem ∧ t.net = s.net ++ [f] ∧ f.p.h.kind = 12 ∧
      f.p.h.op = opStepDone ∧ f.p.h.info = 1 ∧ f.p.h.resid = p.h.resid ∧
      ∀ k, k / 16 = s.cur.t → (s.ctx k).resid = some p.h.resid → (t.ctx k).run = .stopped ∧ (t.ctx k).async = [] := by
  obtain ⟨w, hgo, hmem, hnet, hctxs⟩ := exec_discardArrival_stop s p hp hinfo hst
  obtain ⟨hkind, hop, hinfo', hresid⟩ := w.stepReport_flight s.cur.t p.h.resid 1 (by decide)
  refine ⟨_, _, hgo, hmem, ?_, hkind, hop, hinfo', hresid, fun k hk hr => ?_⟩
  · rw [State.send_net, hnet]
  · have hctx := (s.takeArrived s.cur.t isDiscard).stopTile_ctx p.h.resid s.cur.t k hk hr
    rw [State.send_ctx, State.ctx, hctxs, ← State.ctx, hctx]
    exact ⟨rfl, rfl⟩

/-! ## What a tile frees (R376 step 6) -/

/-- What one operation of a list brings about and every one keeps, all of them bring about. -/
theorem foldl_reaches {σ α : Type} (P : σ → Prop) (f : σ → α → σ) (hkeep : ∀ s a, P s → P (f s a)) (a : α) (hnew : ∀ s, P (f s a))
    (l : List α) (h : a ∈ l) (s : σ) : P (l.foldl f s) := by
  have hall : ∀ (l : List α) (s : σ), P s → P (l.foldl f s) := fun l => by
    induction l with
    | nil => exact fun _ h => h
    | cons b l ih => exact fun s hs => ih _ (hkeep s b hs)
  induction l generalizing s with
  | nil => simp at h
  | cons b l ih =>
    rcases List.mem_cons.1 h with rfl | h
    · exact hall l _ (hnew s)
    · exact ih h _

/-! ### The steps that a tile runs stay while it frees things -/

/-- The steps of discards that a tile runs. -/
def State.stepsOn (t : Nat) (s : State) : List (Nat × Nat) := (s.tile t).stopping

theorem State.stepsOn_setTile (s : State) (t u : Nat) (x : Tile) (h : x.stopping = (s.tile u).stopping) :
    State.stepsOn t (s.setTile u x) = State.stepsOn t s := by
  rw [State.stepsOn, State.tile_setTile]
  split
  · next htu => rw [h, State.stepsOn, htu]
  · rfl

theorem State.stepsOn_engineArrive (s : State) (t u r name : Nat) (err : Bool) :
    State.stepsOn t (s.engineArrive u r name err) = State.stepsOn t s := by
  unfold State.engineArrive
  split
  · rfl
  · exact s.stepsOn_setTile _ _ _ rfl

theorem State.stepsOn_mDeliver (s : State) (t u key r : Nat) (k : MTok) (e : Option MErr) :
    State.stepsOn t (s.mDeliver u key r k e) = State.stepsOn t s := by
  unfold State.mDeliver
  split
  · rfl
  · split
    · exact s.stepsOn_engineArrive ..
    · rfl
    · rfl

theorem State.stepsOn_mDone (s : State) (t u : Nat) (q : MReq) (e : Option MErr) :
    State.stepsOn t (s.mDone u q e) = State.stepsOn t s := by
  unfold State.mDone
  split
  · rfl
  · split
    · rfl
    · exact s.stepsOn_mDeliver ..

theorem State.stepsOn_mFail (s : State) (t u : Nat) (q : MReq) (e : MErr) :
    State.stepsOn t (s.mFail u q e) = State.stepsOn t s := by
  rw [State.mFail, State.stepsOn_mDone]
  split <;> rfl

theorem State.stepsOn_mRefused (s : State) (t u cause : Nat) (q : MReq) :
    State.stepsOn t (s.mRefused u cause q) = State.stepsOn t s := by
  rw [State.mRefused]
  split
  · rfl
  · exact State.stepsOn_mFail ..

theorem State.stepsOn_failMembers (s : State) (t r u : Nat) : State.stepsOn t (s.failMembers r u) = State.stepsOn t s :=
  foldl_keeps (State.stepsOn t) _ (fun s q => s.stepsOn_mRefused t u 0x37 q) _ _

/-- Tiles whose arrivals change run the same steps. -/
theorem stopping_map (f : Nat × Tile → List Arrival) (t : Nat) (m : AMap Tile) :
    (AMap.get (m.map fun e : Nat × Tile => (e.1, { e.2 with arrivals := f e })) {} t).stopping = (m.get {} t).stopping := by
  induction m with
  | nil => rfl
  | cons e m ih =>
    by_cases h : e.1 = t
    · simp [AMap.get, h]
    · simpa only [AMap.get, List.map_cons, h, if_false] using ih

theorem State.stepsOn_freeBarriers (s : State) (t r u : Nat) : State.stepsOn t (s.freeBarriers r u) = State.stepsOn t s :=
  stopping_map _ t s.tiles

theorem State.stepsOn_freeBank (s : State) (t u n : Nat) : State.stepsOn t (s.freeBank u n) = State.stepsOn t s := by
  calc State.stepsOn t (s.freeBank u n)
      _ = State.stepsOn t ((s.clearBank u n).dropWay u n) := State.stepsOn_setTile _ t u _ rfl
      _ = State.stepsOn t s := State.stepsOn_setTile _ t u _ rfl

/-- A context bank of a tile becomes free. -/
def State.freeCtxBank (t : Nat) (s : State) (b : Nat) : State :=
  (List.range 4).foldl (fun s q => s.setCtx ((t * 4 + q) * 4 + b) {}) (s.freePorts t b)

theorem State.stepsOn_freeCtxBank (s : State) (t u b : Nat) : State.stepsOn t (s.freeCtxBank u b) = State.stepsOn t s :=
  foldl_keeps (State.stepsOn t) (fun s q => s.setCtx ((u * 4 + q) * 4 + b) {}) (fun _ _ => rfl) _ _

/-- Its contexts are those of the reset state, and stay so. -/
theorem State.freeCtxBank_ctx (s : State) (t b q : Nat) (hq : q < 4) : (s.freeCtxBank t b).ctx ((t * 4 + q) * 4 + b) = {} :=
  foldl_reaches (fun s : State => s.ctx ((t * 4 + q) * 4 + b) = {}) (fun s q => s.setCtx ((t * 4 + q) * 4 + b) {})
    (fun s _ h => by rw [State.ctx_setCtx, h, ite_self]) q (fun s => s.ctx_setCtx_self _ _) _ (List.mem_range.2 hq) _

theorem State.freeCtxBank_ctx_free (s : State) (t b k : Nat) (h : s.ctx k = {}) : (s.freeCtxBank t b).ctx k = {} :=
  List.foldlRecOn (motive := fun s : State => s.ctx k = {}) _ _ h fun s h _ _ => by rw [State.ctx_setCtx, h, ite_self]

/-- A tile that frees what a residency holds runs no step of it any more; of others it runs what it ran. -/
theorem State.stepsOn_freeTile (s : State) (r t : Nat) :
    State.stepsOn t (s.freeTile r t) = (State.stepsOn t s).filter fun z => z.1 / 8 != r := by
  refine (foldl_keeps (State.stepsOn t) (State.freeCtxBank t) (fun s b => s.stepsOn_freeCtxBank t t b) _ _).trans ?_
  refine (congrArg Tile.stopping (State.tile_setTile_self ..)).trans (congrArg (List.filter _) ?_)
  refine (foldl_keeps (State.stepsOn t) _ (fun s n => s.stepsOn_freeBank t t n) _ _).trans ?_
  refine (foldl_keeps (State.stepsOn t) (fun s n => s.freeSlice t n) (fun _ _ => rfl) _ _).trans ?_
  refine (foldl_keeps (State.stepsOn t) (fun s n => s.freeSlot t n) (fun _ _ => rfl) _ _).trans ?_
  refine (foldl_keeps (State.stepsOn t) (fun s n => s.setTile t ((s.tile t).setTemplate n {}))
    (fun s n => s.stepsOn_setTile t t _ rfl) _ _).trans ?_
  exact ((s.failMembers r t).stepsOn_freeBarriers t r t).trans (s.stepsOn_failMembers t r t)

/-! ### The contexts of the residency are free -/

/-- R376: the contexts that the residency has on the tile are those of the reset state. -/
theorem State.freeTile_ctx (s : State) (r t b q : Nat) (hb : b ∈ s.ctxBanks r t) (hq : q < 4) :
    (s.freeTile r t).ctx ((t * 4 + q) * 4 + b) = {} :=
  foldl_reaches (fun s => s.ctx ((t * 4 + q) * 4 + b) = {}) (State.freeCtxBank t) (fun s c h => s.freeCtxBank_ctx_free t c _ h) b
    (fun s => s.freeCtxBank_ctx t b q hq) _ hb _

/-! ### Step 6 -/

section
variable (s : State) (n c : Nat) (hst : (s.tile s.cur.t).stopping = [(n * 8 + 6, c)])
include hst

/-- R376: clearing takes 512 cycles, -/
theorem reportSteps_clears (h : s.cycle < c + 512) :
    s.reportSteps s.cur.t = s.setTile s.cur.t { s.tile s.cur.t with stopping := [(n * 8 + 6, c)] } := by
  have hgo : s.stepDone ((n * 8 + 6) / 8) s.cur.t ((n * 8 + 6) % 8) c = false := by
    rw [show (n * 8 + 6) % 8 = 6 by omega]
    exact decide_eq_false (by omega)
  exact s.reportSteps_on _ _ hst hgo

/-- and then what the residency holds on the tile is free. -/
theorem reportSteps_cleared (h : c + 512 ≤ s.cycle) :
    s.reportSteps s.cur.t =
      let u := (s.setTile s.cur.t { s.tile s.cur.t with stopping := [] }).freeTile n s.cur.t
      u.send s.cur.t (u.stepReport s.cur.t (n * 8 + 6)) := by
  have hover : s.stepDone ((n * 8 + 6) / 8) s.cur.t ((n * 8 + 6) % 8) c = true := by
    rw [show (n * 8 + 6) % 8 = 6 by omega]
    exact decide_eq_true h
  rw [s.reportSteps_over _ _ hst hover, State.reportStep_free _ _ _ (by omega), show (n * 8 + 6) / 8 = n by omega]

variable (hp : s.arrived s.cur.t isDiscard = none)
include hp

theorem discardArrival_clears (h : s.cycle < c + 512) :
    ∃ t, exec .discardArrival s = .next t ∧ t.mem = s.mem ∧ t.net = s.net ∧ (t.tile s.cur.t).stopping = [(n * 8 + 6, c)] := by
  have hgo := exec_discardArrival_none s hp
  rw [reportSteps_clears s n c hst h] at hgo
  exact ⟨_, hgo, rfl, rfl, by rw [State.tile_setTile_self]⟩

theorem discardArrival_cleared (h : c + 512 ≤ s.cycle) :
    ∃ (t : State) (f : Flight), exec .discardArrival s = .next t ∧ f ∈ t.net ∧ f.p.h.kind = 12 ∧
      f.p.h.op = opStepDone ∧ f.p.h.info = 6 ∧ f.p.h.resid = n ∧ (t.tile s.cur.t).stopping = [] ∧
      ∀ b ∈ s.ctxBanks n s.cur.t, ∀ q, q < 4 → t.ctx ((s.cur.t * 4 + q) * 4 + b) = {} := by
  have hgo := exec_discardArrival_none s hp
  rw [reportSteps_cleared s n c hst h] at hgo
  let v := s.setTile s.cur.t { s.tile s.cur.t with stopping := [] }
  obtain ⟨hkind, hop, hinfo, hresid⟩ := (v.freeTile n s.cur.t).stepReport_flight s.cur.t n 6 (by decide)
  refine ⟨_, _, hgo, List.mem_append_right _ (List.mem_singleton.2 rfl), hkind, hop, hinfo, hresid, ?_, fun b hb q hq => ?_⟩
  · refine (v.stepsOn_freeTile n s.cur.t).trans ?_
    rw [State.stepsOn, State.tile_setTile_self]
    rfl
  · exact v.freeTile_ctx n s.cur.t b q hb hq

end

/-! ### Every part of a discard -/

/-- R49, R51, R376: from step 1 to the entry that is free. -/
theorem discardSteps : Parts.DiscardSteps := by
  refine ⟨fun s r hr hend hstep => ?_, discardArrival_stops, fun s n c hp hst => ?_, fun s r hp hr hend hstep => ?_, fun s r hr hrun => ?_⟩
  · exact ⟨exec_discard_waits s r hr hend hstep, exec_discard_begins s r hr hend hstep⟩
  · exact ⟨discardArrival_clears s n c hst hp, discardArrival_cleared s n c hst hp⟩
  · refine ⟨exec_discardStepDone_waits s r hp hr, fun hall => ?_⟩
    have hgo := exec_discardStepDone_all s r hp hr hend hstep hall
    refine ⟨fun h6 => ?_, fun h6 hd hlen => ?_, fun h6 hroom => ?_⟩
    · rw [if_neg h6] at hgo
      exact ⟨_, hgo, s.sendStep_mem .., s.sendStep_step r _ _ hr r rfl⟩
    · have hfull : s.bufferFull = true := decide_eq_true hlen
      rw [if_pos h6, if_neg (by simp [hd, hfull])] at hgo
      exact hgo
    · have hgone : r.state = .faulting ∨ s.bufferFull = false := hroom.imp_right fun h => decide_eq_false (Nat.not_le.2 h)
      rw [if_pos h6, if_pos hgone] at hgo
      exact ⟨_, hgo, s.discardEnd_findRes r⟩
  · refine ⟨exec_residencyEnd_goes_on s r hr hrun, fun he => ?_⟩
    refine ⟨_, completionEvent r.cand 0 0 r.num 0 (s.cycleSince r), exec_residencyEnd_ended s r hr hrun he, ?_, ?_, rfl,
      completionEvent_kind .., completionEvent_status .., completionEvent_tag ..⟩
    · rw [State.completion_findRes, State.freeRes_findRes]
    · rw [State.completion_buffer]
      exact List.mem_append_right _ (List.mem_singleton.2 rfl)

/-- Settles O49: the events of the scheduler one by one, then the steps of a discard, whose last frees what a tile holds. -/
theorem residencyLife : Obligations.ResidencyLife := ⟨residencyEvents, discardSteps⟩

end Sys2Proof.Machine

namespace Sys2Proof.Machine

/-! ## The checks on an address (R53, R54, R223) -/

section

variable (s : State) (c : Ctx) (t : Nat) (a : W64) (n : Nat)

theorem State.checkWindow_none (h : winOf a = none) : s.checkWindow c t a n = some ⟨0x10, a, 0⟩ := by
  simp only [State.checkWindow, h]

theorem State.checkWindow_priv (h : winOf a = some .priv) :
    s.checkWindow c t a n = if (a.extractLsb' 0 16).toNat + n ≤ c.privSize then none else some ⟨0x11, a, 0⟩ := by
  simp only [State.checkWindow, h]

theorem State.checkWindow_scratch (h : winOf a = some .scratch) :
    s.checkWindow c t a n =
      if s.present (a.extractLsb' 44 12).toNat = false ∨ 2 ^ 17 < (a.extractLsb' 0 17).toNat + n then some ⟨0x10, a, 0⟩
      else if (a.extractLsb' 44 12).toNat ≠ t then some ⟨0x12, a, 0⟩ else none := by
  simp [State.checkWindow, h, sramPlace]

theorem State.checkWindow_cluster (h : winOf a = some .cluster) :
    s.checkWindow c t a n =
      if 6 ≤ (a.extractLsb' 44 3).toNat ∨ s.present (clusterTile (a.extractLsb' 47 9).toNat (a.extractLsb' 44 3).toNat) = false ∨
        2 ^ 17 < (a.extractLsb' 0 17).toNat + n then some ⟨0x10, a, 0⟩
      else if (a.extractLsb' 47 9).toNat ≠ clusterOf t then some ⟨0x13, a, 0⟩ else none := by
  simp [State.checkWindow, h, sramPlace]

theorem State.checkWindow_fabric (h : winOf a = some .fabric) :
    s.checkWindow c t a n =
      if s.present (a.extractLsb' 44 12).toNat = false ∨ 2 ^ 17 < (a.extractLsb' 0 17).toNat + n then some ⟨0x10, a, 0⟩
      else none := by
  simp [State.checkWindow, h, sramPlace]

theorem State.checkWindow_global (h : winOf a = some .global) :
    s.checkWindow c t a n = if a.toNat + n ≤ 2 ^ 56 then none else some ⟨0x10, a, 0⟩ := by
  simp only [State.checkWindow, h]

/-- A failed window check names the address. -/
theorem State.checkWindow_addr (x : Trap) (h : s.checkWindow c t a n = some x) : x.addr = a := by
  rcases hw : winOf a with _ | w
  · cases (s.checkWindow_none c t a n hw).symm.trans h
    rfl
  · cases w with
    | global => rw [s.checkWindow_global c t a n hw] at h; split_ifs at h; cases h; rfl
    | priv => rw [s.checkWindow_priv c t a n hw] at h; split_ifs at h; cases h; rfl
    | scratch => rw [s.checkWindow_scratch c t a n hw] at h; split_ifs at h <;> cases h <;> rfl
    | cluster => rw [s.checkWindow_cluster c t a n hw] at h; split_ifs at h <;> cases h <;> rfl
    | fabric => rw [s.checkWindow_fabric c t a n hw] at h; split_ifs at h; cases h; rfl

end

section

variable (s : State) (r t off n : Nat) (a : W64)

/-- A failed bank check names the address. -/
theorem State.checkBanks_addr (x : Trap) (h : s.checkBanks r t off n a = some x) : x.addr = a := by
  unfold State.checkBanks at h
  dsimp only at h
  split at h
  · cases h
    rfl
  · split at h <;> cases h
    rfl

variable (l m : List Nat) (b : Nat) (hb : s.banksOf t off n = l ++ b :: m)
include hb

/-- R54: the first bank that is not SCRATCH decides, whoever owns the banks. -/
theorem State.checkBanks_mode (hl : ∀ j ∈ l, (s.bank t j).mode = .scratch) (h : (s.bank t b).mode ≠ .scratch) :
    s.checkBanks r t off n a = some ⟨0x14, a, BitVec.ofNat 64 b⟩ := by
  have hfind : (s.banksOf t off n).find? (fun j => (s.bank t j).mode ≠ .scratch) = some b := by
    rw [hb, List.find?_append, List.find?_eq_none.2 (by simpa using hl)]
    simp [h]
  simp only [State.checkBanks, hfind]

/-- R54: with every bank SCRATCH, the first of another residency decides. -/
theorem State.checkBanks_owner (hm : ∀ j ∈ l ++ b :: m, (s.bank t j).mode = .scratch) (hl : ∀ j ∈ l, s.ownsBank r t j = true)
    (h : s.ownsBank r t b = false) : s.checkBanks r t off n a = some ⟨0x15, a, BitVec.ofNat 64 b⟩ := by
  have hscratch : (s.banksOf t off n).find? (fun j => (s.bank t j).mode ≠ .scratch) = none := by
    rw [hb, List.find?_eq_none]
    simpa using hm
  have hfind : (s.banksOf t off n).find? (fun j => !s.ownsBank r t j) = some b := by
    rw [hb, List.find?_append, List.find?_eq_none.2 (by simpa using hl)]
    simp [h]
  simp only [State.checkBanks, hscratch, hfind]

end

section

variable (s : State) (c : Ctx) (t : Nat) (a : W64) (n al : Nat) (x : Trap)

/-- Of an address that is not global, the window's check decides first. -/
theorem State.checkAccess_window (hg : winOf a ≠ some .global) (h : s.checkWindow c t a n = some x) :
    s.checkAccess c t a n al = some x := by
  simp only [State.checkAccess, hg, if_false, h]

/-- In a window of the tile and its cluster the banks decide next. -/
theorem State.checkAccess_banks (w : Win) (hw : winOf a = some w) (hg : w ≠ .global) (hf : w ≠ .fabric)
    (hc : s.checkWindow c t a n = none)
    (h : s.checkBanks (c.resid.getD 0) (sramPlace c t w a).1 (sramPlace c t w a).2 n a = some x) : s.checkAccess c t a n al = some x := by
  cases w with
  | global => exact absurd rfl hg
  | fabric => exact absurd rfl hf
  | priv => simp [State.checkAccess, hw, hc, h]
  | scratch => simp [State.checkAccess, hw, hc, h]
  | cluster => simp [State.checkAccess, hw, hc, h]

/-- Every fault of an access names its address. -/
theorem State.checkAccess_addr (h : s.checkAccess c t a n al = some x) : x.addr = a := by
  unfold State.checkAccess at h
  dsimp only at h
  split at h
  · cases h
    exact s.checkWindow_addr _ _ _ _ _ ‹_›
  · split at h
    · rename_i hbanks
      cases h
      split at hbanks
      · cases hbanks
      · cases hbanks
      · cases hbanks
      · exact s.checkBanks_addr _ _ _ _ _ _ hbanks
    · split_ifs at h <;> cases h <;> rfl

end

/-- R53, R54, R223: the checks in the order of R54's table. -/
theorem windowChecks : Parts.WindowChecks := by
  intro s a n hn check tile mate off
  have window := s.checkAccess_window s.me s.cur.t a n 1
  refine ⟨fun hw => ?_, fun hw h => ?_, fun hw h => ?_, fun hw h => ?_, fun hw hp ho h => ?_, fun hw hi hp ho h => ?_, ?_,
    s.checkAccess_addr _ _ _ _ _⟩
  · exact window _ (by simp [hw]) (s.checkWindow_none _ _ _ _ hw)
  · rcases hw with hw | hw
    · exact window _ (by simp [hw]) (by rw [s.checkWindow_scratch _ _ _ _ hw, if_pos h])
    · exact window _ (by simp [hw]) (by rw [s.checkWindow_fabric _ _ _ _ hw, if_pos h])
  · exact window _ (by simp [hw]) (by rw [s.checkWindow_cluster _ _ _ _ hw, if_pos h])
  · exact window _ (by simp [hw]) (by rw [s.checkWindow_priv _ _ _ _ hw, if_neg (Nat.not_le.2 h)])
  · refine window _ (by simp [hw]) ?_
    rw [s.checkWindow_scratch _ _ _ _ hw, if_neg (not_or.2 ⟨ne_false_of_eq_true hp, Nat.not_lt.2 ho⟩), if_pos h]
  · refine window _ (by simp [hw]) ?_
    rw [s.checkWindow_cluster _ _ _ _ hw,
      if_neg (not_or.2 ⟨Nat.not_le.2 hi, not_or.2 ⟨ne_false_of_eq_true hp, Nat.not_lt.2 ho⟩⟩), if_pos h]
  · rintro w p hw hg hf hc rfl l m b hb
    have banks := s.checkAccess_banks s.me s.cur.t a n 1 (w := w) (hw := hw) (hg := hg) (hf := hf) (hc := hc)
    exact ⟨fun hl hmode => banks _ (s.checkBanks_mode _ _ _ _ _ _ _ _ hb hl hmode),
      fun hm hl howns => banks _ (s.checkBanks_owner _ _ _ _ _ _ _ _ hb hm hl howns)⟩

/-! ## Space test and cast (R58, R59) -/

theorem exec_gtest (d a : BitVec 5) (s : State) : exec (.gtest d a) s = execGtest d a s := rfl
theorem exec_gcast (d a : BitVec 5) (w : BitVec 3) (s : State) : exec (.gcast d a w) s = execGcast d a w s := rfl

/-- Bits 2:0 of the class word, by window (R58). -/
def Win.code : Win → W64
  | .global => 0
  | .priv => 1
  | .scratch => 2
  | .cluster => 3
  | .fabric => 4

theorem State.classOf_none (s : State) (a : W64) (h : winOf a = none) : s.classOf a = 7 := by
  simp only [State.classOf, h]

theorem State.classOf_some (s : State) (a : W64) (w : Win) (h : winOf a = some w) :
    s.classOf a = w.code + if s.checkWindow s.me s.cur.t a 1 = none then 8 else 0 := by
  simp only [State.classOf, h, Option.isNone_iff_eq_none]
  cases w <;> split <;> simp [Win.code]

/-- R58: a ready `gtest` gives the class word of the address. -/
theorem exec_gtest_ready (s : State) (d a : BitVec 5) (h : s.ready [rd a] [d] = true) :
    exec (.gtest d a) s = .next ((s.put d (s.classOf (s.src [rd a] 0))).finish 4 [rd a]) := by
  rw [exec_gtest, execGtest, State.issueS_ready _ _ _ _ _ h, State.conclude_ok]

/-- R59: a ready `gcast` gives the converted address, -/
theorem exec_gcast_some (s : State) (d a : BitVec 5) (w : BitVec 3) (v : W64) (h : s.ready [rd a] [d] = true)
    (hv : s.cast (s.src [rd a] 0) (castTo w) = some v) : exec (.gcast d a w) s = .next ((s.put d v).finish 4 [rd a]) := by
  simp only [exec_gcast, execGcast, State.issueS_ready _ _ _ _ _ h, hv, State.conclude_ok]

/-- or faults where R59 lists no conversion. -/
theorem exec_gcast_none (s : State) (d a : BitVec 5) (w : BitVec 3) (h : s.ready [rd a] [d] = true)
    (hv : s.cast (s.src [rd a] 0) (castTo w) = none) : exec (.gcast d a w) s = .next (s.fault ⟨0x1C, s.src [rd a] 0, 0⟩) := by
  simp only [exec_gcast, execGcast, State.issueS_ready _ _ _ _ _ h, hv, State.conclude_trap]

theorem encodePlace_scratch (t o : Nat) : encodePlace .scratch t o = Claims.named 0xF9 t o := rfl
theorem encodePlace_fabric (t o : Nat) : encodePlace .fabric t o = Claims.named 0xFB t o := rfl

/-- R53, R15: cluster and place in it lie side by side in bits 55:44. -/
theorem encodePlace_cluster (t o : Nat) : encodePlace .cluster t o = Claims.shared t o := by
  simp only [encodePlace, Claims.shared, Claims.named]
  congr 1
  ring

/-- An address of the `priv` window names no tile. -/
theorem ofNat_priv (o : Nat) : BitVec.ofNat 64 (0xF8 * 2 ^ 56 + o) = Claims.named 0xF8 0 o := by
  rw [Claims.named, Nat.zero_mul, Nat.add_zero]

section

variable (s : State) (a : W64)

/-- The `priv` address of a tile's scratch offset, if that lies in the area of the context whose turn it is (R59, last row). -/
def State.toPriv (t off : Nat) : Option W64 :=
  if t = s.cur.t ∧ s.me.privStart ≤ off ∧ off < s.me.privStart + s.me.privSize then
    some (Claims.named 0xF8 0 (off - s.me.privStart)) else none

/-- The cluster-shared address of a tile's scratch offset, if the tile is present in the own cluster (R59, fourth row). -/
def State.toShared (t off : Nat) : Option W64 :=
  if s.present t = true ∧ clusterOf t = clusterOf s.cur.t then some (Claims.shared t off) else none

theorem State.cast_none (w : Win) (h : winOf a = none) : s.cast a w = none := by
  simp only [State.cast, h]

/-- R59: to the same window, with the field checks of R54 passed. -/
theorem State.cast_same (w : Win) (h : winOf a = some w) : s.cast a w = if s.fieldsOk a then some a else none := by
  simp only [State.cast, h, if_true]

/-- R59: a global address converts to no other window, and none converts to global. -/
theorem State.cast_other_global (v w : Win) (h : winOf a = some v) (hne : v ≠ w) (hg : v = .global ∨ w = .global) :
    s.cast a w = none := by
  simp only [State.cast, h, hne, if_false, hg, if_true]

/-- R59: from the `priv` window to any window that names its tile, within the area's size. -/
theorem State.cast_of_priv (w : Win) (h : winOf a = some .priv) (hp : w ≠ .priv) (hg : w ≠ .global) :
    s.cast a w = if (a.extractLsb' 0 16).toNat < s.me.privSize
      then some (encodePlace w s.cur.t (s.me.privStart + (a.extractLsb' 0 16).toNat)) else none := by
  simp only [State.cast, h, hp.symm, hg, if_false, or_false, reduceCtorEq, sramPlace]

/-- R59: to the `priv` window, from the windows that name a tile. -/
theorem State.cast_tile_priv (h : winOf a = some .scratch ∨ winOf a = some .fabric) :
    s.cast a .priv = s.toPriv (a.extractLsb' 44 12).toNat (a.extractLsb' 0 17).toNat := by
  rcases h with h | h <;>
    simp only [State.cast, h, reduceCtorEq, or_self, if_false, sramPlace, ofNat_priv, State.toPriv, ne_eq, not_false_eq_true, true_or,
      true_and]

theorem State.cast_cluster_priv (h : winOf a = some .cluster) :
    s.cast a .priv = if (a.extractLsb' 44 3).toNat < 6
      then s.toPriv (clusterTile (a.extractLsb' 47 9).toNat (a.extractLsb' 44 3).toNat) (a.extractLsb' 0 17).toNat else none := by
  by_cases hi : (a.extractLsb' 44 3).toNat < 6 <;>
    simp only [State.cast, h, reduceCtorEq, or_self, if_false, sramPlace, ofNat_priv, State.toPriv, ne_eq, not_true_eq_false, false_or, hi,
      if_true, true_and, false_and, and_false]

/-- R59: to the fabric window, -/
theorem State.cast_scratch_fabric (h : winOf a = some .scratch) :
    s.cast a .fabric = some (Claims.named 0xFB (a.extractLsb' 44 12).toNat (a.extractLsb' 0 17).toNat) := by
  simp only [State.cast, h, reduceCtorEq, or_self, if_false, sramPlace, encodePlace_fabric]

theorem State.cast_cluster_fabric (h : winOf a = some .cluster) :
    s.cast a .fabric = if (a.extractLsb' 44 3).toNat < 6
      then some (Claims.named 0xFB (clusterTile (a.extractLsb' 47 9).toNat (a.extractLsb' 44 3).toNat) (a.extractLsb' 0 17).toNat)
      else none := by
  simp only [State.cast, h, reduceCtorEq, or_self, if_false, sramPlace, encodePlace_fabric]

/-- to the cluster-shared window, -/
theorem State.cast_tile_cluster (h : winOf a = some .scratch ∨ winOf a = some .fabric) :
    s.cast a .cluster = s.toShared (a.extractLsb' 44 12).toNat (a.extractLsb' 0 17).toNat := by
  rcases h with h | h <;>
    simp only [State.cast, h, reduceCtorEq, or_self, if_false, sramPlace, encodePlace_cluster, State.toShared]

/-- and to the scratchpad. -/
theorem State.cast_cluster_scratch (h : winOf a = some .cluster) :
    s.cast a .scratch = if (a.extractLsb' 44 3).toNat < 6 ∧ clusterTile (a.extractLsb' 47 9).toNat (a.extractLsb' 44 3).toNat = s.cur.t
      then some (Claims.named 0xF9 s.cur.t (a.extractLsb' 0 17).toNat) else none := by
  simp only [State.cast, h, reduceCtorEq, or_self, if_false, sramPlace, encodePlace_scratch]
  rfl

theorem State.cast_fabric_scratch (h : winOf a = some .fabric) :
    s.cast a .scratch = if (a.extractLsb' 44 12).toNat = s.cur.t
      then some (Claims.named 0xF9 s.cur.t (a.extractLsb' 0 17).toNat) else none := by
  simp only [State.cast, h, reduceCtorEq, or_self, if_false, sramPlace, encodePlace_scratch]
  rfl

/-! ### The field checks that a conversion to the same window makes (R54, first two rows) -/

theorem State.fieldsOk_global (h : winOf a = some .global) : s.fieldsOk a = true := by simp only [State.fieldsOk, h]
theorem State.fieldsOk_priv (h : winOf a = some .priv) : s.fieldsOk a = true := by simp only [State.fieldsOk, h]
theorem State.fieldsOk_tile (h : winOf a = some .scratch ∨ winOf a = some .fabric) :
    s.fieldsOk a = s.present (a.extractLsb' 44 12).toNat := by
  rcases h with h | h <;> simp only [State.fieldsOk, h]

theorem State.fieldsOk_cluster (h : winOf a = some .cluster) :
    s.fieldsOk a = (decide ((a.extractLsb' 44 3).toNat < 6) &&
      s.present (clusterTile (a.extractLsb' 47 9).toNat (a.extractLsb' 44 3).toNat)) := by
  simp only [State.fieldsOk, h]

end

/-- R58, R59: the class of an address, and the conversions of R59's table, source by source. -/
theorem spaceTests : Parts.SpaceTests := by
  refine ⟨fun s d a hr => ?_, fun s d a w hr => ⟨fun v => exec_gcast_some s d a w v hr, exec_gcast_none s d a w hr⟩,
    fun s a w => ?_⟩
  · refine ⟨_, exec_gtest_ready s d a hr, s.classOf_none _, fun w hw => ?_⟩
    rw [s.classOf_some _ w hw]
    cases w <;> rfl
  · intro own off tile mate six start p back here
    refine ⟨s.cast_none a w, fun h => ?_, fun h => ?_, fun h => ?_, fun h => ?_, fun h => ?_⟩
    · by_cases hw : w = .global
      · rw [if_pos hw, hw, s.cast_same a _ h, s.fieldsOk_global a h, if_pos rfl]
      · rw [if_neg hw, s.cast_other_global a _ w h (Ne.symm hw) (.inl rfl)]
    · have hoff : p - start = (a.extractLsb' 0 16).toNat := Nat.add_sub_cancel_left ..
      cases w with
      | global => exact s.cast_other_global a _ _ h (by decide) (.inr rfl)
      | priv => rw [s.cast_same a _ h, s.fieldsOk_priv a h, if_pos rfl]
      | scratch => rw [s.cast_of_priv a _ h (by decide) (by decide), encodePlace_scratch, hoff]
      | cluster => rw [s.cast_of_priv a _ h (by decide) (by decide), encodePlace_cluster, hoff]
      | fabric => rw [s.cast_of_priv a _ h (by decide) (by decide), encodePlace_fabric, hoff]
    · cases w with
      | global => exact s.cast_other_global a _ _ h (by decide) (.inr rfl)
      | priv => exact s.cast_tile_priv a (.inl h)
      | scratch => rw [s.cast_same a _ h, s.fieldsOk_tile a (.inl h)]
      | cluster => exact s.cast_tile_cluster a (.inl h)
      | fabric => exact s.cast_scratch_fabric a h
    · have hsix : (six = true) = ((a.extractLsb' 44 3).toNat < 6) := decide_eq_true_eq
      cases w with
      | global => exact s.cast_other_global a _ _ h (by decide) (.inr rfl)
      | priv => simp only [hsix]; exact s.cast_cluster_priv a h
      | scratch => simp only [hsix]; exact s.cast_cluster_scratch a h
      | cluster => rw [s.cast_same a _ h, s.fieldsOk_cluster a h]
      | fabric => simp only [hsix]; exact s.cast_cluster_fabric a h
    · cases w with
      | global => exact s.cast_other_global a _ _ h (by decide) (.inr rfl)
      | priv => exact s.cast_tile_priv a (.inr h)
      | scratch => exact s.cast_fabric_scratch a h
      | cluster => exact s.cast_tile_cluster a (.inr h)
      | fabric => rw [s.cast_same a _ h, s.fieldsOk_tile a (.inr h)]

/-- Settles O10: the checks by window and by bank, then `gtest` and the rows of R59's table for `gcast`. -/
theorem windows : Obligations.Windows := ⟨windowChecks, spaceTests⟩

end Sys2Proof.Machine

namespace Sys2Proof.Machine

/-! ## A request whose address is not the first byte of its sector (R57, R367) -/

theorem exec_fabricRequest (s : State) : exec .fabricRequest s = execFabricRequest s := rfl

theorem State.answer_net (s : State) (src : Nat) (q : Hdr) (kind : Nat) (pay : List W256) (a info : W64) :
    ∃ f : Flight, (s.answer src q kind pay a info).net = s.net ++ [f] ∧ f.p.h.kind = kind :=
  ⟨_, State.send_net .., rfl⟩

/-- R367: a tile answers a read of bytes that are uncorrectable with a refusal. -/
theorem exec_fabricRequest_unreadable (s : State) (p : Packet) (h : Nat × Nat) (hp : s.arrived s.cur.t isFabricRequest = some p)
    (hh : scratchHome (s.tile s.cur.t) (p.h.addr.extractLsb' 0 17).toNat = h) (hpend : (s.bank s.cur.t h.1).pending = [])
    (hmode : (s.bank s.cur.t h.1).mode = .scratch) (howns : s.ownsBank p.h.resid s.cur.t h.1 = true) (hk : p.h.kind = 0)
    (hbad : s.badMask (sramKey s.cur.t h.1 h.2) p.h.op = true) :
    exec .fabricRequest s = .next ((s.takeArrived s.cur.t isFabricRequest).answer s.cur.t p.h 5 [] p.h.addr 0x1A) := by
  have hserve : (s.takeArrived s.cur.t isFabricRequest).serve s.cur.t (sramKey s.cur.t h.1 h.2) p =
      (s.takeArrived s.cur.t isFabricRequest).answer s.cur.t p.h 5 [] p.h.addr 0x1A := by
    have hunreadable : (s.takeArrived s.cur.t isFabricRequest).unreadable (sramKey s.cur.t h.1 h.2) p = true :=
      (if_pos hk).trans hbad
    simp only [State.serve, hk, hunreadable, if_true, zero_ne_one, if_false]
  have hserves : ¬ ((s.bank s.cur.t h.1).mode ≠ .scratch ∨ s.ownsBank p.h.resid s.cur.t h.1 = false) := by simp [hmode, howns]
  rw [exec_fabricRequest, execFabricRequest, ← hserve]
  simp only [hp, hh, hpend, ne_eq, not_true_eq_false, if_false]
  exact congrArg _ (if_neg hserves)

/-- A read of byte 0 of the sector at scratch byte 0x40 of a tile, by the address of its byte 8. -/
def skewedRead : Packet := ⟨{ kind := 0, addr := 0x48, op := 1, resid := 1 }, []⟩

/-- Tile 0 with that read at its router: its bank 0 belongs to residency 1, and the sector's first word, bytes 0x40 to 0x47, is
uncorrectable. -/
def skewedState : State := { State.reset with
  inbox := [⟨0, skewedRead⟩]
  ctxs := [(0, { resid := some 1 })]
  tiles := [(0, { banks := [(0, { owner := some 0 })] })]
  badWords := [sramKey 0 0 0x40 / 8] }

theorem skewedState_arrived : skewedState.arrived 0 isFabricRequest = some skewedRead := by decide +kernel
theorem skewedState_home : scratchHome (skewedState.tile 0) (skewedRead.h.addr.extractLsb' 0 17).toNat = (0, 0x48) := by decide +kernel
theorem skewedState_bank : (skewedState.bank 0 0).pending = [] ∧ (skewedState.bank 0 0).mode = .scratch ∧
    skewedState.ownsBank 1 0 0 = true := by decide +kernel

/-- The 32 bytes from the address on hold no error; the byte that the read asks for does. -/
theorem skewedState_bad : skewedState.badAt (sramKey 0 0 0x48) 32 = false ∧ skewedState.badMask (sramKey 0 0 0x48) 1 = true := by
  decide +kernel

/-- The model refuses the read. -/
theorem skewedState_refused :
    ∃ (v : State) (g : Flight), exec .fabricRequest skewedState = .next v ∧ v.net = [g] ∧ g.p.h.kind = 5 := by
  obtain ⟨hpend, hmode, howns⟩ := skewedState_bank
  obtain ⟨g, hnet, hkind⟩ := (skewedState.takeArrived 0 isFabricRequest).answer_net 0 skewedRead.h 5 [] 0x48 0x1A
  exact ⟨_, g, exec_fabricRequest_unreadable skewedState skewedRead (0, 0x48) skewedState_arrived skewedState_home hpend hmode howns rfl
    skewedState_bad.2, hnet, hkind⟩

/-- Refutes O44: of a request at a tile it asks only that the 32 bytes from the request's address on hold no error, and a request reads the
bytes of its mask in the address's sector, which begins before an address that is not its first byte. At `skewedState` the byte that is
read lies in an uncorrectable word before the address: the answer is a refusal (R367), not the data. -/
theorem not_requests : ¬ Obligations.Requests := by
  rintro ⟨⟨tileRequests, -⟩, -⟩
  obtain ⟨hpend, hmode, howns⟩ := skewedState_bank
  have claim := tileRequests skewedState skewedRead
  simp only [show skewedState.cur.t = 0 from rfl, skewedState_home] at claim
  obtain ⟨-, served⟩ := claim skewedState_arrived hpend
  obtain ⟨reads, -⟩ := served hmode howns skewedState_bad.1
  obtain ⟨u, hu, -, f, hnet, -, hdata, -⟩ := reads rfl
  obtain ⟨v, g, hv, hvnet, hrefused⟩ := skewedState_refused
  obtain rfl : u = v := Host.Outcome.next.inj (hu.symm.trans hv)
  obtain rfl : g = f := List.singleton_inj.1 (hvnet.symm.trans hnet)
  exact absurd (hrefused.symm.trans hdata) (by decide)
end Sys2Proof.Machine

namespace Sys2Proof.Machine

/-! ## The beginning of a cycle and the captures of a replay (R390) -/

/-- A powered machine with no turn left begins its next cycle. -/
theorem step_beginCycle (s : State) (hp : s.powered = true) (ha : s.agenda = []) : step s = .next s.beginCycle := by
  simp [step, hp, liveStep, ha]

/-- The machine between two cycles: a write of one byte to a capture buffer at physical address 0 waits, as one does that a held row
has put off. -/
def capturingState : State := { State.reset with agenda := [], mgmt := { State.reset.mgmt with captWrites := [(0, 1, 1)] } }

/-- The cycle that begins makes the write. -/
theorem capturingState_written : capturingState.beginCycle.mem = [(0, 1)] := by decide +kernel

/-- Refutes O55: it says that the beginning of a cycle leaves memory as it is, and the model makes there the writes to capture buffers
that were held (R390). From `capturingState` the step changes a byte of device memory. -/
theorem not_stepTurns : ¬ Obligations.StepTurns := by
  rintro ⟨-, -, -, -, cycleBegins, -⟩
  obtain ⟨t, hstep, -, hmem, -⟩ := cycleBegins capturingState rfl rfl
  obtain rfl : capturingState.beginCycle = t := Host.Outcome.next.inj ((step_beginCycle _ rfl rfl).symm.trans hstep)
  exact absurd (capturingState_written.symm.trans hmem) (by decide)

/-! ## The die of a page walk (R358) -/

theorem exec_tlbWalkComplete (s : State) : exec .tlbWalkComplete s = execTlbWalkComplete s := rfl

/-- A read walk of tile 0, which lies on die 0, that stands in the miss queue of die 1. -/
def misplacedWalk : Walk := { die := 1, tile := 0, key := 0, asid := 0, root := 0, va := 0x40000000, wr := false }

/-- The turn of die 1's walkers with that walk. The table at address 0 serves levels 0 to 2: entry 0 names the table itself, entry 1 is a
leaf of a page of 2^30 bytes at frame 0. -/
def misplacedState : State := { State.reset with
  cur := { n := 1 }
  mem := [(0, 1), (8, 3)]
  walks := [misplacedWalk]
  ctxs := [(0, { wait := .walk misplacedWalk.va false })] }

theorem misplacedState_walk :
    (misplacedState.walkOn misplacedWalk.va.toNat (5 - (misplacedWalk.at_.getD (0, misplacedWalk.root)).1)
      (misplacedWalk.at_.getD (0, misplacedWalk.root)).1 (misplacedWalk.at_.getD (0, misplacedWalk.root)).2).1 =
    .ended (some (0, 30, false)) := rfl

/-- The translation that the model holds for the die is of the die of the tile. -/
theorem misplacedState_filled :
    ∃ t, exec .tlbWalkComplete misplacedState = .next t ∧ t.tlbs.map (fun e => (e.level, e.scope)) = [(3, 0), (2, 0), (1, 0)] :=
  ⟨_, rfl, by decide +kernel⟩

/-- Refutes O45: of a walk that ends with a translation it says that the die-level entry names the walk's own die, and no premise ties that
die to the walk's tile; the model fills the TLB of the die on which the tile lies. At `misplacedState` the two differ. -/
theorem not_routing : ¬ Obligations.Routing := by
  rintro ⟨-, -, oneWalk, -⟩
  obtain ⟨-, ends⟩ := oneWalk misplacedState misplacedWalk rfl rfl rfl rfl
  obtain ⟨t, ht, -, -, -, -, -, translated⟩ := ends (some (0, 30, false)) misplacedState_walk
  obtain ⟨-, entries⟩ := translated _ rfl (.inl rfl) rfl
  obtain ⟨u, hu, hscopes⟩ := misplacedState_filled
  obtain rfl : t = u := Host.Outcome.next.inj (ht.symm.trans hu)
  have claimed : t.tlbs.map (fun e => (e.level, e.scope)) = [(3, 1), (2, 0), (1, 0)] := by
    have h := congrArg (List.map fun e : Nat × Nat × Nat × Nat × Nat × Nat × Bool => (e.1, e.2.1)) entries
    rw [List.map_map] at h
    exact h
  exact absurd (claimed.symm.trans hscopes) (by decide)
end Sys2Proof.Machine

namespace Sys2Proof.Machine

/-! ## Words and credits on the lanes (R71, R72, R81, R86, R87) -/

theorem exec_creditReturn (s : State) : exec .creditReturn s = execCreditReturn s := rfl

/-- R81: a word that no tag reserves is stored as it is. -/
theorem storedWord_token (t : Nat) (w : NetWord) (h : w.tag.toNat < 12) : storedWord t w = w := if_neg (Nat.not_le.2 h)

/-- R81: a word of a reserved tag is stored as the ERR token of its link, which names the tag. -/
theorem storedWord_reserved (t : Nat) (w : NetWord) (h : 12 ≤ w.tag.toNat) (ht : t < 1920) :
    (storedWord t w).tag = 0xA ∧ (storedWord t w).data.extractLsb' 0 8 = 0x01 ∧
      (storedWord t w).data.extractLsb' 32 32 = w.tag.setWidth 32 := by
  have htag := w.tag.isLt
  have hlt : w.tag.toNat * 2 ^ 32 + 3 * 2 ^ 22 + t * 2 ^ 8 + 1 < 2 ^ 256 :=
    Nat.lt_of_lt_of_le (m := 2 ^ 36) (by omega) (Nat.pow_le_pow_right (by decide) (by decide))
  have hdata (a n : Nat) : ((storedWord t w).data.extractLsb' a n).toNat =
      (w.tag.toNat * 2 ^ 32 + 3 * 2 ^ 22 + t * 2 ^ 8 + 1) / 2 ^ a % 2 ^ n := by
    rw [storedWord, if_pos h, BitVec.extractLsb'_toNat, BitVec.toNat_ofNat, Nat.mod_eq_of_lt hlt, Nat.shiftRight_eq_div_pow]
  refine ⟨by rw [storedWord, if_pos h], BitVec.eq_of_toNat_eq ?_, BitVec.eq_of_toNat_eq ?_⟩
  · rw [hdata]
    show _ = 1
    omega
  · rw [hdata, BitVec.toNat_setWidth]
    omega

/-- A tile's event changes of its tile only the rates of events. -/
theorem State.tileEvent_stray (s : State) (t : Nat) (d0 d1 d2 : W64) (r : Option Nat) :
    ((s.tileEvent t d0 d1 d2 r).tile t).stray = (s.tile t).stray := by
  unfold State.tileEvent
  dsimp only
  split
  · split <;> simp
  · rw [State.send_tile]

theorem State.countStray_stray (s : State) (t b : Nat) (tag : BitVec 4) :
    ((s.countStray t b tag).tile t).stray = min ((s.tile t).stray + 1) (2 ^ 32 - 1) := by
  rw [State.countStray, State.tileEvent_stray, State.tile_setTile_self]

@[simp] theorem State.refund_tile (s : State) (t : Nat) (y : OnLink) (u : Nat) : (s.refund t y).tile u = s.tile u := by
  unfold State.refund
  dsimp only
  split <;> rfl

/-- Is a word due on the lane whose direction the place names? -/
def State.wordDue (s : State) (y : OnLink) : Bool := y.dir == s.cur.n && decide (y.at_ ≤ s.cycle)

/-- A word has left its link, which notes the lane that it has served unless it is a loopback (R71). -/
def State.unlink (s : State) (y : OnLink) : State :=
  let u := s.setXbar s.cur.tb { s.xbar s.cur.tb with flight := (s.xbar s.cur.tb).flight.eraseP s.wordDue }
  if y.loop then u else u.setTile s.cur.t { u.tile s.cur.t with linkLast := (u.tile s.cur.t).linkLast.set y.dir s.cur.b }

/-- A word enters the receive FIFO of its direction, and a malformed one is counted at the tile (R81). -/
def State.receive (s : State) (t : Nat) (y : OnLink) : State :=
  let x := s.xbar s.cur.tb
  let u := s.setXbar s.cur.tb { x with rx := x.rx.set y.dir (x.rx.get [] y.dir ++ [storedWord t y.w]) }
  if 0xC ≤ y.w.tag.toNat then u.setTile t { u.tile t with malformed := (u.tile t).malformed + 1 } else u

/-- What an arrival does with the word that is due. -/
theorem exec_staticWordArrival_eq (s : State) : exec .staticWordArrival s =
    .next (((s.xbar s.cur.tb).flight.find? s.wordDue).elim s fun y =>
      ((s.unlink y).bankResid s.cur.t s.cur.b).elim (((s.unlink y).refund s.cur.t y).countStray s.cur.t s.cur.b y.w.tag)
        fun _ => (s.unlink y).receive s.cur.t y) := by
  have hexec : exec .staticWordArrival s = .next (match (s.xbar s.cur.tb).flight.find? s.wordDue with
    | none => s
    | some y => match (s.unlink y).bankResid s.cur.t s.cur.b with
      | none => ((s.unlink y).refund s.cur.t y).countStray s.cur.t s.cur.b y.w.tag
      | some _ => (s.unlink y).receive s.cur.t y) := rfl
  rw [hexec]
  cases (s.xbar s.cur.tb).flight.find? s.wordDue with
  | none => rfl
  | some y => cases h : (s.unlink y).bankResid s.cur.t s.cur.b <;> simp [h]

section
variable (s : State) (y : OnLink)

theorem State.unlink_mem : (s.unlink y).mem = s.mem := by
  unfold State.unlink
  dsimp only
  split <;> rfl
theorem State.unlink_cur : (s.unlink y).cur = s.cur := by
  unfold State.unlink
  dsimp only
  split <;> rfl
theorem State.unlink_bankResid (t b : Nat) : (s.unlink y).bankResid t b = s.bankResid t b := by
  unfold State.unlink
  dsimp only
  split <;> rfl
theorem State.unlink_stray : ((s.unlink y).tile s.cur.t).stray = (s.tile s.cur.t).stray := by
  unfold State.unlink
  dsimp only
  split <;> simp
theorem State.unlink_xbar : (s.unlink y).xbar s.cur.tb =
    { s.xbar s.cur.tb with flight := (s.xbar s.cur.tb).flight.eraseP s.wordDue } := by
  unfold State.unlink
  dsimp only
  split <;> simp

theorem State.receive_mem (t : Nat) : (s.receive t y).mem = s.mem := by
  unfold State.receive
  dsimp only
  split <;> rfl
theorem State.receive_xbar (t : Nat) : (s.receive t y).xbar s.cur.tb =
    { s.xbar s.cur.tb with
      rx := (s.xbar s.cur.tb).rx.set y.dir ((s.xbar s.cur.tb).rx.get [] y.dir ++ [storedWord t y.w]) } := by
  unfold State.receive
  dsimp only
  split <;> simp

variable {s y} (h : (s.xbar s.cur.tb).flight.find? s.wordDue = some y)
include h

/-- R72: in a bank with a configuration the word that is due enters its receive FIFO. -/
theorem exec_staticWordArrival_some (r : Nat) (hr : s.bankResid s.cur.t s.cur.b = some r) :
    exec .staticWordArrival s = .next ((s.unlink y).receive s.cur.t y) := by
  rw [exec_staticWordArrival_eq, h, Option.elim_some, State.unlink_bankResid, hr, Option.elim_some]

/-- R86: in a bank without one it is dropped and counted. -/
theorem exec_staticWordArrival_none (hr : s.bankResid s.cur.t s.cur.b = none) :
    exec .staticWordArrival s = .next (((s.unlink y).refund s.cur.t y).countStray s.cur.t s.cur.b y.w.tag) := by
  rw [exec_staticWordArrival_eq, h, Option.elim_some, State.unlink_bankResid, hr, Option.elim_none]

end

/-- R72, R87: a credit that is due reaches its sender. -/
theorem exec_creditReturn_due (s : State) (y : Nat × Nat)
    (h : (s.xbar s.cur.tb).creditBack.find? (fun y => decide (y.2 ≤ s.cycle)) = some y) :
    exec .creditReturn s = .next (s.setXbar s.cur.tb { s.xbar s.cur.tb with
      creditBack := (s.xbar s.cur.tb).creditBack.eraseP (fun y => decide (y.2 ≤ s.cycle)),
      credits := (s.xbar s.cur.tb).credits.set y.1 ((s.xbar s.cur.tb).credits.get 0 y.1 + 1) }) := by
  simp only [exec_creditReturn, execCreditReturn, h]

theorem laneEvents : Parts.LaneEvents := by
  intro s x
  refine ⟨fun y r hy hr => ?_, fun y hy hr => ?_, exec_creditReturn_due s⟩
  · have hrx := (s.unlink y).receive_xbar y s.cur.t
    rw [State.unlink_cur, State.unlink_xbar] at hrx
    refine ⟨_, storedWord s.cur.t y.w, exec_staticWordArrival_some hy r hr, ?_, ?_, storedWord_token _ _, storedWord_reserved _ _, ?_⟩
    · rw [State.receive_mem, State.unlink_mem]
    · rw [hrx]
      exact AMap.get_set_self ..
    · rw [hrx]
      rfl
  · refine ⟨_, exec_staticWordArrival_none hy hr, ?_⟩
    rw [State.countStray_stray, State.refund_tile, State.unlink_stray]

/-! ## Queues with a spill ring (R69, R70) -/

section
variable (s : State) (t n : Nat)

/-! ### Engines' translations leave the banks as they are -/

theorem State.bank_congr {s u : State} (h : (u.tile t).banks = (s.tile t).banks) : u.bank t n = s.bank t n := by
  rw [State.bank, State.bank, Tile.bank, Tile.bank, h]

theorem State.bank_setTile_banks (u : Nat) (x : Tile) (h : x.banks = (s.tile u).banks) : (s.setTile u x).bank t n = s.bank t n := by
  refine State.bank_congr t n ?_
  rw [State.tile_setTile]
  split
  · subst_vars
    exact h
  · rfl

theorem State.seek_bank (u r : Nat) (va : W64) (wr : Bool) : (s.seek u r va wr).2.bank t n = s.bank t n := by
  unfold State.seek
  dsimp only
  split
  · rfl
  · split
    · exact s.bank_setTile_banks t n u _ rfl
    · split <;> rfl

theorem State.seekAll_bank (u r : Nat) (wr : Bool) (l : List Part) : (s.seekAll u r wr l).2.bank t n = s.bank t n := by
  induction l generalizing s with
  | nil => rfl
  | cons p ps ih =>
    have hseek := s.seek_bank t n u r p.addr wr
    unfold State.seekAll
    split
    · rfl
    · split <;> rename_i e <;> rw [e] at hseek
      · have hrest := ih ‹State›
        split
        · rename_i e'
          rw [e'] at hrest
          exact hrest.trans hseek
        · exact hrest.trans hseek
      · exact hseek
      · exact hseek

/-- A transfer that cannot begin yet leaves the banks as they are. -/
theorem State.move_wait_bank {u r : Nat} {owner : Owner} {a : W64} {k : Nat} {v : Option Nat} {bad : Bool} {m : State}
    (h : s.move u r owner a k v bad = .wait m) : m.bank t n = s.bank t n := by
  have hbank := s.seekAll_bank t n u r v.isSome (parts a k)
  unfold State.move at h
  split at h
  · rename_i e
    rw [e] at hbank
    cases h
    exact hbank
  · cases h
  · cases h

@[simp] theorem State.askSpill_bank (r u party key queue : Nat) (va : W64) :
    (s.askSpill r u party key queue va).bank t n = s.bank t n := by
  unfold State.askSpill
  split <;> rfl
@[simp] theorem State.askSpill_mem (r u party key queue : Nat) (va : W64) :
    (s.askSpill r u party key queue va).mem = s.mem := by
  unfold State.askSpill
  split <;> rfl

/-! ### The staging block goes to the ring -/

/-- The write of a staging block at the ring's tail. -/
def State.spillMove : Begun :=
  let b := s.bank t n
  s.move t (s.bankOwner t n) .engine (b.block (b.ringHead + b.ringCount)) 1056 (some (blockOf b.staging))

theorem State.spillMove_still : s.Still (s.spillMove t n).state := State.move_still ..

theorem State.spillBlock_short (h : (s.bank t n).staging.length < 32) : s.spillBlock t n = s := by
  simp [State.spillBlock, h]

section
variable {s t n} (hlen : (s.bank t n).staging.length = 32) (hspill : (s.bank t n).spillFaulted = false)
  (hroom : (s.bank t n).ringCount < (s.bank t n).ringSize)
include hlen hspill hroom

/-- A full block, with room in the ring, is written there. -/
theorem State.spillBlock_begun {m : State} {ps : List Piece} (h : s.spillMove t n = .begun m ps) :
    s.spillBlock t n = m.setBank t n { s.bank t n with staging := [], ringCount := (s.bank t n).ringCount + 1 } := by
  have htake : (s.bank t n).staging.take 32 = (s.bank t n).staging := List.take_of_length_le hlen.le
  have hdrop : (s.bank t n).staging.drop 32 = [] := List.drop_of_length_le hlen.le
  have hgo : ¬ ((s.bank t n).staging.length < 32 ∨ (s.bank t n).spillFaulted = true) := by simp [hlen, hspill]
  unfold State.spillMove at h
  simp only [State.spillBlock, if_neg hgo, if_neg (Nat.not_le.2 hroom), htake, hdrop, h]

/-- A write without a translation makes the queue spill-faulted (R70). -/
theorem State.spillBlock_miss {m : State} {va : W64} (h : s.spillMove t n = .miss m va) :
    s.spillBlock t n = (m.setBank t n { s.bank t n with spillFaulted := true }).askSpill (s.bankOwner t n) t 2 0 n va := by
  have htake : (s.bank t n).staging.take 32 = (s.bank t n).staging := List.take_of_length_le hlen.le
  have hgo : ¬ ((s.bank t n).staging.length < 32 ∨ (s.bank t n).spillFaulted = true) := by simp [hlen, hspill]
  unfold State.spillMove at h
  simp only [State.spillBlock, if_neg hgo, if_neg (Nat.not_le.2 hroom), htake, h]

end

/-! ### The bank is refilled -/

theorem State.refill_ring (h : 0 < (s.bank t n).ringCount) : s.refill t n = s.refillBlock t n := if_pos h

/-- A bank without room for a block is not refilled. -/
theorem State.refillBlock_full (h : 480 < (s.bank t n).queue.length + (s.bank t n).reserved) : s.refillBlock t n = s := by
  have hfull : 512 < (s.bank t n).queue.length + (s.bank t n).reserved + 32 := by omega
  simp [State.refillBlock, hfull]

/-- The bank of a queue whose spill write has failed keeps its staging block, whatever its ring gives back, and memory stands. -/
theorem State.refill_keeps (h : (s.bank t n).spillFaulted = true) :
    ((s.refill t n).bank t n).spillFaulted = true ∧ ((s.refill t n).bank t n).staging = (s.bank t n).staging ∧ (s.refill t n).mem = s.mem := by
  unfold State.refill
  dsimp only
  split
  · have hmove := s.move_still t (s.bankOwner t n) (.bank n) ((s.bank t n).block (s.bank t n).ringHead) 1056 none false
    unfold State.refillBlock
    dsimp only
    split
    · split
      · exact ⟨h, rfl, rfl⟩
      · split <;> rename_i e <;> rw [e] at hmove
        · rw [s.move_wait_bank t n e]
          exact ⟨h, rfl, hmove.1⟩
        · rw [State.bank_setBank_self]
          exact ⟨h, rfl, hmove.1⟩
        · rw [State.bank_setBank_self]
          exact ⟨h, rfl, hmove.1⟩
    · split
      · exact ⟨h, rfl, rfl⟩
      · split <;> rw [State.bank_setBank_self] <;> exact ⟨h, rfl, rfl⟩
  · split
    · exact ⟨h, rfl, rfl⟩
    · simp [h]

/-- R69: with an empty ring the oldest staging word moves to its bank. -/
theorem State.refill_staging {w : NetWord} {r : List NetWord} (hst : (s.bank t n).staging = w :: r) (hring : (s.bank t n).ringCount = 0)
    (hroom : (s.bank t n).queue.length + (s.bank t n).reserved < 512) (hspill : (s.bank t n).spillFaulted = false) :
    s.refill t n = s.setBank t n { s.bank t n with queue := (s.bank t n).queue ++ [w], staging := r } := by
  simp [State.refill, hring, hst, hroom, hspill]

/-- The read of the ring's head block. -/
def State.refillMove : Begun :=
  let b := s.bank t n
  s.move t (s.bankOwner t n) (.bank n) (b.block b.ringHead) 1056 none

section
variable {s t n} (hroom : (s.bank t n).queue.length + (s.bank t n).reserved + 32 ≤ 512)
include hroom

theorem State.refillBlock_begun (hf : (s.bank t n).fetch = []) (hb : (s.bank t n).refillBad = false) {m : State} {ps : List Piece}
    (h : s.refillMove t n = .begun m ps) : s.refillBlock t n = m.setBank t n { s.bank t n with fetch := ps } := by
  unfold State.refillMove at h
  simp [State.refillBlock, hf, hb, Nat.not_lt.2 hroom, h]

/-- A block that cannot be read waits (log 38). -/
theorem State.refillBlock_miss (hf : (s.bank t n).fetch = []) (hb : (s.bank t n).refillBad = false) {m : State} {va : W64}
    (h : s.refillMove t n = .miss m va) : s.refillBlock t n = m.setBank t n { s.bank t n with refillBad := true } := by
  unfold State.refillMove at h
  simp [State.refillBlock, hf, hb, Nat.not_lt.2 hroom, h]

theorem State.refillBlock_failed (hf : (s.bank t n).fetch ≠ []) (ha : allAnswered (s.bank t n).fetch = true)
    (hb : anyFailed (s.bank t n).fetch = true) :
    s.refillBlock t n = s.setBank t n { s.bank t n with fetch := [], refillBad := true } := by
  simp [State.refillBlock, hf, ha, hb, Nat.not_lt.2 hroom]

/-- A block that has come enters the bank. -/
theorem State.refillBlock_come (hf : (s.bank t n).fetch ≠ []) (ha : allAnswered (s.bank t n).fetch = true)
    (hb : anyFailed (s.bank t n).fetch = false) :
    s.refillBlock t n = s.setBank t n { s.bank t n with
      fetch := [], queue := (s.bank t n).queue ++ blockWords (pieceValue (s.bank t n).fetch),
      ringHead := ((s.bank t n).ringHead + 1) % (s.bank t n).ringSize, ringCount := (s.bank t n).ringCount - 1,
      fullPosted := false, refillBad := false } := by
  simp [State.refillBlock, hf, ha, hb, Nat.not_lt.2 hroom]

end

theorem State.refillBlock_unanswered (hf : (s.bank t n).fetch ≠ []) (ha : allAnswered (s.bank t n).fetch = false) :
    s.refillBlock t n = s := by
  simp [State.refillBlock, hf, ha]

end

/-! ### A queue's turn -/

section
variable {s : State} (hmode : (s.bank s.cur.t s.cur.n).mode = .fifo)
include hmode

/-- A queue's turn: a full staging block goes to the ring, then the ring or the staging block refills the bank. -/
theorem exec_fifoSpillRefill_fifo :
    exec .fifoSpillRefill s = .next ((s.spillBlock s.cur.t s.cur.n).refill s.cur.t s.cur.n) := congrArg _ (if_pos hmode)

theorem exec_fifoSpillRefill_staging {w : NetWord} {r : List NetWord} (hst : (s.bank s.cur.t s.cur.n).staging = w :: r)
    (hlen : r.length < 31) (hring : (s.bank s.cur.t s.cur.n).ringCount = 0)
    (hroom : (s.bank s.cur.t s.cur.n).queue.length + (s.bank s.cur.t s.cur.n).reserved < 512)
    (hspill : (s.bank s.cur.t s.cur.n).spillFaulted = false) :
    exec .fifoSpillRefill s = .next (s.setBank s.cur.t s.cur.n { s.bank s.cur.t s.cur.n with
      queue := (s.bank s.cur.t s.cur.n).queue ++ [w], staging := r }) := by
  have hshort : (s.bank s.cur.t s.cur.n).staging.length < 32 := by
    rw [hst, List.length_cons]
    omega
  rw [exec_fifoSpillRefill_fifo hmode, State.spillBlock_short _ _ _ hshort, State.refill_staging _ _ _ hst hring hroom hspill]

/-- A short staging block leaves the turn to the ring. -/
theorem exec_fifoSpillRefill_ring (hlen : (s.bank s.cur.t s.cur.n).staging.length < 32) (hring : 0 < (s.bank s.cur.t s.cur.n).ringCount) :
    exec .fifoSpillRefill s = .next (s.refillBlock s.cur.t s.cur.n) := by
  rw [exec_fifoSpillRefill_fifo hmode, State.spillBlock_short _ _ _ hlen, State.refill_ring _ _ _ hring]

variable (hlen : (s.bank s.cur.t s.cur.n).staging.length = 32) (hspill : (s.bank s.cur.t s.cur.n).spillFaulted = false)
  (hsize : (s.bank s.cur.t s.cur.n).ringCount < (s.bank s.cur.t s.cur.n).ringSize)
include hlen hspill hsize

theorem exec_fifoSpillRefill_spilled {m : State} {ps : List Piece} (hm : s.spillMove s.cur.t s.cur.n = .begun m ps)
    (hfull : 480 < (s.bank s.cur.t s.cur.n).queue.length + (s.bank s.cur.t s.cur.n).reserved) :
    exec .fifoSpillRefill s = .next (m.setBank s.cur.t s.cur.n { s.bank s.cur.t s.cur.n with
      staging := [], ringCount := (s.bank s.cur.t s.cur.n).ringCount + 1 }) := by
  rw [exec_fifoSpillRefill_fifo hmode, State.spillBlock_begun hlen hspill hsize hm, State.refill_ring, State.refillBlock_full]
  · rwa [State.bank_setBank_self]
  · rw [State.bank_setBank_self]
    exact Nat.succ_pos _

/-- R70: a spill-faulted queue keeps its block. -/
theorem exec_fifoSpillRefill_faulted {m : State} {va : W64} (hm : s.spillMove s.cur.t s.cur.n = .miss m va) :
    ∃ u, exec .fifoSpillRefill s = .next u ∧ (u.bank s.cur.t s.cur.n).spillFaulted = true ∧
      (u.bank s.cur.t s.cur.n).staging = (s.bank s.cur.t s.cur.n).staging ∧ u.mem = s.mem := by
  have hblock := State.spillBlock_miss hlen hspill hsize hm
  have hmem : m.mem = s.mem := by
    have hmove := s.spillMove_still s.cur.t s.cur.n
    rw [hm] at hmove
    exact hmove.1
  have hbank : (s.spillBlock s.cur.t s.cur.n).bank s.cur.t s.cur.n = { s.bank s.cur.t s.cur.n with spillFaulted := true } := by
    rw [hblock, State.askSpill_bank, State.bank_setBank_self]
  obtain ⟨hfault, hstaging, hkept⟩ := (s.spillBlock s.cur.t s.cur.n).refill_keeps s.cur.t s.cur.n (by rw [hbank])
  refine ⟨_, exec_fifoSpillRefill_fifo hmode, hfault, hstaging.trans (by rw [hbank]), hkept.trans ?_⟩
  rw [hblock, State.askSpill_mem, State.mem_setBank, hmem]

end

/-! ## Changes of mode (R60, R63) -/

@[simp] theorem State.dropWay_bank (s : State) (t n u k : Nat) : (s.dropWay t n).bank u k = s.bank u k := by
  unfold State.dropWay State.bank
  rw [State.tile_setTile]
  split
  · subst_vars
    rfl
  · rfl

/-- A change takes effect on its bank alone. -/
theorem State.changeBank_bank (s : State) (t n : Nat) (c : BankChange) (k : Nat) :
    (s.changeBank t n c).bank t k = if k = n then (s.bank t n).changed c else s.bank t k := by
  unfold State.changeBank
  dsimp only
  rw [State.bank_setBank]
  have hrest (p : Prop) [Decidable p] : (if p then s else (s.clearBank t n).dropWay t n).bank t k = s.bank t k := by
    split
    · rfl
    · rw [State.dropWay_bank]
      rfl
  rw [hrest]
  simp

theorem State.changeBank_ctxs (s : State) (t n : Nat) (c : BankChange) : (s.changeBank t n c).ctxs = s.ctxs := by
  unfold State.changeBank
  dsimp only
  split <;> rfl

/-- R63: a change clears the bank's bytes, unless it keeps them. -/
theorem State.changeBank_mem (s : State) (t n : Nat) (c : BankChange) :
    (s.changeBank t n c).mem = if (s.bank t n).keeps c then s.mem else Memory.clear s.mem (sramKey t n 0) (2 ^ 14) := by
  unfold State.changeBank
  dsimp only
  split <;> rfl

/-- What the completion of a waiting instruction pops is at ports alone. -/
@[simp] theorem State.complete_tiles (s : State) : s.complete.tiles = s.tiles := by
  have hlane (s : State) (t b d : Nat) : (s.popLane t b d).tiles = s.tiles := by
    unfold State.popLane
    dsimp only
    split <;> rfl
  have hport (s : State) (p : Nat) : (s.popPort p).tiles = s.tiles := by
    unfold State.popPort
    split
    · rfl
    · exact hlane ..
  exact foldl_keeps State.tiles State.popPort hport _ s

/-- The `bset` that made a change completes. -/
def State.bsetDone (s : State) (k : Nat) : State :=
  s.withCur k fun s => match s.me.wait with
    | .bank _ => s.complete
    | _ => s

theorem State.bsetDone_waiting (s : State) (k m : Nat) (h : (s.ctx k).wait = .bank m) : s.bsetDone k = s.withCur k State.complete := by
  have hw : (s.atCtx k).me.wait = .bank m := by rwa [State.me_atCtx]
  rw [State.bsetDone, State.withCur_eq, State.withCur_eq]
  simp only [hw]

theorem State.bsetDone_keeps {α : Type} (g : State → α) (hcur : ∀ (s : State) (p : Cur), g { s with cur := p } = g s)
    (hg : ∀ s : State, g s.complete = g s) (s : State) (k : Nat) : g (s.bsetDone k) = g s := by
  rw [State.bsetDone, State.withCur_eq, hcur]
  split
  · rw [hg]
    exact hcur ..
  · exact hcur ..

/-- A change of one bank alone takes effect, and its `bset` completes. -/
theorem exec_bankModeChangeEffect_one (s : State) (c : BankChange) (l : List BankChange) (hp : (s.bank s.cur.t s.cur.n).pending = c :: l)
    (hil : c.il = 0) : exec .bankModeChangeEffect s = .next ((s.changeBank s.cur.t s.cur.n c).bsetDone c.who) := by
  have hgroup : (List.range (2 ^ c.il)).map (fun j => s.cur.n / 2 ^ c.il * 2 ^ c.il + j) = [s.cur.n] := by simp [hil]
  have holdest : ¬ ([s.cur.n].any fun n => (s.bank s.cur.t n).pending.head? != some c) = true := by simp [hp]
  have hexec : exec .bankModeChangeEffect s = execBankModeChangeEffect s := rfl
  rw [hexec, execBankModeChangeEffect]
  simp only [hp, hgroup]
  exact congrArg _ (if_neg holdest)

section
variable (s : State) (t n w : Nat) (c : BankChange)

theorem State.changed_bank (k : Nat) :
    ((s.changeBank t n c).bsetDone w).bank t k = if k = n then (s.bank t n).changed c else s.bank t k := by
  rw [← s.changeBank_bank t n c k]
  exact State.bsetDone_keeps (fun u => u.bank t k) (fun _ _ => rfl)
    (fun u => u.bank_congr t k (by rw [State.tile, State.complete_tiles]; rfl)) _ _

theorem State.changed_read (hmem : s.memOk = true) (a : Nat) :
    Memory.read ((s.changeBank t n c).bsetDone w).mem a =
      if ((s.bank t n).mode = .scratch ∧ c.mode = .scratch) ∨ a < sramKey t n 0 ∨ sramKey t n 0 + 2 ^ 14 ≤ a
        then Memory.read s.mem a else 0 := by
  have hkeeps : (s.bank t n).keeps c = true ↔ (s.bank t n).mode = .scratch ∧ c.mode = .scratch := by simp [Bank.keeps]
  rw [State.bsetDone_keeps State.mem (fun _ _ => rfl) State.complete_mem, State.changeBank_mem]
  by_cases hk : (s.bank t n).mode = .scratch ∧ c.mode = .scratch
  · rw [if_pos (hkeeps.2 hk), if_pos (.inl hk)]
  · rw [if_neg (fun h => hk (hkeeps.1 h)), Memory.read_clear _ _ _ _ hmem]
    by_cases ha : sramKey t n 0 ≤ a ∧ a < sramKey t n 0 + 2 ^ 14
    · rw [if_pos ha, if_neg (fun h => h.elim hk (by omega))]
      rfl
    · rw [if_neg ha, if_pos (.inr (by omega))]

theorem State.changed_resumed (m : Nat) (hm : (s.ctx w).wait = .bank m) : Claims.resumed s ((s.changeBank t n c).bsetDone w) w := by
  have hctx : (s.changeBank t n c).ctx w = s.ctx w := by
    rw [State.ctx, State.changeBank_ctxs]
    rfl
  have hdone := (s.changeBank t n c).resumed_withCur_complete w
  rw [State.bsetDone_waiting _ _ m (hctx ▸ hm)]
  rwa [Claims.resumed, hctx] at hdone

end

theorem bankEvents : Parts.BankEvents := by
  refine ⟨?_, ?_⟩
  · intro s t n b own hmode
    refine ⟨fun w r hst hlen hring hroom hspill => exec_fifoSpillRefill_staging hmode hst hlen hring hroom hspill, ?_, ?_⟩
    · intro hlen hspill hsize y
      exact ⟨fun m ps hm hfull => exec_fifoSpillRefill_spilled hmode hlen hspill hsize hm hfull,
        fun m va hm => exec_fifoSpillRefill_faulted hmode hlen hspill hsize hm⟩
    · intro hlen hring hroom y
      rw [exec_fifoSpillRefill_ring hmode hlen hring]
      refine ⟨fun hf hb => ⟨fun m ps hm => ?_, fun m va hm => ?_⟩, fun hf ha => ?_, fun hf ha hb => ?_, fun hf ha hb => ?_⟩
      · rw [State.refillBlock_begun hroom hf hb hm]
      · rw [State.refillBlock_miss hroom hf hb hm]
      · rw [State.refillBlock_unanswered _ _ _ hf ha]
      · rw [State.refillBlock_failed hroom hf ha hb]
      · rw [State.refillBlock_come hroom hf ha hb]
  · intro s c l t n b hmem hp hil
    have hself : ((s.changeBank t n c).bsetDone c.who).bank t n = b.changed c := (s.changed_bank t n c.who c n).trans (if_pos rfl)
    have hpending : (b.changed c).pending = l := by simp [Bank.changed, hp]
    refine ⟨_, exec_bankModeChangeEffect_one s c l hp hil, ?_, ?_, ?_, ?_,
      fun k hk => (s.changed_bank t n c.who c k).trans (if_neg hk), s.changed_read t n c.who c hmem, s.changed_resumed t n c.who c⟩
    all_goals rw [hself]
    · rfl
    · exact hpending
    · rfl
    · rfl

/-! ## Packets of `stq` (R236, R237) -/

theorem exec_stqPacket (s : State) : exec .stqPacket s = execStqPacket s := rfl

/-- The packet in which a request is answered (R89). -/
def State.answerFlight (s : State) (src : Nat) (q : Hdr) (kind : Nat) (pay : List W256) (a info : W64) : Flight :=
  let hd : Hdr := s.toTile kind src q.stile q.resid
  s.flight src ⟨{ hd with ddev := q.sdev, dq := q.sq, dfold := q.sfold, tid := q.tid, addr := a, info := info, via := q.via }, pay⟩

theorem State.answer_net_eq (s : State) (src : Nat) (q : Hdr) (kind : Nat) (pay : List W256) (a info : W64) :
    (s.answer src q kind pay a info).net = s.net ++ [s.answerFlight src q kind pay a info] := rfl

section
variable (s : State) (p : Packet)

/-- R236: the scheduler forwards a packet to the root tile of its live residency, -/
theorem exec_stqPacket_forward (hn : s.cur.n = 1) (hp : s.arrived 4097 Packet.isStq = some p) (r : Residency)
    (hr : s.liveRes p.h.resid = some r) :
    exec .stqPacket s = .next ((s.takeArrived 4097 Packet.isStq).relay 0 { p with h := { p.h with dcls := 0, dst := r.rootTile } }) := by
  simp only [exec_stqPacket, execStqPacket, hn, if_true, hp, hr]

/-- and refuses it when the residency is not live. -/
theorem exec_stqPacket_unknown (hn : s.cur.n = 1) (hp : s.arrived 4097 Packet.isStq = some p) (hr : s.liveRes p.h.resid = none) :
    exec .stqPacket s = .next ((s.takeArrived 4097 Packet.isStq).answer 0 p.h 5 [] 0 2) := by
  simp only [exec_stqPacket, execStqPacket, hn, if_true, hp, hr]

/-- The write that the handling tile begins for a packet (R237). -/
def State.stqMove : Begun := s.move s.cur.t p.h.resid .engine p.h.addr (32 * p.pay.length) (some p.bytes) p.h.bad

variable {s p} (hn : s.cur.n ≠ 1) (hp : s.arrived s.cur.t Packet.isStq = some p)
include hn hp

/-- R63: a packet waits while the bank of its queue is about to change. -/
theorem exec_stqPacket_waits (h : s.stqWaits s.cur.t p.stqQueue = true) : exec .stqPacket s = .next s := by
  simp only [exec_stqPacket, execStqPacket, hn, if_false, hp, h, if_true]

section
variable (hw : s.stqWaits s.cur.t p.stqQueue = false)
include hw

theorem exec_stqPacket_refused (c : Nat) (hc : s.stqCheck s.cur.t p p.stqQueue = some c) :
    exec .stqPacket s = .next ((s.takeArrived s.cur.t Packet.isStq).answer s.cur.t p.h 5 [] 0 (BitVec.ofNat 64 c)) := by
  simp only [exec_stqPacket, execStqPacket, hn, if_false, hp, hw, hc, Bool.false_eq_true]

variable (hc : s.stqCheck s.cur.t p p.stqQueue = none)
include hc

theorem exec_stqPacket_miss (m : State) (va : W64) (hm : s.stqMove p = .miss m va) :
    exec .stqPacket s = .next ((m.takeArrived s.cur.t Packet.isStq).answer s.cur.t p.h 5 [] va 1) := by
  unfold State.stqMove at hm
  simp only [exec_stqPacket, execStqPacket, hn, if_false, hp, hw, hc, hm, Bool.false_eq_true]

theorem exec_stqPacket_unbegun (m : State) (hm : s.stqMove p = .wait m) : exec .stqPacket s = .next m := by
  unfold State.stqMove at hm
  simp only [exec_stqPacket, execStqPacket, hn, if_false, hp, hw, hc, hm, Bool.false_eq_true]

theorem exec_stqPacket_begun (m : State) (ps : List Piece) (hm : s.stqMove p = .begun m ps) :
    exec .stqPacket s = .next (
      let u := (m.takeArrived s.cur.t Packet.isStq).reserveNotice s.cur.t p.stqQueue
      u.setTile s.cur.t { u.tile s.cur.t with stqJobs := (u.tile s.cur.t).stqJobs ++ [⟨p, p.stqQueue, ps.map Piece.tid⟩] }) := by
  unfold State.stqMove at hm
  simp only [exec_stqPacket, execStqPacket, hn, if_false, hp, hw, hc, hm, Bool.false_eq_true]

end
end

theorem State.stqWaits_iff (s : State) (t : Nat) (q : Option Nat) :
    s.stqWaits t q = true ↔ ∃ n, q = some n ∧ (s.bank t n).pending ≠ [] := by
  cases q <;> simp [State.stqWaits]

/-- R237: the writes of a handled packet are performed: its notice enters the queue, and the sender is told. -/
theorem exec_stqNotify_queue (s : State) (j : StqJob) (l : List StqJob) (n : Nat) (hj : (s.tile s.cur.t).stqJobs = j :: l)
    (ht : j.tids = []) (hq : j.queue = some n) (hf : s.queueFault s.cur.t j.p.h.resid n = none) (hr : 0 < (s.bank s.cur.t n).reserved) :
    let u := s.setTile s.cur.t { s.tile s.cur.t with stqJobs := l }
    exec .stqNotify s = .next ((u.setBank s.cur.t n ((s.bank s.cur.t n).pushReserved (noticeWord j.p))).answer s.cur.t j.p.h 4 [] j.p.h.addr 0) := by
  intro u
  have hbank (m : Nat) : u.bank s.cur.t m = s.bank s.cur.t m := s.bank_setTile_banks _ _ _ _ rfl
  have hfault : u.queueFault s.cur.t j.p.h.resid n = none := by
    have howns : u.ownsBank j.p.h.resid s.cur.t n = s.ownsBank j.p.h.resid s.cur.t n := by
      unfold State.ownsBank
      rw [hbank]
      rfl
    rw [← hf, State.queueFault, State.queueFault, hbank, howns]
  have hgo : ¬ ((u.queueFault s.cur.t j.p.h.resid n).isSome ∨ (u.bank s.cur.t n).reserved = 0) := by
    rw [hfault, hbank]
    simp [Nat.pos_iff_ne_zero.1 hr]
  have hfind : (s.tile s.cur.t).stqJobs.find? (fun j => j.tids == []) = some j := by simp [hj, ht]
  have herase : (s.tile s.cur.t).stqJobs.erase j = l := by rw [hj, List.erase_cons_head]
  have hexec : exec .stqNotify s = execStqNotify s := rfl
  rw [hexec, execStqNotify]
  simp only [hfind, herase, hq]
  rw [← hbank n]
  exact congrArg (fun v : State => Host.Outcome.next (v.answer s.cur.t j.p.h 4 [] j.p.h.addr 0)) (if_neg hgo)

/-- A refusal of a packet is sent from the state in which it is answered, and leaves the memory of that state. -/
theorem stqPacket_refuses {s m : State} {p : Packet} {c : W64} {a : W64} {src node : Nat} (hm : m.mem = s.mem)
    (h : exec .stqPacket s = .next ((m.takeArrived node Packet.isStq).answer src p.h 5 [] a c)) :
    ∃ (t : State) (f : Flight), exec .stqPacket s = .next t ∧ t.mem = s.mem ∧ t.net = m.net ++ [f] ∧
      f.p.h.kind = 5 ∧ f.p.h.dst = p.h.stile ∧ f.p.h.tid = p.h.tid ∧ f.p.h.addr = a ∧ f.p.h.info = c :=
  ⟨_, _, h, hm, State.answer_net_eq .., rfl, rfl, rfl, rfl, rfl⟩

theorem State.stqMove_still (s : State) (p : Packet) : s.Still (s.stqMove p).state := State.move_still ..

/-! ## The answer of an `stq` (R238) -/

/-! ### What the end of a write leaves of the contexts -/

@[simp] theorem State.pushLane_ctxs (s : State) (t b d : Nat) (w : NetWord) : (s.pushLane t b d w).ctxs = s.ctxs := by
  unfold State.pushLane
  split <;> rfl

@[simp] theorem State.pushPortOf_ctxs (s : State) (k p : Nat) (w : NetWord) : (s.pushPortOf k p w).ctxs = s.ctxs := by
  unfold State.pushPortOf
  dsimp only
  split
  · rfl
  · exact s.pushLane_ctxs ..

@[simp] theorem State.addPot_ctxs (s : State) (r n : Nat) : (s.addPot r n).ctxs = s.ctxs := by
  unfold State.addPot
  split
  · rfl
  · split <;> rfl

@[simp] theorem State.addUnits_ctxs (s : State) (t r : Nat) (n : W64) : (s.addUnits t r n).ctxs = s.ctxs := by
  unfold State.addUnits
  split
  · rfl
  · split
    · exact s.addPot_ctxs ..
    · dsimp only
      split <;> rfl

/-- A held action that happens writes no context. -/
theorem State.release_ctxs (s : State) (t : Nat) (a : Held) : (s.release t a).ctxs = s.ctxs := by
  cases a with
  | donePort k p w => exact s.pushPortOf_ctxs ..
  | doneQueue k q w => rfl
  | packet p => rfl
  | units r n => exact s.addUnits_ctxs ..

theorem State.mDone_ctxs (s : State) (t : Nat) (q : MReq) (e : Option MErr) : (s.mDone t q e).ctxs = s.ctxs := by
  have harrive (r name : Nat) (err : Bool) : (s.engineArrive t r name err).ctxs = s.ctxs := by
    unfold State.engineArrive
    split <;> rfl
  unfold State.mDone
  dsimp only
  split
  · rfl
  · split
    · rfl
    · unfold State.mDeliver
      split
      · rfl
      · split
        · exact harrive ..
        · rfl
        · rfl

theorem State.setReturn_ctxs (s : State) (t : Nat) (j : RetJob) : (s.setReturn t j).ctxs = s.ctxs := by
  unfold State.setReturn
  dsimp only
  split
  · exact State.mDone_ctxs ..
  · rfl

/-- A row's write that is answered completes a request of the node at most. -/
theorem State.returnOver_ctxs (s : State) (t tid : Nat) (bad : Option W64) : (s.returnOver t tid bad).ctxs = s.ctxs := by
  unfold State.returnOver
  split
  · rfl
  · exact State.setReturn_ctxs ..

/-- What a context is told of a write that is performed. -/
def Ctx.struck (c : Ctx) (tid : Nat) : Ctx :=
  { c with wait := c.wait.strike tid, deque := c.deque.map fun d => { d with waits := strike tid d.waits } }

theorem Ctx.struck_of_idle (c : Ctx) (tid : Nat) (h : c.wait = .none) : ∃ d, c.struck tid = { c with deque := d } := by
  have hw : c.wait.strike tid = c.wait := by
    rw [h]
    rfl
  exact ⟨_, by rw [Ctx.struck, hw]⟩

/-- Reading a table whose values were all mapped, by a map that keeps the default. -/
theorem get_map_of_default {α : Type} (m : AMap α) (d : α) (f : Nat × α → Nat × α) (hf : ∀ e, (f e).1 = e.1) (k : Nat)
    (hd : (f (k, d)).2 = d) : AMap.get (m.map f) d k = (f (k, m.get d k)).2 := by
  induction m with
  | nil => exact hd.symm
  | cons e m ih =>
    obtain ⟨j, x⟩ := e
    by_cases hj : j = k
    · subst hj
      simp [AMap.get, hf]
    · simpa [AMap.get, hf, hj] using ih

theorem State.performed_ctx (s : State) (t tid k : Nat) :
    (s.performed t tid).ctx k = if (placeOf k).t = t then (s.ctx k).struck tid else s.ctx k := by
  let f (e : Nat × Ctx) : Nat × Ctx := if (placeOf e.1).t = t then (e.1, e.2.struck tid) else e
  have hctxs : (s.performed t tid).ctxs = s.ctxs.map f :=
    foldl_keeps State.ctxs (fun s (d : Deferred) => s.release t d.act) (fun s d => s.release_ctxs t d.act) _ _
  have hkey (e : Nat × Ctx) : (f e).1 = e.1 := by
    simp only [f]
    split <;> rfl
  have hnone : (f (k, {})).2 = {} := by
    simp only [f]
    split <;> rfl
  have hget := get_map_of_default s.ctxs {} f hkey k hnone
  rw [State.ctx, hctxs, hget]
  simp only [f]
  split <;> rfl

/-- A context that waits for nothing but writes that are all performed goes on (R99 to R103). -/
def State.acked (s : State) : State :=
  match s.me.wait with
  | .acks [] .retire => s.complete
  | .acks [] .again => s.setMe { s.me with wait := .none }
  | _ => s

theorem State.ackWake_eq (s : State) (t : Nat) :
    s.ackWake t = (List.range 16).foldl (fun s i => s.withCur (t * 16 + i) State.acked) s := rfl

/-- What a context is told of its writes changes none that waits for nothing. -/
theorem State.withCur_acked_ctx (s : State) (j k : Nat) (h : (s.ctx k).wait = .none) : (s.withCur j State.acked).ctx k = s.ctx k := by
  rw [State.withCur_ctx]
  by_cases hk : k = j
  · subst hk
    have hw : (s.atCtx k).me.wait = .none := by rw [State.me_atCtx, h]
    simp only [State.acked, hw, State.ctx_atCtx]
  · have hother (u : State) (c : Ctx) (hcur : u.cur = placeOf j) (hctxs : u.ctxs = s.ctxs) : (u.setMe c).ctx k = s.ctx k := by
      have hne : k ≠ u.cur.ctx := by rwa [hcur, placeOf_ctx]
      rw [State.setMe, State.ctx_setCtx_ne _ _ _ _ hne, State.ctx, hctxs]
      rfl
    unfold State.acked
    split
    · exact hother _ _ (State.popPorts_cur ..) (State.popPorts_ctxs ..)
    · exact hother _ _ rfl rfl
    · rfl

/-- A context that waits for nothing goes on as it is. -/
theorem State.ackWake_ctx (s : State) (t k : Nat) (h : (s.ctx k).wait = .none) : (s.ackWake t).ctx k = s.ctx k := by
  rw [State.ackWake_eq]
  exact List.foldlRecOn (motive := fun u : State => u.ctx k = s.ctx k) _ _ rfl fun (u : State) hu i _ =>
    (u.withCur_acked_ctx (t * 16 + i) k (by rw [hu, h])).trans hu

/-- The end of a write leaves of a context that waits for nothing everything but what its deque's records wait for. -/
theorem State.writeOver_ctx (s : State) (t tid k : Nat) (h : (s.ctx k).wait = .none) :
    ∃ d, (s.writeOver t tid).ctx k = { s.ctx k with deque := d } := by
  have hstruck : ∃ d, ((s.performed t tid).returnOver t tid none).ctx k = { s.ctx k with deque := d } := by
    rw [State.ctx, State.returnOver_ctxs]
    have hctx := s.performed_ctx t tid k
    rw [State.ctx] at hctx
    rw [hctx]
    split
    · exact Ctx.struck_of_idle _ _ h
    · exact ⟨(s.ctx k).deque, rfl⟩
  obtain ⟨d, hd⟩ := hstruck
  exact ⟨d, by rw [State.writeOver, State.ackWake_ctx _ _ _ (by rw [hd, h]), hd]⟩

/-! ### The answer reaches the sender -/

theorem State.invalidate_ctxs (s : State) (t r pa : Nat) : (s.invalidate t r pa).ctxs = s.ctxs := by
  unfold State.invalidate
  dsimp only
  split <;> rfl

theorem State.dropStq_ctxs (s : State) (t : Nat) (x : Txn) : (s.dropStq t x).ctxs = s.ctxs := by
  unfold State.dropStq
  split
  · exact foldl_keeps State.ctxs (fun s pa => s.invalidate t x.resid pa) (fun s pa => s.invalidate_ctxs t x.resid pa) _ s
  · rfl

section
variable {s : State} {t tid : Nat} {x : Txn} (hx : (s.txn t tid).filter Txn.stq = some x) (hw : (s.ctx x.key).wait = .stq tid)
  (hr : (s.ctx x.key).resid = some x.resid)
include hx hw hr

theorem State.stqResult_performed :
    s.stqResult t tid none = ((s.dropStq t x).withCur x.key State.complete).writeOver t tid := by
  simp [State.stqResult, hx, State.stillOwned, hr, hw]

theorem State.stqResult_refused (c : Nat × W64) : s.stqResult t tid (some c) =
    (s.withCur x.key fun v => v.failHeld ⟨0x1F, c.2, BitVec.ofNat 64 c.1⟩).writeOver t tid := by
  simp [State.stqResult, hx, State.stillOwned, hr, hw, State.stqRefused]

end

section
variable {s : State} {p : Packet} {x : Txn} (hp : s.arrived s.cur.t (s.isStqAnswer s.cur.t) = some p)
  (hx : s.txn s.cur.t p.h.tid = some x)
include hp

theorem exec_stqAnswer_arrived : exec .stqAnswer s = .next ((s.takeArrived s.cur.t (s.isStqAnswer s.cur.t)).stqResult s.cur.t p.h.tid
    (if p.h.kind = 4 then none else some (p.h.info.toNat % 256, p.h.addr))) := by
  have hexec : exec .stqAnswer s = execStqAnswer s := rfl
  simp only [hexec, execStqAnswer, hp]

include hx

/-- What is answered is an `stq`. -/
theorem stq_of_arrived : (s.txn s.cur.t p.h.tid).filter Txn.stq = some x := by
  have ht := (State.arrived_mem hp).2
  simp only [State.isStqAnswer, hx, Bool.and_eq_true] at ht
  rw [hx, Option.filter_some, if_pos (by simpa using ht.2)]

variable (hw : (s.ctx x.key).wait = .stq p.h.tid) (hr : (s.ctx x.key).resid = some x.resid)
include hw hr

/-- R238: a performed `stq` completes, -/
theorem stqAnswer_performed (hk : p.h.kind = 4) : ∃ t, exec .stqAnswer s = .next t ∧ (t.ctx x.key).wait = .none ∧
    (t.ctx x.key).instret = (s.ctx x.key).instret + 1 := by
  let taken := s.takeArrived s.cur.t (s.isStqAnswer s.cur.t)
  have hstq := stq_of_arrived hp hx
  have hexec := exec_stqAnswer_arrived hp
  rw [if_pos hk, State.stqResult_performed (s := s.takeArrived s.cur.t (s.isStqAnswer s.cur.t)) hstq hw hr] at hexec
  have hctx : (taken.dropStq s.cur.t x).ctx x.key = s.ctx x.key := by
    rw [State.ctx, State.dropStq_ctxs]
    rfl
  obtain ⟨hwait, hins⟩ := (taken.dropStq s.cur.t x).resumed_withCur_complete x.key
  obtain ⟨d, hd⟩ := State.writeOver_ctx _ s.cur.t p.h.tid x.key hwait
  refine ⟨_, hexec, ?_, ?_⟩
  · rw [hd]
    exact hwait
  · rw [hd, ← hctx]
    exact hins

/-- and a refused one faults. -/
theorem stqAnswer_refused (hk : p.h.kind = 5) (hh : (s.ctx x.key).handler = false) (hv : (s.ctx x.key).trapvec ≠ 0) :
    ∃ t, exec .stqAnswer s = .next t ∧
      (t.ctx x.key).handler = true ∧ (t.ctx x.key).ip = (s.ctx x.key).trapvec ∧ (t.ctx x.key).trapip = (s.ctx x.key).ip ∧
      (t.ctx x.key).trapcause = 0x1F ∧ (t.ctx x.key).trapaddr = p.h.addr ∧
      (t.ctx x.key).trapinfo = BitVec.ofNat 64 (p.h.info.toNat % 256) := by
  let taken := s.takeArrived s.cur.t (s.isStqAnswer s.cur.t)
  have hstq := stq_of_arrived hp hx
  have hexec := exec_stqAnswer_arrived hp
  rw [if_neg (by omega), State.stqResult_refused (s := s.takeArrived s.cur.t (s.isStqAnswer s.cur.t)) hstq hw hr] at hexec
  have hfail := taken.ctx_withCur_failHeld x.key ⟨0x1F, p.h.addr, BitVec.ofNat 64 (p.h.info.toNat % 256)⟩ hh hv
  obtain ⟨d, hd⟩ := State.writeOver_ctx _ s.cur.t p.h.tid x.key (congrArg Ctx.wait hfail)
  refine ⟨_, hexec, ?_⟩
  rw [hd, hfail]
  exact ⟨rfl, rfl, rfl, rfl, rfl, rfl⟩

end

theorem stqDelivery : Parts.StqDelivery := by
  refine ⟨fun s p hn hp => ⟨fun r hr => ?_, fun hr => ?_⟩, ?_, fun s j l n hj ht hq hf hr => ?_, fun s p x hp hx hw hr =>
    ⟨stqAnswer_performed hp hx hw hr, stqAnswer_refused hp hx hw hr⟩⟩
  · exact ⟨_, exec_stqPacket_forward s p hn hp r hr, rfl, rfl⟩
  · exact ⟨_, _, exec_stqPacket_unknown s p hn hp hr, rfl, State.answer_net_eq .., rfl, rfl, rfl, rfl⟩
  · intro s p hn hp q refused y
    refine ⟨fun n hq hpend => exec_stqPacket_waits hn hp ((s.stqWaits_iff _ _).2 ⟨n, hq, hpend⟩), fun hpend => ?_⟩
    have hw : s.stqWaits s.cur.t p.stqQueue = false := by
      rw [← Bool.not_eq_true, State.stqWaits_iff]
      rintro ⟨n, hq, hne⟩
      exact hne (hpend n hq)
    refine ⟨fun c hc => stqPacket_refuses rfl (exec_stqPacket_refused hn hp hw c hc), fun hc m va hm => ?_,
      fun hc m hm => exec_stqPacket_unbegun hn hp hw hc m hm, fun hc m ps hm => exec_stqPacket_begun hn hp hw hc m ps hm⟩
    have hmem : m.mem = s.mem := by
      have hstill := s.stqMove_still p
      rw [show s.stqMove p = .miss m va from hm] at hstill
      exact hstill.1
    exact stqPacket_refuses hmem (exec_stqPacket_miss hn hp hw hc m va hm)
  · refine ⟨_, _, exec_stqNotify_queue s j l n hj ht hq hf hr, rfl, ?_, State.bank_setBank_self .., State.answer_net_eq .., rfl, rfl, rfl⟩
    rw [State.answer, State.send_tile, State.setBank, State.tile_setTile_self, State.tile_setTile_self]
    rfl

/-- Settles O42: the lanes, the banks, and the packets of `stq`, each event by the equation of its turn. -/
theorem lanesAndBanks : Obligations.LanesAndBanks := ⟨laneEvents, bankEvents, stqDelivery⟩

end Sys2Proof.Machine

namespace Sys2Proof.Machine

/-! ## O15. Completion tokens, stm and stq -/

theorem exec_stdone (s : State) (d a : BitVec 5) (f : BitVec 3) : exec (.stdone d a f) s = execStdone d a f s := rfl

theorem exec_stdoneq (s : State) (q : BitVec 3) (a : BitVec 5) (f : BitVec 3) : exec (.stdoneq q a f) s = execStdoneq q a f s := rfl

theorem exec_stq (s : State) (d a b : BitVec 5) (w : BitVec 1) (n : BitVec 7) (r : BitVec 16) (v : BitVec 8) (q : BitVec 3) (x : BitVec 1) :
    exec (.stq d a b w n r v q x) s = execStq d a b w n r v q x s := rfl

/-- With no transaction to wait for, a held action happens at once. -/
theorem State.defer_nil (s : State) (t : Nat) (a : Held) : s.defer t [] a = s.release t a := rfl

/-- The fields of a DONE token do not overlap, so its word is their sum. -/
theorem State.doneToken_toNat (s : State) (f : BitVec 3) (v : W64) (ht : s.cur.t < 1920) (hq : s.cur.q < 4) :
    (s.doneToken f v).data.toNat = v.toNat % 2 ^ 32 * 2 ^ 32 + f.toNat * 2 ^ 24 + s.cur.q * 2 ^ 20 + s.cur.t * 2 ^ 8 := by
  have hf := f.isLt
  refine (BitVec.toNat_ofNat _ 256).trans (Nat.mod_eq_of_lt ?_)
  omega

/-- A ready instruction that pushes to a queue has a true guard: it goes on. -/
theorem State.forQueue_ready (s : State) (q : Nat) (srcs srcs' : List Src) (outs outs' : List (BitVec 5)) (go : State)
    (h : s.ready srcs outs = true) : s.forQueue q srcs' outs' go = go := by
  simp only [State.ready, Bool.and_eq_true] at h
  obtain ⟨⟨⟨-, hguard⟩, -⟩, -⟩ := h
  simp [State.forQueue, hguard]

/-- What room in a queue means. -/
theorem State.queueRoom_iff (s : State) (q : Nat) : s.queueRoom q = true ↔
    (s.bank s.cur.t q).pushTo ≠ .blocked ∧ (s.bank s.cur.t q).pending = [] ∧ s.donePending s.cur.ctx true q = false := by
  simp [State.queueRoom, and_assoc]

/-- A DONE token that takes the place it has just been given goes to the end of a queue that has room in its bank. -/
theorem Bank.pushReserved_reserve (b : Bank) (w : NetWord) (hs : b.pushTo ≠ .blocked) (hw : w.tag = 0xB)
    (hroom : b.queue.length + b.reserved < 512) (hring : b.ringCount = 0) (hstage : b.staging = []) :
    ({ b with reserved := b.reserved + 1 }).pushReserved w = { b with queue := b.queue ++ [w] } := by
  have hfree : b.spillFaulted = false := by
    by_contra h
    exact hs (by simp [Bank.pushTo, h])
  simp [Bank.pushReserved, Bank.push, Bank.pushTo, hw, hfree, hroom, hring, hstage]

/-- R103: the entry of a ready `stdone` to a queue with room is reserved, and the token takes it at once. -/
theorem exec_stdoneq_ready {s : State} {q : BitVec 3} {a : BitVec 5} {f : BitVec 3} (hr : s.ready [rd a] [] = true)
    (hw : s.releaseSet s.cur.ctx f.toNat = []) (hf : s.queueFault s.cur.t (s.me.resid.getD 0) q.toNat = none)
    (hroom : s.queueRoom q.toNat = true) :
    exec (.stdoneq q a f) s = .next (State.finish ((s.setBank s.cur.t q.toNat
      { s.bank s.cur.t q.toNat with reserved := (s.bank s.cur.t q.toNat).reserved + 1 }).release s.cur.t
        (.doneQueue s.cur.ctx q.toNat (s.doneToken f (s.src [rd a] 0)))) 4 [rd a]) := by
  obtain ⟨-, hidle, -⟩ := (s.queueRoom_iff _).1 hroom
  rw [exec_stdoneq, execStdoneq, s.forQueue_ready _ _ _ _ _ _ hr, State.issueS_ready _ _ _ _ _ hr]
  simp only [hidle, ne_eq, not_true_eq_false, if_false, hf, hroom, Bool.true_eq_false, hw, State.defer_nil, State.conclude_ok]

/-- R103: with no store left, the token goes to its port or into its queue. -/
theorem doneTokens : Parts.DoneTokens := by
  refine ⟨fun s d a f hr _ hw ht hq => ⟨s.doneToken f (s.src [rd a] 0), ?_, rfl, s.doneToken_toNat f _ ht hq⟩,
    fun s q a f hr hw hf hroom hlen hring hstage => ⟨_, _, exec_stdoneq_ready hr hw hf hroom, rfl, ?_, rfl, fun _ => rfl⟩⟩
  · rw [exec_stdone, execStdone, State.issueS_ready _ _ _ _ _ hr, State.conclude_ok, hw]
    rfl
  · obtain ⟨hto, -, -⟩ := (s.queueRoom_iff _).1 hroom
    simp only [State.release, State.bank_setBank_self]
    exact Bank.pushReserved_reserve _ _ hto rfl hlen hring hstage

/-- A sector that becomes invalid changes its tile only. -/
theorem State.invalidate_tiles (s : State) (t r pa : Nat) : ∃ m, s.invalidate t r pa = { s with tiles := m } := by
  unfold State.invalidate
  dsimp only
  split <;> exact ⟨_, rfl⟩

/-- The sectors of an `stq` that leave the cache change tiles only. -/
theorem State.dropStq_tiles (s : State) (t : Nat) (x : Txn) : ∃ m, s.dropStq t x = { s with tiles := m } := by
  unfold State.dropStq
  split
  · refine List.foldlRecOn (motive := fun u : State => ∃ m, u = { s with tiles := m }) _ _ ⟨s.tiles, rfl⟩ ?_
    rintro u ⟨m, rfl⟩ pa _
    obtain ⟨m', h⟩ := State.invalidate_tiles { s with tiles := m } t x.resid pa
    exact ⟨m', h⟩
  · exact ⟨s.tiles, rfl⟩

theorem State.popLane_net (s : State) (t b d : Nat) : (s.popLane t b d).net = s.net := by
  unfold State.popLane
  dsimp only
  split <;> rfl

theorem State.popPort_net (s : State) (p : Nat) : (s.popPort p).net = s.net := by
  unfold State.popPort
  split
  · rfl
  · exact s.popLane_net ..

theorem State.popPorts_net (s : State) (l : List Nat) : (s.popPorts l).net = s.net :=
  foldl_keeps State.net State.popPort State.popPort_net l s

/-- The packet of an `stq` has the bit that says what it is. -/
theorem stqInfo_isStq (x : Bool) (q : BitVec 3) (v : W64) : (stqInfo x q v).getLsbD 63 = true := by
  have hq := q.isLt
  have hv : v.toNat % 2 ^ 32 < 2 ^ 32 := Nat.mod_lt _ (by decide)
  have hlow : (if x then 2 ^ 35 + q.toNat * 2 ^ 32 + v.toNat % 2 ^ 32 else 0) < 2 ^ 63 := by split <;> omega
  rw [stqInfo, BitVec.getLsbD_ofNat, Nat.testBit_two_pow_add_eq, Nat.testBit_lt_two_pow hlow]
  rfl

/-- The header of the packet of an `stq` to this device, with its queue or to the scheduler without one (R237). -/
def State.stqHdr (s : State) (r : BitVec 16) (q : BitVec 3) (x : BitVec 1) (dst word : W64) (cnt : Nat) : Hdr :=
  let h := if x == 1#1 then s.toTile 1 s.cur.t (word.extractLsb' 32 12).toNat r.toNat else s.toAttach 1 s.cur.t 1 r.toNat
  { h with
    ddev := s.host.devnum.toNat, tid := (s.tile s.cur.t).nextTid, addr := dst, info := stqInfo (x == 1#1) q word, sq := s.cur.q
    sfold := s.me.fold, sdev := s.host.devnum.toNat, len := cnt }

/-- The transaction of an `stq` to this device. -/
def State.stqTxn (s : State) (dst : W64) (cnt : Nat) : Txn :=
  ⟨(s.tile s.cur.t).nextTid, (s.newTid s.cur.t).2.me.resid.getD 0, s.cur.ctx, .ctx s.cur.ctx, true, .device, dst, 0, false, true, cnt⟩

/-- The state after an `stq` to this device has sent its packet. -/
def State.stqSent (s : State) (dst : W64) (hd : Hdr) (data : List W256) : State :=
  let u := (s.newTid s.cur.t).2
  let z := u.tile s.cur.t
  let x := s.stqTxn dst hd.len
  ((u.setTile s.cur.t { z with txns := z.txns ++ [x] }).dropStq s.cur.t x).send s.cur.t ⟨hd, data⟩

/-- Apart from its tile's transactions and copies, an `stq` changes only the mesh. -/
theorem State.stqSent_tiles (s : State) (dst : W64) (hd : Hdr) (data : List W256) :
    ∃ m, s.stqSent dst hd data = { s with tiles := m, net := s.net ++ [s.flight s.cur.t ⟨hd, data⟩] } := by
  obtain ⟨m, hm⟩ := State.dropStq_tiles ((s.newTid s.cur.t).2.setTile s.cur.t { (s.newTid s.cur.t).2.tile s.cur.t with
    txns := ((s.newTid s.cur.t).2.tile s.cur.t).txns ++ [s.stqTxn dst hd.len] }) s.cur.t (s.stqTxn dst hd.len)
  refine ⟨m, ?_⟩
  rw [State.stqSent, hm]
  rfl

section
variable {s : State} {d a b : BitVec 5} {w : BitVec 1} {n : BitVec 7} {r : BitVec 16} {v : BitVec 8} {q : BitVec 3} {x : BitVec 1}

/-- The sources of an `stq`: its value has a field only with a queue. -/
abbrev stqSrcs (d a b : BitVec 5) (x : BitVec 1) : List Src := if x = 1#1 then [rd a, rd b, rd d] else [rd a, rd b]

/-- The value and the tile that an `stq` names, zero without a queue. -/
abbrev State.stqWord (s : State) (d a b : BitVec 5) (x : BitVec 1) : W64 := if x == 1#1 then s.src (stqSrcs d a b x) 2 else 0

variable (hr : s.ready (stqSrcs d a b x) [] = true)
  (hc : s.changing (s.src (stqSrcs d a b x) 1) (32 * (n.toNat + 1)) = false)
include hr hc

/-- A source that fails the checks of a load is a fault; -/
theorem exec_stq_access {c : Trap} (hf : s.checkAccess s.me s.cur.t (s.src (stqSrcs d a b x) 1) (32 * (n.toNat + 1)) 1 = some c) :
    exec (.stq d a b w n r v q x) s = .next (s.fault c) := by
  refine (congrArg Host.Outcome.next (State.issueS_ready _ _ _ _ _ hr)).trans ?_
  simp only [hc, hf, Bool.false_eq_true, if_false, State.conclude_trap]

variable (hok : s.checkAccess s.me s.cur.t (s.src (stqSrcs d a b x) 1) (32 * (n.toNat + 1)) 1 = none)
include hok

/-- so is one that has no home; -/
theorem exec_stq_source {c : Trap} (hf : s.stqSource (s.src (stqSrcs d a b x) 1) (n.toNat + 1) = .fail c) :
    exec (.stq d a b w n r v q x) s = .next (s.fault c) := by
  refine (congrArg Host.Outcome.next (State.issueS_ready _ _ _ _ _ hr)).trans ?_
  simp only [hc, hok, hf, Bool.false_eq_true, if_false, State.conclude_trap]

variable {l : List (Part × Home)} (hl : s.stqSource (s.src (stqSrcs d a b x) 1) (n.toNat + 1) = .all l)
include hl

/-- then the checks of `stq` itself follow. -/
theorem exec_stq_fault {c : Trap} (hf : s.stqFault (s.src (stqSrcs d a b x) 0) (s.src (stqSrcs d a b x) 1) (s.stqWord d a b x)
      (n.toNat + 1) r v (x == 1#1) = some c) :
    exec (.stq d a b w n r v q x) s = .next (s.fault c) := by
  refine (congrArg Host.Outcome.next (State.issueS_ready _ _ _ _ _ hr)).trans ?_
  simp only [hc, hok, hl, hf, Bool.false_eq_true, if_false, State.conclude_trap]

/-- An `stq` to this device that passes its checks sends its packet; the waiting form is held. -/
theorem exec_stq_sent
    (hf : s.stqFault (s.src (stqSrcs d a b x) 0) (s.src (stqSrcs d a b x) 1) (s.stqWord d a b x) (n.toNat + 1) r v (x == 1#1) = none)
    (hbad : s.stqBad l = false) (hv : v = s.host.devnum)
    (hp : x = 1#1 → s.present ((s.stqWord d a b x).extractLsb' 32 12).toNat = true) (hw : s.releaseSet s.cur.ctx 4 = [])
    {u : State} (hu : s.stqSent (s.src (stqSrcs d a b x) 0)
      (s.stqHdr r q x (s.src (stqSrcs d a b x) 0) (s.stqWord d a b x) (n.toNat + 1)) (s.stqData l) = u) :
    exec (.stq d a b w n r v q x) s = .next (s.conclude 8 (popsOf (stqSrcs d a b x)) false
      (if w = 1#1 then .hold (u.setMe { u.me with wait := .stq (s.tile s.cur.t).nextTid }) else .ok u)) := by
  subst hv hu
  refine (congrArg Host.Outcome.next (State.issueS_ready _ _ _ _ _ hr)).trans ?_
  have hhere : ¬ ((x == 1#1) = true ∧ True ∧ s.present ((s.stqWord d a b x).extractLsb' 32 12).toNat = false) := by
    rintro ⟨hx, -, hn⟩
    exact Bool.false_ne_true (hn.symm.trans (hp (eq_of_beq hx)))
  simp only [hc, hok, hl, hf, hbad, Bool.false_eq_true, if_false]
  refine (congrArg (fun r => Host.Outcome.next (s.conclude 8 _ false r)) (if_neg hhere)).trans ?_
  simp only [if_true, hw, State.defer_nil]
  obtain ⟨m, hm⟩ := State.dropStq_tiles ((s.newTid s.cur.t).2.setTile s.cur.t { (s.newTid s.cur.t).2.tile s.cur.t with
    txns := ((s.newTid s.cur.t).2.tile s.cur.t).txns ++ [s.stqTxn (s.src (stqSrcs d a b x) 0) (n.toNat + 1)] }) s.cur.t
      (s.stqTxn (s.src (stqSrcs d a b x) 0) (n.toNat + 1))
  dsimp only [State.stqSent, State.stqHdr, State.stqTxn, State.newTid, State.release] at hm ⊢
  rw [hm]
  rfl
end

/-- The packet of an `stq` that is on its way: a write to the queue's tile, or to the scheduler without a queue. -/
theorem State.stqFlight_spec (s : State) (r : BitVec 16) (q : BitVec 3) (x : BitVec 1) (dst word : W64) (cnt : Nat) (data : List W256) :
    let f := s.flight s.cur.t ⟨s.stqHdr r q x dst word cnt, data⟩
    f.p.h.kind = 1 ∧ f.p.h.resid = r.toNat ∧
      (x = 1 → f.p.h.node = (word.extractLsb' 32 12).toNat ∧ f.p.isStq = true) ∧ (x = 0 → f.p.h.node = 4097) := by
  rcases BitVec.eq_zero_or_eq_one x with rfl | rfl
  · exact ⟨rfl, rfl, fun h => absurd h (by decide), fun _ => rfl⟩
  · exact ⟨rfl, rfl, fun _ => ⟨rfl, (Bool.and_eq_true _ _).mpr ⟨rfl, stqInfo_isStq true q word⟩⟩, fun h => absurd h (by decide)⟩

/-- A posted instruction that has done its work retires and leaves the mesh and memory as its work left them; -/
theorem State.conclude_ok_frame (s u : State) (len : Nat) (pops : List Nat) (a : Bool) :
    (s.conclude len pops a (.ok u)).net = u.net ∧ (s.conclude len pops a (.ok u)).mem = u.mem ∧
      (s.conclude len pops a (.ok u)).me = u.me.retire len := by
  refine ⟨u.popPorts_net _, u.popPorts_mem _, ?_⟩
  rw [State.conclude, State.me_used, State.me_setMe, State.popPorts_me]

/-- one that waits for an answer keeps its pops until it completes. -/
theorem State.conclude_hold_frame (s u : State) (len : Nat) (pops : List Nat) (a : Bool) (h : u.me.wait.sure = false) :
    (s.conclude len pops a (.hold u)).net = u.net ∧ (s.conclude len pops a (.hold u)).mem = u.mem ∧
      (s.conclude len pops a (.hold u)).me = { u.me with heldLen := len, heldIns := pops, mid := false } := by
  rw [State.conclude_hold, State.holds_late _ _ _ h]
  exact ⟨rfl, rfl, by rw [State.me_used, State.me_setMe]⟩

/-- R236 to R238: the checks of `stq` in order, and the packet of one that passes them. -/
theorem storeAndQueue : Parts.StoreAndQueue := by
  intro s d a b w n r v q x srcs word from_ cnt hr hc
  have hword : word = s.stqWord d a b x := by
    simp only [word, srcs, State.stqWord, stqSrcs, beq_iff_eq, BitVec.ofNat_eq_ofNat]
  refine ⟨fun c hf => exec_stq_access hr hc hf, fun hok => ⟨fun c hf => exec_stq_source hr hc hok hf, fun l hl =>
    ⟨fun c hf => exec_stq_fault hr hc hok hl (hword ▸ hf), fun hf hbad hv hp hw => ?_⟩⟩⟩
  let hd := s.stqHdr r q x (s.src srcs 0) (s.stqWord d a b x) cnt
  let f := s.flight s.cur.t ⟨hd, s.stqData l⟩
  obtain ⟨m, hm⟩ := s.stqSent_tiles (s.src srcs 0) hd (s.stqData l)
  let u : State := { s with tiles := m, net := s.net ++ [f] }
  have hsent := exec_stq_sent (w := w) hr hc hok hl (hword ▸ hf) hbad hv (hword ▸ hp) hw hm
  rw [hword]
  refine ⟨_, f, hsent, ?_⟩
  obtain ⟨hkind, hresid, hqueue, hsched⟩ := s.stqFlight_spec r q x (s.src srcs 0) (s.stqWord d a b x) cnt (s.stqData l)
  rcases BitVec.eq_zero_or_eq_one w with rfl | rfl
  · obtain ⟨hnet, hmem, hme⟩ := s.conclude_ok_frame u 8 (popsOf srcs) false
    exact ⟨hnet, hmem, rfl, hkind, rfl, rfl, hresid, hqueue, hsched, fun _ => hme, fun h => absurd h (by decide)⟩
  · obtain ⟨hnet, hmem, hme⟩ := s.conclude_hold_frame (u.setMe { u.me with wait := .stq (s.tile s.cur.t).nextTid }) 8 (popsOf srcs) false
      (by rw [State.me_setMe]; rfl)
    rw [State.me_setMe] at hme
    exact ⟨hnet, hmem, rfl, hkind, rfl, rfl, hresid, hqueue, hsched, fun h => absurd h (by decide), fun _ => hme⟩

/-- Settles O15: a ready `stdone` or `stq` runs its body, whose branches the hypotheses choose one by one. -/
theorem tokensAndStores : Obligations.TokensAndStores := ⟨doneTokens, storeAndQueue⟩

end Sys2Proof.Machine

namespace Sys2Proof.Machine

/-! ## O47. Host reads, writes, doorbells and registers -/

/-- A state in which a host request of the sector at address 0 finds its port free and its bank unblocked, with row 1 open there and one
activation short of the threshold at which the port acts: the request closes the row, and the mitigation of that row then blocks the bank
(R370). -/
def rowAtThreshold : State :=
  { State.reset with booted := true, openRows := [(0, { row := some 1 })], rows := [(1, 8191)] }

/-- The access does not reach its row: its own change of the row blocks the bank. -/
theorem rowAtThreshold_arrive : (rowAtThreshold.arrive 0).1 = false := by decide +kernel

/-- A host's read there waits, but it has closed the row first. -/
theorem rowAtThreshold_hostAccess :
    ((rowAtThreshold.hostAccess 0 0 (BitVec.allOnes 32) []).openRows.get {} 0).row = none := by decide +kernel

theorem exec_hostMemRead_rowAtThreshold :
    exec (.hostMemRead 0) rowAtThreshold = .next (rowAtThreshold.hostAccess 0 0 (BitVec.allOnes 32) []) := rfl

/-- Refutes O47: a host read whose bank its own change of the row blocks waits at its port, as the statement says, but the row that it has
closed stays closed and the mitigation stays begun, where the statement has nothing change but the requests that wait. -/
theorem not_hostAccess : ¬ Obligations.HostAccess := by
  rintro ⟨⟨-, hread, -⟩, -⟩
  obtain ⟨-, -, hwaits⟩ := hread rowAtThreshold 0 rfl (by decide)
  have hheld : ¬ Claims.portFree rowAtThreshold 0 := by
    rintro ⟨-, -, harrive⟩
    exact Bool.false_ne_true (rowAtThreshold_arrive.symm.trans harrive)
  have hnext := exec_hostMemRead_rowAtThreshold.symm.trans (hwaits hheld)
  injection hnext with hstate
  have hrow : ((rowAtThreshold.hostAccess 0 0 (BitVec.allOnes 32) []).openRows.get {} 0).row = some 1 := by rw [hstate]; rfl
  exact Option.some_ne_none 1 (hrow.symm.trans rowAtThreshold_hostAccess)

end Sys2Proof.Machine

/-! ## The canonical form of memory (O59)

Each function over the state either leaves memory alone (`foo_mem`) or keeps its canonical form (`foo_canon`); the lemmas follow the
model, section by section, up to one step. A function that ends in one of several ways has one statement about all of them (`AllMem`). -/

namespace Sys2Proof.Machine

-- The hundreds of short proofs below wait on each other; checked side by side they hold a thread and its stack each.
set_option Elab.async false

/-- The memory has its canonical form (R93). -/
def Canon (m : Memory) : Prop := Memory.wf m = true

/-- A state that a turn answers has a memory of a kind. -/
def AnswersIn (P : Memory → Prop) : Host.Outcome State Fault Refusal → Prop
  | .next s => P s.mem
  | .fault _ | .refused _ => True

/-- The state in a result of an instruction has a memory of a kind. -/
def Res.AllMem (P : Memory → Prop) : Res → Prop
  | .ok s | .jump s _ | .leave s | .hold s | .pause s | .stall s => P s.mem
  | .wait | .trap _ | .raise _ => True

/-- The state in what the heads of ports answer has a memory of a kind. -/
def Heads.AllMem (P : Memory → Prop) : Heads → Prop
  | .go s _ | .used s | .trap s _ => P s.mem
  | .wait => True

/-- The state in a copy's spot has a memory of a kind. -/
def CSpot.AllMem (P : Memory → Prop) : CSpot → Prop
  | .home s _ | .wait s | .bad s _ => P s.mem

/-- The state in what the top of a deque answers has a memory of a kind. -/
def Top.AllMem (P : Memory → Prop) : Top → Prop
  | .task s _ | .empty s | .wait s => P s.mem

/-- The state in a next task has a memory of a kind. -/
def NextTask.AllMem (P : Memory → Prop) : NextTask → Prop
  | .task s _ | .wait s => P s.mem
  | .none => True

/-- The state in what a row leaving its lane answers has a memory of a kind. -/
def Left.AllMem (P : Memory → Prop) : Left → Prop
  | .gone s | .wait s _ => P s.mem

/-- The state in what a gate answers has a memory of a kind. -/
def Gate.AllMem (P : Memory → Prop) : Gate → Prop
  | .pass s | .diverge s => P s.mem
  | .hold => True

/-- The state in what taking a task answers has a memory of a kind. -/
def Taken.AllMem (P : Memory → Prop) : Taken → Prop
  | .ok s | .wait s => P s.mem

/-- The state in a split of a stake has a memory of a kind. -/
def Split.AllMem (P : Memory → Prop) : Split → Prop
  | .ok s _ | .borrow s => P s.mem

/-- The state in what a deque's room answers has a memory of a kind. -/
def Room.AllMem (P : Memory → Prop) : Room → Prop
  | .ok s | .wait s | .fault s _ => P s.mem
  | .full => True

/-- The state in a copy's next index has a memory of a kind. -/
def NextIdx.AllMem (P : Memory → Prop) : NextIdx → Prop
  | .idx _ _ s => P s.mem
  | .bad _ | .wait => True

@[simp] theorem Res.allMem_ok (P : Memory → Prop) (s : State) : (Res.ok s).AllMem P = P s.mem := rfl
@[simp] theorem Res.allMem_jump (P : Memory → Prop) (s : State) (t : W64) : (Res.jump s t).AllMem P = P s.mem := rfl
@[simp] theorem Res.allMem_leave (P : Memory → Prop) (s : State) : (Res.leave s).AllMem P = P s.mem := rfl
@[simp] theorem Res.allMem_hold (P : Memory → Prop) (s : State) : (Res.hold s).AllMem P = P s.mem := rfl
@[simp] theorem Res.allMem_pause (P : Memory → Prop) (s : State) : (Res.pause s).AllMem P = P s.mem := rfl
@[simp] theorem Res.allMem_stall (P : Memory → Prop) (s : State) : (Res.stall s).AllMem P = P s.mem := rfl
@[simp] theorem Res.allMem_wait (P : Memory → Prop) : Res.wait.AllMem P := trivial
@[simp] theorem Res.allMem_trap (P : Memory → Prop) (c : Trap) : (Res.trap c).AllMem P := trivial
@[simp] theorem Res.allMem_raise (P : Memory → Prop) (c : Trap) : (Res.raise c).AllMem P := trivial

/-- A fold keeps what each of its steps keeps of the memory. -/
theorem foldl_mem {α : Type} {P : Memory → Prop} {f : State → α → State} {s : State} (hs : P s.mem)
    (hf : ∀ u x, P u.mem → P (f u x).mem) (l : List α) : P (l.foldl f s).mem :=
  List.foldlRecOn (motive := fun u : State => P u.mem) l f hs fun u hu x _ => hf u x hu

/-- What a step that may not happen leaves. -/
theorem getD_mem {P : Memory → Prop} {s : State} {o : Option State} (hs : P s.mem) (ho : ∀ u, o = some u → P u.mem) :
    P (o.getD s).mem := by
  cases o with
  | none => exact hs
  | some u => exact ho u rfl

/-- A function that leaves memory alone keeps its form. -/
theorem canon_of_mem {s t : State} (h : t.mem = s.mem) (hc : Canon s.mem) : Canon t.mem := h.symm ▸ hc

theorem AnswersIn.canon {s : State} {o : Host.Outcome State Fault Refusal} (h : AnswersIn (· = s.mem) o) (hc : Canon s.mem) :
    AnswersIn Canon o := by
  cases o with
  | next t => exact canon_of_mem h hc
  | fault _ => trivial
  | refused _ => trivial

/-! ### Operations over the state -/

@[simp] theorem State.setBank_mem (s : State) (t n : Nat) (b : Bank) : (s.setBank t n b).mem = s.mem := rfl

@[simp] theorem State.setRes_mem (s : State) (x : Residency) : (s.setRes x).mem = s.mem := rfl

@[simp] theorem State.send_mem (s : State) (t : Nat) (p : Packet) : (s.send t p).mem = s.mem := (s.send_still ..).1

@[simp] theorem State.newTid_mem (s : State) (t : Nat) : (s.newTid t).2.mem = s.mem := rfl

@[simp] theorem State.tileEvent_mem (s : State) (t : Nat) (d0 d1 d2 : W64) (r : Option Nat) : (s.tileEvent t d0 d1 d2 r).mem = s.mem := by
  unfold State.tileEvent
  dsimp only
  (repeat' split) <;> rfl

@[simp] theorem State.reportFault_mem (s : State) (k reason cause : Nat) (addr info : W64) :
    (s.reportFault k reason cause addr info).mem = s.mem := by
  unfold State.reportFault
  dsimp only
  (repeat' split) <;> rfl

@[simp] theorem State.deliver_mem (s : State) (k : Nat) (c : Trap) (ret : BitVec 16) : (s.deliver k c ret).mem = s.mem := by
  unfold State.deliver
  dsimp only
  (repeat' split) <;> simp

@[simp] theorem State.pushLane_mem (s : State) (t b d : Nat) (w : NetWord) : (s.pushLane t b d w).mem = s.mem := by
  unfold State.pushLane
  (repeat' split) <;> rfl

@[simp] theorem State.pushPortOf_mem (s : State) (k p : Nat) (w : NetWord) : (s.pushPortOf k p w).mem = s.mem := by
  unfold State.pushPortOf
  (repeat' split) <;> simp

@[simp] theorem State.pushPort_mem (s : State) (p : Nat) (w : NetWord) : (s.pushPort p w).mem = s.mem := by simp [State.pushPort]

/-! ### Operands, guards and how an instruction ends -/

@[simp] theorem State.countStray_mem (s : State) (t b : Nat) (tag : BitVec 4) : (s.countStray t b tag).mem = s.mem := by
  simp [State.countStray]

theorem State.flipCore_mem (s : State) (p : Nat) : ∀ u, s.flipCore p = some u → u.mem = s.mem := by
  unfold State.flipCore
  dsimp only
  (repeat' split) <;> simp

theorem State.head_mem (s : State) (p : Nat) (ctl applied : Bool) : (s.head p ctl applied).AllMem (· = s.mem) := by
  unfold State.head
  grind (gen := 12) [!State.flipCore_mem, State.popPort_mem, State.setMe_mem, Heads.AllMem]

theorem State.heads_mem (s : State) (applied : Bool) (l : List (Nat × Bool)) : (s.heads applied l).AllMem (· = s.mem) := by
  induction l generalizing s applied with
  | nil => rfl
  | cons p l ih => grind [State.heads, !State.head_mem, Heads.AllMem]

@[simp] theorem State.fault_mem (s : State) (c : Trap) : (s.fault c).mem = s.mem := by simp [State.fault]

@[simp] theorem State.holds_mem (s : State) (len : Nat) (pops : List Nat) : (s.holds len pops).mem = s.mem := by
  unfold State.holds
  (repeat' split) <;> simp

/-- What an instruction leaves of memory at its end is what its result has. -/
theorem State.conclude_mem {P : Memory → Prop} {s : State} {r : Res} (hs : P s.mem) (hr : r.AllMem P) (len : Nat) (pops : List Nat)
    (applied : Bool) : P (s.conclude len pops applied r).mem := by
  cases r <;> simp only [State.conclude] <;>
    grind [Res.AllMem, State.used_mem, State.setMe_mem, State.popPorts_mem, State.holds_mem, State.fault_mem, State.deliver_mem]

/-- The rule of every instruction in a shape: memory is of a kind before and after if the body, which runs last, keeps it. -/
theorem State.issue_mem {P : Memory → Prop} {s : State} {body : (Nat → W256) → State → Res} (hs : P s.mem)
    (hbody : ∀ x u, P u.mem → (body x u).AllMem P) (len : Nat) (srcs : List Src) (vec : Nat → Bool) (outs : List (BitVec 5))
    (width : Ctx → Bool) : P (s.issue len srcs vec outs width body).mem := by
  have h := s.heads_mem false (actingPorts srcs)
  unfold State.issue
  grind [Heads.AllMem, State.conclude_mem, State.used_mem, State.setMe_mem, State.fault_mem]

theorem State.forQueue_mem {P : Memory → Prop} {s go : State} (hs : P s.mem) (hgo : P go.mem) (q : Nat) (srcs : List Src)
    (outs : List (BitVec 5)) : P (s.forQueue q srcs outs go).mem := by
  unfold State.forQueue
  split
  · exact hs
  · exact hgo

theorem State.issueS_mem {P : Memory → Prop} {s : State} {body : (Nat → W64) → State → Res} (hs : P s.mem)
    (hbody : ∀ x u, P u.mem → (body x u).AllMem P) (len : Nat) (srcs : List Src) (outs : List (BitVec 5)) :
    P (s.issueS len srcs outs body).mem :=
  State.issue_mem hs (fun _ u hu => hbody _ u hu) ..

@[simp] theorem State.put_mem (s : State) (d : BitVec 5) (v : W64) : (s.put d v).mem = s.mem := by
  unfold State.put
  (repeat' split) <;> simp

@[simp] theorem State.putV_mem (s : State) (d : BitVec 5) (v : W256) : (s.putV d v).mem = s.mem := by
  unfold State.putV
  (repeat' split) <;> simp

@[simp] theorem State.flags_mem (s : State) (f : BitVec 6) : (s.flags f).mem = s.mem := rfl

@[simp] theorem State.failHeld_mem (s : State) (c : Trap) : (s.failHeld c).mem = s.mem := by simp [State.failHeld]

/-! ### The Almanac and management events -/

@[simp] theorem State.mgmtEvent_mem (s : State) (kind b low : Nat) (d1 d2 : W64) : (s.mgmtEvent kind b low d1 d2).mem = s.mem := by
  simp [State.mgmtEvent]

@[simp] theorem State.almanacAppend_mem (s : State) (kind cause : Nat) (obj : BitVec 48) : (s.almanacAppend kind cause obj).mem = s.mem := by
  unfold State.almanacAppend
  dsimp only
  (repeat' split) <;> simp

/-! ### The rows of DRAM -/

@[simp] theorem State.memEvent_mem (s : State) (kind : Nat) (d1 : W64) (port : Nat) : (s.memEvent kind d1 port).mem = s.mem :=
  (s.memEvent_still ..).1

@[simp] theorem State.closeRow_mem (s : State) (bk : Nat) : (s.closeRow bk).mem = s.mem := (s.closeRow_still ..).1

@[simp] theorem State.openRow_mem (s : State) (c pa : Nat) : (s.openRow c pa).mem = s.mem := (s.openRow_still ..).1

@[simp] theorem State.decodeMiss_mem (s : State) (pa : Nat) : (s.decodeMiss pa).mem = s.mem := by simp [State.decodeMiss]

@[simp] theorem State.correct_mem (s : State) (c pa : Nat) : (s.correct c pa).mem = s.mem := (s.correct_still ..).1

@[simp] theorem State.checkSector_mem (s : State) (c pa : Nat) : (s.checkSector c pa).2.mem = s.mem := (s.checkSector_still ..).1

@[simp] theorem State.checkTouch_mem (s : State) (c pa : Nat) (u : Touch) : (s.checkTouch c pa u).mem = s.mem :=
  (s.checkTouch_still ..).1

@[simp] theorem State.arrive_mem (s : State) (pa : Nat) : (s.arrive pa).2.mem = s.mem := (s.arrive_still ..).1

@[simp] theorem State.visit_mem (s : State) (pa : Nat) (u : Touch) : (s.visit pa u).2.mem = s.mem := (s.visit_still ..).1

/-! ### Memory accesses of a context -/

@[simp] theorem State.tlbPut_mem (s : State) (level scope asid root va : Nat) (x : Nat × Nat × Bool) :
    (s.tlbPut level scope asid root va x).mem = s.mem := rfl

@[simp] theorem State.tlbFill_mem (s : State) (t : Nat) (root : Nat × Nat) (va : Nat) (x : Nat × Nat × Bool) :
    (s.tlbFill t root va x).mem = s.mem := by
  simp [State.tlbFill]

@[simp] theorem State.walkOn_mem (s : State) (va n m k : Nat) : (s.walkOn va n m k).2.mem = s.mem := by
  induction n generalizing s va m k with
  | zero => exact rfl
  | succ n ih => grind [State.walkOn, !State.visit_mem]

@[simp] theorem State.seek_mem (s : State) (t r : Nat) (va : W64) (wr : Bool) : (s.seek t r va wr).2.mem = s.mem :=
  (s.seek_still ..).1

@[simp] theorem State.startWalk_mem (s : State) (va : W64) (wr : Bool) : (s.startWalk va wr).mem = s.mem := rfl

theorem State.writeSector_canon {s : State} (key : Nat) (mask : BitVec 32) (data : W256) (hc : Canon s.mem) :
    Canon (s.writeSector key mask data).mem := Memory.writeMask_wf _ _ _ _ hc

@[simp] theorem State.spoilSector_mem (s : State) (key : Nat) (mask : BitVec 32) : (s.spoilSector key mask).mem = s.mem := by
  unfold State.spoilSector
  (repeat' split) <;> rfl

theorem State.writeOrSpoil_canon {s : State} (key : Nat) (mask : BitVec 32) (data : W256) (bad : Bool) (hc : Canon s.mem) :
    Canon (s.writeOrSpoil key mask data bad).mem := by
  unfold State.writeOrSpoil
  grind [State.spoilSector_mem, State.writeSector_canon]

theorem State.wipe_canon {s : State} (key n : Nat) (hc : Canon s.mem) : Canon (s.wipe key n).mem := Memory.clear_wf _ _ _ hc

theorem State.atomicAt_canon {s : State} (key : Nat) (a : AOp) (b e : W64) (hc : Canon s.mem) : Canon (s.atomicAt key a b e).2.mem := by
  have hw (n v : Nat) : Canon (Memory.writeN s.mem key n v) := Memory.writeN_wf _ _ _ _ hc
  unfold State.atomicAt
  grind

@[simp] theorem State.setLine_mem (s : State) (t k : Nat) (l : Line) : (s.setLine t k l).mem = s.mem := rfl

@[simp] theorem State.touch_mem (s : State) (t way pa : Nat) : (s.touch t way pa).mem = s.mem := rfl

@[simp] theorem State.allocate_mem (s : State) (t r pa : Nat) : (s.allocate t r pa).mem = s.mem := by
  unfold State.allocate
  (repeat' split) <;> rfl

theorem State.fillSector_canon {s : State} (t r pa : Nat) (d : W256) (hc : Canon s.mem) : Canon (s.fillSector t r pa d).mem := by
  unfold State.fillSector
  grind [State.writeSector_canon, State.setLine_mem]

@[simp] theorem State.dropFills_mem (s : State) (t r : Nat) (p : Nat → Bool) : (s.dropFills t r p).mem = s.mem := rfl

@[simp] theorem State.invalidate_mem (s : State) (t r pa : Nat) : (s.invalidate t r pa).mem = s.mem := by
  unfold State.invalidate
  dsimp only
  (repeat' split) <;> rfl

theorem State.updateCopy_canon {s : State} (t r pa : Nat) (mask : BitVec 32) (d : W256) (hc : Canon s.mem) :
    Canon (s.updateCopy t r pa mask d).mem := by
  unfold State.updateCopy
  grind [State.dropFills_mem, State.writeSector_canon]

@[simp] theorem State.dropStq_mem (s : State) (t : Nat) (x : Txn) : (s.dropStq t x).mem = s.mem := by
  unfold State.dropStq
  split
  · exact foldl_keeps State.mem _ (fun _ _ => State.invalidate_mem ..) _ _
  · rfl

@[simp] theorem State.request_mem (s : State) (t r key : Nat) (owner : Owner) (kind : Nat) (h : Home) (a : W64) (op : BitVec 32)
    (sid : Nat) (pay : List W256) (fill bad : Bool) :
    (s.request t r key owner kind h a op sid pay fill bad).2.mem = s.mem := (s.request_still ..).1

@[simp] theorem State.move_mem (s : State) (t r : Nat) (owner : Owner) (a : W64) (n : Nat) (v : Option Nat) (bad : Bool) :
    (s.move t r owner a n v bad).state.mem = s.mem := (s.move_still ..).1

@[simp] theorem State.readPart_mem (s : State) (p : Part) (h : Home) : (s.readPart p h).2.mem = s.mem := by
  unfold State.readPart
  dsimp only
  (repeat' split) <;> simp

@[simp] theorem State.readParts_mem (s : State) (l : List (Part × Home)) : (s.readParts l).2.mem = s.mem := by
  induction l generalizing s with
  | nil => exact rfl
  | cons x l ih => grind [State.readParts, !State.readPart_mem]

theorem State.readAll_mem {P : Memory → Prop} {s : State} {done : State → Nat → Res} (hs : P s.mem)
    (hdone : ∀ u v, P u.mem → (done u v).AllMem P) (ps : List Part) (chk : Part → Option Trap) (fin : Fin) (fix : Trap → Trap) :
    (s.readAll ps chk fin fix done).AllMem P := by
  unfold State.readAll
  grind [!State.readParts_mem, State.setMe_mem, State.startWalk_mem, Res.AllMem]

theorem State.writePart_canon {s : State} (p : Part) (h : Home) (mask : BitVec 32) (d : W256) (hc : Canon s.mem) :
    Canon (s.writePart p h mask d).mem := by
  unfold State.writePart
  grind [State.writeSector_canon, !State.request_mem, State.updateCopy_canon]

theorem State.writeParts_canon {s : State} (v : Nat) (l : List (Part × Home)) (hc : Canon s.mem) : Canon (s.writeParts v l).mem :=
  foldl_mem (P := Canon) hc (fun _ _ hu => State.writePart_canon _ _ _ _ hu) _

theorem State.writeAll_canon {s : State} (ps : List Part) (v : Nat) (chk : Part → Option Trap) (fix : Trap → Trap) (hc : Canon s.mem) :
    (s.writeAll ps v chk fix).AllMem Canon := by
  unfold State.writeAll
  grind [State.startWalk_mem, State.writeParts_canon, Res.AllMem]

@[simp] theorem State.potReturn_mem (s : State) (r : Residency) (n : Nat) : (s.potReturn r n).mem = s.mem := rfl

@[simp] theorem State.addPot_mem (s : State) (r n : Nat) : (s.addPot r n).mem = s.mem := by
  unfold State.addPot
  (repeat' split) <;> rfl

@[simp] theorem State.addUnits_mem (s : State) (t r : Nat) (n : W64) : (s.addUnits t r n).mem = s.mem := by
  unfold State.addUnits
  dsimp only
  (repeat' split) <;> simp

@[simp] theorem State.release_mem (s : State) (t : Nat) (a : Held) : (s.release t a).mem = s.mem := by
  unfold State.release
  (repeat' split) <;> simp

@[simp] theorem State.defer_mem (s : State) (t : Nat) (tids : List Nat) (a : Held) : (s.defer t tids a).mem = s.mem := by
  unfold State.defer
  (repeat' split) <;> simp

@[simp] theorem State.performed_mem (s : State) (t tid : Nat) : (s.performed t tid).mem = s.mem :=
  foldl_keeps State.mem (fun (s : State) (d : Deferred) => s.release t d.act) (fun _ _ => State.release_mem ..) _ _

@[simp] theorem State.queueRecord_mem (s : State) (k : Nat) (r : AsyncRec) : (s.queueRecord k r).mem = s.mem := by
  unfold State.queueRecord
  dsimp only
  (repeat' split) <;> simp

/-! ### Replay -/

theorem State.physWrite_canon {s : State} (pa n v : Nat) (hc : Canon s.mem) : Canon (s.physWrite pa n v).2.mem := by
  unfold State.physWrite
  grind [!State.visit_mem, State.writeSector_canon]

@[simp] theorem State.physRead_mem (s : State) (pa : Nat) : (s.physRead pa).2.mem = s.mem := by
  unfold State.physRead
  grind [!State.visit_mem]

@[simp] theorem State.readSectors_mem (s : State) (got : AMap (Option W256)) (l : List Nat) : (s.readSectors got l).2.2.mem = s.mem := by
  induction l generalizing s got with
  | nil => exact rfl
  | cons x l ih => grind [State.readSectors, !State.physRead_mem]

@[simp] theorem State.setCapture_mem (s : State) (c : Capture) : (s.setCapture c).mem = s.mem := rfl

theorem State.flushCapture_canon {s : State} (n : Nat) (hc : Canon s.mem) : Canon (s.flushCapture n).mem := by
  induction n generalizing s with
  | zero => exact hc
  | succ n ih => grind [State.flushCapture, !State.physWrite_canon]

theorem State.captWrite_canon {s : State} (l : List (Nat × Nat × Nat)) (hc : Canon s.mem) : Canon (s.captWrite l).mem := by
  unfold State.captWrite
  grind [State.flushCapture_canon]

theorem State.capture_canon {s : State} (r : Nat) (e : Capt) (hc : Canon s.mem) : Canon (s.capture r e).mem := by
  unfold State.capture
  grind [State.post_mem, State.captWrite_canon, State.setCapture_mem]

@[simp] theorem State.reportTile_mem (s : State) (t r reason : Nat) : (s.reportTile t r reason).mem = s.mem := rfl

@[simp] theorem State.diverge_mem (s : State) (t : Nat) (x : Residency) (kind idx : Nat) : (s.diverge t x kind idx).mem = s.mem := by
  simp [State.diverge]

theorem State.gate_canon {s : State} (t r : Nat) (e : Capt) (strict : Bool) (hc : Canon s.mem) : (s.gate t r e strict).AllMem Canon := by
  unfold State.gate
  grind [State.capture_canon, State.diverge_mem, State.setRes_mem, Gate.AllMem]

/-! ### Control registers and faults -/

@[simp] theorem State.restRecords_mem (s : State) (k : Nat) : (s.restRecords k).mem = s.mem := by
  unfold State.restRecords
  dsimp only
  (repeat' split) <;> simp

/-! ### Tasks, stakes and messages -/

theorem State.dequeRoom_mem (s : State) (k : Nat) : (s.dequeRoom k).AllMem (· = s.mem) := by
  unfold State.dequeRoom
  grind [!State.move_mem, State.setCtx_mem, Room.AllMem, Begun.state]

@[simp] theorem State.pushTask_mem (s : State) (k : Nat) (x : Task) : (s.pushTask k x).mem = s.mem := rfl

theorem State.refillDeque_mem (s : State) (k : Nat) : (s.refillDeque k).AllMem (· = s.mem) := by
  unfold State.refillDeque
  grind [State.setCtx_mem, !State.move_mem, NextTask.AllMem, Begun.state]

theorem State.nextTask_mem (s : State) (k : Nat) : (s.nextTask k).AllMem (· = s.mem) := by
  unfold State.nextTask
  grind [State.setCtx_mem, !State.refillDeque_mem, NextTask.AllMem]

theorem State.takeNext_mem (s : State) (k : Nat) : (s.takeNext k).AllMem (· = s.mem) := by
  unfold State.takeNext
  grind [!State.nextTask_mem, State.setCtx_mem, State.restRecords_mem, NextTask.AllMem, Taken.AllMem]

theorem State.split_mem (s : State) : s.split.AllMem (· = s.mem) := by
  unfold State.split
  dsimp only
  (repeat' split) <;> rfl

theorem execSpawn_mem (d a b : BitVec 5) (s : State) : AnswersIn (· = s.mem) (execSpawn d a b s) := by
  refine State.issueS_mem (P := (· = s.mem)) rfl (fun _ u hu => ?_) ..
  grind [!State.dequeRoom_mem, State.askSpill_mem, State.setMe_mem, !State.split_mem, State.pushTask_mem, Split.AllMem, Room.AllMem,
    Res.AllMem]

theorem State.afterRelease_mem {P : Memory → Prop} {s : State} {go : Res} (hs : P s.mem) (hgo : go.AllMem P) (scope : Nat) :
    (s.afterRelease scope go).AllMem P := by
  unfold State.afterRelease
  dsimp only
  split
  · exact hgo
  · exact hs

theorem execSend_mem (d a b : BitVec 5) (s : State) : AnswersIn (· = s.mem) (execSend d a b s) := by
  refine State.issueS_mem (P := (· = s.mem)) rfl (fun _ u hu => ?_) ..
  have hsplit := u.split_mem
  have hrel {go : Res} (hgo : go.AllMem (· = s.mem)) (n : Nat) := State.afterRelease_mem (P := (· = s.mem)) hu hgo n
  dsimp only
  (repeat' split) <;> try trivial
  · exact hrel (by grind [Split.AllMem, Res.AllMem]) _
  · exact hrel (by grind [Split.AllMem, Res.AllMem, State.send_mem]) _
  · exact hrel (by simpa using hu) _

theorem execTdone_mem (s : State) : AnswersIn (· = s.mem) (execTdone s) := by
  refine State.issueS_mem (P := (· = s.mem)) rfl (fun _ u hu => ?_) ..
  grind [State.defer_mem, State.setMe_mem, !State.takeNext_mem, Taken.AllMem, Res.AllMem]

@[simp] theorem State.grantUnits_mem (s : State) (r : Residency) : (s.grantUnits r).2.mem = s.mem := rfl

@[simp] theorem State.grant_mem (s : State) (r : Residency) : (s.grant r).2.mem = s.mem := by
  unfold State.grant
  (repeat' split) <;> rfl

@[simp] theorem State.dropMessage_mem (s : State) (t reason : Nat) (p : Packet) : (s.dropMessage t reason p).mem = s.mem := by
  simp [State.dropMessage]

@[simp] theorem State.queueInjection_mem (s : State) (behind : Bool) (root r w queue : Nat) (target a0 a1 : W64) :
    (s.queueInjection behind root r w queue target a0 a1).mem = s.mem := rfl

@[simp] theorem State.submitNow_mem (s : State) (w queue : Nat) (target a0 a1 : W64) (turn : Bool) :
    (s.submitNow w queue target a0 a1 turn).mem = s.mem := by
  unfold State.submitNow
  grind [State.post_mem, State.queueInjection_mem, !State.grant_mem, State.send_mem]

@[simp] theorem State.submit_mem (s : State) (w queue : Nat) : (s.submit w queue).mem = s.mem := by
  unfold State.submit
  (repeat' split) <;> simp

@[simp] theorem State.submitPacket_mem (s : State) (p : Packet) (turn : Bool) : (s.submitPacket p turn).mem = s.mem := by
  simp [State.submitPacket]

@[simp] theorem State.submitNext_mem (s : State) : s.submitNext.mem = s.mem := by
  unfold State.submitNext
  dsimp only
  (repeat' split) <;> simp

theorem execBorrowRequest_mem (s : State) : AnswersIn (· = s.mem) (execBorrowRequest s) := by
  have hgrant {r : Residency} {v : State} {o : Option W64} (h : (s.takeArrived s.cur.t (isPotOf s.cur.n)).grant r = (o, v)) :
      v.mem = s.mem := (congrArg (·.2.mem) h).symm.trans (State.grant_mem ..)
  unfold execBorrowRequest
  dsimp only
  (repeat' split) <;> simp [AnswersIn]
  all_goals exact hgrant ‹_›

theorem execBorrowReply_mem (s : State) : AnswersIn (· = s.mem) (execBorrowReply s) := by
  unfold execBorrowReply
  grind [AnswersIn, State.takeArrived_mem, State.setMe_mem, State.failHeld_mem, State.withCur_mem, State.mem_atCtx]

@[simp] theorem State.askVictim_mem (s : State) (r : Residency) (pos : Nat) : (s.askVictim r pos).mem = s.mem := by
  unfold State.askVictim
  (repeat' split) <;> rfl

theorem State.topTask_mem (s : State) (k : Nat) : (s.topTask k).AllMem (· = s.mem) := by
  unfold State.topTask
  grind [State.setCtx_mem, !State.move_mem, Top.AllMem, Begun.state]

theorem State.topOf_mem (s : State) (l : List Nat) : (s.topOf l).AllMem (· = s.mem) := by
  induction l generalizing s with
  | nil => exact rfl
  | cons x l ih => grind [State.topOf, !State.topTask_mem, Top.AllMem]

theorem execStealRequest_mem (s : State) : AnswersIn (· = s.mem) (execStealRequest s) := by
  unfold execStealRequest
  grind [AnswersIn, State.takeArrived_mem, !State.topOf_mem, State.send_mem, Top.AllMem]

theorem execStealResponse_mem (s : State) : AnswersIn (· = s.mem) (execStealResponse s) := by
  unfold execStealResponse
  grind [AnswersIn, State.takeArrived_mem, State.setMe_mem, State.pushTask_mem, !State.dequeRoom_mem, State.askVictim_mem,
    State.withCur_mem, State.mem_atCtx, Room.AllMem]

theorem State.injectGate_canon {s : State} (t : Nat) (p : Packet) (hc : Canon s.mem) : (s.injectGate t p).AllMem Canon := by
  unfold State.injectGate
  grind [!State.gate_canon, Gate.AllMem]

@[simp] theorem State.queuePeerInjection_mem (s : State) (r : Residency) (p : Packet) : (s.queuePeerInjection r p).mem = s.mem := rfl

@[simp] theorem State.seekRoom_mem (s : State) (t : Nat) : (s.seekRoom t).mem = s.mem := by
  refine foldl_keeps State.mem _ (fun _ _ => ?_) ..
  grind [!State.dequeRoom_mem, Room.AllMem]

theorem execActiveMessageArrival_canon {s : State} (hc : Canon s.mem) : AnswersIn Canon (execActiveMessageArrival s) := by
  unfold execActiveMessageArrival
  dsimp only
  grind (gen := 12) [AnswersIn, State.seekRoom_mem, State.takeArrived_mem, State.dropMessage_mem, State.queuePeerInjection_mem,
    State.setCtx_mem, State.pushTask_mem, !State.grant_mem, !State.injectGate_canon, !State.dequeRoom_mem, State.askSpill_mem,
    Gate.AllMem, Room.AllMem]

/-! ### What banks do by themselves -/

@[simp] theorem State.spillBlock_mem (s : State) (t n : Nat) : (s.spillBlock t n).mem = s.mem := by
  unfold State.spillBlock
  grind [State.tileEvent_mem, State.setBank_mem, !State.move_mem, State.askSpill_mem, Begun.state]

@[simp] theorem State.refillBlock_mem (s : State) (t n : Nat) : (s.refillBlock t n).mem = s.mem := by
  unfold State.refillBlock
  grind [!State.move_mem, State.setBank_mem, Begun.state]

@[simp] theorem State.refill_mem (s : State) (t n : Nat) : (s.refill t n).mem = s.mem := by
  unfold State.refill
  dsimp only
  (repeat' split) <;> simp

theorem State.clearBank_canon {s : State} (t n : Nat) (hc : Canon s.mem) : Canon (s.clearBank t n).mem := by
  unfold State.clearBank
  grind [State.wipe_canon]

@[simp] theorem State.dropWay_mem (s : State) (t n : Nat) : (s.dropWay t n).mem = s.mem := rfl

theorem State.changeBank_canon {s : State} (t n : Nat) (c : BankChange) (hc : Canon s.mem) : Canon (s.changeBank t n c).mem := by
  unfold State.changeBank
  grind [State.dropWay_mem, State.clearBank_canon, State.setBank_mem]

theorem execBankModeChangeEffect_canon {s : State} (hc : Canon s.mem) : AnswersIn Canon (execBankModeChangeEffect s) := by
  have hchange (c : BankChange) (l : List Nat) : Canon (l.foldl (fun u n => u.changeBank s.cur.t n c) s).mem :=
    foldl_mem (P := Canon) hc (fun _ _ hu => State.changeBank_canon _ _ _ hu) _
  unfold execBankModeChangeEffect
  dsimp only
  (repeat' split)
  · exact hc
  · exact hc
  · rw [AnswersIn, State.withCur_mem]
    split <;> simpa using hchange _ _

/-! ### Barriers -/

@[simp] theorem State.setBarrier_mem (s : State) (core idx : Nat) (b : Barrier) : (s.setBarrier core idx b).mem = s.mem := rfl

theorem State.onBarrier_mem {P : Memory → Prop} {s : State} {f : Nat → Nat → Barrier → Res} (hs : P s.mem)
    (hf : ∀ core idx b, (f core idx b).AllMem P) (name : W64) : (s.onBarrier name f).AllMem P := by
  unfold State.onBarrier
  grind [Res.AllMem]

@[simp] theorem State.barrArrive_mem (s : State) (d : BitVec 5) (core idx : Nat) : (s.barrArrive d core idx).mem = s.mem := by
  simp [State.barrArrive]

theorem execBinit_mem (a b : BitVec 5) (s : State) : AnswersIn (· = s.mem) (execBinit a b s) := by
  refine State.issueS_mem (P := (· = s.mem)) rfl (fun _ u hu => State.onBarrier_mem (P := (· = s.mem)) hu (fun _ _ _ => ?_) _) ..
  split <;> simpa using hu

@[simp] theorem State.barrLate_mem (s : State) (d : BitVec 5) (core idx : Nat) : (s.barrLate d core idx).mem = s.mem := by
  unfold State.barrLate
  (repeat' split) <;> simp

theorem execBarr_mem (d a : BitVec 5) (s : State) : AnswersIn (· = s.mem) (execBarr d a s) := by
  unfold execBarr
  split
  · exact s.barrLate_mem ..
  · refine State.issueS_mem (P := (· = s.mem)) rfl (fun _ u hu => State.onBarrier_mem (P := (· = s.mem)) hu (fun _ _ _ => ?_) _) ..
    dsimp only
    split <;> simpa using hu

theorem execBwait_mem (d a b : BitVec 5) (s : State) : AnswersIn (· = s.mem) (execBwait d a b s) := by
  refine State.issueS_mem (P := (· = s.mem)) rfl (fun _ u hu => State.onBarrier_mem (P := (· = s.mem)) hu (fun _ _ _ => ?_) _) ..
  dsimp only
  split <;> simpa using hu

theorem execBtest_mem (d a : BitVec 5) (s : State) : AnswersIn (· = s.mem) (execBtest d a s) := by
  refine State.issueS_mem (P := (· = s.mem)) rfl (fun _ u hu => State.onBarrier_mem (P := (· = s.mem)) hu (fun _ _ _ => ?_) _) ..
  simpa using hu

@[simp] theorem State.engineArrive_mem (s : State) (t r name : Nat) (err : Bool) : (s.engineArrive t r name err).mem = s.mem := by
  unfold State.engineArrive
  (repeat' split) <;> rfl

/-! ### Memory instructions -/

theorem State.load_mem {P : Memory → Prop} {s : State} {done : State → Nat → Res} (hs : P s.mem)
    (hdone : ∀ u v, P u.mem → (done u v).AllMem P) (a : W64) (n al : Nat) (fin : Fin) : (s.load a n al fin done).AllMem P := by
  unfold State.load
  split
  · trivial
  · split
    · trivial
    · exact State.readAll_mem hs hdone ..

theorem State.store_canon {s : State} (a : W64) (n al v : Nat) (hc : Canon s.mem) : (s.store a n al v).AllMem Canon := by
  unfold State.store
  grind [!State.writeAll_canon, Res.AllMem]

theorem execLd_mem (d a : BitVec 5) (i : BitVec 11) (z : BitVec 2) (s : State) : AnswersIn (· = s.mem) (execLd d a i z s) :=
  State.issueS_mem (P := (· = s.mem)) rfl (fun _ _ hu => State.load_mem (P := (· = s.mem)) hu (fun _ _ hv => by simpa using hv) ..) ..

theorem execSt_canon (d a : BitVec 5) (i : BitVec 11) (z : BitVec 2) {s : State} (hc : Canon s.mem) : AnswersIn Canon (execSt d a i z s) := by
  refine State.issueS_mem (P := Canon) hc (fun _ u hu => ?_) ..
  grind [!State.store_canon, Res.AllMem]

@[simp] theorem State.vectorLoad_mem (s : State) (n : Nat) (d a : BitVec 5) (i : BitVec 11) : (s.vectorLoad n d a i).mem = s.mem :=
  State.issueS_mem (P := (· = s.mem)) rfl (fun _ _ hu => State.load_mem (P := (· = s.mem)) hu (fun _ _ hv => by simpa using hv) ..) ..

theorem State.vectorStore_canon {s : State} (n : Nat) (d a : BitVec 5) (i : BitVec 11) (hc : Canon s.mem) :
    Canon (s.vectorStore n d a i).mem :=
  State.issue_mem hc (fun _ _ hu => State.store_canon _ _ _ _ hu) ..

theorem execVgat_mem (d a b : BitVec 5) (fs : BitVec 2) (k : BitVec 3) (t : BitVec 2) (s : State) :
    AnswersIn (· = s.mem) (execVgat d a b fs k t s) :=
  State.issue_mem (P := (· = s.mem)) rfl (fun _ _ hu => State.readAll_mem (P := (· = s.mem)) hu (fun _ _ hv => by simpa using hv) ..) ..

theorem execVsct_canon (d a b : BitVec 5) (fs : BitVec 2) (k : BitVec 3) (t : BitVec 2) {s : State} (hc : Canon s.mem) :
    AnswersIn Canon (execVsct d a b fs k t s) := by
  refine State.issue_mem (P := Canon) hc (fun _ u hu => ?_) ..
  grind [!State.writeAll_canon, Res.AllMem]

theorem execStm_canon (d a : BitVec 5) (k : BitVec 3) {s : State} (hc : Canon s.mem) : AnswersIn Canon (execStm d a k s) := by
  refine State.issue_mem hc (fun x u hu => ?_) ..
  have hwrite (l : List (Part × Home)) (m : BitVec 32) : Canon (l.foldl (fun s y => s.writePart y.1 y.2 m (x 1)) u).mem :=
    foldl_mem (P := Canon) hu (fun _ _ hv => State.writePart_canon _ _ _ _ hv) _
  dsimp only
  (repeat' split) <;> try trivial
  exact hwrite ..

theorem State.atomic.release_mem {P : Memory → Prop} {s : State} {go : State → Res} (hs : P s.mem) (hgo : (go s).AllMem P)
    (ord fs k : Nat) : (State.atomic.release ord fs k s go).AllMem P := by
  unfold State.atomic.release
  grind [Res.AllMem, State.setMe_mem]

theorem State.atomic_canon {s : State} (d : BitVec 5) (op : AOp) (ord fs : Nat) (a b e : W64) (hc : Canon s.mem) :
    (s.atomic d op ord fs a b e).AllMem Canon := by
  unfold State.atomic
  grind [State.atomic.release_mem, Res.AllMem, State.startWalk_mem, !State.atomicAt_canon, State.put_mem, State.invalidate_mem,
    !State.request_mem, State.setMe_mem]

theorem State.atom_canon {s : State} (op : Nat) (d a b : BitVec 5) (o : BitVec 2) (fs : BitVec 3) (hc : Canon s.mem) :
    Canon (s.atom op d a b o fs).mem :=
  State.issueS_mem hc (fun _ _ hu => State.atomic_canon _ _ _ _ _ _ _ hu) ..

theorem execCas_canon (d a b : BitVec 5) (o : BitVec 2) (fs : BitVec 3) (w : BitVec 1) {s : State} (hc : Canon s.mem) :
    AnswersIn Canon (execCas d a b o fs w s) := by
  refine State.issueS_mem (P := Canon) hc (fun _ u hu => ?_) ..
  grind [!State.atomic_canon, Res.AllMem]

@[simp] theorem State.sweep_mem (s : State) (t r n : Nat) (va : W64) (left : Nat) : (s.sweep t r n va left).2.mem = s.mem := by
  induction n generalizing s va left with
  | zero => rfl
  | succ n ih =>
    cases left with
    | zero => rfl
    | succ left => grind [State.sweep, !State.seek_mem, State.invalidate_mem]

@[simp] theorem State.sweepOn_mem (s : State) (va : W64) (left : Nat) : (s.sweepOn va left).2.mem = s.mem := by simp [State.sweepOn]

@[simp] theorem State.sweepLate_mem (s : State) (va : W64) (left : Nat) : (s.sweepLate va left).mem = s.mem := by
  unfold State.sweepLate
  grind [!State.sweepOn_mem, State.complete_mem, State.setMe_mem]

theorem execCinv_mem (a b : BitVec 5) (s : State) : AnswersIn (· = s.mem) (execCinv a b s) := by
  unfold execCinv
  split
  · exact s.sweepLate_mem ..
  · refine State.issueS_mem (P := (· = s.mem)) rfl (fun _ u hu => ?_) ..
    grind [!State.sweepOn_mem, State.setMe_mem, Res.AllMem]

@[simp] theorem State.prefetch_mem (s : State) (t r pa : Nat) : (s.prefetch t r pa).mem = s.mem := by
  unfold State.prefetch
  (repeat' split) <;> simp

@[simp] theorem State.prefetchAll_mem (s : State) (t r : Nat) (l : List Nat) : (s.prefetchAll t r l).mem = s.mem := by
  unfold State.prefetchAll
  split
  · rfl
  · exact foldl_keeps State.mem _ (fun _ _ => State.prefetch_mem ..) _ _

@[simp] theorem State.prefetchAt_mem (s : State) (t r : Nat) (va : W64) : (s.prefetchAt t r va).mem = s.mem := by
  unfold State.prefetchAt
  dsimp only
  (repeat' split) <;> simp

theorem execCpref_mem (a b : BitVec 5) (s : State) : AnswersIn (· = s.mem) (execCpref a b s) := by
  refine State.issueS_mem (P := (· = s.mem)) rfl (fun _ u hu => ?_) ..
  dsimp only
  split
  · exact hu
  · exact (foldl_keeps State.mem _ (fun _ _ => State.prefetchAt_mem ..) _ _).trans hu

theorem execStdoneq_mem (q : BitVec 3) (a : BitVec 5) (fs : BitVec 3) (s : State) : AnswersIn (· = s.mem) (execStdoneq q a fs s) := by
  refine State.forQueue_mem (P := (· = s.mem)) rfl (State.issueS_mem (P := (· = s.mem)) rfl (fun _ u hu => ?_) ..) ..
  dsimp only
  (repeat' split) <;> simpa using hu

@[simp] theorem State.stqRefused_mem (s : State) (k tid : Nat) (waits : Bool) (cause : Nat) (addr : W64) :
    (s.stqRefused k tid waits cause addr).mem = s.mem := by
  unfold State.stqRefused
  (repeat' split) <;> simp

theorem State.onQueue_mem {P : Memory → Prop} {s : State} {body : Bank → Res} (hbody : ∀ b, (body b).AllMem P) (q : BitVec 3) :
    (s.onQueue q body).AllMem P := by
  unfold State.onQueue
  grind [Res.AllMem]

theorem State.queuePush_mem (s : State) (q : BitVec 3) (w : NetWord) : (s.queuePush q w).AllMem (· = s.mem) :=
  State.onQueue_mem (P := (· = s.mem)) (fun _ => by split <;> simp) q

theorem State.queuePop_mem {P : Memory → Prop} {s : State} {f : State → W256 → State} (hs : P s.mem)
    (hf : ∀ u w, P u.mem → P (f u w).mem) (q : BitVec 3) : (s.queuePop q f).AllMem P := by
  refine State.onQueue_mem (P := P) (fun b => ?_) q
  grind [Res.AllMem, State.setBank_mem]

theorem execQpush_mem (q : BitVec 3) (a : BitVec 5) (s : State) : AnswersIn (· = s.mem) (execQpush q a s) :=
  State.forQueue_mem (P := (· = s.mem)) rfl (State.issueS_mem (P := (· = s.mem)) rfl (fun _ u hu => hu ▸ u.queuePush_mem ..) ..) ..

theorem execQpushv_mem (q : BitVec 3) (a : BitVec 5) (s : State) : AnswersIn (· = s.mem) (execQpushv q a s) :=
  State.forQueue_mem (P := (· = s.mem)) rfl (State.issue_mem (P := (· = s.mem)) rfl (fun _ u hu => hu ▸ u.queuePush_mem ..) ..) ..

theorem execQpop_mem (d : BitVec 5) (q : BitVec 3) (s : State) : AnswersIn (· = s.mem) (execQpop d q s) :=
  State.issueS_mem (P := (· = s.mem)) rfl (fun _ _ hu => State.queuePop_mem (P := (· = s.mem)) hu (fun _ _ hv => by simpa using hv) _) ..

theorem execQpopv_mem (d : BitVec 5) (q : BitVec 3) (s : State) : AnswersIn (· = s.mem) (execQpopv d q s) :=
  State.issueS_mem (P := (· = s.mem)) rfl (fun _ _ hu => State.queuePop_mem (P := (· = s.mem)) hu (fun _ _ hv => by simpa using hv) _) ..

theorem execQcount_mem (d : BitVec 5) (q : BitVec 3) (s : State) : AnswersIn (· = s.mem) (execQcount d q s) :=
  State.issueS_mem (P := (· = s.mem)) rfl (fun _ _ hu => State.onQueue_mem (P := (· = s.mem)) (fun _ => by simpa using hu) _) ..

theorem execQtag_mem (d : BitVec 5) (q : BitVec 3) (s : State) : AnswersIn (· = s.mem) (execQtag d q s) :=
  State.issueS_mem (P := (· = s.mem)) rfl (fun _ _ hu => State.onQueue_mem (P := (· = s.mem)) (fun _ => by simpa using hu) _) ..

theorem execQdrop_mem (q : BitVec 3) (s : State) : AnswersIn (· = s.mem) (execQdrop q s) := by
  refine State.issueS_mem (P := (· = s.mem)) rfl (fun _ u hu => State.onQueue_mem (P := (· = s.mem)) (fun _ => ?_) _) ..
  split <;> simpa using hu

theorem execBset_mem (n : BitVec 3) (a : BitVec 5) (s : State) : AnswersIn (· = s.mem) (execBset n a s) := by
  refine State.issueS_mem (P := (· = s.mem)) rfl (fun _ u hu => ?_) ..
  dsimp only
  split
  · trivial
  · exact (foldl_keeps State.mem _ (fun _ _ => State.setBank_mem ..) _ _).trans hu

/-! ### Copy templates -/

theorem State.arming_mem (s : State) (n : Nat) (d : Desc) : (s.arming n d).AllMem (· = s.mem) := by
  unfold State.arming
  dsimp only
  (repeat' split) <;> simp

theorem execCarm_mem (a : BitVec 5) (n : BitVec 4) (s : State) : AnswersIn (· = s.mem) (execCarm a n s) := by
  refine State.issueS_mem (P := (· = s.mem)) rfl (fun _ u hu => ?_) ..
  (repeat' split) <;> try trivial
  exact State.load_mem (P := (· = s.mem)) hu (fun v _ hv => hv ▸ v.arming_mem ..) ..

@[simp] theorem State.addFiring_mem (s : State) (n : Nat) (x : Template) (waits : List Nat) : (s.addFiring n x waits).mem = s.mem := rfl

@[simp] theorem State.setTmpl_mem (s : State) (n : Nat) (x : Template) : (s.setTmpl n x).mem = s.mem := rfl

theorem State.engineHome_mem (s : State) (t r who : Nat) (a : W64) (n : Nat) (wr : Bool) :
    (s.engineHome t r who a n wr).AllMem (· = s.mem) := by
  unfold State.engineHome
  grind [!State.seek_mem, CSpot.AllMem]

theorem State.copySpot_mem (s : State) (x : Template) (r : Nat) (a : W64) (n : Nat) (wr : Bool) :
    (s.copySpot x r a n wr).AllMem (· = s.mem) := by
  unfold State.copySpot
  grind [!State.engineHome_mem, CSpot.AllMem]

theorem State.copyWord_mem (s : State) (q : Nat) : ∀ u, s.copyWord q = some u → u.2.mem = s.mem := by
  unfold State.copyWord
  dsimp only
  (repeat' split) <;> simp

theorem State.nextIdx_mem (s : State) (c : Copy) (d : Desc) : (s.nextIdx c d).AllMem (· = s.mem) := by
  have hword := s.copyWord_mem d.idxQueue
  unfold State.nextIdx
  grind [NextIdx.AllMem]

@[simp] theorem State.copyRead_mem (s : State) (n : Nat) (x : Template) (d : Desc) (c : Copy) (a : W64) :
    (s.copyRead n x d c a).2.mem = s.mem := by
  unfold State.copyRead
  grind [State.setTmpl_mem, !State.copySpot_mem, !State.request_mem, CSpot.AllMem]

@[simp] theorem State.copyIssue_mem (s : State) (n : Nat) : (s.copyIssue n).2.mem = s.mem := by
  have hword (q : Nat) := s.copyWord_mem q
  unfold State.copyIssue
  dsimp only
  grind (gen := 12) [!State.nextIdx_mem, !State.copyRead_mem, State.setTmpl_mem, NextIdx.AllMem]

@[simp] theorem State.issueFirst_mem (s : State) (l : List Nat) : (s.issueFirst l).mem = s.mem := by
  induction l generalizing s with
  | nil => exact rfl
  | cons x l ih => grind [State.issueFirst, !State.copyIssue_mem, State.setTile_mem]

theorem State.copyDeliver_canon {s : State} (n : Nat) (hc : Canon s.mem) : Canon (s.copyDeliver n).mem := by
  unfold State.copyDeliver
  dsimp only
  grind (gen := 12) [State.setTmpl_mem, !State.copySpot_mem, State.writeSector_canon, !State.request_mem, CSpot.AllMem]

@[simp] theorem State.copyClose_mem (s : State) (n : Nat) : (s.copyClose n).mem = s.mem := by
  unfold State.copyClose
  dsimp only
  (repeat' split) <;> rfl

@[simp] theorem State.copyPush_mem (s : State) (n : Nat) : (s.copyPush n).mem = s.mem := by
  unfold State.copyPush
  dsimp only
  (repeat' split) <;> rfl

@[simp] theorem State.copyAnswer_mem (s : State) (p : Packet) : (s.copyAnswer p).mem = s.mem := by
  unfold State.copyAnswer
  dsimp only
  (repeat' split) <;> rfl

theorem execCopyReadReturn_canon {s : State} (hc : Canon s.mem) : AnswersIn Canon (execCopyReadReturn s) := by
  unfold execCopyReadReturn
  grind [AnswersIn, State.copyAnswer_mem, State.takeArrived_mem, State.copyPush_mem, State.copyClose_mem, State.copyDeliver_canon]

@[simp] theorem State.sendRecord_mem (s : State) (k : Nat) (r : AsyncRec) : (s.sendRecord k r).mem = s.mem := rfl

theorem execCopyComplete_canon {s : State} (hc : Canon s.mem) : AnswersIn Canon (execCopyComplete s) := by
  have hwake (t n : Nat) (u : State) : ((List.range 16).foldl (fun s i =>
      s.withCur (t * 16 + i) fun s => if s.me.wait = .cdis n then s.complete else s) u).mem = u.mem :=
    foldl_keeps State.mem _ (fun _ _ => by rw [State.withCur_mem]; split <;> simp) _ _
  unfold execCopyComplete
  rw [AnswersIn]
  extract_lets t n x
  split
  · split
    · exact hc
    · extract_lets e y closed woken k told h
      have hclosed : Canon closed.mem := hc
      have hwoken : Canon woken.mem := by
        unfold woken
        split <;> simpa [hwake] using hclosed
      have htold : Canon told.mem := by
        unfold told
        clear_value e woken
        (repeat' split) <;> simpa using hwoken
      clear_value told
      have hgate (r : Nat) (e : Capt) : (told.gate t r e true).AllMem Canon := State.gate_canon t r e true htold
      split
      · exact htold
      · split <;> grind [Gate.AllMem]
  · exact hc

@[simp] theorem State.pTaken_mem (s : State) (t b : Nat) : (s.pTaken t b).mem = s.mem := by
  unfold State.pTaken
  (repeat' split) <;> rfl

@[simp] theorem State.pTake_mem (s : State) (t b : Nat) (w : NetWord) : (s.pTake t b w).mem = s.mem := by
  unfold State.pTake
  (repeat' split) <;> simp

@[simp] theorem State.pRefuse_mem (s : State) (t b : Nat) (w : NetWord) : (s.pRefuse t b w).mem = s.mem := by
  unfold State.pRefuse
  dsimp only
  (repeat' split) <;> rfl

/-! ### Matrix requests -/

@[simp] theorem State.mDeliver_mem (s : State) (t key r : Nat) (k : MTok) (e : Option MErr) : (s.mDeliver t key r k e).mem = s.mem := by
  unfold State.mDeliver
  (repeat' split) <;> simp

@[simp] theorem State.mDone_mem (s : State) (t : Nat) (q : MReq) (e : Option MErr) : (s.mDone t q e).mem = s.mem := by
  unfold State.mDone
  (repeat' split) <;> simp

@[simp] theorem State.offerM_mem (s : State) (t b : Nat) (ws : List MWord) : (s.offerM t b ws).mem = s.mem := rfl

@[simp] theorem State.mFail_mem (s : State) (t : Nat) (q : MReq) (e : MErr) : (s.mFail t q e).mem = s.mem := by
  unfold State.mFail
  (repeat' split) <;> simp

@[simp] theorem State.pushAcc_mem (s : State) (t : Nat) (k : List AccTok) : (s.pushAcc t k).mem = s.mem := rfl

theorem State.enterAcc_canon {s : State} (t : Nat) (isLane : Bool) (r core seq slice row : Nat) (k : AccTok) (hc : Canon s.mem) :
    ∀ u, s.enterAcc t isLane r core seq slice row k = some u → Canon u.mem := by
  unfold State.enterAcc
  grind [!State.gate_canon, State.pushAcc_mem, Gate.AllMem]

@[simp] theorem State.newId_mem (s : State) (t : Nat) : (s.newId t).2.mem = s.mem := rfl

@[simp] theorem State.joinGroup_mem (s : State) (t : Nat) (q : MReq) : (s.joinGroup t q).mem = s.mem := rfl

theorem State.takeIn_canon {s : State} (t : Nat) (q : MReq) (hc : Canon s.mem) : Canon (s.takeIn t q).mem := by
  unfold State.takeIn
  grind [!State.newTid_mem, !State.newId_mem, State.joinGroup_mem, State.capture_canon]

theorem State.nodeSpot_mem (s : State) (t r k : Nat) (c : Ctx) (a : W64) (n : Nat) (wr : Bool) :
    (s.nodeSpot t r k c a n wr).AllMem (· = s.mem) := by
  unfold State.nodeSpot
  grind [!State.engineHome_mem, CSpot.AllMem]

@[simp] theorem State.nodeRead_mem (s : State) (t r k id : Nat) (a : W64) : (s.nodeRead t r k id a).2.mem = s.mem := by
  unfold State.nodeRead
  grind [!State.nodeSpot_mem, !State.request_mem, CSpot.AllMem]

@[simp] theorem State.nodeReads_mem (s : State) (t r k id : Nat) (l : List W64) : (s.nodeReads t r k id l).2.mem = s.mem := by
  induction l generalizing s t r k id with
  | nil => exact rfl
  | cons x l ih => grind [State.nodeReads, !State.nodeRead_mem]

@[simp] theorem State.nodeFetch_mem (s : State) (t r k id : Nat) (l : List W64) (ps : List Piece) :
    (s.nodeFetch t r k id l ps).2.mem = s.mem := by
  unfold State.nodeFetch
  (repeat' split) <;> simp

@[simp] theorem State.nodeAnswer_mem (s : State) (t id tid : Nat) (f : Piece → Piece) : (s.nodeAnswer t id tid f).mem = s.mem := rfl

@[simp] theorem State.sendPsum_mem (s : State) (t : Nat) (q : MReq) (first : Nat) (rows : List (List Elem × Bool)) :
    (s.sendPsum t q first rows).mem = s.mem := by
  unfold State.sendPsum
  (repeat' split) <;> rfl

theorem State.enterPoisons_canon {s : State} (t n : Nat) (hc : Canon s.mem) : Canon (s.enterPoisons t n).mem := by
  induction n generalizing s t with
  | zero => exact hc
  | succ n ih => grind [State.enterPoisons, !State.enterAcc_canon, State.setNode_mem]

theorem State.poison_canon {s : State} (t : Nat) (q : MReq) (completes : Bool) (hc : Canon s.mem) : Canon (s.poison t q completes).mem := by
  unfold State.poison
  grind [State.enterPoisons_canon, State.setNode_mem]

theorem State.mFaulted_canon {s : State} (t : Nat) (q : MReq) (hc : Canon s.mem) : Canon (s.mFaulted t q).mem := by
  have hrows (row : List Elem × Bool) (m n : Nat) :
      ((List.range n).foldl (fun s i => s.sendPsum t q (3 * i) (List.replicate (min 3 (m - 3 * i)) row)) s).mem = s.mem :=
    foldl_keeps State.mem _ (fun _ _ => State.sendPsum_mem ..) _ _
  unfold State.mFaulted
  dsimp only
  (repeat' split)
  · exact hc
  · exact State.poison_canon _ _ _ hc
  · rw [State.mDone_mem, hrows]
    exact hc
  · rwa [State.mFail_mem]

@[simp] theorem State.mRefused_mem (s : State) (t cause : Nat) (q : MReq) : (s.mRefused t cause q).mem = s.mem := by
  unfold State.mRefused
  dsimp only
  (repeat' split) <;> simp

theorem State.dissolve_canon {s : State} (t : Nat) (hc : Canon s.mem) : Canon (s.dissolve t).mem := by
  refine foldl_mem (P := Canon) ?_ (fun _ g hu => foldl_mem hu (fun _ _ hv => State.mFaulted_canon _ _ hv) _) _
  exact hc

@[simp] theorem State.dropAtM_mem (s : State) (t b : Nat) : (s.dropAtM t b).mem = s.mem := by simp [State.dropAtM]

theorem State.chainStep_canon {s : State} (t : Nat) (c : ChainIn) (hc : Canon s.mem) : ∀ u, s.chainStep t c = some u → Canon u.mem := by
  intro u h
  have henter {r core seq slice row : Nat} {k : AccTok} {f : State → State} (hf : ∀ v, (f v).mem = v.mem)
      (h : (s.enterAcc t true r core seq slice row k).map f = some u) : Canon u.mem := by
    obtain ⟨v, hv, rfl⟩ := Option.map_eq_some_iff.1 h
    exact (hf v).symm ▸ State.enterAcc_canon _ _ _ _ _ _ _ _ hc v hv
  unfold State.chainStep at h
  dsimp only at h
  (repeat' split at h) <;> try contradiction
  · cases h; exact hc
  · cases h; exact hc
  · cases h; simpa using hc
  · cases h; exact hc
  · refine henter ?_ h; exact fun _ => rfl
  · refine henter ?_ h; exact fun _ => rfl

theorem State.chainSteps_canon {s : State} (t id n : Nat) (hc : Canon s.mem) : Canon (s.chainSteps t id n).mem := by
  induction n generalizing s t id with
  | zero => exact hc
  | succ n ih => grind [State.chainSteps, !State.chainStep_canon]

theorem State.runChains_canon {s : State} (t : Nat) (hc : Canon s.mem) : Canon (s.runChains t).mem := by
  refine foldl_mem (P := Canon) hc (fun u _ hu => ?_) _
  grind [State.chainSteps_canon]

@[simp] theorem State.mTake_mem (s : State) (t b : Nat) (w : NetWord) : (s.mTake t b w).mem = s.mem := by
  unfold State.mTake
  dsimp only
  (repeat' split) <;> simp

theorem State.chainBad_canon {s : State} (t : Nat) (c : ChainIn) (hc : Canon s.mem) : Canon (s.chainBad t c).mem := by
  unfold State.chainBad
  grind [State.setNode_mem, State.mFail_mem, State.mDone_mem, State.poison_canon, State.dissolve_canon]

theorem State.mRefuse_canon {s : State} (t b : Nat) (w : NetWord) (hc : Canon s.mem) : Canon (s.mRefuse t b w).mem := by
  unfold State.mRefuse
  grind [State.dissolve_canon, State.setNode_mem, State.chainBad_canon]

@[simp] theorem State.mTaken_mem (s : State) (t b : Nat) : (s.mTaken t b).mem = s.mem := by
  unfold State.mTaken
  dsimp only
  (repeat' split) <;> simp

/-! ### Matrix instructions and events -/

@[simp] theorem State.countReq_mem (s : State) : s.countReq.mem = s.mem := rfl

theorem State.writeCells_canon {s : State} (t : Nat) (w : WReq) (ws : List W256) (hc : Canon s.mem) : Canon (s.writeCells t w ws).mem := by
  have hrows (key val : Nat → Nat) {m : Memory} (hm : Canon m) :
      Canon ((List.range 64).foldl (fun m k => Memory.writeN m (key k) 64 (val k)) m) :=
    List.foldlRecOn (motive := Canon) _ _ hm fun _ hu _ _ => Memory.writeN_wf _ _ _ _ hu
  unfold State.writeCells
  dsimp only
  split <;> dsimp only
  · exact hrows (fun k => weightKey t w.slot k 0) _ hc
  · exact hrows _ _ (hrows _ _ hc)

@[simp] theorem State.loadDone_mem (s : State) (t : Nat) (w : WReq) (e : Option MErr) : (s.loadDone t w e).mem = s.mem := by
  unfold State.loadDone
  dsimp only
  (repeat' split) <;> simp

theorem execWloadWrite_canon {s : State} (hc : Canon s.mem) : AnswersIn Canon (execWloadWrite s) := by
  unfold execWloadWrite
  grind [AnswersIn, !State.nodeFetch_mem, State.setNode_mem, State.loadDone_mem, State.writeCells_canon]

theorem execMmq_canon (a b c d : BitVec 5) (h f v : BitVec 1) (k : BitVec 28) {s : State} (hc : Canon s.mem) :
    AnswersIn Canon (execMmq a b c d h f v k s) := by
  refine State.issueS_mem (P := Canon) hc (fun _ u hu => ?_) ..
  grind [State.countReq_mem, State.takeIn_canon, State.mDone_mem, !State.newId_mem, !State.newTid_mem, State.setNode_mem,
    State.setMe_mem, Res.AllMem]

theorem execAccrd_canon (a : BitVec 5) (f : BitVec 2) (fs : BitVec 3) (w : BitVec 4) (c : BitVec 3) {s : State} (hc : Canon s.mem) :
    AnswersIn Canon (execAccrd a f fs w c s) := by
  refine State.issueS_mem (P := Canon) hc (fun _ u hu => ?_) ..
  grind [!State.enterAcc_canon, State.setMe_mem, State.countReq_mem, Res.AllMem]

theorem execAccclr_canon (fs : BitVec 3) (w c : BitVec 4) {s : State} (hc : Canon s.mem) : AnswersIn Canon (execAccclr fs w c s) := by
  refine State.issueS_mem (P := Canon) hc (fun _ u hu => ?_) ..
  grind [!State.enterAcc_canon, State.countReq_mem, Res.AllMem]

theorem execMatrixRequestToken_canon {s : State} (hc : Canon s.mem) : AnswersIn Canon (execMatrixRequestToken s) := by
  unfold execMatrixRequestToken
  grind [AnswersIn, State.setNode_mem, State.dropAtM_mem, State.takeIn_canon, State.countReq_mem, State.mFail_mem, State.withCur_mem,
    State.mem_atCtx]

theorem execRemoteMatrixRequest_canon {s : State} (hc : Canon s.mem) : AnswersIn Canon (execRemoteMatrixRequest s) := by
  unfold execRemoteMatrixRequest
  grind [AnswersIn, State.takeArrived_mem, State.mDone_mem, State.takeIn_canon]

theorem State.fetchRows_mem (s : State) (t : Nat) (q : MReq) : (s.fetchRows t q).1.mem = s.mem := by
  unfold State.fetchRows
  dsimp only
  (repeat' split) <;> simp

@[simp] theorem State.mmqLeaves_mem (s : State) (q : MReq) : (s.mmqLeaves q).mem = s.mem := by
  unfold State.mmqLeaves
  grind [State.complete_mem, State.withCur_mem, State.mem_atCtx]

@[simp] theorem State.sendRemote_mem (s : State) (t : Nat) (q : MReq) : (s.sendRemote t q).mem = s.mem := by
  unfold State.sendRemote
  dsimp only
  (repeat' split) <;> simp

theorem execAFetchComplete_canon {s : State} (hc : Canon s.mem) : AnswersIn Canon (execAFetchComplete s) := by
  unfold execAFetchComplete
  grind [AnswersIn, !State.fetchRows_mem, State.setNode_mem, State.sendRemote_mem, State.dissolve_canon]

theorem execGroupIssue_canon {s : State} (hc : Canon s.mem) : AnswersIn Canon (execGroupIssue s) := by
  have hfault {u : State} (hu : Canon u.mem) (l : List MReq) : Canon (l.foldl (fun v q => v.mFaulted s.cur.t q) u).mem :=
    foldl_mem (P := Canon) hu (fun _ _ hv => State.mFaulted_canon _ _ hv) _
  unfold execGroupIssue
  dsimp only
  (repeat' split)
  · exact hc
  · exact foldl_mem (P := Canon) (hfault (by exact hc) _) (fun _ _ hv => (State.mRefused_mem ..).symm ▸ hv) _
  · exact hfault (by exact hc) _
  · exact hc
  · exact hc
  all_goals exact hfault (by exact hc) _

@[simp] theorem State.returnSpots_mem (s : State) (t : Nat) (q : MReq) (l : List Part) : (s.returnSpots t q l).2.mem = s.mem := by
  induction l generalizing s t q with
  | nil => exact rfl
  | cons x l ih => grind [State.returnSpots, !State.nodeSpot_mem, CSpot.AllMem]

theorem State.returnWrite_canon {s : State} (t : Nat) (q : MReq) (v : Nat) (l : List (Part × Option Home)) (hc : Canon s.mem) :
    Canon (s.returnWrite t q v l).1.mem := by
  refine List.foldlRecOn (motive := fun acc : State × List Nat × Option W64 => Canon acc.1.mem) _ _ hc fun acc hu x _ => ?_
  grind [State.writeSector_canon, !State.request_mem]

@[simp] theorem State.setReturn_mem (s : State) (t : Nat) (j : RetJob) : (s.setReturn t j).mem = s.mem := by
  unfold State.setReturn
  (repeat' split) <;> simp

@[simp] theorem State.returnRow_mem (s : State) (t : Nat) (q : MReq) (last : Bool) (tids : List Nat) (bad : Option W64) :
    (s.returnRow t q last tids bad).mem = s.mem := by simp [State.returnRow]

@[simp] theorem State.returnOver_mem (s : State) (t tid : Nat) (bad : Option W64) : (s.returnOver t tid bad).mem = s.mem := by
  unfold State.returnOver
  (repeat' split) <;> simp

theorem State.leaveReturn_canon {s : State} (t : Nat) (q : MReq) (i pushed : Nat) (last : Bool) (es : List Elem) (hc : Canon s.mem) :
    (s.leaveReturn t q i pushed last es).AllMem Canon := by
  unfold State.leaveReturn
  grind [State.returnRow_mem, State.setBank_mem, !State.returnSpots_mem, !State.returnWrite_canon, Left.AllMem]

@[simp] theorem State.gatherRow_mem (s : State) (t : Nat) (q : MReq) (last : Bool) (es : List Elem) :
    (s.gatherRow t q last es).mem = s.mem := by
  unfold State.gatherRow
  dsimp only
  (repeat' split) <;> simp

theorem State.leaveRow_canon {s : State} (t : Nat) (l : Lane) (x : LaneRow) (hc : Canon s.mem) : (s.leaveRow t l x).AllMem Canon := by
  unfold State.leaveRow
  grind [!State.enterAcc_canon, State.setNode_mem, !State.chainStep_canon, !State.leaveReturn_canon, State.gatherRow_mem, Left.AllMem]

theorem execRowLeaveLane_canon {s : State} (hc : Canon s.mem) : AnswersIn Canon (execRowLeaveLane s) := by
  unfold execRowLeaveLane
  grind [AnswersIn, State.enterPoisons_canon, State.runChains_canon, !State.leaveRow_canon, State.setNode_mem, Left.AllMem]

theorem execAccumulatorApply_mem (s : State) : AnswersIn (· = s.mem) (execAccumulatorApply s) := by
  unfold execAccumulatorApply
  grind [AnswersIn, State.mDone_mem, State.setNode_mem, State.complete_mem, State.flags_mem, State.putV_mem, State.withCur_mem,
    State.mem_atCtx]

@[simp] theorem State.badPacket_mem (s : State) (t : Nat) (h : Hdr) : (s.badPacket t h).mem = s.mem := by simp [State.badPacket]

theorem execPsumPacket_canon {s : State} (hc : Canon s.mem) : AnswersIn Canon (execPsumPacket s) := by
  unfold execPsumPacket
  dsimp only
  (repeat' split)
  · exact hc
  · simpa [AnswersIn] using hc
  · exact hc
  · refine getD_mem hc (List.foldlRecOn (motive := fun o : Option State => ∀ u, o = some u → Canon u.mem) _ _ ?_ fun o ho i _ u h => ?_)
    · rintro _ ⟨⟩
      simpa using hc
    · obtain ⟨v, hv, hu⟩ := Option.bind_eq_some_iff.1 h
      exact State.enterAcc_canon _ _ _ _ _ _ _ _ (ho v hv) u hu

/-! ### Scalar instructions -/

@[simp] theorem State.alu2_mem (s : State) (f : W64 → W64 → W64) (d a b : BitVec 5) : (s.alu2 f d a b).mem = s.mem :=
  State.issueS_mem (P := (· = s.mem)) rfl (fun _ _ hu => by simpa using hu) ..

@[simp] theorem State.alu1_mem (s : State) (f : W64 → W64) (d a : BitVec 5) : (s.alu1 f d a).mem = s.mem :=
  State.issueS_mem (P := (· = s.mem)) rfl (fun _ _ hu => by simpa using hu) ..

@[simp] theorem State.aluSat_mem (s : State) (sg : Bool) (f : W64 → W64 → Int) (d a b : BitVec 5) : (s.aluSat sg f d a b).mem = s.mem :=
  State.issueS_mem (P := (· = s.mem)) rfl (fun _ _ hu => by simpa using hu) ..

@[simp] theorem State.putP_mem (s : State) (d : BitVec 3) (v : Bool) : (s.putP d v).mem = s.mem := rfl

@[simp] theorem State.pred2_mem (s : State) (f : Bool → Bool → Bool) (d a b : BitVec 3) : (s.pred2 f d a b).mem = s.mem :=
  State.issueS_mem (P := (· = s.mem)) rfl (fun _ _ hu => by simpa using hu) ..

theorem State.transfer_mem {P : Memory → Prop} {s : State} {effect : State → State} (hs : P (effect s).mem) (t : W64) :
    (s.transfer t effect).AllMem P := by
  unfold State.transfer
  split
  · exact hs
  · trivial

@[simp] theorem State.branch_mem (s : State) (sense : Bool) (p : BitVec 3) (o : BitVec 19) : (s.branch sense p o).mem = s.mem := by
  refine State.issueS_mem (P := (· = s.mem)) rfl (fun _ u hu => ?_) ..
  split
  · exact State.transfer_mem hu _
  · exact hu

theorem execJmp_mem (o : BitVec 25) (s : State) : AnswersIn (· = s.mem) (execJmp o s) := by
  refine State.issueS_mem (P := (· = s.mem)) rfl (fun _ u hu => ?_) ..
  grind [!State.transfer_mem, Res.AllMem]

theorem execCall_mem (o : BitVec 25) (s : State) : AnswersIn (· = s.mem) (execCall o s) := by
  refine State.issueS_mem (P := (· = s.mem)) rfl (fun _ u hu => ?_) ..
  grind [!State.transfer_mem, State.put_mem, Res.AllMem]

theorem execJr_mem (a : BitVec 5) (s : State) : AnswersIn (· = s.mem) (execJr a s) := by
  refine State.issueS_mem (P := (· = s.mem)) rfl (fun _ u hu => ?_) ..
  grind [!State.transfer_mem, Res.AllMem]

theorem execJalr_mem (d a : BitVec 5) (s : State) : AnswersIn (· = s.mem) (execJalr d a s) := by
  refine State.issueS_mem (P := (· = s.mem)) rfl (fun _ u hu => ?_) ..
  grind [!State.transfer_mem, State.put_mem, Res.AllMem]

theorem execRet_mem (s : State) : AnswersIn (· = s.mem) (execRet s) := by
  refine State.issueS_mem (P := (· = s.mem)) rfl (fun _ u hu => ?_) ..
  grind [!State.transfer_mem, Res.AllMem]

/-! ### Streaming instructions -/

@[simp] theorem State.epPop_mem (s : State) (c : BitVec 4) : (s.epPop c).mem = s.mem := by
  unfold State.epPop
  (repeat' split) <;> simp

@[simp] theorem State.epPush_mem (s : State) (c : BitVec 4) (w : NetWord) : (s.epPush c w).mem = s.mem := by
  unfold State.epPush
  (repeat' split) <;> simp

@[simp] theorem State.issueStream_mem (s : State) (len : Nat) (i : Instr) (x y z : BitVec 5) (aligned : List (BitVec 5)) :
    (s.issueStream len i x y z aligned).mem = s.mem := by
  unfold State.issueStream
  dsimp only
  split
  · rfl
  · refine State.issueS_mem (P := (· = s.mem)) rfl (fun _ u hu => ?_) ..
    (repeat' split) <;> simpa using hu

theorem State.popInputs_mem (s : State) (h : Shape) (r : StreamRun) (l : List Nat) : (s.popInputs h r l).1.mem = s.mem := by
  induction l generalizing s h r with
  | nil => exact rfl
  | cons x l ih => grind [State.popInputs, State.epPop_mem]

@[simp] theorem State.setStream_mem (s : State) (r : Option StreamRun) : (s.setStream r).mem = s.mem := rfl

@[simp] theorem State.finishStream_mem (s : State) (r : StreamRun) (failed : Bool) : (s.finishStream r failed).mem = s.mem := rfl

@[simp] theorem State.pushes_mem (s : State) (h : Shape) (push : List (Nat × NetWord)) : (s.pushes h push).mem = s.mem := by
  refine foldl_keeps State.mem _ (fun _ _ => ?_) ..
  grind [State.epPush_mem]

@[simp] theorem State.startDrain_mem (s : State) (h : Shape) (r : StreamRun) (pops : List Nat) (w : NetWord) :
    (s.startDrain h r pops w).mem = s.mem := by
  unfold State.startDrain
  grind [!State.popInputs_mem, State.used_mem, State.setStream_mem, State.pushes_mem]

@[simp] theorem State.drainStep_mem (s : State) (h : Shape) (r : StreamRun) : (s.drainStep h r).mem = s.mem := by
  unfold State.drainStep
  grind [State.used_mem, State.finishStream_mem, State.pushes_mem, !State.popInputs_mem, State.setStream_mem]

theorem State.streamAct_mem (s : State) (h : Shape) (pops : List Nat) (push : List (Nat × NetWord)) (r : StreamRun) (fin : Bool) :
    ∀ u, s.streamAct h pops push r fin = some u → u.mem = s.mem := by
  unfold State.streamAct
  grind [!State.popInputs_mem, State.pushes_mem, State.finishStream_mem, State.setStream_mem]

@[simp] theorem State.streamOn_mem (s : State) : s.streamOn.mem = s.mem := by
  unfold State.streamOn
  (repeat' split) <;> try rfl
  exact getD_mem (P := (· = s.mem)) rfl (s.streamAct_mem _ _ _ _ _)

@[simp] theorem State.streamRead_mem (s : State) (v : Nat) : (s.streamRead v).mem = s.mem := by simp [State.streamRead]

theorem State.streamAccess_mem {P : Memory → Prop} {s : State} {x : Res} {ok : State → State} (hs : P s.mem) (hx : x.AllMem P)
    (hok : ∀ u, P u.mem → P (ok u).mem) (r : StreamRun) : P (s.streamAccess r x ok).mem := by
  unfold State.streamAccess
  split
  · exact hok _ hx
  all_goals assumption

theorem execStreamStep_canon {s : State} (hc : Canon s.mem) : AnswersIn Canon (execStreamStep s) := by
  unfold execStreamStep
  dsimp only
  (repeat' split) <;> try exact hc
  · simpa [AnswersIn] using hc
  · refine getD_mem hc fun u hu => ?_
    obtain ⟨v, hv, rfl⟩ := Option.map_eq_some_iff.1 hu
    exact (s.streamAct_mem _ _ _ _ _ v hv).symm ▸ hc
  · refine State.streamAccess_mem (P := Canon) hc ?_ (fun _ hu => hu) _
    exact State.load_mem (P := Canon) (by simpa using hc) (fun _ _ hv => by simpa using hv) ..
  · refine State.streamAccess_mem (P := Canon) hc (State.store_canon _ _ _ _ hc) (fun u hu => ?_) _
    exact (u.popInputs_mem ..).symm ▸ hu
  · simpa [AnswersIn] using hc
  · simpa [AnswersIn] using hc

theorem execTkpeekQ_mem (d : BitVec 5) (q : BitVec 3) (s : State) : AnswersIn (· = s.mem) (execTkpeekQ d q s) :=
  State.issueS_mem (P := (· = s.mem)) rfl (fun _ _ hu => State.onQueue_mem (P := (· = s.mem)) (fun _ => by simpa using hu) _) ..

theorem State.queueTake_mem {P : Memory → Prop} {s : State} {f : State → NetWord → State} (hs : P s.mem)
    (hf : ∀ u w, P u.mem → P (f u w).mem) (q : BitVec 3) : (s.queueTake q f).AllMem P := by
  refine State.onQueue_mem (P := P) (fun b => ?_) q
  grind [Res.AllMem, State.setBank_mem]

theorem execTkpopQ_mem (d : BitVec 5) (q : BitVec 3) (s : State) : AnswersIn (· = s.mem) (execTkpopQ d q s) :=
  State.issueS_mem (P := (· = s.mem)) rfl (fun _ _ hu => State.queueTake_mem (P := (· = s.mem)) hu (fun _ _ hv => by simpa using hv) _) ..

theorem execTkpopvQ_mem (d : BitVec 5) (q : BitVec 3) (s : State) : AnswersIn (· = s.mem) (execTkpopvQ d q s) :=
  State.issueS_mem (P := (· = s.mem)) rfl (fun _ _ hu => State.queueTake_mem (P := (· = s.mem)) hu (fun _ _ hv => by simpa using hv) _) ..

theorem State.queueSend_mem (s : State) (q : BitVec 3) (w : NetWord) : (s.queueSend q w).AllMem (· = s.mem) :=
  State.onQueue_mem (fun _ => by split <;> simp) q

theorem execTksendQ_mem (q : BitVec 3) (a : BitVec 5) (t : BitVec 4) (s : State) : AnswersIn (· = s.mem) (execTksendQ q a t s) :=
  State.forQueue_mem (P := (· = s.mem)) rfl (State.issueS_mem (P := (· = s.mem)) rfl (fun _ u hu => hu ▸ u.queueSend_mem ..) ..) ..

theorem execTksendvQ_mem (q : BitVec 3) (a : BitVec 5) (t : BitVec 4) (s : State) : AnswersIn (· = s.mem) (execTksendvQ q a t s) :=
  State.forQueue_mem (P := (· = s.mem)) rfl (State.issue_mem (P := (· = s.mem)) rfl (fun _ u hu => hu ▸ u.queueSend_mem ..) ..) ..

theorem State.tagBranch_mem (s : State) (d : BitVec 5) (c : BitVec 4) (l : List NetWord) (held : Bool) :
    (s.tagBranch d c l held).AllMem (· = s.mem) := by
  unfold State.tagBranch
  grind [State.transfer_mem, Res.AllMem]

theorem execBtag_mem (d a : BitVec 5) (c : BitVec 4) (s : State) : AnswersIn (· = s.mem) (execBtag d a c s) := by
  refine State.issueS_mem (P := (· = s.mem)) rfl (fun _ u hu => ?_) ..
  grind [!State.tagBranch_mem, Res.AllMem]

theorem execBtagQ_mem (d : BitVec 5) (q : BitVec 3) (c : BitVec 4) (s : State) : AnswersIn (· = s.mem) (execBtagQ d q c s) := by
  refine State.issueS_mem (P := (· = s.mem)) rfl (fun _ u hu => State.onQueue_mem (P := (· = s.mem)) (fun b => ?_) _) ..
  split
  · trivial
  · exact hu ▸ u.tagBranch_mem ..

/-! ### The dynamic network -/

@[simp] theorem State.relay_mem (s : State) (t : Nat) (p : Packet) : (s.relay t p).mem = s.mem := rfl

@[simp] theorem State.answer_mem (s : State) (src : Nat) (q : Hdr) (kind : Nat) (pay : List W256) (a info : W64) :
    (s.answer src q kind pay a info).mem = s.mem := rfl

@[simp] theorem State.ackWake_mem (s : State) (t : Nat) : (s.ackWake t).mem = s.mem := by
  refine foldl_keeps State.mem _ (fun _ _ => ?_) ..
  rw [State.withCur_mem]
  split <;> simp

@[simp] theorem State.writeOver_mem (s : State) (t tid : Nat) : (s.writeOver t tid).mem = s.mem := by
  rw [State.writeOver, State.ackWake_mem, State.returnOver_mem, State.performed_mem]

@[simp] theorem State.dropTxn_mem (s : State) (t tid : Nat) : (s.dropTxn t tid).mem = s.mem := rfl

@[simp] theorem State.stqResult_mem (s : State) (t tid : Nat) (refused : Option (Nat × W64)) : (s.stqResult t tid refused).mem = s.mem := by
  unfold State.stqResult
  dsimp only
  (repeat' split) <;> simp

theorem execStqAnswer_mem (s : State) : AnswersIn (· = s.mem) (execStqAnswer s) := by
  unfold execStqAnswer
  grind [AnswersIn, State.stqResult_mem, State.takeArrived_mem]

@[simp] theorem State.noRoute_mem (s : State) (t : Nat) (p : Packet) : (s.noRoute t p).mem = s.mem := by
  unfold State.noRoute
  grind [State.stqResult_mem, State.dropMessage_mem]

theorem State.serveHost_canon {s : State} (p : Packet) (hc : Canon s.mem) : Canon (s.serveHost p).mem := by
  unfold State.serveHost
  grind [State.answer_mem, State.writeOrSpoil_canon]

theorem State.deliverAt_canon {s : State} (n : Nat) (p : Packet) (hc : Canon s.mem) : Canon (s.deliverAt n p).mem := by
  unfold State.deliverAt
  grind [State.reportTile_mem, State.serveHost_canon, State.answer_mem, State.dropMessage_mem]

theorem execRouterPacket_canon {s : State} (hc : Canon s.mem) : AnswersIn Canon (execRouterPacket s) := by
  unfold execRouterPacket
  grind [AnswersIn, State.badPacket_mem, State.noRoute_mem, State.deliverAt_canon]

@[simp] theorem State.memDone_mem (s : State) (fin : Fin) (ps : List Piece) : (s.memDone fin ps).mem = s.mem := by
  unfold State.memDone
  grind [State.setMe_mem, State.failHeld_mem, State.complete_mem, State.put_mem, State.putV_mem, !State.arming_mem,
    State.streamRead_mem, Res.AllMem]

@[simp] theorem State.pieceAnswer_mem (s : State) (k tid : Nat) (f : Piece → Piece) : (s.pieceAnswer k tid f).mem = s.mem := by
  unfold State.pieceAnswer
  grind [State.memDone_mem, State.setMe_mem, State.withCur_mem, State.mem_atCtx]

@[simp] theorem State.engineAnswer_mem (s : State) (t : Nat) (o : Owner) (tid : Nat) (f : Piece → Piece) :
    (s.engineAnswer t o tid f).mem = s.mem := by
  unfold State.engineAnswer
  (repeat' split) <;> rfl

theorem execLoadResponse_canon {s : State} (hc : Canon s.mem) : AnswersIn Canon (execLoadResponse s) := by
  unfold execLoadResponse
  grind [AnswersIn, State.takeArrived_mem, State.writeOver_mem, State.dropTxn_mem, State.fillSector_canon, State.pieceAnswer_mem,
    State.nodeAnswer_mem, State.engineAnswer_mem]

theorem State.serve_canon {s : State} (src key : Nat) (p : Packet) (hc : Canon s.mem) : Canon (s.serve src key p).mem := by
  unfold State.serve
  grind [State.answer_mem, State.writeOrSpoil_canon, !State.atomicAt_canon]

theorem execFabricRequest_canon {s : State} (hc : Canon s.mem) : AnswersIn Canon (execFabricRequest s) := by
  unfold execFabricRequest
  grind [AnswersIn, State.takeArrived_mem, State.answer_mem, State.serve_canon]

@[simp] theorem State.reserveNotice_mem (s : State) (t : Nat) (q : Option Nat) : (s.reserveNotice t q).mem = s.mem := by
  unfold State.reserveNotice
  (repeat' split) <;> rfl

theorem execStqPacket_mem (s : State) : AnswersIn (· = s.mem) (execStqPacket s) := by
  unfold execStqPacket
  grind [AnswersIn, State.takeArrived_mem, State.answer_mem, State.relay_mem, !State.move_mem, State.reserveNotice_mem,
    State.setTile_mem, Begun.state]

@[simp] theorem State.walkOver_mem (s : State) (w : Walk) (ok : Bool) : (s.walkOver w ok).mem = s.mem := by
  unfold State.walkOver
  dsimp only
  (repeat' split) <;> rfl

@[simp] theorem State.walkEnds_mem (s : State) (v : Walk) (x : Option (Nat × Nat × Bool)) : (s.walkEnds v x).mem = s.mem := by
  unfold State.walkEnds
  (repeat' split) <;> simp

@[simp] theorem State.walkPage_mem (s : State) (w : Walk) : (s.walkPage w).mem = s.mem := by
  unfold State.walkPage
  dsimp only
  split <;> rename_i hwalk
  · exact (congrArg (·.2.mem) hwalk).symm.trans (s.walkOn_mem ..)
  · exact (foldl_keeps State.mem _ (fun _ _ => State.walkEnds_mem ..) _ _).trans
      ((congrArg (·.2.mem) hwalk).symm.trans (s.walkOn_mem ..))

theorem execTlbWalkComplete_mem (s : State) : AnswersIn (· = s.mem) (execTlbWalkComplete s) :=
  foldl_keeps State.mem _ (fun _ _ => State.walkPage_mem ..) _ _

/-! ### Memory ports -/

@[simp] theorem State.hostReply_mem (s : State) (a : Nat) (d : W256) (bad : Bool) : (s.hostReply a d bad).mem = s.mem := rfl

theorem State.serveHostRequest_canon {s : State} (key : Nat) (p : Packet) (hc : Canon s.mem) : Canon (s.serveHostRequest key p).mem := by
  unfold State.serveHostRequest
  grind [State.writeSector_canon, State.hostReply_mem]

@[simp] theorem State.serveMiss_mem (s : State) (src : Nat) (p : Packet) : (s.serveMiss src p).mem = s.mem := by
  unfold State.serveMiss
  (repeat' split) <;> simp

theorem State.servePort_canon {s : State} (port : Nat) (p : Packet) (hc : Canon s.mem) : Canon (s.servePort port p).mem := by
  unfold State.servePort
  grind [State.serveMiss_mem, State.answer_mem, State.checkTouch_mem, State.serveHostRequest_canon, State.serve_canon]

@[simp] theorem State.countHeld_mem (s : State) (port : Nat) : (s.countHeld port).mem = s.mem := by
  unfold State.countHeld
  dsimp only
  (repeat' split) <;> rfl

theorem State.portTry_canon {s : State} (port : Nat) (p : Packet) (hc : Canon s.mem) : Canon (s.portTry port p).2.mem := by
  unfold State.portTry
  grind [State.openRow_mem, State.setPort_mem, State.servePort_canon]

theorem execMemoryPortAdmit_canon {s : State} (hc : Canon s.mem) : AnswersIn Canon (execMemoryPortAdmit s) := by
  unfold execMemoryPortAdmit
  grind [AnswersIn, State.countHeld_mem, !State.portTry_canon]

theorem State.hostAccess_canon {s : State} (kind a : Nat) (mask : BitVec 32) (pay : List W256) (hc : Canon s.mem) :
    Canon (s.hostAccess kind a mask pay).mem := by
  unfold State.hostAccess
  grind [!State.portTry_canon]

theorem execHostMemWrite_canon (pa : BitVec 41) (mask : BitVec 32) (data : BitVec 256) {s : State} (hc : Canon s.mem) :
    AnswersIn Canon (execHostMemWrite pa mask data s) := by
  unfold execHostMemWrite
  grind [AnswersIn, State.hostAccess_canon]

theorem execHostMemRead_canon (pa : BitVec 41) {s : State} (hc : Canon s.mem) : AnswersIn Canon (execHostMemRead pa s) := by
  unfold execHostMemRead
  grind [AnswersIn, State.hostAccess_canon]

@[simp] theorem State.setChannel_mem (s : State) (n : Nat) (c : Channel) : (s.setChannel n c).mem = s.mem := rfl

@[simp] theorem State.repairLane_mem (s : State) (n lane cause : Nat) : (s.repairLane n lane cause).mem = s.mem := by
  unfold State.repairLane
  dsimp only
  (repeat' split) <;> simp

theorem execChannelRetrainComplete_mem (lane : BitVec 7) (tm vm : BitVec 8) (s : State) :
    AnswersIn (· = s.mem) (execChannelRetrainComplete lane tm vm s) := by
  unfold execChannelRetrainComplete
  dsimp only
  split
  · rfl
  · exact (foldl_keeps State.mem _ (fun _ _ => State.repairLane_mem ..) _ _).trans rfl

/-! ### The switch -/

@[simp] theorem State.swPop_mem (s : State) (c : Nat) : (s.swPop c).mem = s.mem := by
  unfold State.swPop
  (repeat' split) <;> simp

@[simp] theorem State.swPush_mem (s : State) (d : Nat) (w : NetWord) : (s.swPush d w).mem = s.mem := by
  unfold State.swPush
  (repeat' split) <;> simp

@[simp] theorem State.swMove_mem (s : State) (drop also : Option Nat) : (s.swMove drop also).mem = s.mem :=
  (foldl_keeps State.mem _ (fun _ _ => State.swPush_mem ..) _ _).trans (foldl_keeps State.mem _ (fun _ _ => State.swPop_mem ..) _ _)

theorem State.swStall_canon {s : State} (hc : Canon s.mem) : Canon s.swStall.mem := by
  unfold State.swStall
  grind [State.mRefuse_canon, State.pRefuse_mem]

theorem State.fire_canon {s : State} (cond : Bool) (after : Xbar → Xbar) (hc : Canon s.mem) : Canon (s.fire cond after).mem := by
  unfold State.fire
  grind [State.swStall_canon, State.swMove_mem, State.setXbar_mem]

theorem execSflip_canon {s : State} (hc : Canon s.mem) : AnswersIn Canon (execSflip s) := by
  unfold execSflip
  grind [AnswersIn, State.swStall_canon, State.setXbar_mem, State.swMove_mem, State.countStray_mem]

@[simp] theorem State.refund_mem (s : State) (t : Nat) (y : OnLink) : (s.refund t y).mem = s.mem := by
  unfold State.refund
  dsimp only
  (repeat' split) <;> rfl

/-! ### The end of residencies -/

@[simp] theorem State.completion_mem (s : State) (c : Cand) (status detail num : Nat) (d1 d2 : W64) :
    (s.completion c status detail num d1 d2).mem = s.mem := by simp [State.completion]

theorem State.freeBank_canon {s : State} (t n : Nat) (hc : Canon s.mem) : Canon (s.freeBank t n).mem := by
  unfold State.freeBank
  grind [State.setBank_mem, State.dropWay_mem, State.clearBank_canon]

theorem State.freeSlot_canon {s : State} (t n : Nat) (hc : Canon s.mem) : Canon (s.freeSlot t n).mem := Memory.clear_wf _ _ _ hc

@[simp] theorem State.freeSlice_mem (s : State) (t n : Nat) : (s.freeSlice t n).mem = s.mem := rfl

@[simp] theorem State.freeBarriers_mem (s : State) (r t : Nat) : (s.freeBarriers r t).mem = s.mem := rfl

@[simp] theorem State.removeMembers_mem (s : State) (r t : Nat) : (s.removeMembers r t).mem = s.mem := rfl

@[simp] theorem State.failMembers_mem (s : State) (r t : Nat) : (s.failMembers r t).mem = s.mem := by
  refine foldl_keeps State.mem _ (fun _ _ => ?_) ..
  simp

@[simp] theorem State.freePorts_mem (s : State) (t b : Nat) : (s.freePorts t b).mem = s.mem := rfl

theorem State.freeTile_canon {s : State} (r t : Nat) (hc : Canon s.mem) : Canon (s.freeTile r t).mem := by
  have hports (u : State) (b : Nat) :
      ((List.range 4).foldl (fun s q => s.setCtx ((t * 4 + q) * 4 + b) {}) (u.freePorts t b)).mem = u.mem :=
    (foldl_keeps State.mem _ (fun _ _ => State.setCtx_mem ..) _ _).trans (State.freePorts_mem ..)
  refine foldl_mem (P := Canon) ?_ (fun u b hu => (hports u b).symm ▸ hu) _
  refine foldl_mem (P := Canon) ?_ (fun _ _ hu => State.freeBank_canon _ _ hu) _
  refine foldl_mem (P := Canon) ?_ (fun _ _ hu => (State.freeSlice_mem ..).symm ▸ hu) _
  refine foldl_mem (P := Canon) ?_ (fun _ _ hu => State.freeSlot_canon _ _ hu) _
  refine foldl_mem (P := Canon) ?_ (fun _ _ hu => by exact hu) _
  simpa using hc

@[simp] theorem State.dropLoads_mem (s : State) (r : Nat) : (s.dropLoads r).mem = s.mem := by
  refine foldl_keeps State.mem _ (fun _ _ => ?_) ..
  simp

@[simp] theorem State.unbind_mem (s : State) (r : Residency) : (s.unbind r).mem = s.mem := by
  refine foldl_keeps State.mem _ (fun _ _ => ?_) ..
  simp

theorem State.freeRes_canon {s : State} (r : Residency) (hc : Canon s.mem) : Canon (s.freeRes r).mem := by
  have htiles : Canon ((s.regionTiles r).foldl (fun s t => (s.removeMembers r.num t).freeTile r.num t) s).mem :=
    foldl_mem (P := Canon) hc (fun _ _ hu => State.freeTile_canon _ _ ((State.removeMembers_mem ..).symm ▸ hu)) _
  unfold State.freeRes
  simpa using htiles

@[simp] theorem State.stopCopies_mem (s : State) (r t : Nat) : (s.stopCopies r t).mem = s.mem := by
  refine foldl_keeps State.mem _ (fun _ _ => ?_) ..
  simp

@[simp] theorem State.resetBarriers_mem (s : State) (r t : Nat) : (s.resetBarriers r t).mem = s.mem := by
  unfold State.resetBarriers
  dsimp only
  (repeat' split) <;> rfl

@[simp] theorem State.discardStep_mem (s : State) (r t step : Nat) : (s.discardStep r t step).mem = s.mem := by
  unfold State.discardStep
  grind [State.stopTile_mem, State.removeMembers_mem, State.stopCopies_mem, State.resetBarriers_mem]

theorem State.reportStep_canon {s : State} (t z : Nat) (hc : Canon s.mem) : Canon (s.reportStep t z).mem := by
  unfold State.reportStep
  grind [State.freeTile_canon, State.send_mem]

theorem execDiscardArrival_canon {s : State} (hc : Canon s.mem) : AnswersIn Canon (execDiscardArrival s) := by
  refine foldl_mem (P := Canon) ?_ (fun _ _ hu => State.reportStep_canon _ _ hu) _
  dsimp only
  rw [State.setTile_mem]
  split <;> simpa using hc

theorem execDiscard_mem (s : State) : AnswersIn (· = s.mem) (execDiscard s) := by
  unfold execDiscard
  grind [AnswersIn, State.sendStep_mem, State.post_mem]

theorem State.discardEnd_canon {s : State} (r : Residency) (hc : Canon s.mem) : Canon (s.discardEnd r).mem := by
  unfold State.discardEnd
  grind [State.freeRes_canon, State.completion_mem, State.setSched_mem, State.post_mem]

theorem execDiscardStepDone_canon {s : State} (hc : Canon s.mem) : AnswersIn Canon (execDiscardStepDone s) := by
  unfold execDiscardStepDone
  grind [AnswersIn, State.takeArrived_mem, State.setRes_mem, State.discardEnd_canon, State.sendStep_mem]

@[simp] theorem State.decideDiscard_mem (s : State) (r : Residency) (reason : Nat) : (s.decideDiscard r reason).mem = s.mem := rfl

theorem execFaultReport_mem (s : State) : AnswersIn (· = s.mem) (execFaultReport s) := by
  unfold execFaultReport
  grind [AnswersIn, State.decideFault_mem]

theorem execWatchdogExpiry_mem (s : State) : AnswersIn (· = s.mem) (execWatchdogExpiry s) := by
  unfold execWatchdogExpiry
  grind [AnswersIn, State.decideFault_mem, State.decideDiscard_mem]

theorem execResidencyEnd_canon {s : State} (hc : Canon s.mem) : AnswersIn Canon (execResidencyEnd s) := by
  unfold execResidencyEnd
  grind [AnswersIn, State.completion_mem, State.freeRes_canon]

theorem execCommitReply_mem (s : State) : AnswersIn (· = s.mem) (execCommitReply s) := by
  unfold execCommitReply
  grind [AnswersIn, State.takeArrived_mem, State.complete_mem, State.withCur_mem, State.mem_atCtx]

@[simp] theorem State.failDevice_mem (s : State) : s.failDevice.mem = s.mem := by
  refine (foldl_keeps State.mem _ (fun _ _ => State.decideFault_mem ..) _ _).trans ?_
  dsimp only
  split <;> simp

/-! ### The loader -/

@[simp] theorem State.putJob_mem (s : State) (j : LoadJob) : (s.putJob j).mem = s.mem := rfl

@[simp] theorem State.dropJob_mem (s : State) (id : Nat) : (s.dropJob id).mem = s.mem := rfl

theorem State.clearStores_canon {s : State} (t b : Nat) (hc : Canon s.mem) : Canon (s.clearStores t b).mem := by
  unfold State.clearStores
  grind [State.wipe_canon]

@[simp] theorem State.emptyShadow_mem (s : State) (t b : Nat) : (s.emptyShadow t b).mem = s.mem :=
  foldl_keeps State.mem (fun (s : State) q => s.setCtx ((t * 4 + q) * 4 + b) { s.ctx ((t * 4 + q) * 4 + b) with shadowCode := {} })
    (fun _ _ => State.setCtx_mem ..) _ _

theorem State.failLoad_canon {s : State} (j : LoadJob) (code idx : Nat) (hc : Canon s.mem) : Canon (s.failLoad j code idx).mem := by
  have hclaims (l : List Nat) : (l.foldl (fun s k => s.setTile (k / 16) ((s.tile (k / 16)).setTemplate (k % 16) {})) s).mem = s.mem :=
    foldl_keeps State.mem _ (fun _ _ => State.setTile_mem ..) _ _
  have hshadows (u : State) (l : List (Nat × Nat)) : (l.foldl (fun s p => s.emptyShadow p.1 p.2) u).mem = u.mem :=
    foldl_keeps State.mem _ (fun _ _ => State.emptyShadow_mem ..) _ _
  have hstores (l : List (Nat × Nat)) : Canon (l.foldl (fun s p => s.clearStores p.1 p.2) s).mem :=
    foldl_mem (P := Canon) hc (fun _ _ hu => State.clearStores_canon _ _ hu) _
  unfold State.failLoad
  dsimp only
  split
  · simpa using hc
  · split
    · rw [State.completion_mem, State.dropJob_mem]
      split
      · exact hc
      · rwa [hshadows, hclaims]
    · rw [State.completion_mem]
      exact State.freeRes_canon _ (hstores _)

/-- What a frame writes, if every check holds, has the canonical form. -/

def WroteCanon (w : Wrote) : Prop := ∀ u j, w = .ok (u, j) → Canon u.mem

@[simp] theorem wroteCanon_ok_iff {u : State} {j : LoadJob} : WroteCanon (.ok (u, j)) ↔ Canon u.mem :=
  ⟨fun h => h u j rfl, fun h _ _ e => by cases e; exact h⟩

theorem wroteCanon_ok {u : State} {j : LoadJob} (h : Canon u.mem) : WroteCanon (.ok (u, j)) := wroteCanon_ok_iff.2 h

@[simp] theorem wroteCanon_error (c : Nat) : WroteCanon (.error c) := by
  rintro _ _ ⟨⟩

theorem wroteCanon_ite {p : Prop} [Decidable p] {w x : Wrote} (hw : WroteCanon w) (hx : WroteCanon x) :
    WroteCanon (if p then w else x) := by
  split
  · exact hw
  · exact hx

/-- A fold over what may have failed goes on from what has been written. -/

theorem foldl_wroteCanon {α : Type} {f : Wrote → α → Wrote} {u : State} {j : LoadJob} (hu : Canon u.mem)
    (hok : ∀ v k x, Canon v.mem → WroteCanon (f (.ok (v, k)) x)) (l : List α)
    (herr : ∀ c x, f (.error c) x = .error c := by intros; rfl) : WroteCanon (l.foldl f (.ok (u, j))) := by
  refine List.foldlRecOn (motive := WroteCanon) _ _ (wroteCanon_ok hu) fun w hw x _ => ?_
  cases w with
  | error c => rw [herr]; exact wroteCanon_error c
  | ok y => exact hok _ _ _ (hw _ _ rfl)

theorem eachSpot_canon {u : State} {j : LoadJob} {f : State → LoadJob → Spot → Wrote} (hu : Canon u.mem)
    (hf : ∀ v k p, Canon v.mem → WroteCanon (f v k p)) (l : List Spot) : WroteCanon (eachSpot l (u, j) f) :=
  foldl_wroteCanon hu hf l

theorem State.frame_canon {s : State} {body : State → Residency → LoadJob → List Spot → Wrote} (hc : Canon s.mem)
    (hbody : ∀ r j l, WroteCanon (body s r j l)) (formOk isStart : Bool) : Canon (s.frame formOk isStart body).mem := by
  have hfail (j : LoadJob) (code idx : Nat) := State.failLoad_canon j code idx hc
  unfold State.frame
  (repeat' split)
  any_goals exact hc
  any_goals exact hfail ..
  rename_i hw _ _
  rw [State.putJob_mem]
  exact hbody _ _ _ _ _ hw

theorem State.layOut_canon {s : State} (shadow : Bool) (sizes : List Nat) (t b : Nat) (hc : Canon s.mem) :
    ∀ u, s.layOut shadow sizes t b = some u → Canon u.mem := by
  have hput (v : State) (k : Nat) (x y : Ctx) : (if x.resid = none then v else v.setCtx k y).mem = v.mem := by split <;> rfl
  intro u h
  unfold State.layOut at h
  dsimp only at h
  split at h
  · split at h
    · contradiction
    · obtain rfl := Option.some.inj h
      refine State.wipe_canon _ _ (foldl_mem (P := Canon) ?_ (fun _ _ hv => State.wipe_canon _ _ hv) _)
      rw [State.setXbar_mem]
      refine foldl_mem (P := Canon) (s := s.emptyShadow t b) ((State.emptyShadow_mem ..).symm ▸ hc) (fun v q hv => ?_) _
      rwa [hput]
  · split at h
    · contradiction
    · obtain rfl := Option.some.inj h
      refine foldl_mem (P := Canon) (s := s.clearStores t b) (State.clearStores_canon _ _ hc) (fun v q hv => ?_) _
      rwa [hput]

theorem execHeader_canon {s : State} (hc : Canon s.mem) : AnswersIn Canon (execHeader s) := by
  have hlaid (shadow : Bool) (sizes : List Nat) (l : List (Nat × Nat)) : ∀ u,
      l.foldl (fun (acc : Option State) p => acc.bind fun s => s.layOut shadow sizes p.1 p.2) (some s) = some u → Canon u.mem := by
    refine List.foldlRecOn (motive := fun o : Option State => ∀ u, o = some u → Canon u.mem) _ _ ?_ fun o ho p _ u h => ?_
    · rintro _ ⟨⟩
      exact hc
    · obtain ⟨v, hv, hu⟩ := Option.bind_eq_some_iff.1 h
      exact State.layOut_canon _ _ _ _ (ho v hv) u hu
  have hfail (j : LoadJob) (code idx : Nat) := State.failLoad_canon j code idx hc
  unfold execHeader
  dsimp only
  (repeat' split)
  any_goals exact hc
  any_goals exact hfail ..
  rename_i hlast
  rw [AnswersIn, State.putJob_mem]
  exact hlaid _ _ _ _ hlast

theorem execCode_canon {s : State} (hc : Canon s.mem) : AnswersIn Canon (execCode s) := by
  refine State.frame_canon hc (fun r j l => eachSpot_canon hc (fun u k p hu => ?_) _) ..
  refine foldl_wroteCanon hu (fun v k q hv => ?_) _
  dsimp only
  generalize (if k.shadow then _ else _ : Code) = c
  split
  · exact wroteCanon_error _
  · refine foldl_wroteCanon hv (fun x k i hx => ?_) _
    dsimp only
    split
    · exact wroteCanon_error _
    · exact wroteCanon_ok (Memory.writeN_wf _ _ _ _ hx)

theorem execSwitch_canon {s : State} (hc : Canon s.mem) : AnswersIn Canon (execSwitch s) := by
  refine State.frame_canon hc (fun r j l => ?_) ..
  dsimp only
  split
  · exact wroteCanon_error _
  · refine eachSpot_canon hc (fun u k p hu => ?_) _
    split
    · exact wroteCanon_error _
    · exact wroteCanon_ok (Memory.writeN_wf _ _ _ _ hu)

theorem execLink_canon {s : State} (hc : Canon s.mem) : AnswersIn Canon (execLink s) := by
  refine State.frame_canon hc (fun r j l => eachSpot_canon hc (fun u k p hu => ?_) _) ..
  dsimp only
  (repeat' split) <;> simpa using hu

theorem State.claimShare_canon {s : State} (hc : Canon s.mem) (r : Residency) (j : LoadJob) (l : List Spot) :
    WroteCanon (s.claimShare r j l) := by
  unfold State.claimShare
  dsimp only
  split
  · exact wroteCanon_error _
  · exact wroteCanon_ok (foldl_mem (P := Canon) hc (fun _ _ hu => foldl_mem (P := Canon) hu (fun _ _ hv => by exact hv) _) _)

theorem execBankClaim_canon {s : State} (hc : Canon s.mem) : AnswersIn Canon (execBankClaim s) := by
  refine State.frame_canon hc (fun r j l => wroteCanon_ite (State.claimShare_canon hc _ _ _)
    (wroteCanon_ite (wroteCanon_error _) (eachSpot_canon hc (fun u k p hu => ?_) _))) ..
  grind [wroteCanon_error, wroteCanon_ok, State.setBank_mem]

theorem State.writeScratch_canon {s : State} (t off n v : Nat) (hc : Canon s.mem) : Canon (s.writeScratch t off n v).mem :=
  foldl_mem (P := Canon) hc (fun _ _ hu => by exact Memory.write_wf _ _ _ hu) _

theorem execBankData_canon {s : State} (hc : Canon s.mem) : AnswersIn Canon (execBankData s) := by
  refine State.frame_canon hc (fun r j l => eachSpot_canon hc (fun u k p hu => ?_) _) ..
  split
  · exact wroteCanon_error _
  · exact wroteCanon_ok (State.writeScratch_canon _ _ _ _ hu)

theorem execTemplate_canon {s : State} (hc : Canon s.mem) : AnswersIn Canon (execTemplate s) := by
  refine State.frame_canon hc (fun r j l => eachSpot_canon hc (fun u k p hu => ?_) _) ..
  dsimp only
  split
  · exact wroteCanon_error _
  · refine wroteCanon_ok ?_
    split <;> exact hu

theorem execMatrix_canon {s : State} (hc : Canon s.mem) : AnswersIn Canon (execMatrix s) := by
  refine State.frame_canon hc (fun r j l => eachSpot_canon hc (fun u k p hu => ?_) _) ..
  dsimp only
  (repeat' split) <;> simpa using hu

theorem execStart_canon {s : State} (hc : Canon s.mem) : AnswersIn Canon (execStart s) := by
  refine State.frame_canon hc (fun r j l => eachSpot_canon hc (fun u k p hu => ?_) _) ..
  refine foldl_wroteCanon hu (fun v k q hv => ?_) _
  dsimp only
  (repeat' split) <;> simpa using hv

theorem State.armAll_mem (s : State) (r : Residency) (j : LoadJob) : ∀ u, s.armAll r j = some u → u.mem = s.mem := by
  intro u h
  unfold State.armAll at h
  dsimp only at h
  split at h
  · contradiction
  · cases h
    exact foldl_keeps State.mem _ (fun _ _ => State.setTile_mem ..) _ _

theorem State.lastChecks_canon {s : State} (r : Residency) (j : LoadJob) (hc : Canon s.mem) :
    ∀ u, s.lastChecks r j = .ok u → Canon u.mem := by
  have hwrite (off n v : Nat) {u : State} (hu : Canon u.mem) (l : List Nat) :
      Canon (l.foldl (fun s t => s.writeScratch t off n v) u).mem :=
    foldl_mem (P := Canon) hu (fun _ _ hv => State.writeScratch_canon _ _ _ _ hv) _
  intro u h
  unfold State.lastChecks at h
  dsimp only at h
  (repeat' split at h) <;> try contradiction
  · cases h
    exact hwrite _ _ _ ((State.armAll_mem _ _ _ _ ‹s.armAll r j = some _›).symm ▸ hc) _
  · cases h
    exact (State.armAll_mem _ _ _ _ ‹s.armAll r j = some _›).symm ▸ hc

@[simp] theorem State.startAll_mem (s : State) (r : Residency) : (s.startAll r).mem = s.mem := by
  refine foldl_keeps State.mem _ (fun _ _ => ?_) ..
  simp

theorem execLoadComplete_canon {s : State} (hc : Canon s.mem) : AnswersIn Canon (execLoadComplete s) := by
  have hready (u : State) (l : List (Nat × Nat)) : (l.foldl (fun s p =>
      s.setXbar (p.1 * 4 + p.2) { s.xbar (p.1 * 4 + p.2) with shadow := .ready }) u).mem = u.mem :=
    foldl_keeps State.mem _ (fun _ _ => State.setXbar_mem ..) _ _
  unfold execLoadComplete
  grind [AnswersIn, State.failLoad_canon, !State.lastChecks_canon, State.completion_mem, State.dropJob_mem, State.startAll_mem]

/-! ### The scheduler -/

@[simp] theorem State.setLaunchQueue_mem (s : State) (q : Nat) (x : LaunchQueue) : (s.setLaunchQueue q x).mem = s.mem := rfl

@[simp] theorem State.readRecord_mem (s : State) (c : Cand) (at_ : Option Nat) (got : AMap (Option W256)) :
    (s.readRecord c at_ got).2.2.mem = s.mem := by grind [State.readRecord, !State.readSectors_mem]

@[simp] theorem State.readCandidate_mem (s : State) (q : Nat) : (s.readCandidate q).mem = s.mem := by
  unfold State.readCandidate
  grind [State.setLaunchQueue_mem, !State.readRecord_mem]

@[simp] theorem State.takeCand_mem (s : State) (c : Cand) : (s.takeCand c).mem = s.mem := rfl

@[simp] theorem State.markOverdue_mem (s : State) (q : Nat) : (s.markOverdue q).mem = s.mem := rfl

@[simp] theorem State.reject_mem (s : State) : s.reject.mem = s.mem := by
  refine foldl_keeps State.mem _ (fun _ _ => ?_) ..
  (repeat' split) <;> simp

@[simp] theorem State.look_mem (s : State) : s.look.mem = s.mem :=
  (foldl_keeps State.mem State.markOverdue (fun _ _ => State.markOverdue_mem ..) _ _).trans
    ((State.reject_mem _).trans (foldl_keeps State.mem State.readCandidate (fun _ _ => State.readCandidate_mem ..) _ _))

@[simp] theorem State.openLanes_mem (s : State) (r : Residency) : (s.openLanes r).mem = s.mem := by
  refine foldl_keeps State.mem _ (fun _ _ => ?_) ..
  simp

@[simp] theorem State.bind_mem (s : State) (l : List (Nat × Nat × Nat)) : (s.bind l).mem = s.mem := by
  refine foldl_keeps State.mem _ (fun _ _ => ?_) ..
  simp

@[simp] theorem State.newLoad_mem (s : State) (r : Nat) (shadow : Bool) (c : Cand) : (s.newLoad r shadow c).mem = s.mem := rfl

@[simp] theorem State.readRun_mem (s : State) (c : Cand) : (s.readRun c).2.mem = s.mem := by
  unfold State.readRun
  grind [State.setSched_mem, !State.readSectors_mem]

theorem State.beginRun_canon {s : State} (n : Nat) (cut : Bool) (hc : Canon s.mem) : Canon (s.beginRun n cut).mem := by
  unfold State.beginRun
  grind [State.capture_canon, State.setRes_mem, State.decideFault_mem, State.post_mem]

theorem State.place_canon {s : State} (c : Cand) (x y : Nat) (banks : List Nat) (run : Option (Bool × List (Nat × W256)))
    (hc : Canon s.mem) : Canon (s.place c x y banks run).mem := by
  have hplaced (u : State) (tiles : List Nat) (ctx : Nat → Nat → Nat → Nat) (new : Nat → Ctx) :
      (tiles.foldl (fun s t => (List.range (s.coresOn t)).foldl (fun s q =>
        (List.range banks.length).foldl (fun s k => s.setCtx (ctx t q k) (new k)) s) s) u).mem = u.mem :=
    foldl_keeps State.mem _ (fun _ _ => foldl_keeps State.mem _ (fun _ _ =>
      foldl_keeps State.mem _ (fun _ _ => State.setCtx_mem ..) _ _) _ _) _ _
  unfold State.place
  dsimp only
  refine State.beginRun_canon _ _ ?_
  rw [State.newLoad_mem, State.bind_mem, State.openLanes_mem]
  dsimp only
  rw [hplaced]
  exact hc

@[simp] theorem State.unpick_mem (s : State) : s.unpick.mem = s.mem := rfl

theorem execLaunch_canon {s : State} (hc : Canon s.mem) : AnswersIn Canon (execLaunch s) := by
  unfold execLaunch
  grind [AnswersIn, !State.readRun_mem, State.place_canon, State.unpick_mem]

theorem execStop_mem (s : State) : AnswersIn (· = s.mem) (execStop s) := by
  unfold execStop
  grind [AnswersIn, State.completion_mem, State.unpick_mem, State.decideFault_mem, State.decideDiscard_mem]

@[simp] theorem State.setEventQueue_mem (s : State) (e : Nat) (x : EventQueue) : (s.setEventQueue e x).mem = s.mem := rfl

@[simp] theorem State.takeEvent_mem (s : State) : s.takeEvent.mem = s.mem := by
  unfold State.takeEvent
  dsimp only
  (repeat' split) <;> simp

theorem execEventRecordPost_canon {s : State} (hc : Canon s.mem) : AnswersIn Canon (execEventRecordPost s) := by
  unfold execEventRecordPost
  grind [AnswersIn, State.takeEvent_mem, !State.physWrite_canon, State.setSched_mem, State.setEventQueue_mem]

/-! ### Host writes to BAR0 -/

@[simp] theorem State.signalQueue0_mem (s : State) : s.signalQueue0.mem = s.mem := by
  unfold State.signalQueue0
  (repeat' split) <;> rfl

@[simp] theorem State.queueError_mem (s : State) (q code : Nat) : (s.queueError q code).mem = s.mem := by simp [State.queueError]

@[simp] theorem State.ringDoorbell_mem (s : State) (q : Nat) (v : BitVec 32) : (s.ringDoorbell q v).mem = s.mem := by
  unfold State.ringDoorbell
  dsimp only
  (repeat' split) <;> simp

@[simp] theorem State.launchCtrl_mem (s : State) (q : Nat) (v : BitVec 32) : (s.launchCtrl q v).mem = s.mem := by
  unfold State.launchCtrl
  dsimp only
  (repeat' split) <;> simp

@[simp] theorem State.eventCtrl_mem (s : State) (e : Nat) (v : BitVec 32) : (s.eventCtrl e v).mem = s.mem := rfl

@[simp] theorem State.writeConsumed_mem (s : State) (e : Nat) (v : BitVec 32) : (s.writeConsumed e v).mem = s.mem := rfl

@[simp] theorem State.writeDevnum_mem (s : State) (v : BitVec 8) : (s.writeDevnum v).mem = s.mem := by
  unfold State.writeDevnum
  (repeat' split) <;> rfl

@[simp] theorem State.writeRoute_mem (s : State) (d : Nat) (v : BitVec 8) : (s.writeRoute d v).mem = s.mem := by
  unfold State.writeRoute
  (repeat' split) <;> rfl

@[simp] theorem State.mailboxDone_mem (s : State) (err : Nat) : (s.mailboxDone err).mem = s.mem := by
  unfold State.mailboxDone
  dsimp only
  (repeat' split) <;> simp

@[simp] theorem State.go_mem (s : State) : s.go.mem = s.mem := by
  unfold State.go
  dsimp only
  (repeat' split) <;> simp

@[simp] theorem State.launchRegister_mem (s : State) (q o n : Nat) (v : W64) : (s.launchRegister q o n v).mem = s.mem := by
  unfold State.launchRegister
  dsimp only
  (repeat' split) <;> simp

@[simp] theorem State.eventRegister_mem (s : State) (e o n : Nat) (v : W64) : (s.eventRegister e o n v).mem = s.mem := by
  unfold State.eventRegister
  dsimp only
  (repeat' split) <;> rfl

@[simp] theorem State.windowRegister_mem (s : State) (w o n : Nat) (v : W64) : (s.windowRegister w o n v).mem = s.mem := by
  unfold State.windowRegister
  (repeat' split) <;> simp

@[simp] theorem State.barWrite_mem (s : State) (off n : Nat) (v : W64) : (s.barWrite off n v).mem = s.mem := by
  have hroutes (l : List Nat) : (l.foldl (fun s i => s.writeRoute (off - 0x3000 + i) (v.extractLsb' (8 * i) 8)) s).mem = s.mem :=
    foldl_keeps State.mem _ (fun _ _ => State.writeRoute_mem ..) _ _
  simp [State.barWrite, apply_ite State.mem, hroutes]

/-! ### Reset and power -/

@[simp] theorem State.slotEvents_mem (s : State) (stage : Nat) (l : List (Nat × Nat)) : (s.slotEvents stage l).mem = s.mem := by
  refine foldl_keeps State.mem _ (fun _ _ => ?_) ..
  simp

@[simp] theorem State.appendDefect_mem (s : State) (x : BitVec 64) : (s.appendDefect x).mem = s.mem := by
  unfold State.appendDefect
  dsimp only
  (repeat' split) <;> simp

@[simp] theorem State.appendDefects_mem (s : State) (failing : List Nat) : (s.appendDefects failing).mem = s.mem := by
  refine foldl_keeps State.mem _ (fun _ _ => ?_) ..
  simp

theorem State.writeDescriptor_canon {s : State} (hc : Canon s.mem) : Canon s.writeDescriptor.mem := by
  unfold State.writeDescriptor
  generalize s.descriptor = l
  exact List.foldlRecOn (motive := Canon) _ _ hc fun _ hm _ _ => Memory.writeN_wf _ _ _ _ hm

theorem State.restarted_canon {s : State} (hc : Canon s.mem) : Canon s.restarted.mem := Memory.filter_wf _ _ hc

@[simp] theorem State.reportUnserviceable_mem (s : State) : s.reportUnserviceable.mem = s.mem := rfl

theorem State.bootFrom_canon {s : State} (a b : Verified) (hc : Canon s.mem) : Canon (s.bootFrom a b).mem := by
  have hboot (c : Conf) (m : Mgmt) : Canon ({ ({ s with channels := s.mgmt.laneSpares } : State).appendDefects
      ((s.channels.filter fun e => e.2.failing).map Prod.fst) with conf := c, booted := true, mgmt := m } : State).writeDescriptor.mem :=
    State.writeDescriptor_canon (by simpa using hc)
  unfold State.bootFrom
  dsimp only
  split
  · simpa using hc
  · split
    · rw [State.mgmtEvent_mem, State.slotEvents_mem, State.slotEvents_mem]
      exact hboot _ _
    · rw [State.slotEvents_mem, State.slotEvents_mem]
      exact hboot _ _

theorem execDeviceReset_canon {s : State} (hc : Canon s.mem) : AnswersIn Canon (execDeviceReset s) := by
  have hrestarted := State.restarted_canon hc
  unfold execDeviceReset
  grind [AnswersIn, State.slotEvents_mem, State.bootFrom_canon]

@[simp] theorem State.correctWord_mem (s : State) (w : Nat) : (s.correctWord w).mem = s.mem := rfl

@[simp] theorem State.noteErrors_mem (s : State) : s.noteErrors.mem = s.mem := by
  refine foldl_keeps State.mem _ (fun _ _ => ?_) ..
  simp

/-! ### The management controller -/

theorem State.command_mem {P : Memory → Prop} {s : State} {f : State → (Nat → W64) → State} (hs : P s.mem)
    (hf : ∀ d, P (f s d).mem) (code len : Nat) : P (s.command code len f).mem := by
  unfold State.command
  split
  · exact hs
  · split
    · rwa [State.mailboxDone_mem]
    · exact hf _

@[simp] theorem State.respond_mem (s : State) (l : List W64) : (s.respond l).mem = s.mem := by simp [State.respond]

@[simp] theorem State.refuse_mem (s : State) : s.refuse.mem = s.mem := by simp [State.refuse]

@[simp] theorem State.shootDown_mem (s : State) (scope asid lo hi : Nat) : (s.shootDown scope asid lo hi).mem = s.mem := rfl

@[simp] theorem State.resumeSpill_mem (s : State) (x : SpillReq) : (s.resumeSpill x).mem = s.mem := by
  unfold State.resumeSpill
  dsimp only
  (repeat' split) <;> rfl

theorem execSpillresume_mem (s : State) : AnswersIn (· = s.mem) (execSpillresume s) := by
  refine State.command_mem (P := (· = s.mem)) rfl (fun d => ?_) ..
  dsimp only
  (repeat' split) <;> simp [State.decideFault_mem]

theorem execRowthresh_mem (s : State) : AnswersIn (· = s.mem) (execRowthresh s) := by
  refine State.command_mem (P := (· = s.mem)) rfl (fun d => ?_) ..
  dsimp only
  split
  · exact State.mailboxDone_mem ..
  · exact (State.mailboxDone_mem ..).trans (foldl_keeps State.mem _ (fun _ _ => State.setPort_mem ..) _ _)

theorem execEyecfg_mem (s : State) : AnswersIn (· = s.mem) (execEyecfg s) := by
  refine State.command_mem (P := (· = s.mem)) rfl (fun d => ?_) ..
  split <;> simp

theorem execPowercap_mem (s : State) : AnswersIn (· = s.mem) (execPowercap s) := by
  refine State.command_mem (P := (· = s.mem)) rfl (fun d => ?_) ..
  split <;> simp

theorem execSensorread_mem (s : State) : AnswersIn (· = s.mem) (execSensorread s) :=
  State.command_mem (P := (· = s.mem)) rfl (fun _ => State.respond_mem ..) ..

theorem execLogread_mem (s : State) : AnswersIn (· = s.mem) (execLogread s) :=
  State.command_mem (P := (· = s.mem)) rfl (fun _ => State.respond_mem ..) ..

theorem execAlmanacread_mem (s : State) : AnswersIn (· = s.mem) (execAlmanacread s) :=
  State.command_mem (P := (· = s.mem)) rfl (fun _ => State.respond_mem ..) ..

theorem execReplaycfg_canon {s : State} (hc : Canon s.mem) : AnswersIn Canon (execReplaycfg s) := by
  refine State.command_mem (P := Canon) hc (fun d => ?_) ..
  dsimp only
  split
  · rwa [State.refuse_mem]
  · rw [State.mailboxDone_mem]
    exact State.captWrite_canon _ hc

theorem execReplayload_mem (s : State) : AnswersIn (· = s.mem) (execReplayload s) := by
  refine State.command_mem (P := (· = s.mem)) rfl (fun d => ?_) ..
  dsimp only
  split <;> simp

@[simp] theorem State.spdm_mem (s : State) (req reply : List W64) : (s.spdm req reply).mem = s.mem := rfl

@[simp] theorem State.heatEvent_mem (s : State) (kind d : Nat) (p : Option Nat) : (s.heatEvent kind d p).mem = s.mem := by
  unfold State.heatEvent
  (repeat' split) <;> simp

@[simp] theorem State.levelEvent_mem (s : State) (old : Nat) (dies : List Nat) : (s.levelEvent old dies).mem = s.mem := by
  unfold State.levelEvent
  dsimp only
  (repeat' split) <;> simp

theorem execThrottleUpdate_mem (s : State) : AnswersIn (· = s.mem) (execThrottleUpdate s) := by
  have hheat (u : State) (kind : Nat) (p : State → Nat → Option Nat) (l : List Nat) :
      (l.foldl (fun s d => s.heatEvent kind d (p s d)) u).mem = u.mem :=
    foldl_keeps State.mem _ (fun _ _ => State.heatEvent_mem ..) _ _
  unfold execThrottleUpdate
  dsimp only
  split
  · exact (hheat ..).trans (State.levelEvent_mem ..)
  · exact (State.failDevice_mem _).trans ((hheat ..).trans ((hheat ..).trans (State.levelEvent_mem ..)))

/-! ### Vector instructions -/

theorem State.putLanes_mem (s : State) (d : BitVec 5) (k : BitVec 3) (g : Nat → FRes) : (s.putLanes d k g).AllMem (· = s.mem) := by
  simp [State.putLanes]

theorem State.putLanes_canon {s : State} (d : BitVec 5) (k : BitVec 3) (g : Nat → FRes) (hc : Canon s.mem) :
    (s.putLanes d k g).AllMem Canon := by
  simpa [State.putLanes] using hc

@[simp] theorem State.vint2_mem (s : State) (f : IntOp) (d a b : BitVec 5) (k : BitVec 3) (t : BitVec 2) :
    (s.vint2 f d a b k t).mem = s.mem :=
  State.issue_mem (P := (· = s.mem)) rfl (fun _ u hu => hu ▸ u.putLanes_mem ..) ..

@[simp] theorem State.vint1_mem (s : State) (f : IntOp) (d a : BitVec 5) (k : BitVec 3) (t : BitVec 2) : (s.vint1 f d a k t).mem = s.mem :=
  State.issue_mem (P := (· = s.mem)) rfl (fun _ u hu => hu ▸ u.putLanes_mem ..) ..

@[simp] theorem State.vint2s_mem (s : State) (f : IntOp) (d a b : BitVec 5) (im : BitVec 1) (k : BitVec 3) (t : BitVec 2) :
    (s.vint2s f d a b im k t).mem = s.mem := by
  unfold State.vint2s
  split <;> exact State.issue_mem (P := (· = s.mem)) rfl (fun _ u hu => hu ▸ u.putLanes_mem ..) ..

@[simp] theorem State.vflt2_mem (s : State) (f : Fmt → Nat → Nat → FRes) (d a b : BitVec 5) (k : BitVec 3) (t : BitVec 2) :
    (s.vflt2 f d a b k t).mem = s.mem :=
  State.issue_mem (P := (· = s.mem)) rfl (fun _ u hu => hu ▸ u.putLanes_mem ..) ..

@[simp] theorem State.vflt1_mem (s : State) (f : Fmt → Nat → FRes) (d a : BitVec 5) (k : BitVec 3) (t : BitVec 2) :
    (s.vflt1 f d a k t).mem = s.mem :=
  State.issue_mem (P := (· = s.mem)) rfl (fun _ u hu => hu ▸ u.putLanes_mem ..) ..

@[simp] theorem State.vflt3_mem (s : State) (sub : Bool) (d a b c : BitVec 5) (k : BitVec 3) (t : BitVec 2) :
    (s.vflt3 sub d a b c k t).mem = s.mem :=
  State.issue_mem (P := (· = s.mem)) rfl (fun _ u hu => hu ▸ u.putLanes_mem ..) ..

@[simp] theorem State.vpick_mem (s : State) (srcs : List Src) (vec : Nat → Bool) (d : BitVec 5) (k : BitVec 3)
    (f : Nat → Nat → (Nat → W256) → Nat → Nat) : (s.vpick srcs vec d k f).mem = s.mem :=
  State.issue_mem (P := (· = s.mem)) rfl (fun _ u hu => hu ▸ u.putLanes_mem ..) ..

@[simp] theorem State.vreduce_mem (s : State) (f : Nat → BitVec 2 → List Nat → FRes) (d a : BitVec 5) (k : BitVec 3) (t : BitVec 2) :
    (s.vreduce f d a k t).mem = s.mem :=
  State.issue_mem (P := (· = s.mem)) rfl (fun _ _ hu => by simpa using hu) ..

@[simp] theorem State.mask2_mem (s : State) (f : BitVec 32 → BitVec 32 → BitVec 32) (d a b : BitVec 3) : (s.mask2 f d a b).mem = s.mem :=
  State.issueS_mem (P := (· = s.mem)) rfl (fun _ _ hu => by simpa using hu) ..

/-! ### Every instruction -/

/-- Every instruction keeps the canonical form: by shape where it has one, else by the lemma of its own meaning. -/
theorem exec_canon (i : Instr) {s : State} (hc : Canon s.mem) : AnswersIn Canon (exec i s) := by
  cases i
  case add | sub | and | or | xor | andn | shl | shr | sar | rol | ror | min | max | minu | maxu | mul | mulh | mulhu | mulhsu | div |
      divu | rem | remu => exact canon_of_mem (State.alu2_mem ..) hc
  case adds | subs | addus | subus => exact canon_of_mem (State.aluSat_mem ..) hc
  case mov | sxb | sxh | sxw | zxb | zxh | zxw | clz | ctz | pcnt | addi | andi | ori | xori | shli | shri | sari | roli | rori =>
    exact canon_of_mem (State.alu1_mem ..) hc
  case lhi | cmp | cmpi | pnot | prds | pwrs | prdall | pwrall | sel | ipa | gtest | stdone | bget | knot | kset | kget | kcnt |
      tkpeek | tkpop | tksend | stake | crd | trap | cinvAll | brk | halt =>
    exact State.issueS_mem (P := Canon) hc (fun _ _ hu => by simpa using hu) ..
  case gcast | vcfg | wexport | wexportRv | cstat | cwr | potinit | wquiet | commit | wfi =>
    refine State.issueS_mem (P := Canon) hc (fun _ _ hu => ?_) ..
    (repeat' split) <;> simpa using hu
  case cflush | fence | stq | bspill | wload | cfire | cdis | eret =>
    refine State.issueS_mem (P := Canon) hc (fun _ _ hu => ?_) ..
    dsimp only
    (repeat' split) <;> simpa using hu
  case vmac | vcvt | vcvtw | vexp => exact State.issue_mem (P := Canon) hc (fun _ _ hu => State.putLanes_canon _ _ _ hu) ..
  case vdot | vcvtn | vcomp | vins | vext | vcmp | tkpopv | tksendv =>
    exact State.issue_mem (P := Canon) hc (fun _ _ hu => by simpa using hu) ..
  case hostRegisterWrite | shadowLoad | schedulerPlacement | preemptDiscard | commitRequest | asyncFaultArrival | asyncFaultDelivery |
      spillFault | firmwareUpdate | negotiateAlgorithms | sensorSample | positionFence | patrolScrub | rowPrecharge | eyeMarginLow |
      writeAcknowledgement | fabricNack | peerPacketArrival | staticWordArrival | creditReturn | flipAtStreamPort | fifoSpillRefill |
      triggerPop | copyStart | barrierEngineArrival | bwaitWake | groupHoldExpiry | groupOverdue | remoteCompletion | returnMessage |
      aggregatorSend | wquietWake | stealPassWait | stqNotify | wfiWake =>
    simp only [exec, execHostRegisterWrite, execShadowLoad, execSchedulerPlacement, execPreemptDiscard, execCommitRequest,
      execAsyncFaultArrival, execAsyncFaultDelivery, execSpillFault, execFirmwareUpdate, execNegotiateAlgorithms, execSensorSample,
      execPositionFence, execPatrolScrub, execRowPrecharge, execEyeMarginLow, execWriteAcknowledgement, execFabricNack,
      execPeerPacketArrival, execStaticWordArrival, execCreditReturn, execFlipAtStreamPort, execFifoSpillRefill, execTriggerPop,
      execCopyStart, execBarrierEngineArrival, execBwaitWake, execGroupHoldExpiry, execGroupOverdue, execRemoteCompletion,
      execReturnMessage, execAggregatorSend, execWquietWake, execStealPassWait, execStqNotify, execWfiWake]
    (repeat' split) <;> simpa [AnswersIn] using hc
  case hostSnoop | getVersion | getCertificate | challenge | getMeasurements | periodicRefresh | powerLoss => exact hc
  case pand | por | pxor | pandn => exact canon_of_mem (State.pred2_mem ..) hc
  case bt | bf => exact canon_of_mem (State.branch_mem ..) hc
  case vst | vstLo => exact State.vectorStore_canon _ _ _ _ hc
  case aswap | aadd | aand | aor | axor | amax | amin | amaxu => exact State.atom_canon _ _ _ _ _ _ hc
  case snext | sjump | sloop | sdbr | sbtag | swait | shalt => exact State.fire_canon _ _ hc
  case vld | vldLo => exact canon_of_mem (State.vectorLoad_mem ..) hc
  case vadd | vsub | vmul | vmulh | vmin | vmax | vadds | vsubs | vavg | vabsd | vand | vor | vxor | vandn | vshl | vshr | vdiv |
      vrem | vmuls => exact canon_of_mem (State.vint2_mem ..) hc
  case vneg | vabs => exact canon_of_mem (State.vint1_mem ..) hc
  case valusVadd | valusVsub | valusVmul | valusVmulh | valusVmin | valusVmax | valusVadds | valusVsubs | valusVavg | valusVabsd |
      valusVand | valusVor | valusVxor | valusVandn | valusVshl | valusVshr | valusVdiv | valusVrem | valusVmuls =>
    exact canon_of_mem (State.vint2s_mem ..) hc
  case vfadd | vfsub | vfmul | vfdiv | vfmin | vfmax | vfsgnj => exact canon_of_mem (State.vflt2_mem ..) hc
  case vfsqrt | vfrcp | vfrsqrt | vfexp2 | vflog2 | vfabs | vfneg => exact canon_of_mem (State.vflt1_mem ..) hc
  case vfma | vfms => exact canon_of_mem (State.vflt3_mem ..) hc
  case vperm | vslup | vsldn | vslupIm | vsldnIm | vzipl | vziph | vunzpe | vunzpo | vmov | vsplat | vsplati =>
    exact canon_of_mem (State.vpick_mem ..) hc
  case vrsum | vrmin | vrmax | vrand | vror | vrxor | vrfsum | vrsumw => exact canon_of_mem (State.vreduce_mem ..) hc
  case kand | kor | kxor | kandn => exact canon_of_mem (State.mask2_mem ..) hc
  case steer | tee | merge | fscan | fisect | funion | frep | fzip | fload | fred | fwrite =>
    exact canon_of_mem (State.issueStream_mem ..) hc
  case doorbell => exact canon_of_mem (State.ringDoorbell_mem ..) hc
  case injectionSubmit => exact canon_of_mem (State.submit_mem ..) hc
  case launchQueueEnable | launchQueueDisable => exact canon_of_mem (State.launchCtrl_mem ..) hc
  case eventQueueEnable | eventQueueDisable => exact canon_of_mem (State.eventCtrl_mem ..) hc
  case consumedWrite => exact canon_of_mem (State.writeConsumed_mem ..) hc
  case devnumWrite => exact canon_of_mem (State.writeDevnum_mem ..) hc
  case routeWrite => exact canon_of_mem (State.writeRoute_mem ..) hc
  case candidateOverdue => exact canon_of_mem (State.markOverdue_mem ..) hc
  case tlbinv | regload =>
    refine State.command_mem hc (fun _ => ?_) ..
    dsimp only
    (repeat' split) <;> simpa using hc
  case getCapabilities | getDigests => exact canon_of_mem (State.spdm_mem ..) hc
  case copyElementIssue => exact canon_of_mem (State.issueFirst_mem ..) hc
  case illegalInstruction | fetchFault => exact canon_of_mem (State.fault_mem ..) hc
  case jmp => exact (execJmp_mem ..).canon hc
  case call => exact (execCall_mem ..).canon hc
  case jr => exact (execJr_mem ..).canon hc
  case jalr => exact (execJalr_mem ..).canon hc
  case ld => exact (execLd_mem ..).canon hc
  case vgat => exact (execVgat_mem ..).canon hc
  case cinv => exact (execCinv_mem ..).canon hc
  case cpref => exact (execCpref_mem ..).canon hc
  case qpop => exact (execQpop_mem ..).canon hc
  case qpopv => exact (execQpopv_mem ..).canon hc
  case qcount => exact (execQcount_mem ..).canon hc
  case qtag => exact (execQtag_mem ..).canon hc
  case qdrop => exact (execQdrop_mem ..).canon hc
  case bset => exact (execBset_mem ..).canon hc
  case tkpeekQ => exact (execTkpeekQ_mem ..).canon hc
  case tkpopQ => exact (execTkpopQ_mem ..).canon hc
  case tkpopvQ => exact (execTkpopvQ_mem ..).canon hc
  case btag => exact (execBtag_mem ..).canon hc
  case btagQ => exact (execBtagQ_mem ..).canon hc
  case carm => exact (execCarm_mem ..).canon hc
  case binit => exact (execBinit_mem ..).canon hc
  case barr => exact (execBarr_mem ..).canon hc
  case bwait => exact (execBwait_mem ..).canon hc
  case btest => exact (execBtest_mem ..).canon hc
  case spawn => exact (execSpawn_mem ..).canon hc
  case send => exact (execSend_mem ..).canon hc
  case ret => exact (execRet_mem ..).canon hc
  case tdone => exact (execTdone_mem ..).canon hc
  case stop => exact (execStop_mem ..).canon hc
  case watchdogExpiry => exact (execWatchdogExpiry_mem ..).canon hc
  case commitReply => exact (execCommitReply_mem ..).canon hc
  case discard => exact (execDiscard_mem ..).canon hc
  case faultReport => exact (execFaultReport_mem ..).canon hc
  case throttleUpdate => exact (execThrottleUpdate_mem ..).canon hc
  case channelRetrainComplete => exact (execChannelRetrainComplete_mem ..).canon hc
  case tlbWalkComplete => exact (execTlbWalkComplete_mem ..).canon hc
  case accumulatorApply => exact (execAccumulatorApply_mem ..).canon hc
  case borrowRequest => exact (execBorrowRequest_mem ..).canon hc
  case borrowReply => exact (execBorrowReply_mem ..).canon hc
  case stealRequest => exact (execStealRequest_mem ..).canon hc
  case stealResponse => exact (execStealResponse_mem ..).canon hc
  case stqPacket => exact (execStqPacket_mem ..).canon hc
  case stqAnswer => exact (execStqAnswer_mem ..).canon hc
  case stdoneq => exact (execStdoneq_mem ..).canon hc
  case qpush => exact (execQpush_mem ..).canon hc
  case qpushv => exact (execQpushv_mem ..).canon hc
  case tksendQ => exact (execTksendQ_mem ..).canon hc
  case tksendvQ => exact (execTksendvQ_mem ..).canon hc
  case spillresume => exact (execSpillresume_mem ..).canon hc
  case rowthresh => exact (execRowthresh_mem ..).canon hc
  case eyecfg => exact (execEyecfg_mem ..).canon hc
  case powercap => exact (execPowercap_mem ..).canon hc
  case sensorread => exact (execSensorread_mem ..).canon hc
  case logread => exact (execLogread_mem ..).canon hc
  case replayload => exact (execReplayload_mem ..).canon hc
  case almanacread => exact (execAlmanacread_mem ..).canon hc
  case st => exact execSt_canon _ _ _ _ hc
  case vsct => exact execVsct_canon _ _ _ _ _ _ hc
  case cas => exact execCas_canon _ _ _ _ _ _ hc
  case stm => exact execStm_canon _ _ _ hc
  case mmq => exact execMmq_canon _ _ _ _ _ _ _ _ hc
  case accrd => exact execAccrd_canon _ _ _ _ _ hc
  case accclr => exact execAccclr_canon _ _ _ hc
  case hostMemWrite => exact execHostMemWrite_canon _ _ _ hc
  case deviceReset => exact execDeviceReset_canon hc
  case hostMemRead => exact execHostMemRead_canon _ hc
  case launch => exact execLaunch_canon hc
  case header => exact execHeader_canon hc
  case code => exact execCode_canon hc
  case switch => exact execSwitch_canon hc
  case bankClaim => exact execBankClaim_canon hc
  case bankData => exact execBankData_canon hc
  case template => exact execTemplate_canon hc
  case link => exact execLink_canon hc
  case matrix => exact execMatrix_canon hc
  case start => exact execStart_canon hc
  case loadComplete => exact execLoadComplete_canon hc
  case residencyEnd => exact execResidencyEnd_canon hc
  case discardArrival => exact execDiscardArrival_canon hc
  case discardStepDone => exact execDiscardStepDone_canon hc
  case eventRecordPost => exact execEventRecordPost_canon hc
  case memoryPortAdmit => exact execMemoryPortAdmit_canon hc
  case loadResponse => exact execLoadResponse_canon hc
  case fabricRequest => exact execFabricRequest_canon hc
  case routerPacket => exact execRouterPacket_canon hc
  case streamStep => exact execStreamStep_canon hc
  case bankModeChangeEffect => exact execBankModeChangeEffect_canon hc
  case copyReadReturn => exact execCopyReadReturn_canon hc
  case copyComplete => exact execCopyComplete_canon hc
  case matrixRequestToken => exact execMatrixRequestToken_canon hc
  case remoteMatrixRequest => exact execRemoteMatrixRequest_canon hc
  case aFetchComplete => exact execAFetchComplete_canon hc
  case groupIssue => exact execGroupIssue_canon hc
  case rowLeaveLane => exact execRowLeaveLane_canon hc
  case wloadWrite => exact execWloadWrite_canon hc
  case psumPacket => exact execPsumPacket_canon hc
  case activeMessageArrival => exact execActiveMessageArrival_canon hc
  case sflip => exact execSflip_canon hc
  case replaycfg => exact execReplaycfg_canon hc

/-! ### The turns of a core -/

@[simp] theorem State.stopUpset_mem (s : State) : s.stopUpset.mem = s.mem := by simp [State.stopUpset]

@[simp] theorem State.latch_mem (s : State) : s.latch.mem = s.mem := rfl

@[simp] theorem State.haltedFlip_mem (s : State) : s.haltedFlip.mem = s.mem := by
  unfold State.haltedFlip
  split
  · split
    · exact getD_mem (P := (· = s.mem)) rfl (s.flipCore_mem _)
    · rfl
  · rfl

theorem tryContext_canon {s : State} (hc : Canon s.mem) : AnswersIn Canon (tryContext s) := by
  unfold tryContext
  grind [AnswersIn, !exec_canon, State.stopUpset_mem, State.latch_mem, State.haltedFlip_mem]

theorem tryBanks_canon {s : State} (t q n b : Nat) (hc : Canon s.mem) : AnswersIn Canon (tryBanks s t q n b) := by
  induction n generalizing s b with
  | zero => exact hc
  | succ n ih =>
    have h := tryContext_canon (s := { s with cur := { t := t, q := q, b := b % 4 }, issued := false }) hc
    unfold tryBanks
    grind [AnswersIn, State.setCore_mem]

theorem coreTurn_canon {s : State} (p : Cur) (late : Bool) (hc : Canon s.mem) : AnswersIn Canon (coreTurn s p late) := by
  unfold coreTurn
  grind [AnswersIn, !tryBanks_canon]

@[simp] theorem State.latchSwitch_mem (s : State) : s.latchSwitch.mem = s.mem := rfl

theorem switchTurn_canon {s : State} (hc : Canon s.mem) : AnswersIn Canon (switchTurn s) := by
  unfold switchTurn
  grind [AnswersIn, State.reportTile_mem, State.setXbar_mem, State.latchSwitch_mem, !exec_canon]

theorem frameTurn_canon {s : State} (hc : Canon s.mem) : AnswersIn Canon (frameTurn s) := by
  unfold frameTurn
  grind [AnswersIn, !exec_canon, !State.physRead_mem, State.failLoad_canon]

/-! ### The turns of a cycle -/

theorem State.beginCycle_canon {s : State} (hc : Canon s.mem) : Canon s.beginCycle.mem := by
  unfold State.beginCycle
  grind [State.noteErrors_mem, State.failDevice_mem, State.flushCapture_canon]

theorem runTurn_canon (t : Turn) {s : State} (hc : Canon s.mem) : AnswersIn Canon (runTurn t s) := by
  unfold runTurn
  grind [AnswersIn, !coreTurn_canon, !switchTurn_canon, !frameTurn_canon, !exec_canon]

theorem darkStep_canon {s : State} (hc : Canon s.mem) : AnswersIn Canon (darkStep s) := by
  unfold darkStep
  grind [AnswersIn, !exec_canon]

theorem liveStep_canon {s : State} (hc : Canon s.mem) : AnswersIn Canon (liveStep s) := by
  unfold liveStep
  grind [AnswersIn, State.beginCycle_canon, !runTurn_canon]

/-! ### One step -/

/-- One step keeps the canonical form of memory (R93). -/
theorem step_canon {s : State} (hc : Canon s.mem) : AnswersIn Canon (step s) := by
  unfold step
  grind [AnswersIn, !liveStep_canon, !darkStep_canon]

/-- Settles O59: every step of a state in canonical form answers a state in it (`step_canon`). -/
theorem memoryKept : Obligations.MemoryKept := by
  unfold Obligations.MemoryKept
  intro s t hs ht
  have h := step_canon (s := s) hs
  rw [ht] at h
  exact h

end Sys2Proof.Machine

namespace Sys2Proof.Machine

/-! ## Rounding gives back the bits of a number (O19) -/

theorem ilog2_mul_two_pow {m : Nat} (hm : m ≠ 0) (k : Nat) : ilog2 (m * 2 ^ k) = ilog2 m + k := by
  rw [ilog2, ilog2, Nat.log2_eq_iff (by positivity), pow_add, pow_add, pow_add]
  have hlo := Nat.log2_self_le hm
  have hhi := Nat.lt_log2_self (n := m)
  constructor
  · exact Nat.mul_le_mul_right _ hlo
  · rw [pow_succ] at hhi
    nlinarith [Nat.two_pow_pos k]

/-- A shift that loses no bit rounds nothing. -/
theorem roundShift_mul_two_pow (neg : Bool) (m k mode : Nat) : roundShift neg (m * 2 ^ k) k mode = (m, false) := by
  simp [roundShift]

/-- A bit string is its sign, its exponent field and its fraction (R110). -/
theorem Fmt.bits_eq {F : Fmt} {x : Nat} (hx : x < 2 ^ F.width) :
    x = F.zero (decide (x / 2 ^ (F.eb + F.fb) % 2 = 1)) + x / 2 ^ F.fb % 2 ^ F.eb * 2 ^ F.fb + x % 2 ^ F.fb := by
  have hfrac := Nat.div_add_mod' x (2 ^ F.fb)
  have hfield := Nat.div_add_mod' (x / 2 ^ F.fb) (2 ^ F.eb)
  rw [Nat.div_div_eq_div_mul, ← pow_add, Nat.add_comm F.fb] at hfield
  have hsign : x / 2 ^ (F.eb + F.fb) < 2 := by
    rw [Nat.div_lt_iff_lt_mul (by positivity), ← pow_succ']
    rwa [Fmt.width, show 1 + F.eb + F.fb = F.eb + F.fb + 1 by omega] at hx
  have hzero : F.zero (decide (x / 2 ^ (F.eb + F.fb) % 2 = 1)) = x / 2 ^ (F.eb + F.fb) * 2 ^ F.eb * 2 ^ F.fb := by
    rw [Nat.mod_eq_of_lt hsign, Nat.mul_assoc, ← pow_add]
    interval_cases x / 2 ^ (F.eb + F.fb) <;> simp [Fmt.zero]
  rw [hzero, ← Nat.add_mul, hfield, hfrac]

/-- The bits that hold a number: a fraction alone at the least exponent, or a significand with its leading bit (R110). -/
theorem Fmt.num_of_read {F : Fmt} {x : Nat} {n : Bool} {m : Nat} {e : Int} (hx : x < 2 ^ F.width) (h : F.read x = .num n m e) :
    (m < 2 ^ F.fb ∧ e = F.emin - F.fb ∧ x = F.zero n + m) ∨
    ∃ ex fr : Nat, 0 < ex ∧ ex < 2 ^ F.eb - 1 ∧ fr < 2 ^ F.fb ∧ m = 2 ^ F.fb + fr ∧ e = ex - F.bias - F.fb ∧
      x = F.zero n + ex * 2 ^ F.fb + fr := by
  have hbits := Fmt.bits_eq hx
  have hfr : x % 2 ^ F.fb < 2 ^ F.fb := Nat.mod_lt _ (by positivity)
  have hex : x / 2 ^ F.fb % 2 ^ F.eb < 2 ^ F.eb := Nat.mod_lt _ (by positivity)
  unfold Fmt.read at h
  dsimp only at h
  split at h
  next => split at h <;> cases h
  next hmax =>
    split at h
    next hzero =>
      cases h
      rw [hzero, Nat.zero_mul, Nat.add_zero] at hbits
      exact .inl ⟨hfr, rfl, hbits⟩
    next hpos =>
      cases h
      exact .inr ⟨_, _, Nat.pos_of_ne_zero hpos, by omega, hfr, rfl, rfl, hbits⟩

/-- A significand that already stands at its quantum (R119) rounds to itself, also when its value is written with `k` more bits. -/
theorem Fmt.round_of_quantum {F : Fmt} {m : Nat} {e : Int} (c : Ctl) (n : Bool) (k : Nat) (hc : c.flush = false) (hm : m ≠ 0)
    (hlt : m < 2 ^ (F.fb + 1)) (hq : max (ilog2 m + e) F.emin - F.fb = e) :
    F.round c n (m * 2 ^ k) (e - k) =
      if m < 2 ^ F.fb then (F.zero n + m, 0)
      else if ((2 ^ F.eb - 1 : Nat) : Int) ≤ e + F.fb + F.bias then F.overflow c n
      else (F.zero n + (e + F.fb + F.bias).toNat * 2 ^ F.fb + (m - 2 ^ F.fb), 0) := by
  have hquantum : max ((ilog2 (m * 2 ^ k) : Nat) + (e - k)) F.emin - F.fb = e := by
    rw [ilog2_mul_two_pow hm, Nat.cast_add, show (ilog2 m : Int) + k + (e - k) = ilog2 m + e by ring, hq]
  have hshift : (if e ≤ e - k then (m * 2 ^ k * 2 ^ (e - k - e).toNat, false) else roundShift n (m * 2 ^ k) (e - (e - k)).toNat c.mode) =
      (m, false) := by
    split
    · obtain rfl : k = 0 := by omega
      simp
    · rw [show (e - (e - k)).toNat = k by omega, roundShift_mul_two_pow]
  unfold Fmt.round
  rw [if_neg (by positivity)]
  dsimp only
  rw [hquantum, hshift]
  simp [hc, hlt.ne]

/-- Rounding the value that bits hold gives those bits back and no flag, in every mode, also when it is written with `k` more bits. -/
theorem Fmt.round_of_read {F : Fmt} {x : Nat} {n : Bool} {m : Nat} {e : Int} (hx : x < 2 ^ F.width) (h : F.read x = .num n m e)
    (c : Ctl) (hc : c.flush = false) (k : Nat) : F.round c n (m * 2 ^ k) (e - k) = (x, 0) := by
  obtain ⟨hm, he, hbits⟩ | ⟨ex, fr, hpos, hmax, hfr, rfl, he, hbits⟩ := Fmt.num_of_read hx h
  · by_cases hz : m = 0
    · simp [Fmt.round, hz, hbits]
    · have hlog : ilog2 m < F.fb := (Nat.log2_lt hz).2 hm
      rw [Fmt.round_of_quantum c n k hc hz (by rw [pow_succ]; omega) (by omega), if_pos hm, hbits]
  · have hlog : ilog2 (2 ^ F.fb + fr) = F.fb := by
      rw [ilog2, Nat.log2_eq_iff (by positivity), pow_succ]; omega
    have hemin : F.emin = 1 - F.bias := rfl
    have hexp : e + F.fb + F.bias = ex := by omega
    rw [Fmt.round_of_quantum c n k hc (by positivity) (by rw [pow_succ]; omega) (by rw [hlog]; omega), if_neg (by omega),
      hexp, if_neg (by omega), Int.toNat_natCast, Nat.add_sub_cancel_left, ← hbits]

/-- Every number's exponent is at least that of the subnormals. -/
theorem Fmt.le_exponent_of_read {F : Fmt} {x : Nat} {n : Bool} {m : Nat} {e : Int} (hx : x < 2 ^ F.width) (h : F.read x = .num n m e) :
    F.emin - F.fb ≤ e := by
  obtain ⟨-, he, -⟩ | ⟨ex, -, hpos, -, -, -, he, -⟩ := Fmt.num_of_read hx h
  · exact he.ge
  · rw [he, Fmt.emin]; omega

/-- What the bits of a zero hold. -/
theorem Fmt.read_zero {F : Fmt} (n : Bool) (heb : 0 < F.eb) : F.read (F.zero n) = .num n 0 (F.emin - F.fb) := by
  have hmax : 0 ≠ 2 ^ F.eb - 1 := by have := Nat.pow_le_pow_right (n := 2) (by decide) heb; omega
  cases n
  · simp [Fmt.read, Fmt.zero, hmax]
  · simp [Fmt.read, Fmt.zero, hmax, pow_add, Nat.mul_mod_left]

/-- Rounding an integer with a sign: a zero takes that sign as well. -/
theorem Fmt.rneInt_signed (F : Fmt) (n : Bool) (a : Nat) (e : Int) :
    F.rneInt n (if n then -(a : Int) else a) e = F.rne n a e := by
  by_cases ha : a = 0
  · simp [Fmt.rneInt, Fmt.rne, Fmt.round, ha]
  · have hpos : 0 < a := Nat.pos_of_ne_zero ha
    cases n <;> simp [Fmt.rneInt, ha, hpos, (Int.natCast_nonneg a).not_gt]

/-- The exact sum of a number and a zero of no greater exponent is the number, at that exponent. -/
theorem addExact_zero (n s : Bool) (m : Nat) {e e' : Int} (h : e' ≤ e) :
    addExact n m e s 0 e' = (if n then -((m * 2 ^ (e - e').toNat : Nat) : Int) else (m * 2 ^ (e - e').toNat : Nat), e') := by
  simp [addExact, min_eq_right h]

/-- Adding −0 to a number changes nothing. -/
theorem fAdd_negZero {F : Fmt} (heb : 0 < F.eb) {x : Nat} {n : Bool} {m : Nat} {e : Int} (hx : x < 2 ^ F.width)
    (h : F.read x = .num n m e) : fAdd F (.num n m e) (F.read (F.zero true)) = (x, 0) := by
  have hle := Fmt.le_exponent_of_read hx h
  have hround := Fmt.round_of_read hx h {} rfl (e - (F.emin - F.fb)).toNat
  rw [show e - ((e - (F.emin - F.fb)).toNat : Int) = F.emin - F.fb by omega] at hround
  rw [Fmt.read_zero true heb, fAdd, addExact_zero n true m hle, Bool.and_true, Fmt.rneInt_signed]
  exact hround

/-- Numbers by `Fmt.round_of_read`; the special operands by the branches of the operations (R113). -/
theorem floatRounding : Parts.FloatRounding := by
  intro F hF
  have heb : 0 < F.eb := by
    simp only [List.mem_cons, List.not_mem_nil, or_false] at hF
    obtain rfl | rfl | rfl := hF <;> decide
  refine ⟨fun x hx n m e h mode _ => ?_, fun x hx n m e h => fAdd_negZero heb hx h, fun n u v e => ⟨rfl, ?_⟩, fun n m e u e' hm => ?_⟩
  · simpa using Fmt.round_of_read hx h { mode := mode } rfl 0
  · cases v <;> rfl
  · simp [fDiv, hm, flOverflow]

/-! ## The lanes of a vector result -/

theorem Ctx.laneW_mul_laneN (c : Ctx) : c.laneW * c.laneN = 256 := by
  have hcode := (c.vcfg.extractLsb' 0 2).isLt
  unfold Ctx.laneN Ctx.laneW
  interval_cases (c.vcfg.extractLsb' 0 2).toNat <;> rfl

theorem Ctx.half_laneW_mul (c : Ctx) : c.laneW / 2 * (2 * c.laneN) = 256 := by
  have heven : 2 ∣ c.laneW := Dvd.dvd.mul_right (by decide) _
  rw [← Nat.mul_assoc, Nat.div_mul_cancel heven, c.laneW_mul_laneN]

theorem lane_lt (x : W256) (w l : Nat) : lane x w l < 2 ^ w := Nat.mod_lt _ (by positivity)

@[simp] theorem lane_zero (w l : Nat) : lane 0#256 w l = 0 := by simp [lane]

theorem ofLanes_lt (w : Nat) (f : Nat → Nat) (n : Nat) : ofLanes w f n < 2 ^ (w * n) := by
  induction n with
  | zero => simp [ofLanes]
  | succ n ih =>
    have hl : f n % 2 ^ w + 1 ≤ 2 ^ w := Nat.mod_lt _ (by positivity)
    calc ofLanes w f (n + 1) < (f n % 2 ^ w + 1) * 2 ^ (w * n) := by rw [ofLanes]; linarith
      _ ≤ 2 ^ w * 2 ^ (w * n) := Nat.mul_le_mul_right _ hl
      _ = 2 ^ (w * (n + 1)) := by rw [← pow_add]; congr 1; ring

/-- Reading a lane of the number that lanes make up. -/
theorem ofLanes_div (w : Nat) (f : Nat → Nat) {n l : Nat} (h : l < n) : ofLanes w f n / 2 ^ (w * l) % 2 ^ w = f l % 2 ^ w := by
  induction n with
  | zero => omega
  | succ n ih =>
    rw [ofLanes]
    obtain rfl | hlt := Nat.eq_or_lt_of_le (Nat.le_of_lt_succ h)
    · rw [Nat.add_mul_div_right _ _ (by positivity), Nat.div_eq_of_lt (ofLanes_lt w f l), Nat.zero_add, Nat.mod_mod]
    · obtain ⟨j, rfl⟩ := Nat.exists_eq_add_of_lt hlt
      rw [show f (l + j + 1) % 2 ^ w * 2 ^ (w * (l + j + 1)) = f (l + j + 1) % 2 ^ w * 2 ^ (w * j) * 2 ^ w * 2 ^ (w * l) by
          rw [mul_assoc, mul_assoc, ← pow_add, ← pow_add]; congr 2; ring,
        Nat.add_mul_div_right _ _ (by positivity), Nat.add_mul_mod_self_right, ih hlt]

/-- Reading a lane of a vector that fits in 256 bits. -/
theorem lane_vecOf {w n l : Nat} (f : Nat → Nat) (hfit : w * n ≤ 256) (h : l < n) : lane (vecOf w n f) w l = f l % 2 ^ w := by
  have hlt : ofLanes w f n < 2 ^ 256 := (ofLanes_lt w f n).trans_le (Nat.pow_le_pow_right (by decide) hfit)
  rw [lane, vecOf, BitVec.toNat_ofNat, Nat.mod_eq_of_lt hlt, ofLanes_div w f h]

theorem State.keepLane_mod (s : State) (d : BitVec 5) (w l : Nat) : s.keepLane d w l % 2 ^ w = s.keepLane d w l :=
  Nat.mod_eq_of_lt (by unfold State.keepLane; split; exacts [by positivity, lane_lt ..])

theorem State.keepLane_eq (s : State) (d : BitVec 5) (w l : Nat) :
    s.keepLane d w l = if s.me.zm ∨ 27 ≤ d.toNat then 0 else lane (s.me.v d.toNat) w l := by
  unfold State.keepLane State.oldV
  by_cases hz : s.me.zm <;> by_cases hd : 27 ≤ d.toNat <;> simp [hz, hd]

/-- A masked result has its new lanes where the mask is set, and keeps the others (R245). -/
theorem State.lanes_masked (s : State) (d : BitVec 5) (k : BitVec 3) (f : Nat → Nat) :
    Claims.lanes s d k f (s.masked d k s.me.laneW s.me.laneN f) := by
  intro l hl
  rw [State.masked, lane_vecOf _ s.me.laneW_mul_laneN.le hl, ← State.keepLane_eq]
  split
  · rfl
  · exact s.keepLane_mod ..

theorem laneFlags_getLsbD (m : BitVec 32) (g : Nat → BitVec 6) (n j : Nat) :
    (laneFlags m g n).getLsbD j = true ↔ ∃ l, l < n ∧ m.getLsbD l = true ∧ (g l).getLsbD j = true := by
  induction n with
  | zero => simp [laneFlags]
  | succ n ih =>
    have hstep : laneFlags m g (n + 1) = if m.getLsbD n then laneFlags m g n ||| g n else laneFlags m g n := by
      simp [laneFlags, List.range_succ]
    simp only [Nat.lt_succ_iff_lt_or_eq, or_and_right, exists_or, exists_eq_left, hstep, ← ih]
    by_cases hn : m.getLsbD n <;> simp [hn]

/-- The flags of a lane-wise result are the union over the active lanes. -/
theorem State.union_laneFlags (s : State) (k : BitVec 3) (g : Nat → BitVec 6) :
    Claims.union s k g (laneFlags (s.me.k k.toNat) g s.me.laneN) :=
  fun j => laneFlags_getLsbD _ _ _ j

/-- A ready lane-wise instruction of a legal width completes: each active lane holds its function's bits, and the flags are gathered
over the active lanes. -/
theorem State.exec_putLanes (s : State) {i : Instr} {srcs : List Src} {vec : Nat → Bool} {d : BitVec 5} {k : BitVec 3} {width : Ctx → Bool}
    {body : (Nat → W256) → State → Res} {g : Nat → FRes} (hi : exec i s = .next (s.issue 4 srcs vec [d] width body))
    (h : s.ready srcs [d] = true) (hw : width s.me = false) (hbody : body (s.operand srcs vec) s = s.putLanes d k g) :
    ∃ v f, exec i s = .next (((s.putV d v).flags f).finish 4 srcs) ∧ Claims.lanes s d k (fun l => (g l).1) v ∧
      Claims.union s k (fun l => (g l).2) f := by
  refine ⟨_, _, ?_, s.lanes_masked d k _, s.union_laneFlags k _⟩
  rw [hi, s.issue_ready _ _ _ _ _ _ h hw, hbody]
  rfl

/-! ## Conversions of vectors (O19) -/

/-- The vector with one half given lane by lane and the other half that of the old destination (R253). -/
def State.narrowed (s : State) (d : BitVec 5) (h : BitVec 1) (k : BitVec 3) (g : Nat → FRes) : W256 :=
  vecOf (s.me.laneW / 2) (2 * s.me.laneN) fun j =>
    let l := j - h.toNat * s.me.laneN
    if h.toNat * s.me.laneN ≤ j ∧ l < s.me.laneN then
      (if (s.me.k k.toNat).getLsbD l then (g l).1 else s.keepLane d (s.me.laneW / 2) j)
    else lane (s.oldV d) (s.me.laneW / 2) j

section
variable (s : State) (d : BitVec 5) (h : BitVec 1) (k : BitVec 3) (g : Nat → FRes) {l : Nat}

theorem State.narrowed_other (hl : l < s.me.laneN) :
    lane (s.narrowed d h k g) (s.me.laneW / 2) ((1 - h.toNat) * s.me.laneN + l) =
      lane (s.oldV d) (s.me.laneW / 2) ((1 - h.toNat) * s.me.laneN + l) := by
  have hh : h.toNat = 0 ∨ h.toNat = 1 := by have := h.isLt; omega
  rw [State.narrowed, lane_vecOf _ s.me.half_laneW_mul.le (by rcases hh with hh | hh <;> rw [hh] <;> omega)]
  dsimp only
  rw [if_neg (by rcases hh with hh | hh <;> rw [hh] <;> omega), Nat.mod_eq_of_lt (lane_lt ..)]

theorem State.narrowed_half (hl : l < s.me.laneN) :
    lane (s.narrowed d h k g) (s.me.laneW / 2) (h.toNat * s.me.laneN + l) =
      if (s.me.k k.toNat).getLsbD l then (g l).1 % 2 ^ (s.me.laneW / 2)
      else if s.me.zm then 0 else lane (s.oldV d) (s.me.laneW / 2) (h.toNat * s.me.laneN + l) := by
  have hle : h.toNat * s.me.laneN ≤ 1 * s.me.laneN := Nat.mul_le_mul_right _ (by have := h.isLt; omega)
  rw [State.narrowed, lane_vecOf _ s.me.half_laneW_mul.le (by omega)]
  dsimp only
  rw [Nat.add_sub_cancel_left, if_pos ⟨Nat.le_add_right .., hl⟩]
  split
  · rfl
  · exact s.keepLane_mod ..

end

theorem exec_vcvt (d a : BitVec 5) (x : BitVec 2) (k : BitVec 3) (t : BitVec 2) (s : State) :
    exec (.vcvt d a x k t) s = execVcvt d a x k t s := rfl
theorem exec_vcvtn (d a : BitVec 5) (x : BitVec 2) (h : BitVec 1) (k : BitVec 3) (t : BitVec 2) (s : State) :
    exec (.vcvtn d a x h k t) s = execVcvtn d a x h k t s := rfl
theorem exec_vcvtw (d a : BitVec 5) (x : BitVec 2) (h : BitVec 1) (k : BitVec 3) (t : BitVec 2) (s : State) :
    exec (.vcvtw d a x h k t) s = execVcvtw d a x h k t s := rfl

/-- The narrow shape writes its half lane by lane and gathers the flags of its active lanes. -/
theorem exec_vcvtn_ready {s : State} {d a : BitVec 5} {x t : BitVec 2} (h : BitVec 1) (k : BitVec 3) (hr : s.ready [rd a] [d] = true)
    (ht : convType t.toNat s.me.laneW = true) (hx : convType x.toNat (s.me.laneW / 2) = true) :
    let g (l : Nat) := convertAs (convOf s.me.conv) t.toNat s.me.laneW x.toNat (s.me.laneW / 2)
      (lane (s.operand [rd a] (fun _ => true) 0) s.me.laneW l)
    exec (.vcvtn d a x h k t) s = .next (((s.putV d (s.narrowed d h k g)).flags
      (laneFlags (s.me.k k.toNat) (fun l => (g l).2) s.me.laneN)).finish 4 [rd a]) := by
  rw [exec_vcvtn, execVcvtn, s.issue_ready _ _ _ _ _ _ hr (by simp [ht, hx])]
  rfl

/-- The three shapes of R253: two lane-wise ones, and the narrow one with its other half. -/
theorem vectorConversion : Parts.VectorConversion := by
  intro s d a x h k t hr
  refine ⟨fun ht hx => ?_, fun ht hx => ?_, fun ht hx => ?_⟩
  · exact s.exec_putLanes (exec_vcvt ..) hr (by simp [ht, hx]) rfl
  · exact ⟨_, _, exec_vcvtn_ready h k hr ht hx, s.union_laneFlags k _,
      fun l hl => ⟨s.narrowed_other d h k _ hl, s.narrowed_half d h k _ hl⟩⟩
  · exact s.exec_putLanes (exec_vcvtw ..) hr (by simp [ht, hx]) rfl

/-- Settles O19: rounding by `Fmt.round_of_read`, the lane-wise conversions by `State.exec_putLanes`, the narrow one by its two halves. -/
theorem vectorRounding : Obligations.VectorRounding := ⟨floatRounding, vectorConversion⟩

end Sys2Proof.Machine

namespace Sys2Proof.Machine

/-! ## What a matrix node keeps and admits (R132, R145, R146) -/

/-- What a residency that is neither captured nor replayed does is captured nowhere (R390). -/
theorem State.capture_noReplay {s : State} {r : Nat} (h : Claims.noReplay s r) (e : Capt) : s.capture r e = s := by
  have hnone : s.captureOf r = none := by
    unfold State.captureOf
    cases hr : s.findRes r with
    | none => rfl
    | some x =>
      obtain ⟨-, hx | hx⟩ := h x hr
      · simp [hx]
      · cases hc : x.capture <;> simp [hc, hx]
  simp [State.capture, hnone]

/-- A request that joins a group is a member of one with its key (R146). -/
theorem State.joinGroup_member (s : State) (t : Nat) (q : MReq) :
    ∃ g ∈ ((s.joinGroup t q).node t).groups, q ∈ g.members ∧ g.slot = q.slot ∧ g.gen = q.gen ∧ g.af = MTok.af q.tok ∧
      g.d = MTok.d q.tok := by
  unfold State.joinGroup
  simp only [State.node_setNode_self]
  split
  · exact ⟨_, List.mem_append_right _ (List.mem_singleton_self _), by simp⟩
  · rename_i g hg
    have hkey := List.find?_some hg
    simp only [Bool.and_eq_true, beq_iff_eq] at hkey
    obtain ⟨⟨⟨⟨⟨-, hslot⟩, hgen⟩, haf⟩, hd⟩, -⟩ := hkey
    split
    · refine ⟨_, List.mem_map.2 ⟨g, List.mem_of_find?_eq_some hg, if_pos rfl⟩, ?_⟩
      simp [hslot, hgen, haf, hd]
    · exact ⟨_, List.mem_append_right _ (List.mem_singleton_self _), by simp⟩

/-- A request of a slot of the tile in turn as its node admits it: with its number, the slot's generation and the cycle (R132, R145). -/
def State.admitted (s : State) (q : MReq) (id tid : Nat) : MReq :=
  { q with id := id, tid := tid, gen := ((s.node s.cur.t).slot q.slot).gen, admitted := s.cycle }

/-- Admission takes numbers of the node, and of the tile for rows that go out in packets, and joins a group (R141, R146). -/
theorem State.takeIn_eq_joinGroup {s : State} {q : MReq} (h : Claims.noReplay s q.resid) :
    ∃ (u : State) (id tid : Nat), s.takeIn s.cur.t q = u.joinGroup s.cur.t (s.admitted q id tid) ∧ u.mem = s.mem ∧ u.ctxs = s.ctxs ∧
      u.cur = s.cur := by
  have hjoins (n : Nat × State) (hn : Claims.noReplay (n.2.newId s.cur.t).2 q.resid) (e : Capt) :
      ((n.2.newId s.cur.t).2.capture q.resid e).joinGroup s.cur.t (s.admitted q (n.2.newId s.cur.t).1 n.1) =
        (n.2.newId s.cur.t).2.joinGroup s.cur.t (s.admitted q (n.2.newId s.cur.t).1 n.1) := by
    rw [State.capture_noReplay hn]
  unfold State.takeIn
  dsimp only
  split
  · exact ⟨_, _, _, hjoins (q.tid, s) h _, rfl, rfl, rfl⟩
  · exact ⟨_, _, _, hjoins (s.newTid s.cur.t) h _, rfl, rfl, rfl⟩

/-- Admission to the node of the tile in turn changes no byte and no context, and puts the request in a group (R145, R146). -/
theorem State.takeIn_grouped {s : State} {q : MReq} (h : Claims.noReplay s q.resid) :
    ∃ id tid, (s.takeIn s.cur.t q).mem = s.mem ∧ (s.takeIn s.cur.t q).ctxs = s.ctxs ∧ (s.takeIn s.cur.t q).cur = s.cur ∧
      Claims.grouped s (s.takeIn s.cur.t q) (s.admitted q id tid) := by
  obtain ⟨u, id, tid, hjoin, hmem, hctxs, hcur⟩ := State.takeIn_eq_joinGroup h
  obtain ⟨g, hg, hq, hslot, hgen, haf, hd⟩ := u.joinGroup_member s.cur.t (s.admitted q id tid)
  rw [hjoin]
  exact ⟨id, tid, hmem, hctxs, hcur, g, hg, hq, hslot, hgen, haf, hd, rfl, rfl⟩

/-- Whether a request waits in a group is a matter of the nodes, the tile in turn and the cycle. -/
theorem grouped_congr {s s' u u' : State} {q : MReq} (hcur : s'.cur = s.cur) (hcycle : s'.cycle = s.cycle) (hnodes : s'.nodes = s.nodes)
    (hnodes' : u'.nodes = u.nodes) (h : Claims.grouped s u q) : Claims.grouped s' u' q := by
  unfold Claims.grouped State.node at *
  rwa [hcur, hcycle, hnodes, hnodes']

/-! ## How an instruction without ports ends -/

theorem State.me_congr {s u : State} (hctxs : u.ctxs = s.ctxs) (hcur : u.cur = s.cur) : u.me = s.me := by
  rw [State.me, State.ctx, hctxs, hcur]
  rfl

theorem State.mem_finish (s : State) (len : Nat) (srcs : List Src) : (s.finish len srcs).mem = s.mem := s.popPorts_mem _

theorem State.nodes_finish_nil (s : State) (len : Nat) : (s.finish len []).nodes = s.nodes := rfl

/-- The context of an instruction that ends retires. -/
theorem State.me_finish (s : State) (len : Nat) (srcs : List Src) : (s.finish len srcs).me = s.me.retire len := by
  rw [State.finish, State.me_used, State.me_setMe, State.popPorts_me]

/-- So does that of a matrix instruction, which counts as one of its requests (R390). -/
theorem State.me_finish_counted {s u : State} (hctxs : u.ctxs = s.countReq.ctxs) (hcur : u.cur = s.cur) (len : Nat) :
    (u.finish len []).me = { s.me.retire len with reqSeq := s.me.reqSeq + 1 } := by
  rw [State.me_finish, State.me_congr hctxs hcur, State.countReq, State.me_setMe]
  rfl

/-- A matrix request of the context in turn, as its instruction ends: it waits in a group, and is counted (R146, R390). -/
theorem State.takeIn_counted {s : State} {q : MReq} (h : Claims.noReplay s q.resid) :
    ∃ id tid, ((s.countReq.takeIn s.cur.t q).finish 8 []).mem = s.mem ∧
      ((s.countReq.takeIn s.cur.t q).finish 8 []).me = { s.me.retire 8 with reqSeq := s.me.reqSeq + 1 } ∧
      Claims.grouped s ((s.countReq.takeIn s.cur.t q).finish 8 []) (s.admitted q id tid) := by
  obtain ⟨id, tid, hmem, hctxs, hcur, hgroup⟩ := State.takeIn_grouped (s := s.countReq) h
  exact ⟨id, tid, (State.mem_finish ..).trans hmem, State.me_finish_counted hctxs hcur 8, grouped_congr rfl rfl rfl (State.nodes_finish_nil _ _) hgroup⟩

/-! ## Exporting a slot (R133, R281) -/

theorem exec_wexport (a : BitVec 5) (n : BitVec 3) (s : State) : exec (.wexport a n) s = execWexport a n s := rfl
theorem exec_wexportRv (n : BitVec 3) (s : State) : exec (.wexportRv n) s = execWexportRv n s := rfl

/-- There are more keys than a slot has issued, so that a new one is not zero and none of them (R133). -/
theorem freshKey_spec (l : List (BitVec 32)) (k : BitVec 32) (h : l.length < 2 ^ 32 - 1) : freshKey l k ≠ 0 ∧ freshKey l k ∉ l := by
  unfold freshKey
  split
  · rename_i hk
    exact ⟨hk.1, by simpa using hk.2⟩
  · let keys := (List.range (l.length + 1)).map fun i => BitVec.ofNat 32 (i + 1)
    have hval (i : Nat) (hi : i < l.length + 1) : (BitVec.ofNat 32 (i + 1)).toNat = i + 1 := by
      rw [BitVec.toNat_ofNat]; omega
    have hnodup : keys.Nodup := by
      refine List.Nodup.map_on (fun i hi j hj hij => ?_) List.nodup_range
      have := congrArg BitVec.toNat hij
      rw [hval i (List.mem_range.1 hi), hval j (List.mem_range.1 hj)] at this
      omega
    have hpos (j : BitVec 32) (hj : j ∈ keys) : j ≠ 0 := by
      obtain ⟨i, hi, rfl⟩ := List.mem_map.1 hj
      exact fun h => absurd ((hval i (List.mem_range.1 hi)).symm.trans (congrArg BitVec.toNat h)) (by simp)
    cases hfind : keys.find? fun j => !l.contains j with
    | none =>
      have hall : ∀ j ∈ keys, j ∈ l := by simpa using List.find?_eq_none.1 hfind
      have hlen := (hnodup.subperm hall).length_le
      simp [keys] at hlen
    | some j => exact ⟨hpos j (List.mem_of_find?_eq_some hfind), by simpa using List.find?_some hfind⟩

/-- A `wexport` of a slot that is not the residency's, and of a high half, faults; no other does (R281). -/
theorem State.exportFault_unowned {s : State} {n : Nat} (h : s.ownsSlot s.cur.t (s.me.resid.getD 0) n = false) :
    s.exportFault n = some (matrixTrap 0x32) := if_pos h

theorem State.exportFault_high {s : State} {n : Nat} (h : s.ownsSlot s.cur.t (s.me.resid.getD 0) n = true)
    (hf : (s.node s.cur.t).pendFmt n = .hi) : s.exportFault n = some (matrixTrap 0x33) := by
  simp [State.exportFault, h, hf]

theorem State.exportFault_none {s : State} {n : Nat} (h : s.ownsSlot s.cur.t (s.me.resid.getD 0) n = true)
    (hf : (s.node s.cur.t).pendFmt n ≠ .hi) : s.exportFault n = none := by
  simp [State.exportFault, h, hf]

theorem exec_wexport_fault {s : State} {a : BitVec 5} {n : BitVec 3} {e : Trap} (hr : s.ready [] [a] = true)
    (he : s.exportFault n.toNat = some e) : exec (.wexport a n) s = .next (s.fault e) := by
  simp only [exec_wexport, execWexport, s.issueS_ready _ _ _ _ hr, he, State.conclude_trap]

theorem exec_wexportRv_fault {s : State} {n : BitVec 3} {e : Trap} (hr : s.ready [] [] = true)
    (he : s.exportFault n.toNat = some e) : exec (.wexportRv n) s = .next (s.fault e) := by
  simp only [exec_wexportRv, execWexportRv, s.issueS_ready _ _ _ _ hr, he, State.conclude_trap]

/-- R133, R281: exports hand out new keys, revocation ends them. -/
theorem weightExports : Parts.WeightExports := by
  intro s a n
  refine ⟨fun hr => ⟨fun hown => exec_wexport_fault hr (State.exportFault_unowned hown),
      fun hown hhi => exec_wexport_fault hr (State.exportFault_high hown hhi), fun hown hhi hlen => ?_⟩,
    fun hr => ⟨fun hown => exec_wexportRv_fault hr (State.exportFault_unowned hown), fun hown hhi => ?_⟩⟩
  · obtain ⟨hpos, hnew⟩ := freshKey_spec _ (Config.exportKey s.free) hlen
    refine ⟨_, hpos, hnew, ?_⟩
    simp only [exec_wexport, execWexport, s.issueS_ready _ _ _ _ hr, State.exportFault_none hown hhi, State.conclude_ok]
  · simp only [exec_wexportRv, execWexportRv, s.issueS_ready _ _ _ _ hr, State.exportFault_none hown hhi, State.conclude_ok]

/-! ## Requests of the own tile (R135, R137, R283) -/

theorem exec_mmq (a b c d : BitVec 5) (h f v : BitVec 1) (k : BitVec 28) (s : State) :
    exec (.mmq a b c d h f v k) s = execMmq a b c d h f v k s := rfl

/-- The bits of the upper part of two joined words, and of the lower. -/
theorem getLsbD_append_upper {n m : Nat} (x : BitVec n) (y : BitVec m) (i : Nat) : (x ++ y).getLsbD (m + i) = x.getLsbD i := by
  rw [BitVec.getLsbD_append, if_neg (by omega), Nat.add_sub_cancel_left]

theorem getLsbD_append_lower {n m : Nat} (x : BitVec n) (y : BitVec m) {i : Nat} (h : i < m) : (x ++ y).getLsbD i = y.getLsbD i := by
  rw [BitVec.getLsbD_append, if_pos h]

/-- The word of a request by its fields (R135): control bits, barrier, handle and queue flags, slot or handle, address, destination. -/
def requestWord (k : BitVec 28) (v : BitVec 1) (bar : BitVec 15) (h f : BitVec 1) (hd ad ds : W64) : W256 :=
  0#4 ++ k ++ v ++ bar ++ h ++ f ++ 0#14 ++ hd ++ ad ++ ds

section
variable (k : BitVec 28) (v : BitVec 1) (bar : BitVec 15) (h f : BitVec 1) (hd ad ds : W64) {i : Nat}

theorem requestWord_control (hi : i < 28) : (requestWord k v bar h f hd ad ds).getLsbD (224 + i) = k.getLsbD i := by
  rw [show 224 + i = 64 + (64 + (64 + (14 + (1 + (1 + (15 + (1 + i))))))) by omega]
  simp only [requestWord, getLsbD_append_upper, getLsbD_append_lower _ _ hi]

theorem requestWord_handle : (requestWord k v bar h f hd ad ds).getLsbD 207 = h.getLsbD 0 := by
  rw [show 207 = 64 + (64 + (64 + (14 + (1 + 0)))) from rfl]
  simp only [requestWord, getLsbD_append_upper, getLsbD_append_lower _ _ Nat.zero_lt_one]

theorem requestWord_slot (hi : i < 64) : (requestWord k v bar h f hd ad ds).getLsbD (128 + i) = hd.getLsbD i := by
  rw [show 128 + i = 64 + (64 + i) by omega]
  simp only [requestWord, getLsbD_append_upper, getLsbD_append_lower _ _ hi]

end
/-- Bits 246 and 245 of a token are its priority; another priority changes no other bit (R135). -/
theorem MTok.getLsbD_withPrio (k : MTok) (p i : Nat) :
    (MTok.withPrio k p).getLsbD i = if i = 245 ∨ i = 246 then p.testBit (i - 245) else k.getLsbD i := by
  have hmask : (BitVec.ofNat 256 (3 * 2 ^ 245)).getLsbD i = decide (i = 245 ∨ i = 246) := by
    rw [BitVec.getLsbD_ofNat, Nat.testBit_mul_two_pow, show 3 = 2 ^ 2 - 1 from rfl, Nat.testBit_two_pow_sub_one, ← Bool.decide_and,
      ← Bool.decide_and]
    exact decide_eq_decide.2 (by omega)
  have hnew : (BitVec.ofNat 256 (p % 4 * 2 ^ 245)).getLsbD i = (decide (i = 245 ∨ i = 246) && p.testBit (i - 245)) := by
    rw [BitVec.getLsbD_ofNat, Nat.testBit_mul_two_pow, show 4 = 2 ^ 2 from rfl, Nat.testBit_mod_two_pow, ← Bool.and_assoc,
      ← Bool.and_assoc, ← Bool.decide_and, ← Bool.decide_and, decide_eq_decide.2 (?_ : _ ↔ i = 245 ∨ i = 246)]
    omega
  rw [MTok.withPrio, BitVec.getLsbD_or, BitVec.getLsbD_and, BitVec.getLsbD_not, hmask, hnew]
  by_cases hi : i = 245 ∨ i = 246
  · simp [hi]
  · by_cases hlt : i < 256
    · simp [hi, hlt]
    · simp [hi, BitVec.getLsbD_of_ge k i (by omega)]

theorem MTok.prio_withPrio (k : MTok) (p : Nat) : MTok.prio (MTok.withPrio k p) = p % 4 := by
  have hbits : (MTok.withPrio k p).extractLsb' 245 2 = BitVec.ofNat 2 p := by
    ext i hi
    rw [BitVec.getElem_extractLsb', MTok.getLsbD_withPrio, if_pos (by omega), Nat.add_sub_cancel_left, ← BitVec.getLsbD_eq_getElem,
      BitVec.getLsbD_ofNat]
    simp [hi]
  rw [MTok.prio, hbits, BitVec.toNat_ofNat]

/-- A field of a token that lies below its priority is the same after another priority (R135). -/
theorem MTok.extract_withPrio (k : MTok) (p : Nat) {a n : Nat} (h : a + n ≤ 245) :
    (MTok.withPrio k p).extractLsb' a n = k.extractLsb' a n := by
  ext i hi
  rw [BitVec.getElem_extractLsb', BitVec.getElem_extractLsb', MTok.getLsbD_withPrio, if_neg (by omega)]

section
variable (x : Ctx) (a b c d : BitVec 5) (f v : BitVec 1) (k : BitVec 28)

/-- The token of `mmq` by slot number: its control word, the slot, and a priority that PRIO bounds (R283). -/
theorem Ctx.mmqToken_eq : ∃ (bar : BitVec 15) (ad ds : W64), x.mmqToken a b c d 0 f v k =
    MTok.withPrio (requestWord k v bar 0 f (a.setWidth 64) ad ds) (min (k.extractLsb' 21 2).toNat x.prio.toNat) := by
  have hprio (bar : BitVec 15) (hd ad ds : W64) :
      MTok.prio (requestWord k v bar 0 f hd ad ds) = (k.extractLsb' 21 2).toNat := by
    refine congrArg BitVec.toNat (BitVec.eq_of_getLsbD_eq fun i hi => ?_)
    simp only [BitVec.getLsbD_extractLsb', hi, decide_true, Bool.true_and]
    rw [show 245 + i = 224 + (21 + i) by omega, requestWord_control _ _ _ _ _ _ _ _ (by omega)]
  have hword : ∃ (bar : BitVec 15) (ad ds : W64), x.mmqToken a b c d 0 f v k =
      MTok.withPrio (requestWord k v bar 0 f (a.setWidth 64) ad ds)
        (min (MTok.prio (requestWord k v bar 0 f (a.setWidth 64) ad ds)) x.prio.toNat) := ⟨_, _, _, rfl⟩
  simpa only [hprio] using hword

/-- Its control bits are bits 251 to 224, but for the priority (R135, R283). -/
theorem Ctx.mmqToken_control {i : Nat} (hi : i < 28) (h1 : i ≠ 21) (h2 : i ≠ 22) :
    (x.mmqToken a b c d 0 f v k).getLsbD (224 + i) = k.getLsbD i := by
  obtain ⟨bar, ad, ds, h⟩ := x.mmqToken_eq a b c d f v k
  rw [h, MTok.getLsbD_withPrio, if_neg (by omega), requestWord_control _ _ _ _ _ _ _ _ hi]

theorem Ctx.mmqToken_prio : MTok.prio (x.mmqToken a b c d 0 f v k) = min (k.extractLsb' 21 2).toNat x.prio.toNat := by
  obtain ⟨bar, ad, ds, h⟩ := x.mmqToken_eq a b c d f v k
  rw [h, MTok.prio_withPrio, Nat.mod_eq_of_lt (by omega)]

theorem Ctx.mmqToken_isHandle : MTok.isHandle (x.mmqToken a b c d 0 f v k) = false := by
  obtain ⟨bar, ad, ds, h⟩ := x.mmqToken_eq a b c d f v k
  rw [h, MTok.isHandle, MTok.getLsbD_withPrio, if_neg (by decide), requestWord_handle]
  rfl

theorem Ctx.mmqToken_slot : MTok.slot (x.mmqToken a b c d 0 f v k) = a.toNat % 8 := by
  have hslot : (x.mmqToken a b c d 0 f v k).extractLsb' 128 3 = a.setWidth 3 := by
    obtain ⟨bar, ad, ds, h⟩ := x.mmqToken_eq a b c d f v k
    refine BitVec.eq_of_getLsbD_eq fun i hi => ?_
    rw [h, BitVec.getLsbD_extractLsb', MTok.getLsbD_withPrio, if_neg (by omega), requestWord_slot _ _ _ _ _ _ _ _ (by omega)]
    simp [hi, show i < 64 by omega]
  rw [MTok.slot, x.mmqToken_isHandle, hslot, BitVec.toNat_setWidth]
  rfl

end

/-- The check that a request of the own tile fails is the cause of its fault (R137, R283). -/
theorem State.mmqFault_check {s : State} {k : MTok} {e : Nat} (hk : MTok.isHandle k = false)
    (he : s.mCheck s.cur.t (s.me.resid.getD 0) false k = some e) (bar : Option W64) : s.mmqFault k bar = some (matrixTrap e) := by
  simp [State.mmqFault, hk, he]

/-- So is an A address that is not one of a sector (R283). -/
theorem State.mmqFault_misaligned {s : State} {k : MTok} (hk : MTok.isHandle k = false)
    (hc : s.mCheck s.cur.t (s.me.resid.getD 0) false k = none) (hs : MTok.src k = 0) (ha : (MTok.addr k).toNat % 32 ≠ 0)
    (bar : Option W64) : s.mmqFault k bar = some ⟨0x18, MTok.addr k, 0⟩ := by
  simp [State.mmqFault, hk, hc, hs, ha]

section
variable {s : State} {a b c d : BitVec 5} {f v : BitVec 1} {k : BitVec 28} (hr : s.ready [] [] = true)
include hr

theorem exec_mmq_fault {e : Trap}
    (he : s.mmqFault (s.me.mmqToken a b c d 0 f v k) (if v = 1#1 then some (s.me.s d.toNat) else none) = some e) :
    exec (.mmq a b c d 0 f v k) s = .next (s.fault e) := by
  simp only [exec_mmq, execMmq, s.issueS_ready _ _ _ _ hr, he, State.conclude_trap]

/-- Without a free entry an `mmq` waits; with one its request is admitted, under the PRIO and HOLD of its context (R145, R283). -/
theorem exec_mmq_slot (he : s.mmqFault (s.me.mmqToken a b c d 0 f v k) (if v = 1#1 then some (s.me.s d.toNat) else none) = none) :
    exec (.mmq a b c d 0 f v k) s = .next (if (s.node s.cur.t).hasEntry = false then s else
      (s.countReq.takeIn s.cur.t (s.newReq (s.me.mmqToken a b c d 0 f v k))).finish 8 []) := by
  have hlimits (u : State) (t : Nat) : u.handleLimits t (s.newReq (s.me.mmqToken a b c d 0 f v k)) = s.newReq (s.me.mmqToken a b c d 0 f v k) :=
    if_neg (Bool.eq_false_iff.1 (Ctx.mmqToken_isHandle ..))
  simp only [exec_mmq, execMmq, s.issueS_ready _ _ _ _ hr, he, hlimits, Ctx.mmqToken_isHandle, true_or, if_true]
  by_cases hroom : (s.node s.cur.t).hasEntry = false
  · rw [if_pos (show (s.countReq.node s.cur.t).hasEntry = false from hroom), if_pos hroom]
    rfl
  · rw [if_neg (show ¬ (s.countReq.node s.cur.t).hasEntry = false from hroom), if_neg hroom]
    rfl

end

/-- R283: requests of the own tile. -/
theorem matrixRequests : Parts.MatrixRequests := by
  intro s a b c d f v k hr
  refine ⟨fun i hi h1 h2 => Ctx.mmqToken_control _ _ _ _ _ _ _ _ hi h1 h2, Ctx.mmqToken_prio .., Ctx.mmqToken_isHandle ..,
    Ctx.mmqToken_slot .., fun e he => exec_mmq_fault hr (State.mmqFault_check (Ctx.mmqToken_isHandle ..) he _),
    fun hc hs ha => exec_mmq_fault hr (State.mmqFault_misaligned (Ctx.mmqToken_isHandle ..) hc hs ha _), fun he hreplay => ⟨fun hroom => ?_, fun hroom => ?_⟩⟩
  · rw [exec_mmq_slot hr he, if_pos hroom]
  · obtain ⟨id, tid, hmem, hme, hgroup⟩ := State.takeIn_counted (q := s.newReq (s.me.mmqToken a b c d 0 f v k)) hreplay
    rw [exec_mmq_slot hr he, if_neg (by simp [hroom])]
    exact ⟨_, s.admitted (s.newReq (s.me.mmqToken a b c d 0 f v k)) id tid, rfl, hmem, hme, rfl, rfl, rfl, rfl, hgroup⟩

/-- Settles O37: the exports by `freshKey_spec`, the requests by `exec_mmq_slot` and `State.takeIn_counted`. -/
theorem matrixInstructions : Obligations.MatrixInstructions := ⟨weightExports, matrixRequests⟩

end Sys2Proof.Machine

namespace Sys2Proof.Machine

/-! ## O38. A PSUM packet that cannot be read -/

theorem exec_psumPacket (s : State) : exec .psumPacket s = execPsumPacket s := rfl

/-- A PSUM packet of one row of zeros for row 0 of slice 0, of residency 1, whose poison mask is zero; it bears the mark of a packet that
could not be read on its way (R380). -/
def unreadablePsum : Packet := ⟨{ kind := 11, resid := 1, bad := true }, psumHeader false 1 0 0 0 :: List.replicate 20 0⟩

/-- Tile 0 with that packet at its router: its bank 0 belongs to residency 1 and owns slice 0. -/
def unreadableState : State := { State.reset with
  inbox := [⟨0, unreadablePsum⟩]
  ctxs := [(0, { resid := some 1 })]
  nodes := [(0, { sliceOwner := [(0, 0)] })] }

theorem unreadableState_arrived : unreadableState.arrived 0 isPsum = some unreadablePsum := by decide +kernel

theorem unreadablePsum_ok : psumOk unreadablePsum = true ∧ (psumHeader false 1 0 0 0).extractLsb' 235 4 = 0 ∧
    (psumHeader false 1 0 0 0).getLsbD 208 = false := by decide +kernel

theorem unreadableState_enters : unreadableState.ownsSlice 0 1 0 = true ∧ unreadableState.accRoom 0 true 1 = true ∧
    unreadableState.accRoom 0 false 1 = true := by decide +kernel

/-- The row enters the queue poisoned (R380). -/
theorem unreadableState_poisoned : ∃ t es, exec .psumPacket unreadableState = .next t ∧ (t.node 0).accQ = [.row 0 0 false es true none] :=
  ⟨_, psumElems (List.replicate 20 0), rfl, by decide +kernel⟩

/-- Refutes O38: of a well-formed PSUM packet it says that its row is poisoned where the header's mask says so, and no premise bars a packet
that could not be read, whose rows the model poisons all (R380). At `unreadableState` the mask is zero and the row enters poisoned. -/
theorem not_requestsAtNodes : ¬ Obligations.RequestsAtNodes := by
  rintro ⟨-, psumPackets, -⟩
  obtain ⟨hok, hrows, hmask⟩ := unreadablePsum_ok
  obtain ⟨howns, hlane, hroom⟩ := unreadableState_enters
  obtain ⟨wellFormed, -⟩ := psumPackets unreadableState unreadablePsum _ unreadableState_arrived rfl
  obtain ⟨t, ht, -, hclean⟩ := wellFormed hok hrows howns hlane hroom (fun _ h => by cases h)
  obtain ⟨u, es, hu, hpoisoned⟩ := unreadableState_poisoned
  obtain rfl : t = u := Host.Outcome.next.inj (ht.symm.trans hu)
  obtain ⟨-, -, -, -, hclaimed, -⟩ := AccTok.row.inj (List.singleton_inj.1 (hclean.symm.trans hpoisoned))
  exact Bool.false_ne_true (hmask.symm.trans hclaimed)

/-! ## O40. A read of columns that a row does not have -/

theorem exec_accumulatorApply (s : State) : exec .accumulatorApply s = execAccumulatorApply s := rfl

/-- Context 0 waits for column group 4 of B16 of row 0 of slice 0, which R284 does not have: its first column would be 64, whose place in
the table is that of column 0 of row 1. That element is uncorrectable; those of row 0 are well. -/
def pastColumns : State := { State.reset with
  ctxs := [(0, { wait := .accrd 1 })]
  nodes := [(0, { accQ := [.read 0 0 0 4 1 1], accBad := [accKey 0 1 0] })] }

theorem pastColumns_row : ((pastColumns.node 0).acc.get {} (accKey 0 0 64)).deliver 1 = (0, 0) := by decide +kernel

theorem pastColumns_rowWell : (pastColumns.node 0).poison.get false 0 = false ∧
    ∀ j, j < 64 → (pastColumns.node 0).accBad.contains (accKey 0 0 j) = false := by decide +kernel

/-- The read delivers a NaN there. -/
theorem pastColumns_nan : ∃ t, exec .accumulatorApply pastColumns = .next t ∧ lane ((t.ctx 0).v 1) 16 0 = fmtB16.nan :=
  ⟨_, rfl, by decide +kernel⟩

/-- Refutes O40: of a read at the head of the queue it asks that no element of the row is uncorrectable, columns 0 to 63, and bounds the
column group nowhere: a B16 read of group 4 takes columns 64 to 79, the elements of the next row. At `pastColumns` the first of them is
uncorrectable, and a NaN is delivered in place of the value. -/
theorem not_accumulators : ¬ Obligations.Accumulators := by
  rintro ⟨⟨-, applies⟩, -⟩
  obtain ⟨hpoison, hwell⟩ := pastColumns_rowWell
  obtain ⟨-, -, reads⟩ := applies pastColumns []
  obtain ⟨t, ht, -, -, -, hlanes⟩ := reads 0 0 0 4 1 1 rfl rfl (by decide) hpoison hwell
  obtain ⟨u, hu, hnan⟩ := pastColumns_nan
  obtain rfl : t = u := Host.Outcome.next.inj (ht.symm.trans hu)
  have hzero : lane ((t.ctx 0).v 1) 16 0 = 0 := (hlanes 0 (by decide)).trans (congrArg (fun v : FRes => v.1 % 2 ^ 16) pastColumns_row)
  exact absurd (hnan.symm.trans hzero) (by decide)

end Sys2Proof.Machine

namespace Sys2Proof.Machine

/-! ## What a node's reads leave as it was (R136, R280) -/

/-- The nodes and the scheduler stand as they stood. -/
def State.NodesStand (s u : State) : Prop := u.nodes = s.nodes ∧ u.sched = s.sched

theorem State.NodesStand.refl (s : State) : s.NodesStand s := ⟨rfl, rfl⟩

theorem State.NodesStand.trans {s u v : State} (a : s.NodesStand u) (b : u.NodesStand v) : s.NodesStand v :=
  ⟨b.1.trans a.1, b.2.trans a.2⟩

theorem State.NodesStand.node {s u : State} (h : s.NodesStand u) (t : Nat) : u.node t = s.node t := by rw [State.node, h.1, State.node]

/-- The state in the place of an engine's access. -/
def CSpot.state : CSpot → State
  | .home s _ | .wait s | .bad s _ => s

theorem State.seek_nodesStand (s : State) (t r : Nat) (va : W64) (wr : Bool) : s.NodesStand (s.seek t r va wr).2 := by
  unfold State.seek
  dsimp only
  split
  · exact .refl s
  · split
    · exact ⟨rfl, rfl⟩
    · split <;> exact ⟨rfl, rfl⟩

theorem State.engineHome_nodesStand (s : State) (t r who : Nat) (a : W64) (n : Nat) (wr : Bool) :
    s.NodesStand (s.engineHome t r who a n wr).state := by
  have hat {u : State} (hu : s.NodesStand u) (h : Home) :
      s.NodesStand (CSpot.state (if u.writeUnderWay t h a then .wait u else .home u h)) := by
    split <;> exact hu
  have hseek := s.seek_nodesStand t r a wr
  unfold State.engineHome
  dsimp only
  split
  · exact .refl s
  · exact hat (.refl s) _
  · split <;> rename_i e <;> rw [e] at hseek
    · exact hseek
    · exact hseek
    · exact hat hseek _
  · split
    · exact .refl s
    · split <;> exact .refl s

theorem State.nodeSpot_nodesStand (s : State) (t r k : Nat) (c : Ctx) (a : W64) (n : Nat) (wr : Bool) :
    s.NodesStand (s.nodeSpot t r k c a n wr).state := by
  unfold State.nodeSpot
  split
  · exact .refl s
  · exact s.engineHome_nodesStand ..

theorem State.request_nodesStand (s : State) (t r key : Nat) (owner : Owner) (kind : Nat) (h : Home) (a : W64) (op : BitVec 32) (sid : Nat)
    (pay : List W256) (fill bad : Bool) : s.NodesStand (s.request t r key owner kind h a op sid pay fill bad).2 := ⟨rfl, rfl⟩

theorem State.nodeRead_nodesStand (s : State) (t r k id : Nat) (a : W64) : s.NodesStand (s.nodeRead t r k id a).2 := by
  have hspot := s.nodeSpot_nodesStand t r k (s.ctx k) a 32 false
  unfold State.nodeRead
  split <;> rename_i e <;> rw [e] at hspot
  · exact hspot
  · exact hspot
  · split <;> exact hspot
  · exact hspot.trans (State.request_nodesStand ..)

theorem State.nodeReads_nodesStand (s : State) (t r k id : Nat) (l : List W64) : s.NodesStand (s.nodeReads t r k id l).2 := by
  induction l generalizing s with
  | nil => exact .refl s
  | cons a l ih =>
    have hread := s.nodeRead_nodesStand t r k id a
    unfold State.nodeReads
    split <;> rename_i e <;> rw [e] at hread
    · exact hread
    · split
      · exact hread
      · exact hread.trans (ih _)

/-- Fetching leaves the nodes and the scheduler as they were: a read changes banks' tiles, walks and packets alone. -/
theorem State.nodeFetch_nodesStand (s : State) (t r k id : Nat) (l : List W64) (ps : List Piece) :
    s.NodesStand (s.nodeFetch t r k id l ps).2 := by
  unfold State.nodeFetch
  split
  · exact .refl s
  · exact s.nodeReads_nodesStand ..

end Sys2Proof.Machine

namespace Sys2Proof.Machine

/-! ## Issuing a weight load (R132, R280) -/

theorem exec_wload (a b c : BitVec 5) (f : BitVec 2) (v : BitVec 1) (n : BitVec 3) (s : State) :
    exec (.wload a b c f v n) s = execWload a b c f v n s := rfl

/-- A new generation of a slot (R132). -/
def Node.newGen (x : Node) (n : Nat) : Node := x.setSlot n { x.slot n with gen := ((x.slot n).gen + 1) % 2 ^ 16 }

theorem Node.newGens_wloads (x : Node) (l : List Nat) : (l.foldl Node.newGen x).wloads = x.wloads :=
  foldl_keeps Node.wloads Node.newGen (fun _ _ => rfl) l x

/-- Each slot of a list without repetitions takes one new generation; the others stay. -/
theorem Node.slot_newGens (x : Node) {l : List Nat} (hl : l.Nodup) (k : Nat) :
    (l.foldl Node.newGen x).slot k = if k ∈ l then { x.slot k with gen := ((x.slot k).gen + 1) % 2 ^ 16 } else x.slot k := by
  induction l generalizing x with
  | nil => rfl
  | cons n l ih =>
    obtain ⟨hn, hl⟩ := List.nodup_cons.1 hl
    rw [List.foldl_cons, ih _ hl, Node.newGen, Node.slot_setSlot]
    by_cases hk : k = n
    · subst hk
      simp [hn]
    · simp [hk]

/-- A load takes its place for one slot, or for a pair (R280). -/
theorem Node.loadSlots_eq (x : Node) (f n : Nat) : x.loadSlots f n = [n / 2 * 2, n / 2 * 2 + 1] ∨ x.loadSlots f n = [n] := ite_eq_or_eq ..

theorem Node.nodup_loadSlots (x : Node) (f n : Nat) : (x.loadSlots f n).Nodup := by
  obtain h | h := x.loadSlots_eq f n <;> simp [h]

theorem Node.mem_loadSlots (x : Node) (f n : Nat) : n ∈ x.loadSlots f n := by
  obtain h | h := x.loadSlots_eq f n <;> rw [h]
  · simp only [List.mem_cons, List.not_mem_nil, or_false]
    omega
  · exact List.mem_singleton_self n

/-- A `wload` enters the buffer of the tile in turn behind those there, and its slots take new generations (R132, R280). -/
def State.admitLoad (s : State) (w : WReq) : State :=
  let u := (s.newId s.cur.t).2
  (u.setNode s.cur.t (w.slots.foldl Node.newGen { u.node s.cur.t with wloads := (u.node s.cur.t).wloads ++ [w] })).countReq

theorem State.mem_admitLoad (s : State) (w : WReq) : (s.admitLoad w).mem = s.mem := rfl
theorem State.cur_admitLoad (s : State) (w : WReq) : (s.admitLoad w).cur = s.cur := rfl
theorem State.ctxs_admitLoad (s : State) (w : WReq) : (s.admitLoad w).ctxs = s.countReq.ctxs := rfl

theorem State.node_admitLoad (s : State) (w : WReq) : (s.admitLoad w).node s.cur.t = w.slots.foldl Node.newGen
    { (s.newId s.cur.t).2.node s.cur.t with wloads := ((s.newId s.cur.t).2.node s.cur.t).wloads ++ [w] } :=
  State.node_setNode_self ..

theorem State.wloads_admitLoad (s : State) (w : WReq) :
    ((s.admitLoad w).node s.cur.t).wloads = (s.node s.cur.t).wloads ++ [w] := by
  rw [s.node_admitLoad, Node.newGens_wloads, State.newId, State.node_setNode_self]

theorem State.slot_admitLoad (s : State) (w : WReq) (hw : w.slots.Nodup) (k : Nat) : ((s.admitLoad w).node s.cur.t).slot k =
    if k ∈ w.slots then { (s.node s.cur.t).slot k with gen := (((s.node s.cur.t).slot k).gen + 1) % 2 ^ 16 }
    else (s.node s.cur.t).slot k := by
  rw [s.node_admitLoad, Node.slot_newGens _ hw, State.newId, State.node_setNode_self]
  rfl

/-- The request that a `wload` of the context in turn makes (R280). -/
def State.loadRequest (s : State) (a b c : BitVec 5) (f : BitVec 2) (v : BitVec 1) (n : BitVec 3) : WReq where
  id := (s.newId s.cur.t).1
  slots := ((s.newId s.cur.t).2.node s.cur.t).loadSlots f.toNat n.toNat
  slot := n.toNat
  f := f.toNat
  base := s.me.s a.toNat
  pitch := (s.me.s b.toNat).toNat
  bar := (if v = 1#1 then some (s.me.s c.toNat) else none).map BitVec.toNat
  key := s.cur.ctx
  resid := s.me.resid.getD 0
  waits := s.releaseSet s.cur.ctx 1

section
variable {s : State} {a b c : BitVec 5} {f : BitVec 2} {v : BitVec 1} {n : BitVec 3} (hr : s.ready [] [] = true)
include hr

theorem exec_wload_fault {e : Trap} (he : s.wloadFault (s.me.s a.toNat) (s.me.s b.toNat)
    (if v = 1#1 then some (s.me.s c.toNat) else none) f.toNat n.toNat = some e) :
    exec (.wload a b c f v n) s = .next (s.fault e) := by
  simp only [exec_wload, execWload, s.issueS_ready _ _ _ _ hr, he, State.conclude_trap]

variable (he : s.wloadFault (s.me.s a.toNat) (s.me.s b.toNat) (if v = 1#1 then some (s.me.s c.toNat) else none) f.toNat n.toNat = none)
include he

theorem exec_wload_waits (hroom : (s.node s.cur.t).hasEntry = false) : exec (.wload a b c f v n) s = .next s := by
  simp only [exec_wload, execWload, s.issueS_ready _ _ _ _ hr, he, hroom, if_true]
  rfl

theorem exec_wload_admits (hroom : (s.node s.cur.t).hasEntry = true) :
    exec (.wload a b c f v n) s = .next ((s.admitLoad (s.loadRequest a b c f v n)).finish 8 []) := by
  simp only [exec_wload, execWload, s.issueS_ready _ _ _ _ hr, he, hroom, Bool.true_eq_false, if_false, State.conclude_ok]
  rfl

end

/-- R280: the fields that a `wload` may not have. -/
theorem State.wloadFault_odd {s : State} {base pitch : W64} {bar : Option W64} {f n : Nat} (hf : f ≠ 0) (hn : n % 2 = 1) :
    s.wloadFault base pitch bar f n = some (matrixTrap 0x33) := if_pos ⟨hf, hn⟩

theorem State.wloadFault_unowned {s : State} {base pitch : W64} {bar : Option W64} {n : Nat}
    (hown : s.ownsSlot s.cur.t (s.me.resid.getD 0) n = false) : s.wloadFault base pitch bar 0 n = some (matrixTrap 0x32) := by
  simp [State.wloadFault, hown]

theorem State.wloadFault_misaligned {s : State} {base pitch : W64} {bar : Option W64} {n : Nat}
    (hown : s.ownsSlot s.cur.t (s.me.resid.getD 0) n = true) (hbase : base.toNat % 32 ≠ 0) :
    s.wloadFault base pitch bar 0 n = some ⟨0x18, base, 0⟩ := by
  simp [State.wloadFault, hown, hbase]

/-- R132, R280: issuing a `wload`. -/
theorem weightLoadIssue : Parts.WeightLoadIssue := by
  intro s a b c f v n hr
  refine ⟨fun hf hn => exec_wload_fault hr (State.wloadFault_odd (fun h => hf (BitVec.eq_of_toNat_eq h)) hn), ?_, ?_, fun he => ⟨exec_wload_waits hr he, fun hroom => ?_⟩⟩
  · rintro rfl hown
    exact exec_wload_fault hr (State.wloadFault_unowned hown)
  · rintro rfl hown hbase
    exact exec_wload_fault hr (State.wloadFault_misaligned hown hbase)
  · let w := s.loadRequest a b c f v n
    have hslots : w.slots.Nodup := Node.nodup_loadSlots ..
    refine ⟨(s.admitLoad w).finish 8 [], w, exec_wload_admits hr he hroom, (State.mem_finish ..).trans (s.mem_admitLoad w),
      State.me_finish_counted (s.ctxs_admitLoad w) (s.cur_admitLoad w) 8,
      s.wloads_admitLoad w, rfl, rfl, rfl, rfl, rfl, Node.mem_loadSlots .., fun k hk => ?_, fun k hk => ?_⟩
    · exact (congrArg Slot.gen (s.slot_admitLoad w hslots k)).trans (by rw [if_pos hk])
    · exact (s.slot_admitLoad w hslots k).trans (if_neg hk)

end Sys2Proof.Machine

namespace Sys2Proof.Machine

/-! ## The rows of a slot in memory (R123, R132) -/

/-- Write rows of 64 bytes one behind the other. -/
def Memory.writeRows (m : Memory) (base : Nat) (val : Nat → Nat) (n : Nat) : Memory :=
  (List.range n).foldl (fun m k => Memory.writeN m (base + 64 * k) 64 (val k)) m

theorem Memory.writeRows_succ (m : Memory) (base : Nat) (val : Nat → Nat) (n : Nat) :
    Memory.writeRows m base val (n + 1) = Memory.writeN (Memory.writeRows m base val n) (base + 64 * n) 64 (val n) := by
  simp [Memory.writeRows, List.range_succ]

theorem Memory.writeRows_wf {m : Memory} (h : Memory.wf m = true) (base : Nat) (val : Nat → Nat) (n : Nat) :
    Memory.wf (Memory.writeRows m base val n) = true := by
  induction n with
  | zero => exact h
  | succ n ih =>
    rw [Memory.writeRows_succ]
    exact Memory.writeN_wf _ _ _ _ ih

/-- A byte among the rows is that of its row's value; the others stay. -/
theorem Memory.read_writeRows {m : Memory} (h : Memory.wf m = true) (base : Nat) (val : Nat → Nat) (n a : Nat) :
    Memory.read (Memory.writeRows m base val n) a =
      if base ≤ a ∧ a < base + 64 * n then BitVec.ofNat 8 (val ((a - base) / 64) / 256 ^ ((a - base) % 64)) else Memory.read m a := by
  induction n with
  | zero => rw [if_neg (by omega)]; rfl
  | succ n ih =>
    rw [Memory.writeRows_succ, Memory.read_writeN _ _ _ _ _ (Memory.writeRows_wf h ..), ih]
    by_cases hrow : base + 64 * n ≤ a ∧ a < base + 64 * n + 64
    · rw [if_pos hrow, if_pos (by omega), show (a - base) / 64 = n by omega, show (a - base) % 64 = a - (base + 64 * n) by omega]
    · rw [if_neg hrow]
      exact if_congr (by omega) rfl rfl

theorem weightKey_eq (t slot k j : Nat) : weightKey t slot k j = weightKey t slot 0 0 + 64 * k + j := by
  unfold weightKey
  omega

/-- The cells of a slot are the bytes of 64 rows. -/
theorem exists_weightKey_iff (t slot a : Nat) :
    (∃ k j, k < 64 ∧ j < 64 ∧ a = weightKey t slot k j) ↔ weightKey t slot 0 0 ≤ a ∧ a < weightKey t slot 0 0 + 64 * 64 := by
  constructor
  · rintro ⟨k, j, hk, hj, rfl⟩
    rw [weightKey_eq t slot k j]
    omega
  · rintro ⟨hlo, hhi⟩
    refine ⟨(a - weightKey t slot 0 0) / 64, (a - weightKey t slot 0 0) % 64, by omega, by omega, ?_⟩
    rw [weightKey_eq t slot (_ / 64)]
    omega

/-! ## What a load of I8 weights writes (R123, R280) -/

theorem foldl_lanes (w : Nat) (f : Nat → Nat) (n : Nat) :
    (List.range n).foldl (fun acc j => acc + f j % 2 ^ w * 2 ^ (w * j)) 0 = ofLanes w f n := by
  induction n with
  | zero => rfl
  | succ n ih => rw [List.range_succ, List.foldl_append, ih]; rfl

theorem getD_map_range {α : Type} (f : Nat → α) {n i : Nat} (h : i < n) (d : α) : ((List.range n).map f).getD i d = f i := by
  simp [List.getD, h]

theorem low_natCast (x n : Nat) : low (x : Int) n = x % 2 ^ n := by
  rw [low, ← Int.natCast_mod, Int.toNat_natCast]

/-- A row of cells from the sectors of an I8 source. -/
def cellRow (ws : List W256) (k : Nat) : Nat := ofLanes 8 (fun j => (Claims.sourceByte ws k j).toNat) 64

theorem cellRow_byte (ws : List W256) (k : Nat) {j : Nat} (hj : j < 64) :
    BitVec.ofNat 8 (cellRow ws k / 256 ^ j) = Claims.sourceByte ws k j := by
  refine BitVec.eq_of_toNat_eq ?_
  rw [BitVec.toNat_ofNat, show 256 = 2 ^ 8 from rfl, ← pow_mul, cellRow, ofLanes_div _ _ hj]
  exact Nat.mod_eq_of_lt (BitVec.isLt _)

theorem toNat_sourceByte (ws : List W256) (k j : Nat) :
    (Claims.sourceByte ws k j).toNat = cutSector (ws.getD (k * 2 * 1 + j * 1 / 32) 0) (j * 1 % 32) 1 := by
  simp [Claims.sourceByte, cutSector, BitVec.extractLsb'_toNat, Nat.shiftRight_eq_div_pow, Nat.mul_comm]

/-- A slot's format once a load of I8 weights has written it; the other half of a pair becomes EMPTY (R280). -/
def Node.loadSlot (slot : Nat) (x : Node) (n : Nat) : Node :=
  x.setSlot n { x.slot n with fmt := if n = slot then .i8 else (x.slot n).fmt.single }

theorem Node.fmt_loadSlot (slot : Nat) (x : Node) {l : List Nat} (h : slot ∈ l) :
    ((l.foldl (Node.loadSlot slot) x).slot slot).fmt = .i8 := by
  refine foldl_reaches (fun x : Node => (x.slot slot).fmt = .i8) _ (fun x n hx => ?_) slot (fun x => ?_) l h x
  · rw [Node.loadSlot, Node.slot_setSlot]
    split
    · next hn => simp [hn]
    · exact hx
  · simp [Node.loadSlot]

theorem State.node_of_nodes {s u : State} {t : Nat} {x : Node} (h : u.nodes = s.nodes.set t x) : u.node t = x := by
  rw [State.node, h, AMap.get_set_self]

theorem State.node_writeCells_i8 (s : State) (t : Nat) {w : WReq} (ws : List W256) (hf : w.f = 0) :
    (s.writeCells t w ws).node t = w.slots.foldl (Node.loadSlot w.slot) (s.node t) := by
  refine State.node_of_nodes (s := s) ?_
  simp only [State.writeCells, hf, if_true]
  rfl

theorem State.mem_writeCells_i8 (s : State) (t : Nat) {w : WReq} (ws : List W256) (hf : w.f = 0) :
    (s.writeCells t w ws).mem = Memory.writeRows s.mem (weightKey t w.slot 0 0) (cellRow ws) 64 := by
  simp only [State.writeCells, hf, if_true]
  refine List.foldl_ext _ _ _ fun m k hk => ?_
  rw [weightKey_eq t w.slot k 0, cellRow, ← foldl_lanes]
  refine congrArg (Memory.writeN m _ 64) (List.foldl_ext _ _ _ fun acc j hj => ?_)
  rw [getD_map_range _ (List.mem_range.1 hj), getD_map_range _ (List.mem_range.1 hk), ← toNat_sourceByte, low_natCast]
  congr 2
  have := (Claims.sourceByte ws k j).isLt
  omega

/-! ## The turn of a weight load (R132, R136, R280) -/

theorem exec_wloadWrite (s : State) : exec .wloadWrite s = execWloadWrite s := rfl

theorem State.setNode_liveRes (s : State) (t : Nat) (x : Node) (r : Nat) : (s.setNode t x).liveRes r = s.liveRes r := rfl

theorem State.NodesStand.liveRes {s u : State} (h : s.NodesStand u) (r : Nat) : u.liveRes r = s.liveRes r := by
  rw [State.liveRes, State.findRes, h.2, State.liveRes, State.findRes]

/-- A load that ends leaves its node's buffer; what it tells its requester changes no node. -/
theorem State.slots_loadDone (s : State) (t : Nat) (w : WReq) (e : Option MErr) :
    ((s.loadDone t w e).node t).slots = (s.node t).slots := by
  have harrive (u : State) (r name : Nat) (err : Bool) : (u.engineArrive t r name err).node t = u.node t := by
    unfold State.engineArrive
    split <;> rfl
  let x : Node := { s.node t with wloads := (s.node t).wloads.filter fun y => y.id != w.id }
  have hx : ((s.setNode t x).node t).slots = (s.node t).slots := by rw [State.node_setNode_self]
  unfold State.loadDone
  dsimp only
  split
  · exact hx
  · split
    · rw [harrive]
      exact hx
    · exact hx
    · exact hx

/-- One that has failed without a barrier sends its context a record, while its residency lives (R280). -/
theorem State.asyncs_loadDone {s : State} {w : WReq} (hlive : (s.liveRes w.resid).isSome = true) (hbar : w.bar = none) (t : Nat) (e : MErr) :
    (s.loadDone t w (some e)).sched.asyncs =
      s.sched.asyncs ++ [(w.key, ⟨4, BitVec.ofNat 32 e.detail, BitVec.ofNat 8 e.cause, e.addr⟩)] := by
  obtain ⟨r, hr⟩ := Option.isSome_iff_exists.1 hlive
  simp only [State.loadDone, State.setNode_liveRes, hr, hbar]
  rfl

section
variable {s : State} {w : WReq} (hw : (s.node s.cur.t).wloads.find? (fun w => w.id == s.cur.n) = some w)
  (hready : (s.node s.cur.t).loadReady w s.cycle = true)
include hw hready

theorem exec_wloadWrite_waits (h : fetchOutcome w.sectors.length (s.nodeFetch s.cur.t w.resid w.key w.id w.sectors w.reads).1 = .wait) :
    let y := s.nodeFetch s.cur.t w.resid w.key w.id w.sectors w.reads
    exec .wloadWrite s = .next (y.2.setNode s.cur.t { y.2.node s.cur.t with
      wloads := (y.2.node s.cur.t).wloads.map fun v => if v.id = w.id then { v with reads := y.1 } else v }) := by
  simp only [exec_wloadWrite, execWloadWrite, hw, hready, h, Bool.true_eq_false, if_false]

theorem exec_wloadWrite_bad {a : W64}
    (h : fetchOutcome w.sectors.length (s.nodeFetch s.cur.t w.resid w.key w.id w.sectors w.reads).1 = .bad a) :
    exec .wloadWrite s = .next ((s.nodeFetch s.cur.t w.resid w.key w.id w.sectors w.reads).2.loadDone s.cur.t w
      (some { cause := 0x38, detail := a.toNat % 2 ^ 32, addr := a })) := by
  simp only [exec_wloadWrite, execWloadWrite, hw, hready, h, Bool.true_eq_false, if_false]

theorem exec_wloadWrite_all {ws : List W256}
    (h : fetchOutcome w.sectors.length (s.nodeFetch s.cur.t w.resid w.key w.id w.sectors w.reads).1 = .all ws) :
    exec .wloadWrite s = .next (((s.nodeFetch s.cur.t w.resid w.key w.id w.sectors w.reads).2.writeCells s.cur.t w ws).loadDone
      s.cur.t w none) := by
  simp only [exec_wloadWrite, execWloadWrite, hw, hready, h, Bool.true_eq_false, if_false]

end

/-- R132, R123: the cells that a load of I8 weights leaves. -/
theorem Memory.read_cells {m : Memory} (h : Memory.wf m = true) (t slot : Nat) (ws : List W256) :
    (∀ k j, k < 64 → j < 64 → Memory.read (Memory.writeRows m (weightKey t slot 0 0) (cellRow ws) 64) (weightKey t slot k j) =
      Claims.sourceByte ws k j) ∧
    ∀ a, (∀ k j, k < 64 → j < 64 → a ≠ weightKey t slot k j) →
      Memory.read (Memory.writeRows m (weightKey t slot 0 0) (cellRow ws) 64) a = Memory.read m a := by
  constructor
  · intro k j hk hj
    rw [Memory.read_writeRows h, if_pos ((exists_weightKey_iff ..).1 ⟨k, j, hk, hj, rfl⟩), weightKey_eq t slot k j,
      ← cellRow_byte ws k hj]
    congr 3 <;> omega
  · intro a ha
    rw [Memory.read_writeRows h, if_neg]
    intro hin
    obtain ⟨k, j, hk, hj, rfl⟩ := (exists_weightKey_iff ..).2 hin
    exact ha k j hk hj rfl

/-- R132, R280: the turn of a `wload`. -/
theorem weightLoadWrite : Parts.WeightLoadWrite := by
  intro s w hw hready
  have hstand := s.nodeFetch_nodesStand s.cur.t w.resid w.key w.id w.sectors w.reads
  have hmem := s.nodeFetch_mem s.cur.t w.resid w.key w.id w.sectors w.reads
  have hnode := hstand.node s.cur.t
  refine ⟨fun ws hwf hf hslot hall => ⟨_, exec_wloadWrite_all hw hready hall, ?_, ?_⟩,
    fun hwait => ⟨_, exec_wloadWrite_waits hw hready hwait, hmem, ?_, ?_⟩,
    fun a hbad => ⟨_, exec_wloadWrite_bad hw hready hbad, (State.loadDone_mem ..).trans hmem, ?_, fun hlive hbar => ?_⟩⟩
  · rw [Node.slot, State.slots_loadDone, State.node_writeCells_i8 _ _ _ hf]
    exact Node.fmt_loadSlot _ _ hslot
  · rw [State.loadDone_mem, State.mem_writeCells_i8 _ _ _ hf, hmem]
    exact Memory.read_cells hwf ..
  · rw [State.node_setNode_self, hnode]
  · rw [State.node_setNode_self, hnode]
  · rw [State.slots_loadDone, hnode]
  · rw [← hstand.2]
    exact State.asyncs_loadDone (by rwa [hstand.liveRes]) hbar ..

end Sys2Proof.Machine

namespace Sys2Proof.Machine

/-! ## Fetching the rows of a request (R136, R146) -/

theorem exec_aFetchComplete (s : State) : exec .aFetchComplete s = execAFetchComplete s := rfl

/-- A node every group of which has a member left to issue dissolves none (R146). -/
theorem State.dissolve_live {s : State} {t : Nat} (h : ∀ g ∈ (s.node t).groups, (g.members.any fun m => m.err.isNone) = true) :
    s.dissolve t = s.setNode t (s.node t) := by
  have hlive (g : Group) (hg : g ∈ (s.node t).groups) : (g.members.all fun q => q.err.isSome) = false := by
    obtain ⟨m, hm, hnone⟩ := List.any_eq_true.1 (h g hg)
    refine List.all_eq_false.2 ⟨m, hm, ?_⟩
    rw [Option.isNone_iff_eq_none.1 hnone]
    exact Bool.false_ne_true
  have hgone : ((s.node t).groups.filter fun g => g.members.all fun q => q.err.isSome) = [] :=
    List.filter_eq_nil_iff.2 fun g hg => Bool.eq_false_iff.1 (hlive g hg)
  have hstay : ((s.node t).groups.filter fun g => !(g.members.all fun q => q.err.isSome)) = (s.node t).groups :=
    List.filter_eq_self.2 fun g hg => by rw [hlive g hg]; rfl
  rw [State.dissolve, hgone, hstay]
  rfl

/-- A request that is replaced by one without a failure leaves every group with the members left to issue that it had. -/
theorem Node.mapReq_live {x : Node} {id : Nat} {v : MReq} (hv : v.err = none)
    (h : ∀ g ∈ x.groups, (g.members.any fun m => m.err.isNone) = true) :
    ∀ g ∈ (x.mapReq id fun _ => v).groups, (g.members.any fun m => m.err.isNone) = true := by
  intro g' hg'
  obtain ⟨g, hg, rfl⟩ := List.mem_map.1 hg'
  obtain ⟨m, hm, hnone⟩ := List.any_eq_true.1 (h g hg)
  refine List.any_eq_true.2 ⟨_, List.mem_map_of_mem hm, ?_⟩
  split
  · rw [hv]; rfl
  · exact hnone

/-- A request that does not go to another tile is not sent. -/
theorem State.sendRemote_own {s : State} {t : Nat} {q : MReq} (h : ∀ y ∈ (s.node t).sending, y.id ≠ q.id) : s.sendRemote t q = s := by
  have hnone : ((s.node t).sending.any fun y => y.id == q.id) = false :=
    List.any_eq_false.2 fun y hy => by simpa using h y hy
  rw [State.sendRemote, hnone]
  rfl

/-- The turn of a fetch that has not failed puts the request back with what it has fetched, and changes nothing else of the node. -/
theorem exec_aFetchComplete_goes_on {s u : State} {q v : MReq}
    (hq : (s.node s.cur.t).waiting.find? (fun q => q.id == s.cur.n) = some q) (hf : s.fetchRows s.cur.t q = (u, v))
    (hu : s.NodesStand u) (hid : v.id = q.id) (herr : v.err = none)
    (hlive : ∀ g ∈ (s.node s.cur.t).groups, (g.members.any fun m => m.err.isNone) = true)
    (hown : ∀ y ∈ (s.node s.cur.t).sending, y.id ≠ q.id) :
    ∃ t, exec .aFetchComplete s = .next t ∧ t.mem = u.mem ∧ t.node s.cur.t = (s.node s.cur.t).mapReq q.id fun _ => v := by
  let x := (s.node s.cur.t).mapReq q.id fun _ => v
  have hx : (u.setNode s.cur.t x).node s.cur.t = x := State.node_setNode_self ..
  have hdissolve : (u.setNode s.cur.t x).dissolve s.cur.t = (u.setNode s.cur.t x).setNode s.cur.t x := by
    have h := State.dissolve_live (s := u.setNode s.cur.t x) (t := s.cur.t) (by rw [hx]; exact Node.mapReq_live herr hlive)
    rwa [hx] at h
  have hsend : ((u.setNode s.cur.t x).setNode s.cur.t x).sendRemote s.cur.t v = (u.setNode s.cur.t x).setNode s.cur.t x := by
    refine State.sendRemote_own fun y hy => ?_
    rw [State.node_setNode_self] at hy
    obtain ⟨z, hz, rfl⟩ := List.mem_map.1 hy
    rw [if_neg (hown z hz), hid]
    exact hown z hz
  refine ⟨(u.setNode s.cur.t x).setNode s.cur.t x, ?_, rfl, State.node_setNode_self ..⟩
  simp only [exec_aFetchComplete, execAFetchComplete, hq, hf, hu.node]
  rw [← hsend, ← hdissolve]

/-- The sectors in memory of a request's rows (R136). -/
def MTok.rowSectors (k : MTok) : List W64 := (List.range (MTok.sectors k)).map fun i => MTok.addr k + BitVec.ofNat 64 (32 * i)

section
variable {s : State} {t : Nat} {q : MReq} (hidle : ¬ (q.waits ≠ [] ∨ q.fetched = true ∨ q.err.isSome = true))
  (hsrc : MTok.src q.tok = 0) (haddr : ¬ (MTok.addr q.tok).toNat % 32 ≠ 0)
include hidle hsrc haddr

theorem State.fetchRows_all {ws : List W256}
    (h : fetchOutcome (MTok.sectors q.tok) (s.nodeFetch t q.resid q.key q.id (MTok.rowSectors q.tok) q.reads).1 = .all ws) :
    s.fetchRows t q = ((s.nodeFetch t q.resid q.key q.id (MTok.rowSectors q.tok) q.reads).2,
      { q with reads := [], rows := ws, fetched := true }) := by
  unfold State.fetchRows MTok.rowSectors at *
  dsimp only
  rw [if_neg hidle, if_pos hsrc, if_neg haddr]
  simp only [h]

theorem State.fetchRows_wait
    (h : fetchOutcome (MTok.sectors q.tok) (s.nodeFetch t q.resid q.key q.id (MTok.rowSectors q.tok) q.reads).1 = .wait) :
    s.fetchRows t q = ((s.nodeFetch t q.resid q.key q.id (MTok.rowSectors q.tok) q.reads).2,
      { q with reads := (s.nodeFetch t q.resid q.key q.id (MTok.rowSectors q.tok) q.reads).1 }) := by
  unfold State.fetchRows MTok.rowSectors at *
  dsimp only
  rw [if_neg hidle, if_pos hsrc, if_neg haddr]
  simp only [h]

end

/-! ## Groups become ready and overdue (R147, R148) -/

theorem exec_groupHoldExpiry (s : State) : exec .groupHoldExpiry s = execGroupHoldExpiry s := rfl
theorem exec_groupOverdue (s : State) : exec .groupOverdue s = execGroupOverdue s := rfl

section
variable {s : State} {g : Group} (hg : (s.node s.cur.t).groups.find? (fun g => g.id == s.cur.n) = some g)
include hg

theorem exec_groupHoldExpiry_due (h : g.opened + g.hold ≤ s.cycle) :
    exec .groupHoldExpiry s = .next (s.setNode s.cur.t { s.node s.cur.t with
      groups := (s.node s.cur.t).groups.map fun h => if h.id = g.id then { h with ready := true } else h }) := by
  simp only [exec_groupHoldExpiry, execGroupHoldExpiry, hg, h, true_or, if_true]

theorem exec_groupHoldExpiry_early (h : s.cycle < g.opened + g.hold) (hwc : ((s.node s.cur.t).slot g.slot).wc = false)
    (hfull : g.full = false) : exec .groupHoldExpiry s = .next s := by
  simp [exec_groupHoldExpiry, execGroupHoldExpiry, hg, h, hwc, hfull]

theorem exec_groupOverdue_due (ho : g.overdue = false) (h : g.opened + 4 * g.hold ≤ s.cycle) :
    exec .groupOverdue s = .next (s.setNode s.cur.t { s.node s.cur.t with
      groups := (s.node s.cur.t).groups.map fun h =>
        if h.id = g.id then { h with overdue := true, ready := true, prio := min 3 (h.prio + 1) } else h }) := by
  simp only [exec_groupOverdue, execGroupOverdue, hg, ho, h, and_self, if_true]

theorem exec_groupOverdue_early (h : g.overdue = true ∨ s.cycle < g.opened + 4 * g.hold) : exec .groupOverdue s = .next s := by
  have hnot : ¬ (g.overdue = false ∧ g.opened + 4 * g.hold ≤ s.cycle) := by
    rintro ⟨ho, hc⟩
    obtain h | h := h
    · exact Bool.false_ne_true (ho.symm.trans h)
    · omega
  simp only [exec_groupOverdue, execGroupOverdue, hg, if_neg hnot]

end

/-- R136, R146, R147, R148: fetches, and the times of groups. -/
theorem groupTimes : Parts.GroupTimes := by
  refine ⟨fun s q _ hq hwaits hfetched herr hsrc haddr hlive hown => ?_, fun s g hg => ⟨exec_groupHoldExpiry_due hg,
    exec_groupHoldExpiry_early hg, exec_groupOverdue_due hg, exec_groupOverdue_early hg⟩⟩
  have hidle : ¬ (q.waits ≠ [] ∨ q.fetched = true ∨ q.err.isSome = true) := by simp [hwaits, hfetched, herr]
  have haddr' : ¬ (MTok.addr q.tok).toNat % 32 ≠ 0 := not_not.2 haddr
  have hstand := s.nodeFetch_nodesStand s.cur.t q.resid q.key q.id (MTok.rowSectors q.tok) q.reads
  have hgot (v : MReq) (hf : s.fetchRows s.cur.t q = ((s.nodeFetch s.cur.t q.resid q.key q.id (MTok.rowSectors q.tok) q.reads).2, v))
      (hid : v.id = q.id) (hv : v.err = none) : ∃ t, exec .aFetchComplete s = .next t ∧ t.mem = s.mem ∧
        t.node s.cur.t = (s.node s.cur.t).mapReq q.id fun _ => v := by
    obtain ⟨t, ht, hmem, hnode⟩ := exec_aFetchComplete_goes_on hq hf hstand hid hv hlive hown
    exact ⟨t, ht, hmem.trans (s.nodeFetch_mem ..), hnode⟩
  exact ⟨fun ws h => hgot _ (State.fetchRows_all hidle hsrc haddr' h) rfl herr,
    fun h => hgot _ (State.fetchRows_wait hidle hsrc haddr' h) rfl herr⟩

end Sys2Proof.Machine

namespace Sys2Proof.Machine

/-! ## The terms of a row of I8 elements (R121, R125) -/

/-- The byte at a place of two sectors that follow each other. -/
def pairByte (u v : W256) (k : Nat) : BitVec 8 := if k < 32 then u.extractLsb' (8 * k) 8 else v.extractLsb' (8 * (k - 32)) 8

theorem toNat_pairByte (u v : W256) (k : Nat) :
    (u.toNat + v.toNat * 2 ^ 256) / 2 ^ (8 * k) % 2 ^ 8 = (pairByte u v k).toNat := by
  refine Nat.eq_of_testBit_eq fun i => ?_
  rw [Nat.testBit_mod_two_pow, Nat.testBit_div_two_pow, Nat.add_comm u.toNat, Nat.mul_comm v.toNat,
    Nat.testBit_two_pow_mul_add _ u.isLt, BitVec.testBit_toNat, BitVec.testBit_toNat, BitVec.testBit_toNat]
  by_cases hi : i < 8
  · rw [decide_eq_true hi, Bool.true_and, pairByte]
    by_cases hk : k < 32
    · rw [if_pos hk, if_pos (by omega), BitVec.getLsbD_extractLsb', decide_eq_true hi, Bool.true_and, Nat.add_comm]
    · rw [if_neg hk, if_neg (by omega), BitVec.getLsbD_extractLsb', decide_eq_true hi, Bool.true_and]
      exact congrArg v.getLsbD (by omega)
  · rw [decide_eq_false hi, Bool.false_and, BitVec.getLsbD_of_ge _ _ (by omega)]

theorem foldr_two_words (b : Nat) (u v : W256) : [u, v].foldr (fun w acc => w.toNat + acc * b) 0 = u.toNat + v.toNat * b := by
  simp

theorem aElems_of_value {af x : Nat} {row : List W256} (h : row.foldr (fun w acc => w.toNat + acc * 2 ^ 256) 0 = x) :
    aElems af row = (List.range 64).map fun k => x / 2 ^ (8 * aBytes af * k) % 2 ^ (8 * aBytes af) := by
  rw [aElems, h]

/-- The elements of an I8 row of two sectors are their bytes (R120). -/
theorem aElems_i8 (u v : W256) : aElems 0 [u, v] = (List.range 64).map fun k => (pairByte u v k).toNat := by
  rw [aElems_of_value (foldr_two_words _ u v), show aBytes 0 = 1 from rfl]
  exact List.map_congr_left fun k _ => toNat_pairByte u v k

theorem sext_toNat (b : BitVec 8) : sext b.toNat 8 = b.toInt := by
  have hb := b.isLt
  rw [sext, BitVec.toInt_eq_toNat_cond, Nat.mod_eq_of_lt hb]
  split <;> split <;> omega

/-- All digits of an I8 element are its value (R120, R122). -/
theorem cutDigits_rowField_i8 (er : Int) (b : BitVec 8) : cutDigits 0 4 (rowField 0 er b.toNat) = b.toInt := sext_toNat b

/-- R123: a weight of a slot that is no half of a pair is its cell. -/
theorem State.weight_single (s : State) (t n k j : Nat) :
    s.weight t n false k j = (Memory.read s.mem (weightKey t n k j)).toInt := sext_toNat _

theorem foldl_add_eq_sum (f : Nat → Int) (l : List Nat) : l.foldl (fun acc k => acc + f k) 0 = (l.map f).sum := by
  rw [List.sum_eq_foldl, List.foldl_map]

/-- R125: elements that are integers mark no infinity and no NaN, so that the terms of a row are its sums of products. -/
theorem State.rowTerms_integer (s : State) (t n d : Nat) {af : Nat} (haf : af < 2) (row : List W256) {j : Nat} (hj : j < 64) :
    (s.rowTerms t n false af d row)[j]? = some { v :=
      ((((aElems af row).map fun x => cutDigits af d (rowField af (rowExp af (aElems af row)) x)).zip
        ((List.range 64).map fun k => s.weight t n false k j)).foldl (fun (acc : Int) z => acc + z.1 * z.2) 0) } := by
  rw [State.rowTerms, List.getElem?_map, List.getElem?_range hj, Option.map_some]
  simp only [if_pos haf, List.foldl_fixed]
  rw [rowExp, if_pos haf]
  rfl

/-- R121, R125: the terms of a row of I8 elements against I8 weights are the sums of their products. -/
theorem State.rowTerms_i8 (s : State) (t n : Nat) (u v : W256) {j : Nat} (hj : j < 64) :
    (s.rowTerms t n false 0 4 [u, v])[j]? = some { v := ((List.range 64).map fun k =>
      (pairByte u v k).toInt * (Memory.read s.mem (weightKey t n k j)).toInt).sum } := by
  rw [State.rowTerms_integer s t n 4 Nat.zero_lt_two _ hj, aElems_i8, List.map_map, List.zip_map', List.foldl_map, foldl_add_eq_sum]
  simp only [Function.comp_apply, cutDigits_rowField_i8, State.weight_single]

/-! ## A group that issues (R134, R146, R148) -/

theorem exec_groupIssue (s : State) : exec .groupIssue s = execGroupIssue s := rfl

/-- The rows of a group that issues to one slot: each member's, with their terms (R134). -/
def State.groupRows (s : State) (t : Nat) (g : Group) : List LaneRow :=
  g.members.flatMap fun q => (List.range (MTok.m q.tok)).map fun i =>
    ⟨q, i, s.rowTerms t g.slot false g.af g.d ((q.rows.drop (aWords g.af * i)).take (aWords g.af))⟩

/-- The lane of a group that issues to one slot. -/
def State.groupLane (s : State) (t : Nat) (g : Group) : Lane :=
  { slots := [g.slot], issued := s.cycle, d := g.d, rows := s.groupRows t g,
    freeAt := s.cycle + 16 + (s.groupRows t g).length * g.d }

/-- The node of a group that issues to a lane. -/
def Node.issued (x : Node) (g : Group) (n : Nat) (l : Lane) : Node :=
  { x with groups := x.groups.filter fun h => h.id != g.id }.setLane n l

theorem Node.lane_issued (x : Node) (g : Group) (n : Nat) (l : Lane) (k : Nat) :
    (x.issued g n l).lane k = if k = n then l else x.lane k := AMap.get_set ..

/-- The turn of the first group, when no member has failed, its format goes with its slot's, which is no half of a pair and has no
parity error, and a lane is free. -/
theorem exec_groupIssue_issues {s : State} {g : Group} {n : Nat} {more : List Nat} (hg : (s.node s.cur.t).firstGroup = some g)
    (hok : ∀ q ∈ g.members, q.err = none) (hfmt : fmtMatch ((s.node s.cur.t).slot g.slot).fmt g.af = true)
    (hpair : (s.node s.cur.t).isPair g.slot = false) (hbad : s.weightBad s.cur.t [g.slot] = false)
    (hlane : (s.node s.cur.t).freeLanes s.cycle = n :: more) :
    exec .groupIssue s = .next (s.setNode s.cur.t ((s.node s.cur.t).issued g n (s.groupLane s.cur.t g))) := by
  have hout : (g.members.filter fun q => q.err.isSome) = [] := List.filter_eq_nil_iff.2 fun q hq => by simp [hok q hq]
  have hin : (g.members.filter fun q => q.err.isNone) = g.members := List.filter_eq_self.2 fun q hq => by simp [hok q hq]
  have hneed : (s.node s.cur.t).lanesFor g = 1 := by simp [Node.lanesFor, hpair]
  have hslots : slotsOf false g.slot = [g.slot] := rfl
  rw [exec_groupIssue, execGroupIssue]
  simp only [hg, hpair, hslots, hfmt, hbad, hlane, hneed, hout, hin]
  rfl

/-- R134, R146, R148, R121, R125: the first group issues its rows. -/
theorem groupIssueRows : Parts.GroupIssueRows := by
  refine ⟨fun s g n more hg hok hfmt hpair hbad hlane => ?_, fun s t n u v j hj => s.rowTerms_i8 t n u v hj⟩
  refine ⟨_, exec_groupIssue_issues hg hok hfmt hpair hbad hlane, rfl, ?_, ?_, fun k hk => ?_⟩
  · rw [State.node_setNode_self]
    rfl
  · rw [State.node_setNode_self, Node.lane_issued, if_pos rfl]
    rfl
  · rw [State.node_setNode_self, Node.lane_issued, if_neg hk]

end Sys2Proof.Machine

namespace Sys2Proof.Machine

/-- Settles O36: a `wload` is issued, and its turn writes the cells of its slot, waits, or fails and tells its context. -/
theorem weightLoads : Obligations.WeightLoads := ⟨weightLoadIssue, weightLoadWrite⟩

/-- Settles O39: the rows of a request are fetched, its group becomes ready and overdue, and the first group issues its exact terms. -/
theorem groups : Obligations.Groups := ⟨groupTimes, groupIssueRows⟩

end Sys2Proof.Machine

namespace Sys2Proof.Machine

/-! ## O35. An uncorrectable word among the elements of one sector (R94, R160) -/

/-- A copy of two elements of 16 bytes, one behind the other, from private byte 0x40 to private byte 0x80. -/
def halvesDesc : Desc :=
  (0#16 ++ 0#2 ++ 0#2 ++ 4#3 ++ 0#41 : BitVec 64) ++ (0#96 ++ 16#32 : BitVec 128) ++ (0#96 ++ 16#32 : BitVec 128) ++
    (1#16 ++ 1#16 ++ 1#16 ++ 2#16 : BitVec 64) ++ 0xF800000000000080#64 ++ 0xF800000000000040#64

/-- The copy at its start. -/
def halvesCopy : Copy := { age := 0 }

/-- The stream port of tile 0 with that copy active at template 1, whose turn it is. Bank 0 belongs to residency 1, and in the sector of the
source the word at byte 0x50, the first of the second element, is uncorrectable. -/
def halfBadState : State := { State.reset with
  cur := { n := 1 }
  ctxs := [(0, { resid := some 1, privSize := 1024 })]
  tiles := [(0, {
    banks := [(0, { owner := some 0 })]
    templates := [(1, { owner := some 0, arm := { desc := some halvesDesc }, active := some halvesCopy })] })]
  badWords := [sramKey 0 0 0x50 / 8] }

theorem halvesDesc_fields : halvesDesc.srcKind = 0 ∧ halvesDesc.indexed = false ∧ halvesDesc.bytes = 16 ∧ halvesDesc.total = 2 ∧
    halvesCopy.hasSlack halvesDesc = true := by decide +kernel

/-- The sector of the source is in bank 0, within the reach of the copy. -/
theorem halfBadState_spot : halfBadState.copySpot (halfBadState.tmpl 1) (halfBadState.templateRes 0 1) (halvesDesc.srcAddr 0 0)
    halvesDesc.bytes false = .home halfBadState (.sram (sramKey 0 0 0x40)) := rfl

/-- The bytes of the first element hold no error. -/
theorem halfBadState_firstWell : halfBadState.badAt (sramKey 0 0 0x40) 16 = false := by decide +kernel

/-- The copy reads its first element, a zero, and stops at the second (R160). -/
theorem halfBadState_stops : ∃ t c, exec .copyElementIssue halfBadState = .next t ∧ (t.tmpl 1).active = some c ∧ c.stopped = true ∧
    c.reads.map CopyRd.got = [some (.data 0), some (badAddr 0x44 0xF800000000000050)] :=
  ⟨_, _, rfl, rfl, by decide +kernel⟩

/-- Refutes O35: of the elements of one sector that the stream port issues together it asks only that the first holds no error, and says that
the bytes of all are read and the copy goes on. At `halfBadState` the second is uncorrectable: the copy stops there with cause 0x44 (R160). -/
theorem not_copies : ¬ Obligations.Copies := by
  rintro ⟨firing, -, -⟩
  obtain ⟨hkind, hidx, hbytes, htotal, hslack⟩ := halvesDesc_fields
  obtain ⟨-, -, issues⟩ := firing halfBadState halvesDesc rfl
  obtain ⟨t, k, ht, -, -, -, -, -, -, hclaimed⟩ := issues halvesCopy (sramKey 0 0 0x40) (by decide) rfl rfl rfl
    (htotal ▸ Nat.two_pos) hslack hkind hidx (hbytes ▸ by decide) halfBadState_spot (hbytes ▸ halfBadState_firstWell)
  obtain ⟨u, c, hu, hactive, hstopped, -⟩ := halfBadState_stops
  obtain rfl : t = u := Host.Outcome.next.inj (ht.symm.trans hu)
  obtain rfl := Option.some.inj (hactive.symm.trans (congrArg Template.active hclaimed))
  exact Bool.false_ne_true hstopped

end Sys2Proof.Machine

namespace Sys2Proof.Machine

/-! ## Fields of a word (R180)

A word is written as its fields, one beside the other from the top. The next lemmas read it so: two neighbouring fields are one field, a word
is a concatenation exactly when each part is the field at its place, and a field of a concatenation is a field of one part. The width of a
concatenation is left out of the index of the three that `simp` applies, so that it finds them at words whose width is a numeral. -/

/-- Two fields that stand side by side are one. -/
theorem extract_add {k : Nat} (w : BitVec k) (s m n : Nat) :
    w.extractLsb' s (m + n) = w.extractLsb' (s + n) m ++ w.extractLsb' s n := by
  ext i hi
  rw [BitVec.getElem_append]
  split <;> simp only [BitVec.getElem_extractLsb']
  exact congrArg w.getLsbD (by omega)

section

variable {m n k s l : Nat} {x : BitVec m} {y : BitVec n} {w : BitVec k}

theorem append_eq_extract_iff : @Eq (no_index (BitVec (m + n))) (@HAppend.hAppend _ _ (no_index (BitVec (m + n))) _ x y)
    (w.extractLsb' s (no_index (m + n))) ↔ x = w.extractLsb' (s + n) m ∧ y = w.extractLsb' s n := by
  rw [extract_add]
  constructor
  · intro h
    have hx := congrArg (BitVec.extractLsb' n m) h
    have hy := congrArg (BitVec.extractLsb' 0 n) h
    rw [BitVec.extractLsb'_append_eq_left, BitVec.extractLsb'_append_eq_left] at hx
    rw [BitVec.extractLsb'_append_eq_right, BitVec.extractLsb'_append_eq_right] at hy
    exact ⟨hx, hy⟩
  · rintro ⟨rfl, rfl⟩
    rfl

theorem extract_append_high (h : n ≤ s) :
    (@HAppend.hAppend _ _ (no_index (BitVec (m + n))) _ x y).extractLsb' s l = x.extractLsb' (s - n) l :=
  BitVec.extractLsb'_append_eq_of_le h

theorem extract_append_low (h : s + l ≤ n) :
    (@HAppend.hAppend _ _ (no_index (BitVec (m + n))) _ x y).extractLsb' s l = y.extractLsb' s l :=
  BitVec.extractLsb'_append_eq_of_add_le h

end

/-- A field of one bit that is clear. -/
theorem extract_one_of_getLsbD {k a : Nat} {x : BitVec k} (h : x.getLsbD a = false) : x.extractLsb' a 1 = 0#1 := by
  ext j hj
  obtain rfl : j = 0 := by omega
  simpa using h

/-! ## Decoding undoes encoding (R178, R180) -/

theorem decode_eq_some_iff {w v : BitVec 32} {i : Instr} : decode w v = some i ↔ decodeRaw w v = some i ∧ wellFormed i = true :=
  Option.filter_eq_some_iff

/-- R187: the words that the encoder writes hold its literals where the decoder tests for them, and each operand where it reads it. Only
`steer` has the words of another instruction at one value of an operand: with the code 15, which names nothing (R261), as its second input it
would be a `tee`. -/
theorem decodeRaw_encode {i : Instr} {g : BitVec 3} {w v : BitVec 32} (hi : wellFormed i = true) (h : encode i g = some (w, v)) :
    decodeRaw w v = some i := by
  have hsteer : ∀ d a b e l, i = .steer d a b e l → b ≠ 15#4 := by
    rintro d a b e l rfl rfl
    obtain ⟨-, -, -, hb, -⟩ := of_decide_eq_true hi
    exact absurd hb (by decide)
  cases i <;> cases h
  all_goals simp only [decodeRaw, decodeMajor00, decodeMajor01, decodeMajor02, decodeMajor03, decodeMajor04, decodeMajor05, decodeMajor06,
    decodeMajor07, decodeMajor08, decodeMajor09, decodeMajor0A, decodeMajor0B, decodeMajor0C, decodeMajor0D, decodeMajor0E, decodeMajor10,
    decodeMajor11, decodeMajor12, decodeMajor13, decodeMajor14, decodeMajor15, decodeMajor16, decodeMajor17, decodeMajor18, decodeMajor19,
    decodeMajor1A, decodeMajor1B, decodeMajor1C, decodeMajor1D, decodeMajor20, decodeMajor21, decodeMajor22, decodeMajor23, decodeMajor24,
    decodeMajor25, decodeMajor26, decodeMajor27, decodeMajor28, decodeMajor29, decodeMajor2A, decodeMajor2C, decodeMajor2D, decodeMajor2E,
    decodeMajor2F, decodeMajor30, decodeMajor31, decodeMajor32, decodeMajor33, decodeMajor34, decodeMajor35, decodeMajor36,
    extract_append_high, extract_append_low, Nat.reduceLeDiff, Nat.reduceSub, Nat.reduceAdd, BitVec.extractLsb'_eq_self,
    BitVec.reduceExtractLsb', BitVec.reduceEq, ↓reduceIte, and_self]
  case steer.refl d a b e l => exact if_neg (hsteer d a b e l rfl)

/-- R182: the guard stands in the word, or the format has none and the words are the same under every guard. -/
theorem guardOf_encode {i : Instr} {g : BitVec 3} {w v : BitVec 32} (h : encode i g = some (w, v)) :
    guardOf w = g ∨ (guardOf w = 0 ∧ ∀ h, encode i h = some (w, v)) := by
  cases i <;> cases h
  all_goals simp only [guardOf, extract_append_high, extract_append_low, Nat.reduceLeDiff, Nat.reduceSub, Nat.reduceAdd,
    BitVec.extractLsb'_eq_self, BitVec.reduceEq, BitVec.reduceLE, decide_true, decide_false, Bool.or_true, Bool.or_false, Bool.and_true,
    Bool.and_false, Bool.false_eq_true, ↓reduceIte, true_or]
  all_goals exact .inr ⟨trivial, fun _ => rfl⟩

/-! ## Encoding undoes decoding (R181, R184, R188) -/

/-- What a decoder finds, if it finds an instruction, has a property. -/
def Yields (P : Instr → Prop) (o : Option Instr) : Prop := ∀ i ∈ o, P i

namespace Yields

variable {P : Instr → Prop} {c : Prop} {_ : Decidable c} {x y : Option Instr}

theorem none : Yields P none := fun _ h => nomatch h

theorem some {i : Instr} (h : P i) : Yields P (some i) := fun _ hj => Option.some.inj hj ▸ h

/-- A decoder that tests one thing after the other, with what each test says. -/
theorem dite (hy : ¬ c → Yields P y) (hx : c → Yields P x) : Yields P (if c then x else y) := by
  split
  case isTrue h => exact hx h
  case isFalse h => exact hy h

/-- A decoder whose later tests do not lean on the failure of the earlier ones. -/
theorem ite (hy : Yields P y) (hx : c → Yields P x) : Yields P (if c then x else y) := dite (fun _ => hy) hx

end Yields

/-- The words of an instruction with a guard. -/
def HasWords (g : BitVec 3) (w v : BitVec 32) (i : Instr) : Prop := encode i g = some (w, v)

/-- The words hold, from their lowest bit to their highest, what the encoder writes. -/
theorem Yields.words {g : BitVec 3} {w v a b : BitVec 32} {i : Instr} (h : encode i g = .some (a, b))
    (hw : a = w.extractLsb' 0 32 ∧ b = v.extractLsb' 0 32) : Yields (HasWords g w v) (.some i) := by
  rw [BitVec.extractLsb'_eq_self, BitVec.extractLsb'_eq_self] at hw
  obtain ⟨rfl, rfl⟩ := hw
  exact .some h

/-- R173 to R175: the three instructions of major 0x2D, the only ones that a failed test tells apart. The field of `tee` that is 15 is tested
in two pieces. -/
theorem decodeMajor2D_hasWords {w : BitVec 32} (hm : w.extractLsb' 26 6 = 45#6) :
    Yields (HasWords (w.extractLsb' 0 3) w 0#32) (decodeMajor2D w) := by
  refine .dite (fun hbit => ?_) fun hmerge => .ite .none fun hz => .words rfl ?_
  · replace hbit := (BitVec.eq_zero_or_eq_one _).resolve_right hbit
    refine .ite (.ite .none fun hz => .words rfl ?_) fun htee => .ite .none fun hz => .words rfl ?_
    · simp only [↓append_eq_extract_iff, BitVec.reduceExtractLsb', *, and_self]
    · simp only [↓append_eq_extract_iff, BitVec.reduceExtractLsb', *, and_self, true_and, and_true]
      simp only [← BitVec.toNat_inj, BitVec.extractLsb'_toNat, Nat.shiftRight_eq_div_pow, BitVec.toNat_ofNat] at *
      omega
  · simp only [↓append_eq_extract_iff, BitVec.reduceExtractLsb', *, and_self]

/-- R181, R187: every test on the way to an instruction finds a literal of its encoding at the literal's place, and the operands are the
fields that the tests leave over. First the 51 majors are told apart, which says where the guard stands and whether there is a second word;
then the tests of each major. What is left after the fields that are tested whole are the literals that are tested in pieces. -/
theorem decodeRaw_hasWords (w v : BitVec 32) : Yields (HasWords (guardOf w) w (if isWide w then v else 0#32)) (decodeRaw w v) := by
  unfold decodeRaw decodeMajor00 decodeMajor01 decodeMajor02 decodeMajor03 decodeMajor04 decodeMajor05 decodeMajor06 decodeMajor07
    decodeMajor08 decodeMajor09 decodeMajor0A decodeMajor0B decodeMajor0C decodeMajor0D decodeMajor0E decodeMajor10 decodeMajor11
    decodeMajor12 decodeMajor13 decodeMajor14 decodeMajor15 decodeMajor16 decodeMajor17 decodeMajor18 decodeMajor19 decodeMajor1A
    decodeMajor1B decodeMajor1C decodeMajor1D decodeMajor20 decodeMajor21 decodeMajor22 decodeMajor23 decodeMajor24 decodeMajor25
    decodeMajor26 decodeMajor27 decodeMajor28 decodeMajor29 decodeMajor2A decodeMajor2C decodeMajor2E decodeMajor2F decodeMajor30
    decodeMajor31 decodeMajor32 decodeMajor33 decodeMajor34 decodeMajor35 decodeMajor36
  iterate 51 refine .ite ?_ fun _ => ?_
  · exact .none
  all_goals simp only [guardOf, isWide, *, BitVec.reduceEq, BitVec.reduceLE, decide_true, decide_false, Bool.or_true, Bool.or_false,
    Bool.and_true, Bool.and_false, Bool.false_eq_true, ↓reduceIte]
  -- The majors stand in falling order, 0x36 first; 0x2D is the tenth.
  on_goal 10 => exact decodeMajor2D_hasWords ‹_›
  all_goals with_reducible repeat' refine .ite ?_ fun _ => ?_
  any_goals exact .none
  all_goals refine .words rfl ?_
  all_goals simp only [↓append_eq_extract_iff, BitVec.reduceExtractLsb', *, and_self, true_and, and_true]
  all_goals simp only [← BitVec.toNat_inj, BitVec.extractLsb'_toNat, Nat.shiftRight_eq_div_pow, BitVec.toNat_ofNat] at *
  all_goals omega

/-! ## Switch instructions (R298, R300) -/

/-- The operation code of a switch word that decodes is that of its instruction. -/
theorem decodeSwitch_code (w : BitVec 64) : Yields (fun i => switchCode i = some (w.extractLsb' 11 5)) (decodeSwitch w) := by
  unfold decodeSwitch
  with_reducible repeat' refine .ite ?_ fun _ => ?_
  any_goals exact .none
  all_goals exact .some (congrArg some ‹w.extractLsb' 11 5 = _›).symm

/-- R298: a switch word that decodes is the encoder's with its routes and its operand. -/
theorem encodeSwitch_decodeSwitch {w : BitVec 64} {i : Instr} (h : decodeSwitch w = some i) :
    encodeSwitch i (w.extractLsb' 16 48) (w.extractLsb' 0 11) = some w := by
  rw [encodeSwitch, decodeSwitch_code w i h, Option.map_some, ← extract_add w 11 48 5, ← extract_add w 0 53 11, BitVec.extractLsb'_eq_self]

section

variable (r : BitVec 48) (c : BitVec 5) (o : BitVec 11)

theorem switchWord_routes : (r ++ c ++ o).extractLsb' 16 48 = r := by
  simp only [extract_append_high, Nat.reduceLeDiff, Nat.reduceSub, BitVec.extractLsb'_eq_self]

theorem switchWord_code : (r ++ c ++ o).extractLsb' 11 5 = c := by
  simp only [extract_append_high, extract_append_low, Nat.reduceLeDiff, Nat.reduceAdd, Nat.reduceSub, BitVec.extractLsb'_eq_self]

theorem switchWord_operand {a n : Nat} (h : a + n ≤ 11) : (r ++ c ++ o).extractLsb' a n = o.extractLsb' a n := extract_append_low h

end

theorem testOk_iff {x c : BitVec 4} : testOk x c ↔ 1 ≤ x.toNat ∧ x.toNat ≤ 12 ∧ c.toNat ≤ 13 := by
  simp only [testOk, BitVec.le_def, BitVec.lt_def, BitVec.toNat_ofNat]
  omega

theorem routesOk_of_le {r : BitVec 48} (h : ∀ j, j < 12 → (r.extractLsb' (4 * j) 4).toNat ≤ 12) : routesOk r :=
  fun j hj => BitVec.lt_def.2 (Nat.lt_succ_of_le (h j (List.mem_range.1 hj)))

theorem switchCode_of_switchLegal {i : Instr} {o : BitVec 11} (ho : Claims.switchLegal i o) : ∃ c, switchCode i = some c := by
  rcases ho with ⟨rfl, -⟩ | ⟨rfl, -⟩ | rfl | ⟨rfl, -⟩ | ⟨rfl, -⟩ | ⟨rfl, -⟩ | ⟨rfl, -⟩ | ⟨rfl, -⟩
  all_goals exact ⟨_, rfl⟩

/-- R298, R300: with legal routes and a legal operand, the word decodes as the operation that its code names. -/
theorem decodeSwitch_word {i : Instr} {r : BitVec 48} {o : BitVec 11} {c : BitVec 5} (hr : routesOk r) (hc : switchCode i = some c)
    (ho : Claims.switchLegal i o) : decodeSwitch (r ++ c ++ o) = some i := by
  have hroutes : routesOk ((r ++ c ++ o).extractLsb' 16 48) := (switchWord_routes r c o).symm ▸ hr
  rw [decodeSwitch, if_pos hroutes, switchWord_code]
  simp only [switchWord_operand, Nat.reduceAdd, Nat.reduceLeDiff]
  rcases ho with ⟨rfl, rfl⟩ | ⟨rfl, rfl⟩ | rfl | ⟨rfl, h⟩ | ⟨rfl, h⟩ | ⟨rfl, h⟩ | ⟨rfl, hx, hx', ht, h⟩ | ⟨rfl, hx, hx', h⟩
  all_goals cases hc
  all_goals simp only [BitVec.reduceEq, ↓reduceIte]
  -- `snext` and `shalt` have no operand, `sloop` takes any and is done; the others in the order of R300.
  iterate 2 · rfl
  · exact if_pos h
  · exact if_pos (extract_one_of_getLsbD h)
  · exact if_pos (testOk_iff.2 h)
  · exact if_pos ⟨testOk_iff.2 ⟨hx, hx', ht⟩, h⟩
  · exact if_pos ⟨testOk_iff.2 ⟨hx, hx', by decide⟩, h⟩

/-! ## Frames of an image (R303, R304) -/

/-- The word has the zero field of every frame, the kind of `i` and, in a BANK frame, the bit that tells a claim from data. -/
def FrameOf (w : BitVec 256) (i : Instr) : Prop :=
  w.extractLsb' 244 3 = 0#3 ∧ ∃ b, frameCode i = some (w.extractLsb' 248 8, b) ∧ (w.extractLsb' 248 8 = 4#8 → w.extractLsb' 215 1 = b)

section

variable {w : BitVec 256} {i : Instr} (hz : w.extractLsb' 244 3 = 0#3)
include hz

theorem frameOf_bank {b : BitVec 1} (hi : frameCode i = some (4#8, b)) (hk : w.extractLsb' 248 8 = 4#8) (hb : w.extractLsb' 215 1 = b) :
    FrameOf w i := ⟨hz, b, by rw [hi, hk], fun _ => hb⟩

theorem frameOf_other {k : BitVec 8} {b : BitVec 1} (hi : frameCode i = some (k, b)) (hk : w.extractLsb' 248 8 = k) (hne : k ≠ 4#8) :
    FrameOf w i := ⟨hz, b, by rw [hi, hk], fun h => absurd (hk.symm.trans h) hne⟩

end

theorem decodeFrame_frameOf (w : BitVec 256) : Yields (FrameOf w) (decodeFrame w) := by
  refine .ite .none fun hz => ?_
  iterate 3 refine .ite ?_ fun hk => .ite .none fun _ => .some (frameOf_other hz rfl hk (by decide))
  refine .ite ?_ fun hk => ?bank
  iterate 4 refine .ite ?_ fun hk => .ite .none fun _ => .some (frameOf_other hz rfl hk (by decide))
  · exact .none
  case bank =>
    refine .dite (fun hdata => .ite .none fun _ => .some ?_) fun hclaim => ?_
    · exact frameOf_bank hz rfl hk ((BitVec.eq_zero_or_eq_one _).resolve_left hdata)
    refine .ite .none fun _ => .ite (.ite .none fun _ => .some ?_) fun _ => .ite .none fun _ => .some ?_
    all_goals exact frameOf_bank hz rfl hk hclaim

/-- R303: a frame that decodes is the encoder's with its shadow bit, core mask, rectangle and body. -/
theorem encodeFrame_decodeFrame {w : BitVec 256} {i : Instr} (h : decodeFrame w = some i) :
    encodeFrame i (w.extractLsb' 247 1) (w.extractLsb' 240 4) (w.extractLsb' 216 24) (w.extractLsb' 0 216) = some w := by
  obtain ⟨hz, b, hcode, hbank⟩ := decodeFrame_frameOf w i h
  rw [encodeFrame, hcode, Option.map_some]
  refine congrArg some (Eq.trans ?_ (BitVec.extractLsb'_eq_self (x := w)))
  split
  case isTrue hk =>
    rw [extract_extract _ _ _ _ _ (by decide), ← hbank hk]
    simp only [↓append_eq_extract_iff, Nat.reduceAdd, hz, and_self]
  case isFalse => simp only [↓append_eq_extract_iff, Nat.reduceAdd, hz, and_self]

/-! ## O57 and O58. Words and instructions -/

/-- Settles O57: each program instruction by its fields (`decodeRaw_encode`), each switch instruction by its routes, code and operand. -/
theorem decodeOfEncode : Obligations.DecodeOfEncode := by
  refine ⟨fun i g w v hi h => ⟨decode_eq_some_iff.2 ⟨decodeRaw_encode hi h, hi⟩, guardOf_encode h⟩, fun i r o hr ho => ?_⟩
  obtain ⟨c, hc⟩ := switchCode_of_switchLegal ho
  have hword : encodeSwitch i r o = some (r ++ c ++ o) := by rw [encodeSwitch, hc, Option.map_some]
  exact ⟨r ++ c ++ o, hword, decodeSwitch_word (routesOk_of_le hr) hc ho, switchWord_routes r c o,
    (switchWord_operand r c o (by decide)).trans BitVec.extractLsb'_eq_self⟩

/-- Settles O58: whatever a decoder finds has the words that it was found in, for programs, switches and frames. -/
theorem encodeOfDecode : Obligations.EncodeOfDecode := by
  refine ⟨fun w v i h => ?_, fun w i => encodeSwitch_decodeSwitch, fun w i => encodeFrame_decodeFrame⟩
  obtain ⟨hraw, hwf⟩ := decode_eq_some_iff.1 h
  exact ⟨hwf, decodeRaw_hasWords w v i hraw⟩

/-- Settles O56: each word of the manual's examples, decoded. -/
theorem decodeExamples : Obligations.DecodeExamples := by
  unfold Obligations.DecodeExamples
  and_intros
  all_goals rfl

end Sys2Proof.Machine

namespace Sys2Proof.Machine

/-! ## O26. Records that reach a context and its handler (R239) -/

theorem Ctx.handler_of_takesRecord {c : Ctx} (h : c.takesRecord = true) : c.handler = false := by
  cases hh : c.handler with
  | false => rfl
  | true =>
    rw [Ctx.takesRecord, hh, Bool.not_true, Bool.and_false, Bool.false_and, Bool.false_and, Bool.false_and] at h
    exact nomatch h

/-- R294: a fault of the context whose turn it is, with a handler free, enters the handler. -/
theorem State.fault_handling {s : State} (f : Trap) (hh : s.me.handler = false) (hv : s.me.trapvec ≠ 0) :
    s.fault f = (s.setMe (Claims.handling s.me f s.me.ip)).used := by
  rw [State.fault, State.deliver_handling s s.cur.ctx f s.me.ip hh hv]
  rfl

/-- R239: a record that the context can take leaves its queue, ends the instruction it sleeps in and is a fault. -/
theorem execAsyncFaultDelivery_takes {s : State} {r : AsyncRec} {rs : List AsyncRec} (ht : s.me.takesRecord = true)
    (ha : s.me.async = r :: rs) : execAsyncFaultDelivery s =
      .next ((s.setMe { s.me with async := rs, asyncDrop := 0, wait := .none, heldIns := [], heldLen := 0 }).fault
        ⟨0x0A, r.addr, r.info s.me.asyncDrop⟩) := by
  rw [execAsyncFaultDelivery, ht, ha]

/-- R239: a record for a live context is queued, or counted as dropped when four wait. -/
theorem State.queueRecord_live {s : State} {k : Nat} (r : AsyncRec) (hl : (s.ctx k).run = .live) :
    s.queueRecord k r = s.setCtx k
      (if 4 ≤ (s.ctx k).async.length then { s.ctx k with asyncDrop := if (s.ctx k).asyncDrop = 255 then 255 else (s.ctx k).asyncDrop + 1 }
        else { s.ctx k with async := (s.ctx k).async ++ [r] }) := by
  simp only [State.queueRecord, hl, apply_ite (s.setCtx k)]

/-- Settles O26: the two faults found before an instruction is known, the delivery of a record to its handler, and its arrival. -/
theorem contextFaultEvents : Obligations.ContextFaultEvents := by
  refine ⟨fun s => ⟨rfl, rfl⟩, fun s r rs ht ha hv => ?_, fun s k r rs hs hl => ?_⟩
  · refine (execAsyncFaultDelivery_takes ht ha).trans (congrArg _ ?_)
    rw [State.fault_handling] <;> simp only [State.me_setMe, State.setMe_setMe]
    · rfl
    · exact Ctx.handler_of_takesRecord ht
    · exact hv
  · change execAsyncFaultArrival s = _
    rw [execAsyncFaultArrival, hs]
    exact congrArg _ (State.queueRecord_live r hl)

end Sys2Proof.Machine

namespace Sys2Proof.Machine

/-! ## O1, O2. Values of the scalar forms (R208, R212, R114)

What the model computes for a form, as the statements write it. -/

theorem amount_eq (b : W64) : amount b = b.toNat % 64 := by
  rw [amount, BitVec.extractLsb'_toNat, Nat.shiftRight_zero]

/-- The sign-extended value is that of the low bits in two's complement (R208). -/
theorem signExt_eq (n : Nat) (a : W64) : signExt n a = (a.setWidth n).signExtend 64 := by
  have h : sext a.toNat n = (a.setWidth n).toInt := by
    simp only [BitVec.toInt_eq_toNat_cond, BitVec.toNat_setWidth, sext, ← not_le, ite_not]
  rw [signExt, h]
  rfl

theorem zeroExt_eq (n : Nat) (a : W64) : zeroExt n a = (a.setWidth n).setWidth 64 := by
  apply BitVec.eq_of_toNat_eq
  simp [zeroExt]

/-- From bit `n` down, the library's count adds the zeros above it. -/
theorem clzAuxRec_eq_leadingZeros (a : W64) (n : Nat) (h : n < 64) :
    a.clzAuxRec n = BitVec.ofNat 64 (63 - n + leadingZeros a (n + 1)) := by
  induction n with
  | zero =>
    rw [BitVec.clzAuxRec_zero, leadingZeros]
    split <;> rfl
  | succ n ih =>
    rw [BitVec.clzAuxRec_succ, leadingZeros]
    split
    · rfl
    · rw [ih (by omega)]
      congr 1
      omega

theorem clz_eq_leadingZeros (a : W64) : a.clz = BitVec.ofNat 64 (leadingZeros a 64) := by
  rw [BitVec.clz, clzAuxRec_eq_leadingZeros a 63 (by decide)]
  congr 1
  exact Nat.zero_add _

theorem leadingZeros_reverse (a : W64) (n : Nat) (h : n ≤ 64) : leadingZeros a.reverse n = trailingZeros a n := by
  induction n with
  | zero => rfl
  | succ n ih =>
    have hbit : a.reverse.getLsbD n = a.getLsbD (63 - n) := by
      rw [BitVec.getLsbD_reverse, BitVec.getMsbD, decide_eq_true (by omega), Bool.true_and]
    rw [leadingZeros, trailingZeros, hbit, ih (by omega)]

theorem ctz_eq_trailingZeros (a : W64) : a.ctz = BitVec.ofNat 64 (trailingZeros a 64) := by
  rw [BitVec.ctz, clz_eq_leadingZeros, leadingZeros_reverse a 64 le_rfl]

theorem cpopNatRec_eq_oneBits (a : W64) (n acc : Nat) : a.cpopNatRec n acc = oneBits a n + acc := by
  induction n generalizing acc with
  | zero => exact (Nat.zero_add acc).symm
  | succ n ih =>
    rw [BitVec.cpopNatRec_succ, ih, oneBits]
    cases a.getLsbD n <;> simp [Nat.add_assoc, Nat.add_comm]

theorem cpop_eq_oneBits (a : W64) : a.cpop = BitVec.ofNat 64 (oneBits a 64) := by
  rw [BitVec.cpop, cpopNatRec_eq_oneBits, Nat.add_zero]

/-! The smaller and the larger of two words, as signed and as unsigned numbers. -/

theorem min_signed (a b : W64) : (if b.slt a then b else a) = if a.toInt ≤ b.toInt then a else b := by
  simp only [BitVec.slt_iff_toInt_lt, ← not_le, ite_not]

theorem max_signed (a b : W64) : (if a.slt b then b else a) = if a.toInt ≤ b.toInt then b else a := by
  simp only [BitVec.slt_iff_toInt_lt, le_iff_lt_or_eq, BitVec.toInt_inj]
  by_cases h : a = b <;> simp [h]

theorem min_unsigned (a b : W64) : (if b.ult a then b else a) = if a.toNat ≤ b.toNat then a else b := by
  simp only [BitVec.ult_iff_toNat_lt, ← not_le, ite_not]

theorem max_unsigned (a b : W64) : (if a.ult b then b else a) = if a.toNat ≤ b.toNat then b else a := by
  simp only [BitVec.ult_iff_toNat_lt, le_iff_lt_or_eq, BitVec.toNat_inj]
  by_cases h : a = b <;> simp [h]

/-! R114: quotients and remainders, signed and unsigned. -/

theorem toInt_eq_zero_iff (b : W64) : b.toInt = 0 ↔ b = 0 := by
  rw [← BitVec.toInt_zero (w := 64), BitVec.toInt_inj]
  rfl

theorem toNat_eq_zero_iff (b : W64) : (b.toNat : Int) = 0 ↔ b = 0 := by
  rw [Int.natCast_eq_zero, ← BitVec.toNat_inj]
  rfl

theorem divide_signed (a b : W64) : BitVec.ofInt 64 (divide 64 true a.toInt b.toInt) = Claims.quotient a b := by
  simp only [divide, Claims.quotient, toInt_eq_zero_iff]
  split <;> rfl

theorem divide_unsigned (a b : W64) :
    BitVec.ofInt 64 (divide 64 false a.toNat b.toNat) = if b = 0 then BitVec.allOnes 64 else a / b := by
  simp only [divide, toNat_eq_zero_iff]
  split
  · rfl
  · rw [← Int.ofNat_tdiv, BitVec.ofInt_natCast, BitVec.udiv_def]

theorem remainder_signed (a b : W64) : BitVec.ofInt 64 (remainder a.toInt b.toInt) = Claims.modulus a b := by
  simp only [remainder, Claims.modulus, toInt_eq_zero_iff]
  split
  · exact BitVec.ofInt_toInt
  · rfl

theorem remainder_unsigned (a b : W64) :
    BitVec.ofInt 64 (remainder a.toNat b.toNat) = if b = 0 then a else a % b := by
  simp only [remainder, toNat_eq_zero_iff]
  split
  · rw [BitVec.ofInt_natCast, BitVec.ofNat_toNat, BitVec.setWidth_eq]
  · rw [← Int.ofNat_tmod, BitVec.ofInt_natCast, BitVec.umod_def]

theorem mul_toInt (a b : W64) : a * b = BitVec.ofInt 64 (a.toInt * b.toInt) := by
  rw [BitVec.ofInt_mul, BitVec.ofInt_toInt, BitVec.ofInt_toInt]

theorem fdiv_two_pow (x : Int) : Int.fdiv x (2 ^ 64) = x / 2 ^ 64 := Int.fdiv_eq_ediv_of_nonneg x (by decide)

/-- R208: a saturating form clamps to its range, and the flag says whether that changed the result. -/
theorem clampTo_eq (sg : Bool) (n : Nat) (t : Int) (h : intMin sg n ≤ intMax sg n) : clampTo sg n t =
    (max (intMin sg n) (min (intMax sg n) t), if max (intMin sg n) (min (intMax sg n) t) = t then 0 else flSaturated) := by
  unfold clampTo
  split
  · rw [min_eq_right (by omega), max_eq_left (by omega), if_neg (by omega)]
  · split
    · rw [min_eq_left (by omega), max_eq_right h, if_neg (by omega)]
    · rw [min_eq_right (by omega), max_eq_right (by omega), if_pos rfl]

/-! ## Conditions (R213) -/

theorem condition_iff (c : BitVec 4) (a b : W64) : condition c a b = true ↔ Claims.cond c.toNat a b := by
  unfold condition Claims.cond
  split <;> simp [*, BitVec.slt_eq_decide, BitVec.ult_eq_decide]

/-! ## All predicates at once (R215) -/

/-- The word whose low `n` bits are those of `f` (R215). -/
def packBits (f : Nat → Bool) (n : Nat) : Nat := (List.range n).foldl (fun v i => if f i then v + 2 ^ i else v) 0

theorem packBits_succ (f : Nat → Bool) (n : Nat) :
    packBits f (n + 1) = if f n then packBits f n + 2 ^ n else packBits f n := by
  rw [packBits, List.range_succ, List.foldl_append]
  rfl

theorem packBits_lt (f : Nat → Bool) (n : Nat) : packBits f n < 2 ^ n := by
  induction n with
  | zero => exact Nat.one_pos
  | succ n ih =>
    rw [packBits_succ]
    split <;> omega

theorem testBit_packBits (f : Nat → Bool) (n i : Nat) : (packBits f n).testBit i = (decide (i < n) && f i) := by
  induction n with
  | zero => simp [packBits]
  | succ n ih =>
    have hi : i < n + 1 ↔ i < n ∨ n = i := by omega
    have hor : packBits f n + 2 ^ n = 2 ^ n ||| packBits f n := by
      simpa [Nat.add_comm] using Nat.two_pow_add_eq_or_of_lt (packBits_lt f n) 1
    rw [packBits_succ, hor]
    split
    case isTrue h =>
      rw [Nat.testBit_or, ih, Nat.testBit_two_pow]
      by_cases hn : n = i
      · simp [← hn, h]
      · simp [hi, hn]
    case isFalse h =>
      rw [ih]
      by_cases hn : n = i
      · simp [← hn, h]
      · simp [hi, hn]

/-- A predicate after `pwrall` of `n` bits (R215): p0 stays true. -/
theorem Ctx.p_foldl_setP (c : Ctx) (f : Nat → Bool) (n j : Nat) :
    ((List.range n).foldl (fun c i => c.setP i (f i)) c).p j = if 0 < j ∧ j < n then f j else c.p j := by
  induction n with
  | zero => rw [if_neg (by omega)]; rfl
  | succ n ih =>
    rw [List.range_succ, List.foldl_append, List.foldl_cons, List.foldl_nil, Ctx.p_setP, ih]
    by_cases hj : j = n
    · subst hj
      simp [Nat.pos_iff_ne_zero]
    · have hlt : j < n + 1 ↔ j < n := by omega
      simp [hj, hlt]

/-- Predicates alone have changed. -/
theorem Ctx.setP_eq (c : Ctx) (n : Nat) (v : Bool) : c.setP n v = { c with preds := (c.setP n v).preds } := by
  unfold Ctx.setP
  split <;> rfl

theorem Ctx.foldl_setP_eq (f : Nat → Bool) (l : List Nat) (c : Ctx) : l.foldl (fun c i => c.setP i (f i)) c =
    { c with preds := (l.foldl (fun c i => c.setP i (f i)) c).preds } := by
  induction l generalizing c with
  | nil => rfl
  | cons i l ih =>
    rw [List.foldl_cons]
    refine (ih _).trans ?_
    rw [Ctx.setP_eq]

/-! ## The forms as the model runs them -/

/-! Two operations that agree on every operand are one instruction. -/

theorem alu2_congr {f g : W64 → W64 → W64} (h : ∀ x y, f x y = g x y) (s : State) (d a b : BitVec 5) :
    (.next (s.alu2 f d a b) : Host.Outcome State Fault Refusal) = .next (s.alu2 g d a b) := by
  rw [funext₂ h]

theorem alu1_congr {f g : W64 → W64} (h : ∀ x, f x = g x) (s : State) (d a : BitVec 5) :
    (.next (s.alu1 f d a) : Host.Outcome State Fault Refusal) = .next (s.alu1 g d a) := by
  rw [funext h]

/-- Each form of R208 and R212 that wraps is the instruction shape over its result. -/
theorem exec_binary : ∀ p ∈ Claims.binary, ∀ (s : State) (d a b : BitVec 5), exec (p.1 d a b) s = .next (s.alu2 p.2 d a b) := by
  simp only [Claims.binary, List.forall_mem_cons]
  refine ⟨?add, ?sub, ?and, ?or, ?xor, ?andn, ?shl, ?shr, ?sar, ?rol, ?ror, ?min, ?max, ?minu, ?maxu, ?mul, ?mulh, ?mulhu, ?mulhsu,
    ?div, ?rem, ?divu, ?remu, List.forall_mem_nil _⟩
  case shl | shr | sar => exact alu2_congr fun x y => by rw [amount_eq]
  case rol => exact alu2_congr fun x y => by rw [amount_eq, BitVec.rotateLeft_eq_rotateLeftAux_of_lt (by omega)]; rfl
  case ror => exact alu2_congr fun x y => by rw [amount_eq, BitVec.rotateRight_eq_rotateRightAux_of_lt (by omega)]; rfl
  case min => exact alu2_congr min_signed
  case max => exact alu2_congr max_signed
  case minu => exact alu2_congr min_unsigned
  case maxu => exact alu2_congr max_unsigned
  case mul => exact alu2_congr mul_toInt
  case mulh | mulhsu => exact alu2_congr fun x y => by rw [fdiv_two_pow]
  case div => exact alu2_congr divide_signed
  case rem => exact alu2_congr remainder_signed
  case divu => exact alu2_congr divide_unsigned
  case remu => exact alu2_congr remainder_unsigned
  all_goals exact fun _ _ _ _ => rfl

/-- The same for each one-operand and immediate form of R208 to R210. -/
theorem exec_unary (i : BitVec 13) (n : BitVec 6) :
    ∀ p ∈ Claims.unary i n, ∀ (s : State) (d a : BitVec 5), exec (p.1 d a) s = .next (s.alu1 p.2 d a) := by
  have hn : n.toNat < 64 := n.isLt
  simp only [Claims.unary, List.forall_mem_cons]
  refine ⟨?mov, ?sxb, ?sxh, ?sxw, ?zxb, ?zxh, ?zxw, ?clz, ?ctz, ?pcnt, ?addi, ?andi, ?ori, ?xori, ?shli, ?shri, ?sari, ?roli, ?rori,
    List.forall_mem_nil _⟩
  case sxb => exact alu1_congr (signExt_eq 8)
  case sxh => exact alu1_congr (signExt_eq 16)
  case sxw => exact alu1_congr (signExt_eq 32)
  case zxb => exact alu1_congr (zeroExt_eq 8)
  case zxh => exact alu1_congr (zeroExt_eq 16)
  case zxw => exact alu1_congr (zeroExt_eq 32)
  case clz => exact alu1_congr fun x => (clz_eq_leadingZeros x).symm
  case ctz => exact alu1_congr fun x => (ctz_eq_trailingZeros x).symm
  case pcnt => exact alu1_congr fun x => (cpop_eq_oneBits x).symm
  case roli => exact alu1_congr fun x => BitVec.rotateLeft_eq_rotateLeftAux_of_lt hn
  case rori => exact alu1_congr fun x => BitVec.rotateRight_eq_rotateRightAux_of_lt hn
  all_goals exact fun _ _ _ => rfl

/-- The predicate forms of R215 combine two predicates. -/
theorem exec_logic (b : BitVec 3) :
    ∀ p ∈ Claims.logic b, ∀ (s : State) (d a : BitVec 3), exec (p.1 d a) s = .next (s.pred2 p.2 d a b) := by
  simp only [Claims.logic, List.forall_mem_cons]
  refine ⟨?pand, ?por, ?pxor, ?pandn, ?pnot, List.forall_mem_nil _⟩
  all_goals exact fun _ _ _ => rfl

/-! ## O1, O2. Ready forms -/

theorem State.alu2_ready (f : W64 → W64 → W64) {s : State} {d a b : BitVec 5} (h : s.ready [rd a, rd b] [d] = true) :
    s.alu2 f d a b = (s.put d (f (s.src [rd a, rd b] 0) (s.src [rd a, rd b] 1))).finish 4 [rd a, rd b] :=
  State.issueS_ready _ _ _ _ _ h

theorem State.alu1_ready (f : W64 → W64) {s : State} {d a : BitVec 5} (h : s.ready [rd a] [d] = true) :
    s.alu1 f d a = (s.put d (f (s.src [rd a] 0))).finish 4 [rd a] :=
  State.issueS_ready _ _ _ _ _ h

theorem State.pred2_ready (f : Bool → Bool → Bool) {s : State} {d a b : BitVec 3} (h : s.ready [] [] = true) :
    s.pred2 f d a b = (s.putP d (f (s.me.p a.toNat) (s.me.p b.toNat))).finish 4 [] :=
  State.issueS_ready _ _ _ _ _ h

/-- R208: a saturating form clamps its exact result, and its flag says whether that changed it. -/
theorem State.aluSat_ready (sg : Bool) (f : W64 → W64 → Int) {s : State} {d a b : BitVec 5} (h : s.ready [rd a, rd b] [d] = true) :
    let t := f (s.src [rd a, rd b] 0) (s.src [rd a, rd b] 1)
    let x := max (intMin sg 64) (min (intMax sg 64) t)
    s.aluSat sg f d a b = ((s.put d (BitVec.ofInt 64 x)).flags (if x = t then 0 else 16)).finish 4 [rd a, rd b] := by
  have hrange : intMin sg 64 ≤ intMax sg 64 := by cases sg <;> decide
  intro t x
  rw [State.aluSat, State.issueS_ready _ _ _ _ _ h, State.conclude_ok, clampTo_eq sg 64 _ hrange]
  rfl

theorem scalarBinary : Parts.ScalarBinary := fun p hp s d a b h => by
  rw [exec_binary p hp, State.alu2_ready p.2 h]

theorem scalarSaturating : Parts.ScalarSaturating := by
  unfold Parts.ScalarSaturating
  simp only [Claims.saturating, List.forall_mem_cons]
  refine ⟨?adds, ?subs, ?addus, ?subus, List.forall_mem_nil _⟩
  case adds | subs => exact fun s d a b h => congrArg _ (State.aluSat_ready true _ h)
  case addus | subus => exact fun s d a b h => congrArg _ (State.aluSat_ready false _ h)

/-- Settles O1: the forms that wrap, by their lemma over their list, and the four that saturate. -/
theorem scalarArithmetic : Obligations.ScalarArithmetic := ⟨scalarBinary, scalarSaturating⟩

theorem scalarUnary : Parts.ScalarUnary := fun i n p hp s d a h => by
  rw [exec_unary i n p hp, State.alu1_ready p.2 h]

/-! ### Constants, predicates read, selection and addresses (R211, R215 to R217) -/

section
variable {s : State} {d : BitVec 5}

theorem exec_lhi_ready (h : BitVec 2) (c : BitVec 16) (hr : s.ready [] [d] = true) : exec (.lhi d h c) s = .next ((s.put d
    (BitVec.ofNat 64 ((s.me.s d.toNat).toNat % 2 ^ (16 * h.toNat) + c.toNat * 2 ^ (16 * h.toNat)))).finish 4 []) :=
  congrArg _ (State.issueS_ready _ _ _ _ _ hr)

theorem exec_prds_ready (a : BitVec 3) (hr : s.ready [] [d] = true) :
    exec (.prds d a) s = .next ((s.put d (if s.me.p a.toNat then 1 else 0)).finish 4 []) :=
  congrArg _ (State.issueS_ready _ _ _ _ _ hr)

theorem exec_prdall_ready (hr : s.ready [] [d] = true) :
    exec (.prdall d) s = .next ((s.put d (BitVec.ofNat 64 (packBits s.me.p 8))).finish 4 []) :=
  congrArg _ (State.issueS_ready _ _ _ _ _ hr)

theorem exec_sel_ready (a b : BitVec 5) (n : BitVec 3) (hr : s.ready [rd a, rd b] [d] = true) : exec (.sel d a b n) s = .next ((s.put d
    (if s.me.p n.toNat then s.src [rd a, rd b] 0 else s.src [rd a, rd b] 1)).finish 4 [rd a, rd b]) :=
  congrArg _ (State.issueS_ready _ _ _ _ _ hr)

/-- R185: a relative target is the immediate in words from IP. -/
theorem State.relative_toInt (s : State) {w : Nat} (o : BitVec w) :
    s.relative o.toInt = s.me.ip.setWidth 64 + o.signExtend 64 * 4 := by
  rw [State.relative, BitVec.ofInt_mul]
  rfl

theorem exec_ipa_ready (i : BitVec 18) (hr : s.ready [] [d] = true) :
    exec (.ipa d i) s = .next ((s.put d (s.me.ip.setWidth 64 + i.signExtend 64 * 4)).finish 4 []) := by
  rw [← s.relative_toInt i]
  exact congrArg _ (State.issueS_ready _ _ _ _ _ hr)

end

/-- The bits of the word that `prdall` reads. -/
theorem getLsbD_packBits (f : Nat → Bool) (i : Nat) : (BitVec.ofNat 64 (packBits f 8)).getLsbD i = (decide (i < 8) && f i) := by
  rw [BitVec.getLsbD_ofNat, testBit_packBits]
  by_cases hi : i < 8
  · simp [hi, Nat.lt_trans hi (by decide : 8 < 64)]
  · simp [hi]

theorem decode_of_encode {i : Instr} {g : BitVec 3} {w v : BitVec 32} (hw : wellFormed i = true) (he : encode i g = some (w, v)) :
    decode w v = some i :=
  decode_eq_some_iff.2 ⟨decodeRaw_encode hw he, hw⟩

theorem scalarFormed : Parts.ScalarFormed := by
  refine ⟨fun s d h c hr => exec_lhi_ready h c hr, fun s d a hr => exec_prds_ready a hr, fun s d hr => ?prdall,
    fun s d a b n hr => exec_sel_ready a b n hr, fun s d i g => ⟨?decode, exec_ipa_ready i⟩⟩
  case prdall =>
    refine ⟨_, exec_prdall_ready hr, getLsbD_packBits _ 0, fun i hi => ?_, fun i hi => ?_⟩
    · rw [getLsbD_packBits, decide_eq_true hi, Bool.true_and]
    · rw [getLsbD_packBits, decide_eq_false (Nat.not_lt.2 hi), Bool.false_and]
  case decode => exact decode_of_encode (i := .ipa d i) (g := g) rfl rfl

/-! ### Predicates written (R213 to R215) -/

section
variable {s : State}

theorem exec_cmp_ready (d : BitVec 3) (a b : BitVec 5) (m : BitVec 2) (c : BitVec 4) (hr : s.ready [rd a, rd b] [] = true) :
    exec (.cmp d a b m c) s = .next ((s.putP d
      (if m.toNat = 0 then condition c (s.src [rd a, rd b] 0) (s.src [rd a, rd b] 1)
        else if m.toNat = 1 then s.me.p d.toNat && condition c (s.src [rd a, rd b] 0) (s.src [rd a, rd b] 1)
        else s.me.p d.toNat || condition c (s.src [rd a, rd b] 0) (s.src [rd a, rd b] 1))).finish 4 [rd a, rd b]) :=
  congrArg _ (State.issueS_ready _ _ _ _ _ hr)

theorem exec_cmpi_ready (d : BitVec 3) (a : BitVec 5) (c : BitVec 3) (i : BitVec 10) (hr : s.ready [rd a] [] = true) :
    exec (.cmpi d a c i) s = .next ((s.putP d (condition (c.setWidth 4) (s.src [rd a] 0)
      (if c.toNat < 4 then i.signExtend 64 else i.setWidth 64))).finish 4 [rd a]) :=
  congrArg _ (State.issueS_ready _ _ _ _ _ hr)

theorem exec_pwrs_ready (d : BitVec 3) (a : BitVec 5) (hr : s.ready [rd a] [] = true) :
    exec (.pwrs d a) s = .next ((s.putP d ((s.src [rd a] 0).getLsbD 0)).finish 4 [rd a]) :=
  congrArg _ (State.issueS_ready _ _ _ _ _ hr)

theorem exec_pwrall_ready (a : BitVec 5) (hr : s.ready [rd a] [] = true) : exec (.pwrall a) s = .next
    ((s.setMe ((List.range 8).foldl (fun c i => c.setP i ((s.src [rd a] 0).getLsbD i)) s.me)).finish 4 [rd a]) :=
  congrArg _ (State.issueS_ready _ _ _ _ _ hr)

end

theorem predicateWrites : Parts.PredicateWrites := by
  refine ⟨fun s d a b m c hr _ _ => ⟨_, condition_iff c _ _, ?cmp⟩, fun s d a c i hr => ⟨_, ?cond, exec_cmpi_ready d a c i hr⟩,
    fun b p hp s d a hr => ?logic, fun s d a hr => exec_pwrs_ready d a hr, fun s a hr => ⟨_, exec_pwrall_ready a hr, ?all⟩⟩
  case cmp =>
    have h0 : m.toNat = 0 ↔ m = 0 := BitVec.toNat_inj (y := 0#2)
    have h1 : m.toNat = 1 ↔ m = 1 := BitVec.toNat_inj (y := 1#2)
    rw [exec_cmp_ready d a b m c hr]
    simp only [h0, h1]
    rfl
  case cond =>
    have h := condition_iff (c.setWidth 4) (s.src [rd a] 0) (if c.toNat < 4 then i.signExtend 64 else i.setWidth 64)
    rwa [BitVec.toNat_setWidth_of_le (by decide)] at h
  case logic => rw [exec_logic b p hp, State.pred2_ready p.2 hr]; rfl
  case all =>
    refine ⟨Ctx.foldl_setP_eq _ _ _, rfl, fun i h0 h8 => ?_⟩
    rw [Ctx.p_foldl_setP, if_pos ⟨h0, h8⟩]

/-- Settles O2: the one-operand forms, those that form a value, and those that write predicates. -/
theorem scalarForms : Obligations.ScalarForms := ⟨scalarUnary, scalarFormed, predicateWrites⟩

/-! ## O3. Transfers of control (R186, R218 to R220) -/

/-- R186: where a transfer goes that is taken to `t`: there, after its effect `u`, or to the IP-bounds fault with none. -/
def State.goTo (s u : State) (srcs : List Src) (t : W64) : State :=
  if s.me.code.base ≤ t.toNat ∧ t.toNat < s.me.code.base + s.me.code.size ∧ t.toNat % 4 = 0 then u.finishAt 4 srcs t
  else s.fault ⟨0x03, t, 0⟩

theorem Ctx.targetOk_iff (c : Ctx) (t : W64) :
    c.targetOk t = true ↔ c.code.base ≤ t.toNat ∧ t.toNat < c.code.base + c.code.size ∧ t.toNat % 4 = 0 := by
  simp only [Ctx.targetOk, Bool.and_eq_true, decide_eq_true_eq, and_assoc]

theorem State.conclude_transfer (s : State) (srcs : List Src) (t : W64) (effect : State → State) :
    s.conclude 4 (popsOf srcs) false (s.transfer t effect) = s.goTo (effect s) srcs t := by
  simp only [State.transfer, State.goTo, Ctx.targetOk_iff]
  split <;> rfl

theorem State.issueS_transfer {s : State} {srcs : List Src} {outs : List (BitVec 5)} (hr : s.ready srcs outs = true)
    (t : (Nat → W64) → State → W64) (effect : State → State) :
    s.issueS 4 srcs outs (fun x s => s.transfer (t x s) effect) = s.goTo (effect s) srcs (t (s.src srcs) s) := by
  rw [State.issueS_ready _ _ _ _ _ hr, State.conclude_transfer]

/-- R218: a conditional branch is taken when its predicate equals its sense. -/
theorem State.branch_ready {s : State} (sense : Bool) (p : BitVec 3) (o : BitVec 19) (hr : s.ready [] [] = true) :
    s.branch sense p o = if s.me.p p.toNat = sense then s.goTo s [] (s.me.ip.setWidth 64 + o.signExtend 64 * 4) else s.finish 4 [] := by
  rw [State.branch, State.issueS_ready _ _ _ _ _ hr]
  split
  · rw [State.conclude_transfer, State.relative_toInt]
    rfl
  · rfl

/-- R207: a branch whose guard is false goes on. -/
theorem State.branch_guard {s : State} (sense : Bool) (p : BitVec 3) (o : BitVec 19) (hg : s.me.p s.guard.toNat = false) :
    s.branch sense p o = (s.setMe (s.me.retire 4)).used := by
  rw [State.branch, State.issueS, State.issue_guard _ _ _ _ _ _ _ rfl rfl rfl hg]

/-- R182, R187: a branch has a guard, -/
theorem guardOf_branch (p : BitVec 3) (c : BitVec 1) (o : BitVec 19) (g : BitVec 3) : guardOf (0x0C#6 ++ p ++ c ++ o ++ g) = g := by
  simp [guardOf, extract_append_high, extract_append_low]

/-- and format J has none. -/
theorem guardOf_jump (c : BitVec 1) (o : BitVec 25) : guardOf (0x0D#6 ++ c ++ o) = 0 := by
  simp [guardOf, extract_append_high]

/-! A transfer whose operands are ready. -/

section
variable {s : State} {a d : BitVec 5} {o : BitVec 25}

theorem exec_jmp_ready (hr : s.ready [] [] = true) :
    exec (.jmp o) s = .next (s.goTo s [] (s.me.ip.setWidth 64 + o.signExtend 64 * 4)) := by
  rw [← s.relative_toInt]
  exact congrArg _ (State.issueS_transfer hr (fun _ s => s.relative o.toInt) id)

theorem exec_call_ready (hr : s.ready [] [] = true) :
    exec (.call o) s = .next (s.goTo (s.put 26 (s.me.ip.setWidth 64 + 4)) [] (s.me.ip.setWidth 64 + o.signExtend 64 * 4)) := by
  rw [← s.relative_toInt]
  exact congrArg _ (State.issueS_transfer hr (fun _ s => s.relative o.toInt) fun s => s.put 26 (s.me.ip.setWidth 64 + 4))

theorem exec_jr_ready (hr : s.ready [rd a] [] = true) : exec (.jr a) s = .next (s.goTo s [rd a] (s.src [rd a] 0)) :=
  congrArg _ (State.issueS_transfer hr (fun x _ => x 0) id)

theorem exec_jalr_ready (hr : s.ready [rd a] [d] = true) :
    exec (.jalr d a) s = .next (s.goTo (s.put d (s.me.ip.setWidth 64 + 4)) [rd a] (s.src [rd a] 0)) :=
  congrArg _ (State.issueS_transfer hr (fun x _ => x 0) fun s => s.put d (s.me.ip.setWidth 64 + 4))

theorem exec_ret_ready (hr : s.ready [] [] = true) : exec .ret s = .next (s.goTo s [] (s.me.s 26)) :=
  congrArg _ (State.issueS_transfer hr (fun _ s => s.me.s 26) id)

end

/-- Settles O3: the words of the transfers, their guard, and one lemma per transfer for where it goes. -/
theorem transfers : Obligations.Transfers := by
  intro s p g o19 o25 a d
  refine ⟨decode_of_encode (i := .bt p o19) (g := g) rfl rfl, decode_of_encode (i := .bf p o19) (g := g) rfl rfl,
    decode_of_encode (i := .jmp o25) (g := 0) rfl rfl, decode_of_encode (i := .call o25) (g := 0) rfl rfl,
    guardOf_branch p 1#1 o19 g, guardOf_jump 0#1 o25, guardOf_jump 1#1 o25, fun hg => ⟨?guardT, ?guardF⟩, ?_⟩
  case guardT => exact congrArg _ (s.branch_guard true p o19 hg)
  case guardF => exact congrArg _ (s.branch_guard false p o19 hg)
  simp only [Claims.transfers, List.forall_mem_cons, Bool.true_eq_false, if_false]
  refine ⟨fun hr => ?bt, fun hr => ?bf, fun hr => exec_jmp_ready hr, fun hr => exec_call_ready hr, fun hr => exec_jr_ready hr,
    fun hr => exec_jalr_ready hr, fun hr => exec_ret_ready hr, List.forall_mem_nil _⟩
  case bt =>
    refine congrArg _ ((s.branch_ready true p o19 hr).trans ?_)
    cases s.me.p p.toNat <;> rfl
  case bf =>
    refine congrArg _ ((s.branch_ready false p o19 hr).trans ?_)
    cases s.me.p p.toNat <;> rfl

/-! ## O6. What a scalar instruction leaves unchanged (R96, R205) -/

/-- What the scalar instructions of a context leave as it is: memory, the parts outside the static network, and the other contexts. -/
structure State.Around (s u : State) : Prop where
  mem : u.mem = s.mem
  tiles : u.tiles = s.tiles
  nodes : u.nodes = s.nodes
  net : u.net = s.net
  sched : u.sched = s.sched
  cores : u.cores = s.cores
  cur : u.cur = s.cur
  others : ∀ k, k ≠ s.cur.ctx → u.ctx k = s.ctx k

theorem State.Around.trans {s u v : State} (a : s.Around u) (b : u.Around v) : s.Around v where
  mem := b.mem.trans a.mem
  tiles := b.tiles.trans a.tiles
  nodes := b.nodes.trans a.nodes
  net := b.net.trans a.net
  sched := b.sched.trans a.sched
  cores := b.cores.trans a.cores
  cur := b.cur.trans a.cur
  others k hk := (b.others k (a.cur ▸ hk)).trans (a.others k hk)

theorem State.around_xbars (s : State) (x : AMap Xbar) : s.Around { s with xbars := x } :=
  ⟨rfl, rfl, rfl, rfl, rfl, rfl, rfl, fun _ _ => rfl⟩

theorem State.setMe_around (s : State) (c : Ctx) : s.Around (s.setMe c) :=
  ⟨rfl, rfl, rfl, rfl, rfl, rfl, rfl, fun k hk => (s.ctx_setMe c k).trans (if_neg hk)⟩

theorem State.popLane_xbars (s : State) (t b d : Nat) : ∃ x, s.popLane t b d = { s with xbars := x } := by
  unfold State.popLane
  dsimp only
  split <;> exact ⟨_, rfl⟩

theorem State.popPort_around (s : State) (p : Nat) : s.Around (s.popPort p) := by
  unfold State.popPort
  split
  · exact s.around_xbars _
  · obtain ⟨x, hx⟩ := s.popLane_xbars s.cur.t s.cur.b (p - 27)
    exact hx ▸ s.around_xbars x

theorem State.popPorts_around (s : State) (l : List Nat) : s.Around (s.popPorts l) := by
  induction l generalizing s with
  | nil => exact s.around_xbars _
  | cons p l ih => exact (s.popPort_around p).trans (ih _)

theorem State.pushLane_xbars (s : State) (t b d : Nat) (w : NetWord) : ∃ x, s.pushLane t b d w = { s with xbars := x } := by
  unfold State.pushLane
  split <;> exact ⟨_, rfl⟩

/-- A word pushed to a port is in the static network, and nothing else changes. -/
theorem State.pushPort_xbars (s : State) (p : Nat) (w : NetWord) : ∃ x, s.pushPort p w = { s with xbars := x } := by
  unfold State.pushPort State.pushPortOf
  dsimp only
  split
  · exact ⟨_, rfl⟩
  · exact s.pushLane_xbars ..

theorem State.put_around (s : State) (d : BitVec 5) (v : W64) : s.Around (s.put d v) := by
  unfold State.put
  split
  · obtain ⟨x, hx⟩ := s.pushPort_xbars d.toNat ⟨v.setWidth 256, 0⟩
    exact hx ▸ s.around_xbars x
  · exact s.setMe_around _

theorem State.finish_around (s : State) (len : Nat) (srcs : List Src) : s.Around (s.finish len srcs) := by
  have hpop := s.popPorts_around (popsOf srcs)
  have hset := hpop.trans (State.setMe_around _ ((s.popPorts (popsOf srcs)).me.retire len))
  exact ⟨hset.mem, hset.tiles, hset.nodes, hset.net, hset.sched, hset.cores, hset.cur, hset.others⟩

/-- R205: of the context in turn, a scalar result changes its destination alone. -/
theorem State.me_put (s : State) (d : BitVec 5) (v : W64) :
    (∃ r, (s.put d v).me = { s.me with sregs := r }) ∧ ∀ n, n ≠ d.toNat → (s.put d v).me.s n = s.me.s n := by
  unfold State.put
  split
  · obtain ⟨x, hx⟩ := s.pushPort_xbars d.toNat ⟨v.setWidth 256, 0⟩
    rw [hx]
    exact ⟨⟨_, rfl⟩, fun _ _ => rfl⟩
  · rw [State.me_setMe]
    refine ⟨?_, fun n hn => ?_⟩
    · unfold Ctx.setS
      split <;> exact ⟨_, rfl⟩
    · rw [Ctx.s_setS, if_neg fun h => hn h.1]

/-- The result of a scalar instruction before it retires: its destination written, and the flags of a saturating form. -/
def State.ScalarResult (s : State) (i : Instr) (d : BitVec 5) (u : State) : Prop :=
  ∃ v, u = s.put d v ∨ (∃ a b, ∃ p ∈ Claims.saturating, i = p.1 d a b) ∧ ∃ f, u = (s.put d v).flags f

namespace State.ScalarResult

variable {s u : State} {i : Instr} {d : BitVec 5} (h : s.ScalarResult i d u)
include h

theorem around : s.Around u := by
  obtain ⟨v, rfl | ⟨-, f, rfl⟩⟩ := h
  · exact s.put_around d v
  · exact (s.put_around d v).trans (State.setMe_around _ _)

theorem me_eq : ∃ r f, u.me = { s.me with sregs := r, fstat := f } := by
  obtain ⟨v, rfl | ⟨-, f, rfl⟩⟩ := h <;> obtain ⟨r, hr⟩ := (s.me_put d v).1
  · exact ⟨r, s.me.fstat, hr⟩
  · refine ⟨r, s.me.fstat ||| f, ?_⟩
    rw [State.flags, State.me_setMe, hr]
    rfl

theorem s_eq {n : Nat} (hn : n ≠ d.toNat) : u.me.s n = s.me.s n := by
  obtain ⟨v, rfl | ⟨-, f, rfl⟩⟩ := h
  · exact (s.me_put d v).2 n hn
  · rw [State.flags, State.me_setMe]
    exact (s.me_put d v).2 n hn

theorem fstat_eq (hi : ∀ a b, ∀ p ∈ Claims.saturating, i ≠ p.1 d a b) : u.me.fstat = s.me.fstat := by
  obtain ⟨v, rfl | ⟨⟨a, b, p, hp, he⟩, -⟩⟩ := h
  · obtain ⟨r, hr⟩ := (s.me_put d v).1
    rw [hr]
  · exact absurd he (hi a b p hp)

end State.ScalarResult

/-- Settles O6: each form writes its destination and, where it saturates, FSTAT; what its end does besides is the ports' and IP's. -/
theorem scalarFrame : Obligations.ScalarFrame := by
  intro s t i d srcs hform hr ht
  have hresult : ∃ u, s.ScalarResult i d u ∧ exec i s = .next (u.finish 4 srcs) := by
    obtain ⟨a, b, rfl, ⟨p, hp, rfl⟩ | ⟨p, hp, rfl⟩ | ⟨n, rfl⟩⟩ | ⟨a, k, n, rfl, p, hp, rfl⟩ |
      ⟨rfl, ⟨h, c, rfl⟩ | ⟨a, rfl⟩ | rfl | ⟨k, rfl⟩⟩ := hform
    · exact ⟨_, ⟨_, .inl rfl⟩, scalarBinary p hp s d a b hr⟩
    · exact ⟨_, ⟨_, .inr ⟨⟨a, b, p, hp, rfl⟩, _, rfl⟩⟩, scalarSaturating p hp s d a b hr⟩
    · exact ⟨_, ⟨_, .inl rfl⟩, exec_sel_ready a b n hr⟩
    · exact ⟨_, ⟨_, .inl rfl⟩, scalarUnary k n p hp s d a hr⟩
    · exact ⟨_, ⟨_, .inl rfl⟩, exec_lhi_ready h c hr⟩
    · exact ⟨_, ⟨_, .inl rfl⟩, exec_prds_ready a hr⟩
    · exact ⟨_, ⟨_, .inl rfl⟩, exec_prdall_ready hr⟩
    · exact ⟨_, ⟨_, .inl rfl⟩, exec_ipa_ready k hr⟩
  obtain ⟨u, hu, hexec⟩ := hresult
  obtain rfl : u.finish 4 srcs = t := Host.Outcome.next.inj (hexec.symm.trans ht)
  have hall := hu.around.trans (u.finish_around 4 srcs)
  refine ⟨hall.mem, hall.tiles, hall.nodes, hall.net, hall.sched, hall.cores, hall.others, ?_⟩
  rw [State.me_finish]
  refine ⟨?me, fun n hn => hu.s_eq hn, rfl, fun hi => hu.fstat_eq hi⟩
  case me =>
    obtain ⟨r, f, hme⟩ := hu.me_eq
    rw [hme]
    rfl

end Sys2Proof.Machine

namespace Sys2Proof.Machine

/-! ## Bytes of memory one by one (R4, R93) -/

theorem Memory.readN_lt (m : Memory) (a n : Nat) : Memory.readN m a n < 256 ^ n := by
  induction n generalizing a with
  | zero => simp [Memory.readN]
  | succ n ih =>
    have hbyte := (Memory.read m a).isLt
    have hrest := ih (a + 1)
    rw [Memory.readN, pow_succ']
    omega

/-- Some bytes and those behind them make up one number. -/
theorem Memory.readN_add (m : Memory) (a i n : Nat) :
    Memory.readN m a (i + n) = Memory.readN m a i + 256 ^ i * Memory.readN m (a + i) n := by
  induction i generalizing a with
  | zero => simp [Memory.readN]
  | succ i ih =>
    rw [Nat.succ_add, Memory.readN, Memory.readN, ih, Nat.succ_add_eq_add_succ, pow_succ']
    ring

/-- Bytes cut out of a longer read are those at their place. -/
theorem Memory.readN_cut (m : Memory) (a : Nat) {o n l : Nat} (h : o + n ≤ l) :
    Memory.readN m a l / 256 ^ o % 256 ^ n = Memory.readN m (a + o) n := by
  obtain ⟨r, rfl⟩ := Nat.exists_eq_add_of_le h
  rw [Nat.add_assoc, Memory.readN_add, Nat.add_mul_div_left _ _ (by positivity), Nat.div_eq_of_lt (Memory.readN_lt ..), Nat.zero_add,
    Memory.readN_add, Nat.add_mul_mod_self_left, Nat.mod_eq_of_lt (Memory.readN_lt ..)]

/-- Reading a byte after writes to some places of a mask: a byte written has its byte of the data, any other its old one. -/
theorem Memory.read_foldl_mask (a : Nat) (mask : BitVec 32) (data : W256) (j : Nat) (l : List Nat) {m : Memory} (hm : Memory.wf m = true) :
    Memory.read (l.foldl (fun m i => if mask.getLsbD i then Memory.write m (a + i) (data.extractLsb' (8 * i) 8) else m) m) j =
      if a ≤ j ∧ j - a ∈ l ∧ mask.getLsbD (j - a) = true then data.extractLsb' (8 * (j - a)) 8 else Memory.read m j := by
  induction l generalizing m with
  | nil => simp
  | cons i l ih =>
    rw [List.foldl_cons]
    by_cases hi : mask.getLsbD i = true
    · rw [if_pos hi, ih (Memory.write_wf _ _ _ hm), Memory.read_write _ _ _ _ hm]
      by_cases hj : j = a + i
      · subst hj
        simp [hi]
      · have hne : a ≤ j → j - a ≠ i := by omega
        by_cases haj : a ≤ j <;> simp [hj, haj, hne]
    · rw [if_neg hi, ih hm]
      by_cases hj : j - a = i
      · simp [hj, hi]
      · simp [hj]

/-- Reading a byte after a masked write: a byte of the mask has its byte of the data, any other its old one. -/
theorem Memory.read_writeMask {m : Memory} (hm : Memory.wf m = true) (a : Nat) (mask : BitVec 32) (data : W256) (j : Nat) :
    Memory.read (Memory.writeMask m a mask data) j =
      if a ≤ j ∧ mask.getLsbD (j - a) = true then data.extractLsb' (8 * (j - a)) 8 else Memory.read m j := by
  have hlt : mask.getLsbD (j - a) = true → j - a ∈ List.range 32 := fun h => List.mem_range.2 (BitVec.lt_of_getLsbD h)
  rw [Memory.writeMask, Memory.read_foldl_mask _ _ _ _ _ hm]
  exact if_congr ⟨fun h => ⟨h.1, h.2.2⟩, fun h => ⟨h.1, hlt h.2, h.2⟩⟩ rfl rfl

theorem byteMask_getLsbD {o n i : Nat} (hi : i < 32) : (byteMask o n).getLsbD i = (decide (o ≤ i) && decide (i < o + n)) := by
  rw [byteMask, BitVec.getLsbD_ofNat, Nat.testBit_mul_two_pow, Nat.testBit_two_pow_sub_one]
  by_cases ho : o ≤ i
  · have : i - o < n ↔ i < o + n := by omega
    simp [hi, ho, this]
  · simp [ho]

/-- A byte of a value that was moved to its place in a sector. -/
theorem placed_byte (v : Nat) {o i : Nat} (ho : o ≤ i) (hi : i < 32) :
    (placed v o).extractLsb' (8 * i) 8 = BitVec.ofNat 8 (v / 256 ^ (i - o)) := by
  obtain ⟨k, rfl⟩ := Nat.exists_eq_add_of_le ho
  obtain ⟨r, hr⟩ := Nat.exists_eq_add_of_lt hi
  have hfull : (2 : Nat) ^ 256 = 256 ^ (o + k) * (256 * 256 ^ r) := by
    rw [show (2 : Nat) ^ 256 = 256 ^ 32 by norm_num, hr, pow_succ, pow_add]; ring
  apply BitVec.eq_of_toNat_eq
  rw [extract_byte, placed, BitVec.toNat_ofNat, BitVec.toNat_ofNat, BitVec.toNat_ofNat, hfull, Nat.mod_mul_right_div_self,
    Nat.mod_mul_right_mod, show (2 : Nat) ^ (8 * o) = 256 ^ o by rw [pow_mul]; norm_num, Nat.add_sub_cancel_left, pow_add,
    Nat.mul_comm v, Nat.mul_div_mul_left _ _ (by positivity)]

/-- A byte of a part of a value is a byte of the value. -/
theorem part_byte (v off : Nat) {i n : Nat} (hi : i < n) :
    BitVec.ofNat 8 (v / 2 ^ (8 * off) % 2 ^ (8 * n) / 256 ^ i) = BitVec.ofNat 8 (v / 256 ^ (off + i)) := by
  obtain ⟨r, rfl⟩ := Nat.exists_eq_add_of_lt hi
  have hfull : (2 : Nat) ^ (8 * (i + r + 1)) = 256 ^ i * (256 * 256 ^ r) := by
    rw [pow_mul, show (2 : Nat) ^ 8 = 256 by norm_num]; ring
  apply BitVec.eq_of_toNat_eq
  rw [BitVec.toNat_ofNat, BitVec.toNat_ofNat, hfull, Nat.mod_mul_right_div_self, show (2 : Nat) ^ 8 = 256 by norm_num,
    Nat.mod_mul_right_mod, pow_mul, show (2 : Nat) ^ 8 = 256 by norm_num, Nat.div_div_eq_div_mul, ← pow_add]

/-! ## Places of an address in its sector (R53, R55, R61) -/

/-- Bytes of one sector have one bank and consecutive places in it, whatever the interleave. -/
theorem scratchHome_add (x : Tile) {off j : Nat} (h : off % 32 + j < 32) :
    scratchHome x (off + j) = ((scratchHome x off).1, (scratchHome x off).2 + j) := by
  have hbank : (off + j) / 2 ^ 14 = off / 2 ^ 14 := by omega
  have hle : off / 2 ^ 14 % 8 / 2 ^ (x.bank (off / 2 ^ 14 % 8)).il * 2 ^ (x.bank (off / 2 ^ 14 % 8)).il ≤ off / 2 ^ 14 % 8 :=
    Nat.div_mul_le_self ..
  simp only [scratchHome, hbank]
  generalize off / 2 ^ 14 % 8 / 2 ^ (x.bank (off / 2 ^ 14 % 8)).il * 2 ^ (x.bank (off / 2 ^ 14 % 8)).il = g at hle ⊢
  have hsector : (off + j - g * 2 ^ 14) / 32 = (off - g * 2 ^ 14) / 32 := by omega
  have hbyte : (off + j - g * 2 ^ 14) % 32 = (off - g * 2 ^ 14) % 32 + j := by omega
  rw [hsector, hbyte, Nat.add_assoc]

theorem scratchHome_mod (x : Tile) (off : Nat) : (scratchHome x off).2 % 32 = off % 32 := by
  have hle : off / 2 ^ 14 % 8 / 2 ^ (x.bank (off / 2 ^ 14 % 8)).il * 2 ^ (x.bank (off / 2 ^ 14 % 8)).il ≤ off / 2 ^ 14 % 8 :=
    Nat.div_mul_le_self ..
  simp only [scratchHome]
  generalize off / 2 ^ 14 % 8 / 2 ^ (x.bank (off / 2 ^ 14 % 8)).il * 2 ^ (x.bank (off / 2 ^ 14 % 8)).il = g at hle ⊢
  omega

theorem State.scratchKey_add (s : State) (t : Nat) {off j : Nat} (h : off % 32 + j < 32) :
    s.scratchKey t (off + j) = s.scratchKey t off + j := by
  simp only [State.scratchKey, sramKey, scratchHome_add _ h, Nat.add_assoc]

theorem State.scratchKey_mod (s : State) (t off : Nat) : s.scratchKey t off % 32 = off % 32 := by
  have h := scratchHome_mod (s.tile t) off
  simp only [State.scratchKey, sramKey, sramBase]
  omega

section
variable {a : W64} {j : Nat} (h : a.toNat % 32 + j < 32)
include h

theorem toNat_add_ofNat : (a + BitVec.ofNat 64 j).toNat = a.toNat + j := by
  have ha := a.isLt
  rw [BitVec.toNat_add, BitVec.toNat_ofNat]
  omega

/-- The fields of an address above the byte in the sector are those of every byte of the sector. -/
theorem extract_high {n len : Nat} (hn : 5 ≤ n) : (a + BitVec.ofNat 64 j).extractLsb' n len = a.extractLsb' n len := by
  obtain ⟨k, rfl⟩ := Nat.exists_eq_add_of_le hn
  have hsector : (a.toNat + j) / 2 ^ 5 = a.toNat / 2 ^ 5 := by omega
  apply BitVec.eq_of_toNat_eq
  rw [BitVec.extractLsb'_toNat, BitVec.extractLsb'_toNat, toNat_add_ofNat h, Nat.shiftRight_eq_div_pow, Nat.shiftRight_eq_div_pow, pow_add,
    ← Nat.div_div_eq_div_mul, ← Nat.div_div_eq_div_mul, hsector]

theorem extract_low {len : Nat} (hlen : 5 ≤ len) :
    ((a + BitVec.ofNat 64 j).extractLsb' 0 len).toNat = (a.extractLsb' 0 len).toNat + j := by
  obtain ⟨k, rfl⟩ := Nat.exists_eq_add_of_le hlen
  rw [BitVec.extractLsb'_toNat, BitVec.extractLsb'_toNat, toNat_add_ofNat h, Nat.shiftRight_zero, Nat.shiftRight_zero, pow_add, Nat.mod_mul,
    Nat.mod_mul]
  have hsector : (a.toNat + j) / 2 ^ 5 = a.toNat / 2 ^ 5 := by omega
  rw [hsector]
  omega

theorem winOf_add : winOf (a + BitVec.ofNat 64 j) = winOf a := by
  simp only [winOf, extract_high h (n := 56) (by decide), extract_high h (n := 16) (by decide), extract_high h (n := 17) (by decide)]

/-- The byte `j` further in the sector lies on the same tile, `j` further. -/
theorem sramPlace_add (c : Ctx) (t : Nat) (w : Win) :
    sramPlace c t w (a + BitVec.ofNat 64 j) = ((sramPlace c t w a).1, (sramPlace c t w a).2 + j) := by
  cases w <;> simp only [sramPlace, extract_low h (len := 16) (by decide), extract_low h (len := 17) (by decide),
    extract_high h (n := 44) (by decide), extract_high h (n := 47) (by decide), Nat.add_assoc]

end

theorem extract_low_mod (a : W64) {len : Nat} (hlen : 5 ≤ len) : (a.extractLsb' 0 len).toNat % 32 = a.toNat % 32 := by
  obtain ⟨k, rfl⟩ := Nat.exists_eq_add_of_le hlen
  rw [BitVec.extractLsb'_toNat, Nat.shiftRight_zero, pow_add]
  exact Nat.mod_mul_right_mod ..

theorem sramPlace_mod {c : Ctx} (hc : c.privStart % 32 = 0) (t : Nat) (w : Win) (a : W64) : (sramPlace c t w a).2 % 32 = a.toNat % 32 := by
  cases w with
  | priv => rw [sramPlace, Nat.add_mod, hc, extract_low_mod a (by decide)]; omega
  | cluster | global | scratch | fabric => exact extract_low_mod a (by decide)

/-! ## Addresses in the SRAM windows of the tile and its cluster -/

/-- The address lies in a window of the tile or its cluster (R53). -/
def inSram (a : W64) : Bool := winOf a == some .priv || winOf a == some .scratch || winOf a == some .cluster

theorem inSram_iff {a : W64} : inSram a = true ↔ ∃ w, winOf a = some w ∧ w ≠ .global ∧ w ≠ .fabric := by
  unfold inSram
  rcases winOf a with _ | w
  · simp
  · cases w <;> simp

section
variable {s : State} (hp : s.me.privStart % 32 = 0) {a : W64} (ha : inSram a = true)
include hp ha

/-- The home key of an address has its byte in the sector, -/
theorem State.byteKey_mod : Claims.byteKey s a % 32 = a.toNat % 32 := by
  obtain ⟨w, hw, -⟩ := inSram_iff.1 ha
  simp only [Claims.byteKey, hw, State.scratchKey_mod, sramPlace_mod hp]

/-- and the bytes of a sector have consecutive keys. -/
theorem State.byteKey_add {j : Nat} (h : a.toNat % 32 + j < 32) :
    Claims.byteKey s (a + BitVec.ofNat 64 j) = Claims.byteKey s a + j := by
  obtain ⟨w, hw, -⟩ := inSram_iff.1 ha
  have hplace : (sramPlace s.me s.cur.t w a).2 % 32 + j < 32 := by rwa [sramPlace_mod hp]
  simp only [Claims.byteKey, winOf_add h, hw, sramPlace_add h, s.scratchKey_add _ hplace]

/-- The bytes of one sector are those of memory from their key on. -/
theorem State.bytes_eq_readN {n : Nat} (h : a.toNat % 32 + n ≤ 32) :
    Claims.bytes s a n = Memory.readN s.mem (Claims.byteKey s a) n := by
  induction n with
  | zero => rfl
  | succ n ih =>
    rw [Claims.bytes, ih (by omega), State.byteKey_add hp ha (by omega), Memory.readN_add, Memory.readN, Memory.readN]
    ring

/-- What is cut out of the sector of an address are its bytes. -/
theorem State.cutSector_byteKey {n : Nat} (h : a.toNat % 32 + n ≤ 32) :
    cutSector (s.readSector (Claims.byteKey s a)) (a.toNat % 32) n = Claims.bytes s a n := by
  have hmod := State.byteKey_mod hp ha
  have hlt : Memory.readN s.mem (Claims.byteKey s a / 32 * 32) 32 < 2 ^ 256 :=
    (Memory.readN_lt ..).trans_eq (by norm_num)
  rw [State.bytes_eq_readN hp ha h, cutSector, State.readSector, BitVec.toNat_ofNat, Nat.mod_eq_of_lt hlt, pow_mul, pow_mul,
    show (2 : Nat) ^ 8 = 256 by norm_num, Memory.readN_cut _ _ h]
  congr 1
  omega

end

/-- The bytes from an address on, and those behind them. -/
theorem Claims.bytes_add (s : State) (a : W64) (m n : Nat) :
    Claims.bytes s a (m + n) = Claims.bytes s a m + Claims.bytes s (a + BitVec.ofNat 64 m) n * 256 ^ m := by
  induction n with
  | zero => simp [Claims.bytes]
  | succ n ih =>
    rw [← Nat.add_assoc, Claims.bytes, ih, Claims.bytes, BitVec.add_assoc, ← BitVec.ofNat_add, pow_add]
    ring

end Sys2Proof.Machine

namespace Sys2Proof.Machine

/-! ## Accesses that stay in SRAM (R223) -/

/-- The home of a part that lies in SRAM. -/
def State.sramHome (s : State) (p : Part) : Part × Home := (p, .sram (Claims.byteKey s p.addr))

/-- A home in SRAM is the home of an address of an SRAM window, for reads and writes alike. -/
theorem State.findHome_sram {s : State} {a : W64} {wr : Bool} {k : Nat} (h : s.findHome a wr = .home (.sram k)) :
    inSram a = true ∧ k = Claims.byteKey s a ∧ ∀ b, s.findHome a b = .home (.sram k) := by
  unfold State.findHome at h ⊢
  dsimp only at h ⊢
  cases hw : winOf a with
  | none => rw [hw] at h; cases h
  | some w =>
    cases w with
    | fabric => rw [hw] at h; cases h
    | global =>
      rw [hw] at h
      dsimp only at h
      split at h
      · split at h <;> cases h
      · split at h
        · cases h
        · split at h <;> cases h
    | priv | scratch | cluster =>
      rw [hw] at h
      dsimp only at h ⊢
      split at h
      · cases h
      · rename_i hgo
        injection h with h
        injection h with h
        exact ⟨inSram_iff.2 ⟨_, hw, by decide, by decide⟩, by rw [← h, Claims.byteKey, hw]; rfl, fun _ => by rw [if_neg hgo, h]⟩

/-- When every part has a home, each has passed its check and no bank of it is changing. -/
theorem State.findHomes_all {s : State} {chk : Part → Option Trap} {wr : Bool} {ps : List Part} {l : List (Part × Home)}
    (h : s.findHomes chk wr ps = .all l) :
    l.map Prod.fst = ps ∧ ∀ x ∈ l, s.changing x.1.addr x.1.n = false ∧ chk x.1 = none ∧ s.findHome x.1.addr wr = .home x.2 := by
  induction ps generalizing l with
  | nil => cases h; exact ⟨rfl, by simp⟩
  | cons p ps ih =>
    unfold State.findHomes at h
    split at h
    · cases h
    · rename_i hchanging
      split at h
      · cases h
      · rename_i hchk
        split at h
        · cases h
        · cases h
        · cases h
        · rename_i home hhome
          split at h
          · rename_i l' hl'
            cases h
            obtain ⟨hfst, hall⟩ := ih hl'
            exact ⟨congrArg (p :: ·) hfst, List.forall_mem_cons.2 ⟨⟨Bool.not_eq_true _ ▸ hchanging, hchk, hhome⟩, hall⟩⟩
          · rename_i hno
            exact absurd h (hno l)

/-- A part of a local access (R223): it is in SRAM at the key of its address, in no bank that is changing, has passed its check and, for a
read, is correctable. -/
structure State.LocalPart (s : State) (chk : Part → Option Trap) (wr : Bool) (p : Part) : Prop where
  sram : inSram p.addr = true
  still : s.changing p.addr p.n = false
  checked : chk p = none
  home : ∀ b, s.findHome p.addr b = .home (.sram (Claims.byteKey s p.addr))
  good : wr = false → s.badAt (Claims.byteKey s p.addr) p.n = false

/-- A local access: all of its parts are. -/
structure State.LocalParts (s : State) (chk : Part → Option Trap) (wr : Bool) (ps : List Part) : Prop where
  priv : s.me.privStart % 32 = 0
  homes : s.findHomes chk wr ps = .all (ps.map s.sramHome)
  parts : ∀ p ∈ ps, s.LocalPart chk wr p

theorem State.localParts_of_local {s : State} {chk : Part → Option Trap} {wr : Bool} {ps : List Part}
    (h : Claims.local_ s chk wr ps = true) : s.LocalParts chk wr ps := by
  rw [Claims.local_, Bool.and_eq_true, decide_eq_true_eq] at h
  obtain ⟨hpriv, h⟩ := h
  split at h
  · rename_i l hl
    obtain ⟨rfl, hfound⟩ := State.findHomes_all hl
    have hpart : ∀ x ∈ l, s.sramHome x.1 = x ∧ s.LocalPart chk wr x.1 := by
      rintro ⟨p, home⟩ hx
      have hgood := List.all_eq_true.1 h _ hx
      obtain ⟨hstill, hchk, hhome⟩ := hfound _ hx
      cases home with
      | sram k =>
        obtain ⟨hin, hkey, hany⟩ := State.findHome_sram hhome
        dsimp only at hkey hgood
        subst hkey
        exact ⟨rfl, hin, hstill, hchk, hany, fun hwr => by simpa [hwr] using hgood⟩
      | fabric t => cases hgood
      | mem pa => cases hgood
    have hmap : (l.map Prod.fst).map s.sramHome = l := by
      rw [List.map_map]
      exact (List.map_congr_left fun x hx => (hpart x hx).1).trans l.map_id
    exact ⟨hpriv, by rw [hmap]; exact hl, List.forall_mem_map.2 fun x hx => (hpart x hx).2⟩
  · cases h

end Sys2Proof.Machine

namespace Sys2Proof.Machine

/-! ## Reads of local parts -/

/-- The parts of an access lie in one sector each (R94). -/
theorem partsFrom_sector {a : W64} {off fuel n : Nat} {p : Part} (h : p ∈ partsFrom a off fuel n) : p.addr.toNat % 32 + p.n ≤ 32 := by
  induction fuel generalizing a off n with
  | zero => cases h
  | succ fuel ih =>
    unfold partsFrom at h
    split at h
    · cases h
    · rcases List.mem_cons.1 h with rfl | h
      · dsimp only
        omega
      · exact ih h

/-- What a part that lies in SRAM reads. -/
def State.sramPiece (s : State) (p : Part) : Piece :=
  { tid := 0, addr := p.addr, off := p.off, n := p.n, val := some (Claims.bytes s p.addr p.n) }

/-- The number that the bytes of parts make, each at its place in the access. -/
def State.partsValue (s : State) (ps : List Part) : Nat := (ps.map fun p => Claims.bytes s p.addr p.n * 2 ^ (8 * p.off)).sum

theorem pieceValue_sramPieces (s : State) (ps : List Part) : pieceValue (ps.map s.sramPiece) = s.partsValue ps := by
  have hfold (acc : Nat) : (ps.map s.sramPiece).foldl (fun acc p => acc + (p.val.getD 0) * 2 ^ (8 * p.off)) acc =
      acc + s.partsValue ps := by
    induction ps generalizing acc with
    | nil => rfl
    | cons p ps ih => simp only [List.map_cons, List.foldl_cons, ih, State.partsValue, List.sum_cons, Nat.add_assoc]; rfl
  exact (hfold 0).trans (Nat.zero_add _)

/-- The parts of an access together hold its bytes. -/
theorem State.partsValue_partsFrom (s : State) (a : W64) (off : Nat) {fuel n : Nat} (h : n = 0 ∨ a.toNat % 32 + n ≤ 32 * fuel) :
    s.partsValue (partsFrom a off fuel n) = Claims.bytes s a n * 2 ^ (8 * off) := by
  induction fuel generalizing a off n with
  | zero =>
    obtain rfl : n = 0 := by omega
    simp [partsFrom, State.partsValue, Claims.bytes]
  | succ fuel ih =>
    unfold partsFrom
    split
    · rename_i hn
      simp [hn, State.partsValue, Claims.bytes]
    · dsimp only
      generalize hm : min n (32 - a.toNat % 32) = m
      have hnext : (a + BitVec.ofNat 64 m).toNat = (a.toNat + m) % 2 ^ 64 := by rw [BitVec.toNat_add, BitVec.toNat_ofNat]; omega
      have hrest := ih (a + BitVec.ofNat 64 m) (off + m) (n := n - m) (by omega)
      have hsplit := Claims.bytes_add s a m (n - m)
      rw [Nat.add_sub_cancel' (by omega)] at hsplit
      rw [State.partsValue] at hrest ⊢
      rw [List.map_cons, List.sum_cons, hrest, hsplit, Nat.mul_add, pow_add, show (256 : Nat) ^ m = 2 ^ (8 * m) by rw [pow_mul]; rfl]
      ring

theorem State.partsValue_parts (s : State) (a : W64) (n : Nat) : s.partsValue (parts a n) = Claims.bytes s a n := by
  rw [parts, s.partsValue_partsFrom a 0 (by omega)]
  simp

section
variable {s : State} {chk : Part → Option Trap} {ps : List Part} (h : s.LocalParts chk false ps)
  (hsector : ∀ p ∈ ps, p.addr.toNat % 32 + p.n ≤ 32)
include h

theorem State.LocalParts.badPart_eq : s.badPart (ps.map s.sramHome) = none := by
  rw [State.badPart, Option.map_eq_none_iff, List.find?_eq_none, List.forall_mem_map]
  intro p hp
  exact ne_true_of_eq_false ((h.parts p hp).good rfl)

include hsector

theorem State.LocalParts.readParts_eq : s.readParts (ps.map s.sramHome) = (ps.map s.sramPiece, s) := by
  obtain ⟨hpriv, -, hparts⟩ := h
  induction ps with
  | nil => rfl
  | cons p ps ih =>
    have hcut := State.cutSector_byteKey hpriv (hparts p (List.mem_cons_self ..)).sram (hsector p (List.mem_cons_self ..))
    have hp : s.readPart p (.sram (Claims.byteKey s p.addr)) = (s.sramPiece p, s) := by
      rw [State.readPart, hcut, State.sramPiece]
    have hrest := ih (fun q hq => hsector q (List.mem_cons_of_mem _ hq)) (fun q hq => hparts q (List.mem_cons_of_mem _ hq))
    simp only [List.map_cons, State.sramHome, State.readParts, hp] at hrest ⊢
    rw [hrest]

/-- A local read has its value at once and changes nothing. -/
theorem State.LocalParts.readAll_eq (fin : Fin) (fix : Trap → Trap) (done : State → Nat → Res) :
    s.readAll ps chk fin fix done = done s (s.partsValue ps) := by
  have hall : ((ps.map s.sramPiece).all fun p => p.val.isSome) = true := by
    rw [List.all_eq_true, List.forall_mem_map]
    exact fun _ _ => rfl
  simp only [State.readAll, h.homes, h.badPart_eq, h.readParts_eq hsector, hall, if_true, pieceValue_sramPieces]

end

/-! ## Loads and stores as they issue (R223, R225 to R227) -/

theorem exec_ld (d a : BitVec 5) (i : BitVec 11) (z : BitVec 2) (s : State) : exec (.ld d a i z) s = execLd d a i z s := rfl
theorem exec_vld (d a : BitVec 5) (i : BitVec 11) (s : State) : exec (.vld d a i) s = execVld d a i s := rfl
theorem exec_vldLo (d a : BitVec 5) (i : BitVec 11) (s : State) : exec (.vldLo d a i) s = execVldLo d a i s := rfl
theorem exec_st (d a : BitVec 5) (i : BitVec 11) (z : BitVec 2) (s : State) : exec (.st d a i z) s = execSt d a i z s := rfl
theorem exec_vst (d a : BitVec 5) (i : BitVec 11) (s : State) : exec (.vst d a i) s = execVst d a i s := rfl
theorem exec_vstLo (d a : BitVec 5) (i : BitVec 11) (s : State) : exec (.vstLo d a i) s = execVstLo d a i s := rfl
theorem exec_vgat (d a b : BitVec 5) (f : BitVec 2) (k : BitVec 3) (t : BitVec 2) (s : State) :
    exec (.vgat d a b f k t) s = execVgat d a b f k t s := rfl

/-- R223: the effective address of format M. -/
theorem effective_eq (b : W64) (i : BitVec 11) (n : Nat) : effective b i n = b + i.signExtend 64 * BitVec.ofNat 64 n := by
  rw [effective, BitVec.ofInt_mul, BitVec.signExtend, BitVec.ofInt_natCast]

/-- How a load ends when its value is at hand. -/
def loaded (d : BitVec 5) (vec : Bool) (s : State) (v : Nat) : Res :=
  .ok (if vec then s.putV d (BitVec.ofNat 256 v) else s.put d (BitVec.ofNat 64 v))

section
variable {s : State} {d a : BitVec 5} {i : BitVec 11}

theorem exec_ld_ready (z : BitVec 2) (hr : s.ready [rd a] [d] = true) :
    exec (.ld d a i z) s = .next (s.conclude 4 (popsOf [rd a]) false
      (s.load (Claims.address s [rd a] i (2 ^ z.toNat)) (2 ^ z.toNat) 1 (.load d) (loaded d false))) := by
  rw [exec_ld, execLd, State.issueS_ready _ _ _ _ _ hr]
  dsimp only
  rw [effective_eq]
  rfl

theorem State.vectorLoad_ready (n : Nat) (hr : s.ready [rd a] [d] = true) :
    s.vectorLoad n d a i = s.conclude 4 (popsOf [rd a]) false
      (s.load (Claims.address s [rd a] i n) n 1 (.vload d) (loaded d true)) := by
  rw [State.vectorLoad, State.issueS_ready _ _ _ _ _ hr, effective_eq]
  rfl

/-- R225, R227: a ready load reads the bytes at its address. -/
theorem exec_loads {x : Instr × Nat × Bool} (hx : x ∈ Claims.loads d a i) (hr : s.ready [rd a] [d] = true) :
    ∃ fin, exec x.1 s = .next (s.conclude 4 (popsOf [rd a]) false
      (s.load (Claims.address s [rd a] i x.2.1) x.2.1 1 fin (loaded d x.2.2))) := by
  simp only [Claims.loads, List.mem_cons, List.not_mem_nil, or_false] at hx
  obtain rfl | rfl | rfl | rfl | rfl | rfl := hx
  · exact ⟨_, exec_ld_ready 0 hr⟩
  · exact ⟨_, exec_ld_ready 1 hr⟩
  · exact ⟨_, exec_ld_ready 2 hr⟩
  · exact ⟨_, exec_ld_ready 3 hr⟩
  · exact ⟨_, congrArg _ (State.vectorLoad_ready 32 hr)⟩
  · exact ⟨_, congrArg _ (State.vectorLoad_ready 16 hr)⟩

theorem exec_st_ready (z : BitVec 2) (hr : s.ready [rd a, rd d] [] = true) :
    exec (.st d a i z) s = .next (s.conclude 4 (popsOf [rd a, rd d]) false
      (s.store (Claims.address s [rd a, rd d] i (2 ^ z.toNat)) (2 ^ z.toNat) 1 (s.src [rd a, rd d] 1).toNat)) := by
  rw [exec_st, execSt, State.issueS_ready _ _ _ _ _ hr]
  dsimp only
  rw [effective_eq]
  rfl

theorem State.vectorStore_ready (n : Nat) (hr : s.ready [rd a, rd d] [] = true) :
    s.vectorStore n d a i = s.conclude 4 (popsOf [rd a, rd d]) false
      (s.store (Claims.address s [rd a, rd d] i n) n 1 (s.operand [rd a, rd d] (fun k => k == 1) 1).toNat) := by
  rw [State.vectorStore, State.issue_ready _ _ _ _ _ _ _ hr rfl, effective_eq]
  rfl

/-- R226, R227: a ready store writes its value at its address. -/
theorem exec_stores {x : Instr × Nat × Bool} (hx : x ∈ Claims.stores d a i) (hr : s.ready [rd a, rd d] [] = true) :
    exec x.1 s = .next (s.conclude 4 (popsOf [rd a, rd d]) false
      (s.store (Claims.address s [rd a, rd d] i x.2.1) x.2.1 1
        (if x.2.2 then (s.operand [rd a, rd d] (fun k => k == 1) 1).toNat else (s.src [rd a, rd d] 1).toNat))) := by
  simp only [Claims.stores, List.mem_cons, List.not_mem_nil, or_false] at hx
  obtain rfl | rfl | rfl | rfl | rfl | rfl := hx
  · exact exec_st_ready 0 hr
  · exact exec_st_ready 1 hr
  · exact exec_st_ready 2 hr
  · exact exec_st_ready 3 hr
  · exact congrArg _ (State.vectorStore_ready 32 hr)
  · exact congrArg _ (State.vectorStore_ready 16 hr)

end

section
variable {s : State} {a : W64} {n al : Nat}

theorem State.load_changing (fin : Fin) (done : State → Nat → Res) (h : s.changing a n = true) : s.load a n al fin done = .wait :=
  if_pos h

theorem State.store_changing (v : Nat) (h : s.changing a n = true) : s.store a n al v = .wait := if_pos h

variable (hc : s.changing a n = false)
include hc

theorem State.load_refused {c : Trap} (fin : Fin) (done : State → Nat → Res) (h : s.checkAccess s.me s.cur.t a n al = some c) :
    s.load a n al fin done = .trap c := by
  simp only [State.load, hc, Bool.false_eq_true, if_false, h]

theorem State.store_refused {c : Trap} (v : Nat) (h : s.checkAccess s.me s.cur.t a n al = some c) : s.store a n al v = .trap c := by
  simp only [State.store, hc, Bool.false_eq_true, if_false, h]

variable (ha : s.checkAccess s.me s.cur.t a n al = none)
include ha

theorem State.load_passed (fin : Fin) (done : State → Nat → Res) :
    s.load a n al fin done = s.readAll (parts a n) (fun _ => none) fin (nameAccess a) done := by
  simp only [State.load, hc, Bool.false_eq_true, if_false, ha]

theorem State.store_passed (v : Nat) : s.store a n al v = s.writeAll (parts a n) v (fun _ => none) (nameAccess a) := by
  simp only [State.store, hc, Bool.false_eq_true, if_false, ha]

end

/-! ## O7. Loads -/

/-- R225, R227, R223: a load from SRAM completes with its bytes. -/
theorem localLoads : Parts.LocalLoads := by
  intro s d a i x hx hr e hc ha hlocal
  obtain ⟨fin, hexec⟩ := exec_loads hx hr
  have hparts := State.localParts_of_local hlocal
  rw [hexec, State.load_passed hc ha, hparts.readAll_eq (fun p hp => partsFrom_sector hp), s.partsValue_parts, loaded, State.conclude_ok]

/-- R225, R227, R228, R65: a load writes no byte, however it ends. -/
theorem loadsKeepMemory : Parts.LoadsKeepMemory := by
  intro s t d a b i z f y k h
  have hkept {o : Host.Outcome State Fault Refusal} (ho : AnswersIn (· = s.mem) o) (ht : o = .next t) : t.mem = s.mem := by
    subst ht
    exact ho
  obtain h | h | h | h := h
  · exact hkept (execLd_mem d a i z s) h
  · exact hkept (o := execVld d a i s) (s.vectorLoad_mem 32 d a i) h
  · exact hkept (o := execVldLo d a i s) (s.vectorLoad_mem 16 d a i) h
  · exact hkept (execVgat_mem d a b f k y s) h

/-- Settles O7: a load from SRAM by the values of its parts, and every load by what its body leaves of memory. -/
theorem loads : Obligations.Loads := ⟨localLoads, loadsKeepMemory⟩

/-! ## O9. Accesses that fail (R54, R63, R223, R358) -/

/-- R223, R54, R63: the checks of a load and of a store. -/
theorem accessFaults : Parts.AccessFaults := by
  constructor
  · intro s d a i x hx hr e
    obtain ⟨fin, hexec⟩ := exec_loads hx hr
    refine ⟨fun hc => ?_, fun c hc hf => ?_⟩
    · rw [hexec, State.load_changing _ _ hc, State.conclude_wait, if_neg Bool.false_ne_true]
    · rw [hexec, State.load_refused hc _ _ hf, State.conclude_trap]
  · intro s d a i x hx hr e
    have hexec := exec_stores hx hr
    refine ⟨fun hc => ?_, fun c hc hf => ?_⟩
    · rw [hexec, State.store_changing _ hc, State.conclude_wait, if_neg Bool.false_ne_true]
    · rw [hexec, State.store_refused hc _ hf, State.conclude_trap]

section
variable {s : State} {va : W64} {n : Nat} (hw : winOf va = some .global)
include hw

theorem State.changing_global : s.changing va n = false := by simp only [State.changing, hw]

/-- A global access that lies below the window's end passes its checks (R223). -/
theorem State.checkAccess_global (hn : 0 < n) (hend : va.toNat + n ≤ 2 ^ 56) : s.checkAccess s.me s.cur.t va n 1 = none := by
  have hfirst : s.checkWindow s.me s.cur.t va 1 = none := by
    rw [State.checkWindow_global _ _ _ _ _ hw, if_pos (by omega)]
  simp only [State.checkAccess, hw, hfirst, if_true, Nat.mod_one, ne_eq, not_true_eq_false, if_false, Nat.not_lt.2 hend, and_false]

/-- R358: a global address that no translation holds faults after its walk has failed, and else waits for room or for its walk. -/
theorem State.findHome_miss {wr : Bool} (ht : s.tlbFind s.cur.t (s.rootOf (s.me.resid.getD 0)).1 va.toNat wr = none) :
    s.findHome va wr = if s.me.walkFail = some va then .fail ⟨0x19, va, 0⟩
      else if s.walkRoom s.cur.t (s.me.resid.getD 0) va then .walk va else .wait := by
  simp only [State.findHome, hw, ht]

end

theorem State.me_startWalk (s : State) (va : W64) (wr : Bool) : (s.startWalk va wr).me = { s.me with wait := .walk va wr } :=
  s.me_setMe _

/-- An access within a sector is one part. -/
theorem parts_one {a : W64} {n : Nat} (hn : 0 < n) (h : a.toNat % 32 + n ≤ 32) : parts a n = [⟨a, 0, n⟩] := by
  have hmin : min n (32 - a.toNat % 32) = n := by omega
  rw [parts, partsFrom, if_neg (by omega)]
  simp only [hmin, Nat.sub_self]
  rw [partsFrom, if_pos rfl]

/-- A ready `ld` of a global address within a sector reads its one part. -/
theorem exec_ld_global {s : State} {d a : BitVec 5} {i : BitVec 11} {z : BitVec 2} (hr : s.ready [rd a] [d] = true) {va : W64}
    (hva : Claims.address s [rd a] i (2 ^ z.toNat) = va) (hw : winOf va = some .global) (hsector : va.toNat % 32 + 2 ^ z.toNat ≤ 32)
    (hend : va.toNat + 2 ^ z.toNat ≤ 2 ^ 56) :
    exec (.ld d a i z) s = .next (s.conclude 4 (popsOf [rd a]) false
      (s.readAll [⟨va, 0, 2 ^ z.toNat⟩] (fun _ => none) (.load d) (nameAccess va) (loaded d false))) := by
  have hn : 0 < 2 ^ z.toNat := Nat.two_pow_pos _
  rw [exec_ld_ready z hr, hva, State.load_passed (State.changing_global hw) (State.checkAccess_global hw hn hend), parts_one hn hsector]

/-- R358, R223: what a load does whose address no translation holds. -/
theorem translationMiss : Parts.TranslationMiss := by
  intro s d a i z hr n va hw hsector hend ht
  have hexec := exec_ld_global hr rfl hw hsector hend
  have hpart : (⟨va, 0, n⟩ : Part).addr = va := rfl
  rw [State.readAll, State.findHomes, State.changing_global hw, if_neg Bool.false_ne_true, hpart, State.findHome_miss hw ht] at hexec
  refine ⟨fun hf => ?_, fun hf hroom => ?_, fun hf hroom => ?_⟩
  · rw [hexec, if_pos hf]
    rfl
  · rw [hexec, if_neg hf, hroom]
    rfl
  · rw [if_neg hf, hroom] at hexec
    refine ⟨_, hexec, ?_, rfl, rfl⟩
    simp only [if_true, State.conclude_pause, State.me_used, State.me_setMe, State.me_startWalk]

/-- Settles O9: the checks come before the search for a home, and a translation that is missing ends that search. -/
theorem accessAndTranslationFaults : Obligations.AccessAndTranslationFaults := ⟨accessFaults, translationMiss⟩

end Sys2Proof.Machine

namespace Sys2Proof.Machine

/-! ## Writes of local parts (R226, R227, R93) -/

/-- Only memory and the marks of its errors differ. -/
def State.Written (s u : State) : Prop := u = { s with mem := u.mem, badSectors := u.badSectors, badWords := u.badWords }

theorem State.Written.trans {s u v : State} (a : s.Written u) (b : u.Written v) : s.Written v := by
  unfold State.Written at *
  rw [b, a]

theorem State.writeSector_written (s : State) (k : Nat) (mask : BitVec 32) (data : W256) : s.Written (s.writeSector k mask data) := rfl

/-- Reading a byte after some bytes of a sector were written. -/
theorem State.read_writeSector {s : State} (hm : s.memOk = true) (k o n v j : Nat) (ho : k % 32 = o) (h : o + n ≤ 32) :
    Memory.read (s.writeSector k (byteMask o n) (placed v o)).mem j =
      if k ≤ j ∧ j < k + n then BitVec.ofNat 8 (v / 256 ^ (j - k)) else Memory.read s.mem j := by
  have hbase : k / 32 * 32 + o = k := by omega
  rw [State.writeSector, Memory.read_writeMask hm]
  by_cases hj : k ≤ j ∧ j < k + n
  · have hmask : (byteMask o n).getLsbD (j - k / 32 * 32) = true := by
      rw [byteMask_getLsbD (by omega), Bool.and_eq_true, decide_eq_true_eq, decide_eq_true_eq]
      omega
    rw [if_pos ⟨by omega, hmask⟩, if_pos hj, placed_byte v (by omega) (by omega), show j - k / 32 * 32 - o = j - k by omega]
  · refine (if_neg ?_).trans (if_neg hj).symm
    rintro ⟨hle, hmask⟩
    rw [byteMask_getLsbD (BitVec.lt_of_getLsbD hmask), Bool.and_eq_true, decide_eq_true_eq, decide_eq_true_eq] at hmask
    omega

/-- From memory `m` to `m'` the `n` bytes of `v` from its byte `off` on are written at the addresses from `a` on, and no other byte. -/
def State.Wrote (s : State) (v : Nat) (m m' : Memory) (a : W64) (off n : Nat) : Prop :=
  (∀ i, i < n → Memory.read m' (Claims.byteKey s (a + BitVec.ofNat 64 i)) = BitVec.ofNat 8 (v / 256 ^ (off + i))) ∧
  ∀ k, (∀ i, i < n → k ≠ Claims.byteKey s (a + BitVec.ofNat 64 i)) → Memory.read m' k = Memory.read m k

theorem State.stored_of_wrote {s t : State} {v : Nat} {a : W64} {n : Nat} (h : s.Wrote v s.mem t.mem a 0 n) : Claims.stored s t a n v := by
  simpa only [Claims.stored, State.Wrote, Nat.zero_add] using h

theorem State.Wrote.refl (s : State) (v : Nat) (m : Memory) (a : W64) (off : Nat) : s.Wrote v m m a off 0 :=
  ⟨fun _ hi => absurd hi (Nat.not_lt_zero _), fun _ _ => rfl⟩

/-- Two writes one behind the other are one, if none of their bytes share a key. -/
theorem State.Wrote.trans {s : State} {v : Nat} {m₀ m₁ m₂ : Memory} {a : W64} {off l n : Nat} (h₁ : s.Wrote v m₀ m₁ a off l)
    (h₂ : s.Wrote v m₁ m₂ (a + BitVec.ofNat 64 l) (off + l) n)
    (hapart : ∀ i j, i < l → j < n →
      Claims.byteKey s (a + BitVec.ofNat 64 i) ≠ Claims.byteKey s (a + BitVec.ofNat 64 (l + j))) :
    s.Wrote v m₀ m₂ a off (l + n) := by
  obtain ⟨hfirst, hother₁⟩ := h₁
  obtain ⟨hrest, hother₂⟩ := h₂
  simp only [BitVec.add_assoc, ← BitVec.ofNat_add] at hrest hother₂
  refine ⟨fun i hi => ?_, fun k hk => ?_⟩
  · by_cases hl : i < l
    · rw [hother₂ _ fun j hj => hapart i j hl hj, hfirst i hl]
    · obtain ⟨j, rfl⟩ := Nat.exists_eq_add_of_le (Nat.le_of_not_lt hl)
      rw [hrest j (by omega), Nat.add_assoc]
  · rw [hother₂ k fun j hj => hk (l + j) (by omega), hother₁ k fun i hi => hk i (by omega)]

/-- Bytes written at consecutive keys of one sector. -/
theorem State.wrote_of_read {s : State} (hp : s.me.privStart % 32 = 0) {a : W64} (ha : inSram a = true) {off n : Nat}
    (h : a.toNat % 32 + n ≤ 32) {v : Nat} {m m' : Memory}
    (hread : ∀ j, Memory.read m' j = if Claims.byteKey s a ≤ j ∧ j < Claims.byteKey s a + n
      then BitVec.ofNat 8 (v / 256 ^ (off + (j - Claims.byteKey s a))) else Memory.read m j) : s.Wrote v m m' a off n := by
  refine ⟨fun i hi => ?_, fun k hk => ?_⟩
  · rw [State.byteKey_add hp ha (by omega), hread, if_pos (by omega), Nat.add_sub_cancel_left]
  · rw [hread, if_neg]
    rintro ⟨hle, hlt⟩
    refine hk (k - Claims.byteKey s a) (by omega) ?_
    rw [State.byteKey_add hp ha (by omega)]
    omega

/-- The write of one part of a value, at the key of its address. -/
theorem State.wrote_writeSector {s u : State} (hp : s.me.privStart % 32 = 0) (hu : u.memOk = true) {a : W64} (ha : inSram a = true)
    (off : Nat) {n : Nat} (h : a.toNat % 32 + n ≤ 32) (v : Nat) :
    s.Wrote v u.mem (u.writeSector (Claims.byteKey s a) (byteMask (a.toNat % 32) n)
      (placed (v / 2 ^ (8 * off) % 2 ^ (8 * n)) (a.toNat % 32))).mem a off n := by
  refine State.wrote_of_read hp ha h fun j => ?_
  rw [State.read_writeSector hu _ _ _ _ _ (State.byteKey_mod hp ha) h]
  exact if_ctx_congr Iff.rfl (fun hj => part_byte v off (by omega)) fun _ => rfl

theorem State.writeParts_written (s u : State) (v : Nat) (ps : List Part) : u.Written (u.writeParts v (ps.map s.sramHome)) := by
  induction ps generalizing u with
  | nil => rfl
  | cons p ps ih => exact (u.writeSector_written ..).trans (ih _)

/-- In an access whose parts all lie in SRAM every byte's key has its place in the sector. -/
theorem State.byteKey_partsFrom_mod {s : State} (hp : s.me.privStart % 32 = 0) {a : W64} {off fuel n i : Nat}
    (hfuel : n = 0 ∨ a.toNat % 32 + n ≤ 32 * fuel) (hparts : ∀ p ∈ partsFrom a off fuel n, inSram p.addr = true) (hi : i < n) :
    Claims.byteKey s (a + BitVec.ofNat 64 i) % 32 = (a.toNat + i) % 32 := by
  induction fuel generalizing a off n i with
  | zero => omega
  | succ fuel ih =>
    rw [partsFrom, if_neg (by omega)] at hparts
    dsimp only at hparts
    generalize hm : min n (32 - a.toNat % 32) = m at hparts
    obtain ⟨(hfirst : inSram a = true), hrest⟩ := List.forall_mem_cons.1 hparts
    have hnext : (a + BitVec.ofNat 64 m).toNat = (a.toNat + m) % 2 ^ 64 := by rw [BitVec.toNat_add, BitVec.toNat_ofNat]; omega
    by_cases him : i < m
    · have hmod := State.byteKey_mod hp hfirst
      rw [State.byteKey_add hp hfirst (by omega)]
      omega
    · obtain ⟨j, rfl⟩ := Nat.exists_eq_add_of_le (Nat.le_of_not_lt him)
      rw [BitVec.ofNat_add, ← BitVec.add_assoc, ih (by omega) hrest (by omega)]
      omega

/-- The parts of an access of at most 32 bytes write its bytes: no two of these have the same place in a sector. -/
theorem State.wrote_partsFrom {s : State} (hp : s.me.privStart % 32 = 0) (v : Nat) {u : State} (hu : u.memOk = true) {a : W64}
    {off fuel n : Nat} (hn : n ≤ 32) (hfuel : n = 0 ∨ a.toNat % 32 + n ≤ 32 * fuel)
    (hparts : ∀ p ∈ partsFrom a off fuel n, inSram p.addr = true) :
    s.Wrote v u.mem (u.writeParts v ((partsFrom a off fuel n).map s.sramHome)).mem a off n := by
  induction fuel generalizing a off n u with
  | zero =>
    obtain rfl : n = 0 := by omega
    exact .refl ..
  | succ fuel ih =>
    obtain rfl | hpos := Nat.eq_zero_or_pos n
    · rw [partsFrom, if_pos rfl]
      exact .refl ..
    have hplace : ∀ i, i < n → Claims.byteKey s (a + BitVec.ofNat 64 i) % 32 = (a.toNat + i) % 32 :=
      fun i hi => State.byteKey_partsFrom_mod hp hfuel hparts hi
    rw [partsFrom, if_neg (by omega)] at hparts ⊢
    dsimp only at hparts ⊢
    generalize hm : min n (32 - a.toNat % 32) = m at hparts ⊢
    obtain ⟨(hfirst : inSram a = true), hrest⟩ := List.forall_mem_cons.1 hparts
    have hnext : (a + BitVec.ofNat 64 m).toNat = (a.toNat + m) % 2 ^ 64 := by rw [BitVec.toNat_add, BitVec.toNat_ofNat]; omega
    have hwrote := State.wrote_writeSector hp hu hfirst off (n := m) (by omega) v
    have hall := hwrote.trans (ih (State.writeSector_canon _ _ _ hu) (by omega) (by omega) hrest) fun i j hi hj heq => by
      have hi' := hplace i (by omega)
      have hj' := hplace (m + j) (by omega)
      rw [heq, hj'] at hi'
      omega
    rw [Nat.add_sub_cancel' (by omega)] at hall
    exact hall

theorem State.LocalParts.writeAll_eq {s : State} {chk : Part → Option Trap} {ps : List Part} (h : s.LocalParts chk true ps) (v : Nat)
    (fix : Trap → Trap) : s.writeAll ps v chk fix = .ok (s.writeParts v (ps.map s.sramHome)) := by
  simp only [State.writeAll, h.homes]

/-! ## O8. Stores -/

theorem stores_le {d a : BitVec 5} {i : BitVec 11} : ∀ x ∈ Claims.stores d a i, x.2.1 ≤ 32 := by simp [Claims.stores]

/-- Settles O8: the parts of a store that passes its checks write its bytes one after the other. -/
theorem localStores : Obligations.LocalStores := by
  intro s d a i x hx hm hr e v hc ha hlocal
  have hparts := State.localParts_of_local hlocal
  have hwrote := State.wrote_partsFrom hparts.priv v hm (stores_le x hx) (off := 0) (fuel := x.2.1 / 32 + 2) (a := e) (by omega)
    fun p hp => (hparts.parts p hp).sram
  refine ⟨s.writeParts v ((parts e x.2.1).map s.sramHome), ?_, State.stored_of_wrote hwrote⟩
  rw [exec_stores hx hr, State.store_passed hc ha, hparts.writeAll_eq, State.conclude_ok]
  exact congrArg (fun u : State => Host.Outcome.next (u.finish 4 [rd a, rd d])) (s.writeParts_written s v _)

end Sys2Proof.Machine

namespace Sys2Proof.Machine

/-! ## Elements of gathers and scatters (R228) -/

theorem exec_vsct (d a b : BitVec 5) (f : BitVec 2) (k : BitVec 3) (t : BitVec 2) (s : State) :
    exec (.vsct d a b f k t) s = execVsct d a b f k t s := rfl
theorem exec_stm (d a : BitVec 5) (k : BitVec 3) (s : State) : exec (.stm d a k) s = execStm d a k s := rfl

/-- What passes its checks is aligned as they ask. -/
theorem State.checkAccess_aligned {s : State} {c : Ctx} {t : Nat} {a : W64} {n al : Nat} (h : s.checkAccess c t a n al = none) :
    a.toNat % al = 0 := by
  unfold State.checkAccess at h
  dsimp only at h
  split at h
  · cases h
  · split at h
    · cases h
    · split_ifs at h with hal
      simpa using hal

/-- Aligned bytes lie in one sector. -/
theorem sector_of_aligned {a n : Nat} (hn : n ∣ 32) (h : a % n = 0) : a % 32 + n ≤ 32 := by
  obtain ⟨k, hk⟩ := hn
  obtain ⟨q, hq⟩ : n ∣ a % 32 := Nat.dvd_of_mod_eq_zero (by rw [Nat.mod_mod_of_dvd _ ⟨k, hk⟩, h])
  have hlt : n * q < n * k := by omega
  have hqk : n * (q + 1) ≤ n * k := Nat.mul_le_mul_left n (Nat.lt_of_mul_lt_mul_left hlt)
  rw [Nat.mul_succ] at hqk
  omega

theorem Ctx.laneW_eq (c : Ctx) : 8 * (c.laneW / 8) = c.laneW := Nat.mul_div_cancel' (Dvd.intro _ rfl)

theorem Ctx.laneW_dvd (c : Ctx) : c.laneW / 8 ∣ 32 := by
  have hcode := (c.vcfg.extractLsb' 0 2).isLt
  unfold Ctx.laneW
  interval_cases (c.vcfg.extractLsb' 0 2).toNat <;> decide

/-- The address of an element (R228). -/
def State.elementAddr (s : State) (base : W64) (off : W256) (fs t : BitVec 2) (l : Nat) : W64 :=
  base + BitVec.ofInt 64 ((if t = 0 then sext (lane off s.me.laneW l) s.me.laneW else lane off s.me.laneW l) * 2 ^ fs.toNat)

theorem State.elements_eq (s : State) (base : W64) (off : W256) (k : BitVec 3) (fs t : BitVec 2) :
    s.elements base off k fs t = (s.activeLanes k s.me.laneN).map fun l =>
      ⟨s.elementAddr base off fs t l, l * (s.me.laneW / 8), s.me.laneW / 8⟩ := rfl

theorem State.mem_activeLanes (s : State) (k : BitVec 3) (n l : Nat) :
    l ∈ s.activeLanes k n ↔ l < n ∧ (s.me.k k.toNat).getLsbD l = true := by
  rw [State.activeLanes, List.mem_filter, List.mem_range]

/-- An element that has passed its check lies in one sector. -/
theorem State.LocalParts.element_sector {s : State} {wr : Bool} {base : W64} {off : W256} {k : BitVec 3} {fs t : BitVec 2}
    (h : s.LocalParts s.checkElement wr (s.elements base off k fs t)) :
    ∀ p ∈ s.elements base off k fs t, p.addr.toNat % 32 + p.n ≤ 32 := by
  intro p hp
  have hchk := (h.parts p hp).checked
  rw [State.elements_eq] at hp
  obtain ⟨l, -, rfl⟩ := List.mem_map.1 hp
  exact sector_of_aligned s.me.laneW_dvd (State.checkAccess_aligned hchk)

theorem Claims.bytes_lt (s : State) (a : W64) (n : Nat) : Claims.bytes s a n < 256 ^ n := by
  induction n with
  | zero => exact Nat.one_pos
  | succ n ih =>
    have hbyte := (Memory.read s.mem (Claims.byteKey s (a + BitVec.ofNat 64 n))).isLt
    have htop := Nat.mul_le_mul_right (256 ^ n) (Nat.le_of_lt_succ hbyte)
    rw [Claims.bytes, pow_succ]
    omega

/-- The values at the places of chosen lanes are the lanes of one number. -/
theorem sum_filter_lanes (w : Nat) (p : Nat → Bool) (f : Nat → Nat) (hf : ∀ l, f l < 2 ^ w) (n : Nat) :
    (((List.range n).filter p).map fun l => f l * 2 ^ (w * l)).sum = ofLanes w (fun l => if p l then f l else 0) n := by
  induction n with
  | zero => rfl
  | succ n ih =>
    rw [List.range_succ, List.filter_append, List.map_append, List.sum_append, ih, ofLanes]
    by_cases hn : p n = true
    · simp [hn, Nat.mod_eq_of_lt (hf n)]
    · simp [hn]

/-- Each active lane of what a gather reads holds the bytes of its element. -/
theorem State.elements_lane (s : State) (base : W64) (off : W256) (k : BitVec 3) (fs t : BitVec 2) {l : Nat} (hl : l < s.me.laneN)
    (hk : (s.me.k k.toNat).getLsbD l = true) :
    s.partsValue (s.elements base off k fs t) / 2 ^ (s.me.laneW * l) % 2 ^ s.me.laneW =
      Claims.bytes s (s.elementAddr base off fs t l) (s.me.laneW / 8) := by
  have hpow : (256 : Nat) ^ (s.me.laneW / 8) = 2 ^ s.me.laneW := by
    rw [show (256 : Nat) = 2 ^ 8 by rfl, ← pow_mul, s.me.laneW_eq]
  have hlt (j : Nat) : Claims.bytes s (s.elementAddr base off fs t j) (s.me.laneW / 8) < 2 ^ s.me.laneW := hpow ▸ Claims.bytes_lt ..
  have hplace (j : Nat) : 8 * (j * (s.me.laneW / 8)) = s.me.laneW * j := by rw [Nat.mul_left_comm, s.me.laneW_eq, Nat.mul_comm]
  have hvalue : s.partsValue (s.elements base off k fs t) = ofLanes s.me.laneW (fun j => if (s.me.k k.toNat).getLsbD j then
      Claims.bytes s (s.elementAddr base off fs t j) (s.me.laneW / 8) else 0) s.me.laneN := by
    rw [← sum_filter_lanes _ _ _ hlt, State.partsValue, State.elements_eq, List.map_map, State.activeLanes]
    simp only [Function.comp_def, hplace]
  rw [hvalue, ofLanes_div _ _ hl, if_pos hk, Nat.mod_eq_of_lt (hlt l)]

/-- The lanes of a gathered vector (R228, R245). -/
theorem State.lane_gathered (s : State) (d : BitVec 5) (k : BitVec 3) (v : Nat) {l : Nat} (hl : l < s.me.laneN) :
    lane (s.gathered d (s.activeLanes k s.me.laneN) s.me.laneW v) s.me.laneW l =
      if (s.me.k k.toNat).getLsbD l then v / 2 ^ (s.me.laneW * l) % 2 ^ s.me.laneW else s.keepLane d s.me.laneW l := by
  have hmem : (s.activeLanes k s.me.laneN).contains l = (s.me.k k.toNat).getLsbD l := by
    rw [Bool.eq_iff_iff, List.contains_iff_mem, State.mem_activeLanes]
    exact and_iff_right hl
  rw [State.gathered, ← Ctx.laneN, lane_vecOf _ s.me.laneW_mul_laneN.le hl, hmem]
  split
  · exact Nat.mod_mod ..
  · exact s.keepLane_mod ..

/-- R228: a gather from SRAM. -/
theorem exec_vgat_local {s : State} {d a b : BitVec 5} {f : BitVec 2} {k : BitVec 3} {t : BitVec 2} (hr : s.ready [rd a, rd b] [d] = true)
    (h : s.LocalParts s.checkElement false
      (s.elements (s.src [rd a, rd b] 1) (s.operand [rd a, rd b] (fun i => i == 0) 0) k f t)) :
    exec (.vgat d a b f k t) s = .next ((s.putV d (s.gathered d (s.activeLanes k s.me.laneN) s.me.laneW
      (s.partsValue (s.elements (s.src [rd a, rd b] 1) (s.operand [rd a, rd b] (fun i => i == 0) 0) k f t)))).finish 4 [rd a, rd b]) := by
  rw [exec_vgat, execVgat, State.issue_ready _ _ _ _ _ _ _ hr rfl]
  exact congrArg (fun r => Host.Outcome.next (s.conclude 4 _ false r)) (h.readAll_eq h.element_sector _ _ _)

/-- Where one lane alone is active, a scatter has one element. -/
theorem State.activeLanes_one {s : State} {k : BitVec 3} {n l : Nat} (h : ∀ j, j < n → ((s.me.k k.toNat).getLsbD j = true ↔ j = l))
    (hl : l < n) : s.activeLanes k n = [l] := by
  refine List.perm_singleton.1 ((List.perm_ext_iff_of_nodup (List.nodup_range.filter _) (List.nodup_singleton l)).2 fun j => ?_)
  change j ∈ s.activeLanes k n ↔ _
  rw [State.mem_activeLanes, List.mem_singleton]
  exact ⟨fun hj => (h j hj.1).1 hj.2, fun hj => hj ▸ ⟨hl, (h l hl).2 rfl⟩⟩

/-- R228: a scatter to SRAM. -/
theorem exec_vsct_local {s : State} {d a b : BitVec 5} {f : BitVec 2} {k : BitVec 3} {t : BitVec 2}
    (hr : s.ready [rd a, rd b, rd d] [] = true) {ps : List Part}
    (hps : s.elements (s.src [rd a, rd b, rd d] 1) (s.operand [rd a, rd b, rd d] (fun i => i != 1) 0) k f t = ps)
    (h : s.LocalParts s.checkElement true ps) :
    exec (.vsct d a b f k t) s = .next ((s.writeParts (s.operand [rd a, rd b, rd d] (fun i => i != 1) 2).toNat
      (ps.map s.sramHome)).finish 4 [rd a, rd b, rd d]) := by
  rw [exec_vsct, execVsct, State.issue_ready _ _ _ _ _ _ _ hr rfl]
  refine congrArg (fun r => Host.Outcome.next (s.conclude 4 _ false r)) (Eq.trans ?_ (h.writeAll_eq _ (nameLane ps)))
  rw [← hps]
  rfl

/-- R229: a masked store to SRAM. -/
theorem exec_stm_local {s : State} {d a : BitVec 5} {k : BitVec 3} (hr : s.ready [rd a, rd d] [] = true) (hk : s.me.k k.toNat ≠ 0)
    (hc : s.checkAccess s.me s.cur.t (s.src [rd a, rd d] 0) 32 32 = none)
    (h : s.LocalParts (fun _ => none) true [⟨s.src [rd a, rd d] 0, 0, 32⟩]) :
    exec (.stm d a k) s = .next ((s.writeSector (Claims.byteKey s (s.src [rd a, rd d] 0)) (s.me.k k.toNat)
      (s.operand [rd a, rd d] (fun i => i == 1) 1)).finish 4 [rd a, rd d]) := by
  have hstill : s.changing (s.src [rd a, rd d] 0) 32 = false := (h.parts _ (List.mem_singleton_self _)).still
  rw [exec_stm, execStm, State.issue_ready _ _ _ _ _ _ _ hr rfl]
  have hsrc : (s.operand [rd a, rd d] (fun i => i == 1) 0).setWidth 64 = s.src [rd a, rd d] 0 := rfl
  simp only [hsrc, hstill, Bool.false_eq_true, if_false, hc, h.homes, if_neg hk]
  rfl

/-- Settles O12: the elements of a gather or scatter are parts within one sector each, and `stm` is a masked write of one. -/
theorem gatherScatter : Obligations.GatherScatter := by
  refine ⟨?gather, ?scatter, ?stm⟩
  case gather =>
    intro s d a b f k t hr w off e hlocal
    refine ⟨_, exec_vgat_local hr (State.localParts_of_local hlocal), fun l hl => ?_⟩
    rw [State.lane_gathered _ _ _ _ hl]
    exact if_ctx_congr Iff.rfl (fun hk => State.elements_lane _ _ _ _ _ _ hl hk) fun _ => rfl
  case scatter =>
    intro s d a b f k t l hm hr hone hl w off e hlocal
    have hparts := State.localParts_of_local hlocal
    have helement : s.elements (s.src [rd a, rd b, rd d] 1) off k f t = [⟨e, l * (w / 8), w / 8⟩] := by
      rw [State.elements_eq, State.activeLanes_one hone hl]
      rfl
    have hsector := hparts.element_sector ⟨e, l * (w / 8), w / 8⟩ (helement ▸ List.mem_singleton_self _)
    rw [helement] at hparts
    have hin : inSram e = true := (hparts.parts _ (List.mem_singleton_self _)).sram
    have hlane (v : Nat) : v / 2 ^ (8 * (l * (w / 8))) % 2 ^ (8 * (w / 8)) = v / 2 ^ (w * l) % 2 ^ w := by
      rw [Nat.mul_left_comm, s.me.laneW_eq, Nat.mul_comm l]
    obtain ⟨hbytes, hother⟩ := State.wrote_writeSector hparts.priv hm hin (l * (w / 8)) hsector
      (s.operand [rd a, rd b, rd d] (fun i => i != 1) 2).toNat
    refine ⟨_, (exec_vsct_local hr helement hparts).trans
      (congrArg (fun u : State => Host.Outcome.next (u.finish 4 [rd a, rd b, rd d])) (s.writeParts_written s _ _)),
      fun i hi => (hbytes i hi).trans ?_, hother⟩
    rw [← part_byte _ _ hi, hlane]
    rfl
  case stm =>
    intro s d a k hm hr hk e hc hlocal
    have hparts := State.localParts_of_local hlocal
    have hin : inSram e = true := (hparts.parts _ (List.mem_singleton_self _)).sram
    have haligned : Claims.byteKey s e % 32 = 0 := by rw [State.byteKey_mod hparts.priv hin, State.checkAccess_aligned hc]
    refine ⟨_, (exec_stm_local hr hk hc hparts).trans
      (congrArg (fun u : State => Host.Outcome.next (u.finish 4 [rd a, rd d])) (s.writeSector_written ..)), fun j => ?_⟩
    rw [State.writeSector, Memory.read_writeMask hm, Nat.div_mul_cancel (Nat.dvd_of_mod_eq_zero haligned)]
    refine if_congr ⟨fun h => ⟨h.1, ?_, h.2⟩, fun h => ⟨h.1, h.2.2⟩⟩ rfl rfl
    have hbit := BitVec.lt_of_getLsbD h.2
    omega

end Sys2Proof.Machine

namespace Sys2Proof.Machine

/-! ## O13. Atomics on SRAM (R105, R230, R231) -/

theorem exec_cas (d a b : BitVec 5) (o : BitVec 2) (f : BitVec 3) (w : BitVec 1) (s : State) :
    exec (.cas d a b o f w) s = execCas d a b o f w s := rfl

/-- An order that is no release, or that has nothing to wait for, lets the atomic go on. -/
theorem State.atomic.release_go {s : State} {ord fs k : Nat} (h : ord < 2 ∨ s.releaseSet k fs = []) (go : State → Res) :
    State.atomic.release ord fs k s go = go s := by
  have hnone : (if 2 ≤ ord then s.releaseSet k fs else []) = [] := by
    obtain h | h := h
    · exact if_neg (Nat.not_le.2 h)
    · rw [h, ite_self]
  simp only [State.atomic.release, hnone, if_true]

section
variable {s : State} {a : W64} {n : Nat} (h : s.LocalParts (fun _ => none) false [⟨a, 0, n⟩])
  (hc : s.checkAccess s.me s.cur.t a n n = none)
include h hc

/-- An atomic on SRAM with nothing to wait for is performed at once. -/
theorem State.atomic_local {d : BitVec 5} {op : AOp} {ord fs : Nat} (hn : n = if op.word then 4 else 8)
    (hw : ord < 2 ∨ s.releaseSet s.cur.ctx fs = []) (b e : W64) :
    s.atomic d op ord fs a b e =
      .ok ((s.atomicAt (Claims.byteKey s a) op b e).2.put d (s.atomicAt (Claims.byteKey s a) op b e).1) := by
  subst hn
  have hpart := h.parts _ (List.mem_singleton_self _)
  have hstill : s.changing a (if op.word then 4 else 8) = false := hpart.still
  have hgood : s.badAt (Claims.byteKey s a) (if op.word then 4 else 8) = false := hpart.good rfl
  have hhome : s.findHome a true = .home (.sram (Claims.byteKey s a)) := hpart.home true
  simp only [State.atomic, hstill, Bool.false_eq_true, if_false, hc, hhome, State.atomic.release_go hw, hgood]

variable (hn : n ∣ 32)
include hn

theorem State.readN_local : Memory.readN s.mem (Claims.byteKey s a) n = Claims.bytes s a n :=
  (State.bytes_eq_readN h.priv (h.parts _ (List.mem_singleton_self _)).sram (sector_of_aligned hn (State.checkAccess_aligned hc))).symm

/-- Bytes written from the key of an aligned address on. -/
theorem State.stored_writeN (hm : s.memOk = true) (v : Nat) :
    Claims.stored s { s with mem := Memory.writeN s.mem (Claims.byteKey s a) n v } a n v := by
  refine State.stored_of_wrote (State.wrote_of_read h.priv (h.parts _ (List.mem_singleton_self _)).sram
    (sector_of_aligned hn (State.checkAccess_aligned hc)) fun j => ?_)
  rw [Memory.read_writeN _ _ _ _ _ hm, Nat.zero_add]

end

/-- R230: the atomics of the list run as one operation each, whose new value is that of the list. -/
theorem exec_atomics {p : (BitVec 5 → BitVec 5 → BitVec 5 → BitVec 2 → BitVec 3 → Instr) × (W64 → W64 → W64)}
    (hp : p ∈ Claims.atomics) :
    ∃ op, (∀ old b, atomicNew op old b = p.2 old b) ∧ ∀ s d a b o f, exec (p.1 d a b o f) s = .next (s.atom op d a b o f) := by
  simp only [Claims.atomics, List.mem_cons, List.not_mem_nil, or_false] at hp
  obtain rfl | rfl | rfl | rfl | rfl | rfl | rfl | rfl := hp
  · exact ⟨0, fun _ _ => rfl, fun _ _ _ _ _ _ => rfl⟩
  · exact ⟨1, fun _ _ => rfl, fun _ _ _ _ _ _ => rfl⟩
  · exact ⟨2, fun _ _ => rfl, fun _ _ _ _ _ _ => rfl⟩
  · exact ⟨3, fun _ _ => rfl, fun _ _ _ _ _ _ => rfl⟩
  · exact ⟨4, fun _ _ => rfl, fun _ _ _ _ _ _ => rfl⟩
  · exact ⟨5, max_signed, fun _ _ _ _ _ _ => rfl⟩
  · exact ⟨6, min_signed, fun _ _ _ _ _ _ => rfl⟩
  · exact ⟨7, max_unsigned, fun _ _ _ _ _ _ => rfl⟩

/-- The low bits of a word that a compare-and-swap of a width compares and writes. -/
theorem toNat_lowBits (word : Bool) (x : W64) :
    (if word then x &&& 0xFFFFFFFF#64 else x).toNat = x.toNat % 256 ^ (if word then 4 else 8) := by
  cases word with
  | true => exact (BitVec.toNat_and ..).trans (Nat.and_two_pow_sub_one_eq_mod x.toNat 32)
  | false => exact (Nat.mod_eq_of_lt x.isLt).symm

/-- R231: a compare-and-swap writes its new value where memory holds the expected one. -/
theorem State.atomicAt_cas (s : State) (key : Nat) (word : Bool) (b e : W64) {n : Nat} (hn : n = if word then 4 else 8) :
    s.atomicAt key ⟨0, true, word⟩ b e =
      if Memory.readN s.mem key n = e.toNat % 256 ^ n
      then (BitVec.ofNat 64 (Memory.readN s.mem key n), { s with mem := Memory.writeN s.mem key n (b.toNat % 256 ^ n) })
      else (BitVec.ofNat 64 (Memory.readN s.mem key n), s) := by
  have hwidth : 256 ^ n ≤ 2 ^ 64 := by rw [hn]; cases word <;> norm_num
  have hread : (BitVec.ofNat 64 (Memory.readN s.mem key n)).toNat = Memory.readN s.mem key n := by
    rw [BitVec.toNat_ofNat, Nat.mod_eq_of_lt ((Memory.readN_lt ..).trans_le hwidth)]
  simp only [State.atomicAt, if_true, ← hn, ← BitVec.toNat_inj, toNat_lowBits, hread]

/-- Settles O13: with its checks passed and nothing to wait for, an atomic is one read and write at the key of its address. -/
theorem localAtomics : Obligations.LocalAtomics := by
  refine ⟨?atomic, ?cas⟩
  case atomic =>
    intro p hp s d a b o f hm hr e old hc hlocal hw
    have hparts := State.localParts_of_local hlocal
    obtain ⟨op, hnew, hexec⟩ := exec_atomics hp
    have hat : s.atomicAt (Claims.byteKey s e) ⟨op, false, false⟩ (s.src [rd a, rd b] 1) 0 =
        (old, { s with mem := Memory.writeN s.mem (Claims.byteKey s e) 8 (p.2 old (s.src [rd a, rd b] 1)).toNat }) := by
      simp only [State.atomicAt, Bool.false_eq_true, if_false, State.readN_local hparts hc (by decide), hnew]
      rfl
    refine ⟨_, ?_, State.stored_writeN hparts hc (by decide) hm _⟩
    rw [hexec, State.atom, State.issueS_ready _ _ _ _ _ hr, State.atomic_local hparts hc rfl hw, hat, State.conclude_ok]
  case cas =>
    intro s d a b o f w hm hr n e old hc hlocal hw
    have hparts := State.localParts_of_local hlocal
    have hword : n = if (w == 1#1) = true then 4 else 8 := by simp [n]
    have hn : n ∣ 32 := by
      rw [hword]
      split <;> decide
    have hold : Memory.readN s.mem (Claims.byteKey s e) n = old := State.readN_local hparts hc hn
    rw [exec_cas, execCas, State.issueS_ready _ _ _ _ _ hr, State.atomic_local hparts hc hword hw, State.conclude_ok,
      State.atomicAt_cas _ _ _ _ _ hword, hold]
    by_cases hsame : old = (s.src [rd a, rd d, rd b] 1).toNat % 256 ^ n
    · simp only [if_pos hsame]
      exact ⟨{ s with mem := _ }, rfl, State.stored_writeN hparts hc hn hm _⟩
    · simp only [if_neg hsame]
      exact ⟨s, rfl, fun _ => rfl⟩

end Sys2Proof.Machine

namespace Sys2Proof.Machine

/-! ## O11. A load through a cache bank that is about to change (R63) -/

/-- R63: a global address waits while a bank of the tile cache is about to change. -/
theorem State.findHome_cacheChanging {s : State} {va : W64} {wr : Bool} {e : TlbEntry} (hw : winOf va = some .global)
    (ht : s.tlbFind s.cur.t (s.rootOf (s.me.resid.getD 0)).1 va.toNat wr = some e)
    (hc : s.cacheChanging s.cur.t (s.me.resid.getD 0) = true) : s.findHome va wr = .wait := by
  simp only [State.findHome, hw, ht, hc, or_true, if_true]

/-- The CACHE bank of a residency on tile 0 has accepted a change that has not taken effect. -/
def cacheTurning : State := { State.reset with
  ctxs := [(0, { resid := some 0 })]
  tiles := [(0, { banks := [(7, { owner := some 0, mode := .cache, pending := [⟨.scratch, 0, false, 0⟩] })] })]
  tlbs := [⟨1, 0, 0, 0, 16, 0, 0x30000, true⟩] }

theorem cacheTurning_address : cacheTurning.ready [rd 0] [1] = true ∧
    Claims.address cacheTurning [rd 0] 0 (2 ^ (3 : BitVec 2).toNat) = 0 := by decide +kernel

/-- Its translation holds the address 0, no `stq` writes there, and the tile cache does not hold it. -/
theorem cacheTurning_sector :
    cacheTurning.tlbFind cacheTurning.cur.t (cacheTurning.rootOf (cacheTurning.me.resid.getD 0)).1 (0 : W64).toNat false =
      some ⟨1, 0, 0, 0, 16, 0, 0x30000, true⟩ ∧
    cacheTurning.stqPending cacheTurning.cur.ctx (0x30000 + (0 : W64).toNat % 2 ^ 16) = false ∧
    cacheTurning.hit cacheTurning.cur.t (cacheTurning.me.resid.getD 0) (0x30000 + (0 : W64).toNat % 2 ^ 16) = none := by decide +kernel

theorem cacheTurning_changing : cacheTurning.cacheChanging cacheTurning.cur.t (cacheTurning.me.resid.getD 0) = true := by decide +kernel

/-- The model makes a load of that address wait for the change. -/
theorem cacheTurning_waits : exec (.ld 1 0 0 3) cacheTurning = .next cacheTurning := by
  obtain ⟨hready, haddr⟩ := cacheTurning_address
  obtain ⟨htlb, -⟩ := cacheTurning_sector
  have hwindow : winOf (0 : W64) = some .global := by decide
  have hwait : cacheTurning.findHome 0 false = .wait := State.findHome_cacheChanging hwindow htlb cacheTurning_changing
  rw [exec_ld_global (z := 3) hready haddr hwindow (by decide) (by decide), State.readAll, State.findHomes, State.changing_global hwindow,
    if_neg Bool.false_ne_true]
  simp only [hwait]
  rfl

/-- Refutes O11: it has every load of a global address that the translation holds and the cache does not go out as a request, and an access
through the tile cache waits while a CACHE bank of its residency has accepted a change (R63). At `cacheTurning` nothing is sent. -/
theorem not_remoteAccess : ¬ Obligations.RemoteAccess := by
  rintro ⟨hload, -⟩
  obtain ⟨hready, haddr⟩ := cacheTurning_address
  obtain ⟨htlb, hstq, hhit⟩ := cacheTurning_sector
  have claim := hload cacheTurning 1 0 0 3 ⟨1, 0, 0, 0, 16, 0, 0x30000, true⟩ hready
  simp only [haddr] at claim
  obtain ⟨t, f, p, hexec, -, -, hnet, -⟩ := claim rfl (by decide) (by decide) htlb hstq hhit
  obtain rfl : cacheTurning = t := Host.Outcome.next.inj (cacheTurning_waits.symm.trans hexec)
  exact List.cons_ne_nil f [] hnet.symm

end Sys2Proof.Machine

namespace Sys2Proof.Machine

/-! ## O16. FIFO queues (R68, R240) -/

theorem exec_qpush (q : BitVec 3) (a : BitVec 5) (s : State) : exec (.qpush q a) s = execQpush q a s := rfl
theorem exec_qpushv (q : BitVec 3) (a : BitVec 5) (s : State) : exec (.qpushv q a) s = execQpushv q a s := rfl
theorem exec_qpop (d : BitVec 5) (q : BitVec 3) (s : State) : exec (.qpop d q) s = execQpop d q s := rfl
theorem exec_qpopv (d : BitVec 5) (q : BitVec 3) (s : State) : exec (.qpopv d q) s = execQpopv d q s := rfl
theorem exec_qcount (d : BitVec 5) (q : BitVec 3) (s : State) : exec (.qcount d q) s = execQcount d q s := rfl
theorem exec_qtag (d : BitVec 5) (q : BitVec 3) (s : State) : exec (.qtag d q) s = execQtag d q s := rfl
theorem exec_qdrop (q : BitVec 3) (s : State) : exec (.qdrop q) s = execQdrop q s := rfl

section
variable {s : State} {q : BitVec 3}

/-! ### The queue's bank -/

theorem State.onQueue_changing (body : Bank → Res) (h : (s.bank s.cur.t q.toNat).pending ≠ []) : s.onQueue q body = .wait := if_pos h

variable (hp : (s.bank s.cur.t q.toNat).pending = [])
include hp

theorem State.onQueue_fault {c : Trap} (body : Bank → Res) (h : s.queueFault s.cur.t (s.me.resid.getD 0) q.toNat = some c) :
    s.onQueue q body = .trap c := by
  simp only [State.onQueue, hp, ne_eq, not_true_eq_false, if_false, h]

theorem State.onQueue_owned (body : Bank → Res) (h : s.queueFault s.cur.t (s.me.resid.getD 0) q.toNat = none) :
    s.onQueue q body = body (s.bank s.cur.t q.toNat) := by
  simp only [State.onQueue, hp, ne_eq, not_true_eq_false, if_false, h]

end

/-- A DATA word goes to the end of a queue that has room in its bank and holds nothing outside it (R68, R69). -/
theorem Bank.push_data {b : Bank} (v : W256) (hto : b.pushTo ≠ .blocked) (hlen : b.queue.length + b.reserved < 512)
    (hring : b.ringCount = 0)
    (hstage : b.staging = []) : b.push ⟨v, 0⟩ = { b with queue := b.queue ++ [⟨v, 0⟩] } := by
  have hfree : b.spillFaulted = false := by
    by_contra h
    exact hto (by simp [Bank.pushTo, h])
  simp [Bank.push, Bank.pushTo, hfree, hlen, hring, hstage]

/-! ### The operations on a queue of the residency -/

section
variable {s : State} {q : BitVec 3} (hf : s.queueFault s.cur.t (s.me.resid.getD 0) q.toNat = none)
  (hp : (s.bank s.cur.t q.toNat).pending = [])
include hf hp

theorem State.queuePush_room (v : W256) (hroom : s.queueRoom q.toNat = true)
    (hlen : (s.bank s.cur.t q.toNat).queue.length + (s.bank s.cur.t q.toNat).reserved < 512)
    (hring : (s.bank s.cur.t q.toNat).ringCount = 0) (hstage : (s.bank s.cur.t q.toNat).staging = []) :
    s.queuePush q ⟨v, 0⟩ = .ok (s.setBank s.cur.t q.toNat
      { s.bank s.cur.t q.toNat with queue := (s.bank s.cur.t q.toNat).queue ++ [⟨v, 0⟩] }) := by
  obtain ⟨hto, -, -⟩ := (s.queueRoom_iff _).1 hroom
  rw [State.queuePush, State.onQueue_owned hp _ hf, if_pos hroom, Bank.push_data v hto hlen hring hstage]

variable (f : State → W256 → State) {w : NetWord} {r : List NetWord}

theorem State.queuePop_empty (h : (s.bank s.cur.t q.toNat).queue = []) : s.queuePop q f = .wait := by
  simp only [State.queuePop, State.onQueue_owned hp _ hf, h]

theorem State.queuePop_data (h : (s.bank s.cur.t q.toNat).queue = w :: r) (hw : w.tag = 0) :
    s.queuePop q f = .ok (f (s.setBank s.cur.t q.toNat { s.bank s.cur.t q.toNat with queue := r }) w.data) := by
  simp only [State.queuePop, State.onQueue_owned hp _ hf, h]
  exact if_neg (not_not.2 hw)

theorem State.queuePop_token (h : (s.bank s.cur.t q.toNat).queue = w :: r) (hw : w.tag ≠ 0) :
    s.queuePop q f = .trap ⟨0x06, 0, BitVec.ofNat 64 (w.tag.toNat + q.toNat * 256)⟩ := by
  simp only [State.queuePop, State.onQueue_owned hp _ hf, h]
  exact if_pos hw

end

/-! ### The instructions -/

section
variable {s : State} {q : BitVec 3}

theorem exec_qpush_ready {a : BitVec 5} (hr : s.ready [rd a] [] = true) :
    exec (.qpush q a) s = .next (s.conclude 4 (popsOf [rd a]) false (s.queuePush q ⟨(s.src [rd a] 0).setWidth 256, 0⟩)) := by
  rw [exec_qpush, execQpush, s.forQueue_ready _ _ _ _ _ _ hr, State.issueS_ready _ _ _ _ _ hr]

theorem exec_qpushv_ready {a : BitVec 5} (hr : s.ready [rd a] [] = true) :
    exec (.qpushv q a) s = .next (s.conclude 4 (popsOf [rd a]) false (s.queuePush q ⟨s.operand [rd a] (fun _ => true) 0, 0⟩)) := by
  rw [exec_qpushv, execQpushv, s.forQueue_ready _ _ _ _ _ _ hr, State.issue_ready _ _ _ _ _ _ _ hr rfl]

theorem exec_qpop_ready {d : BitVec 5} (hr : s.ready [] [d] = true) :
    exec (.qpop d q) s = .next (s.conclude 4 (popsOf []) false (s.queuePop q fun s w => s.put d (w.setWidth 64))) := by
  rw [exec_qpop, execQpop, State.issueS_ready _ _ _ _ _ hr]

theorem exec_qpopv_ready {d : BitVec 5} (hr : s.ready [] [d] = true) :
    exec (.qpopv d q) s = .next (s.conclude 4 (popsOf []) false (s.queuePop q fun s w => s.putV d w)) := by
  rw [exec_qpopv, execQpopv, State.issueS_ready _ _ _ _ _ hr]

/-- The tag of the head, 16 without one (R240). -/
def Bank.headTag (b : Bank) : W64 := match b.queue with | [] => 0x10 | w :: _ => w.tag.setWidth 64

theorem exec_qtag_ready {d : BitVec 5} (hr : s.ready [] [d] = true) :
    exec (.qtag d q) s = .next (s.conclude 4 (popsOf []) false (s.onQueue q fun b => .ok (s.put d b.headTag))) := by
  rw [exec_qtag, execQtag, State.issueS_ready _ _ _ _ _ hr]
  rfl

theorem exec_qcount_ready {d : BitVec 5} (hr : s.ready [] [d] = true) :
    exec (.qcount d q) s = .next (s.conclude 4 (popsOf []) false (s.onQueue q fun b => .ok (s.put d (BitVec.ofNat 64 b.entries)))) := by
  rw [exec_qcount, execQcount, State.issueS_ready _ _ _ _ _ hr]

/-- A queue without its head. -/
def State.queueDrop (s : State) (q : BitVec 3) (b : Bank) : Res :=
  match b.queue with
  | [] => .wait
  | _ :: r => .ok (s.setBank s.cur.t q.toNat { b with queue := r })

theorem exec_qdrop_ready (hr : s.ready [] [] = true) :
    exec (.qdrop q) s = .next (s.conclude 4 (popsOf []) false (s.onQueue q (s.queueDrop q))) := by
  rw [exec_qdrop, execQdrop, State.issueS_ready _ _ _ _ _ hr]
  rfl

/-- Each of the seven, when it is ready, is an operation on its queue. -/
theorem exec_queue_ready {i : Instr} {g : Claims.Form} (hi : i ∈ [.qdrop q] ∨ (∃ a, i ∈ [.qpush q a, .qpushv q a]) ∨
      ∃ d, i ∈ [.qpop d q, .qpopv d q, .qcount d q, .qtag d q]) (hg : Claims.form i = some g) (hr : s.ready g.srcs g.outs = true) :
    ∃ pops body, exec i s = .next (s.conclude 4 pops false (s.onQueue q body)) := by
  simp only [List.mem_cons, List.not_mem_nil, or_false] at hi
  obtain rfl | ⟨a, rfl | rfl⟩ | ⟨d, rfl | rfl | rfl | rfl⟩ := hi <;> cases hg
  · exact ⟨_, _, exec_qdrop_ready hr⟩
  · exact ⟨_, _, exec_qpush_ready hr⟩
  · exact ⟨_, _, exec_qpushv_ready hr⟩
  · exact ⟨_, _, exec_qpop_ready hr⟩
  · exact ⟨_, _, exec_qpopv_ready hr⟩
  · exact ⟨_, _, exec_qcount_ready hr⟩
  · exact ⟨_, _, exec_qtag_ready hr⟩

end

theorem State.queueFault_mode {s : State} {t r q : Nat} (h : (s.bank t q).mode ≠ .fifo) :
    s.queueFault t r q = some ⟨0x14, 0, BitVec.ofNat 64 q⟩ := if_pos h

theorem State.queueFault_owner {s : State} {t r q : Nat} (h : (s.bank t q).mode = .fifo) (ho : s.ownsBank r t q = false) :
    s.queueFault t r q = some ⟨0x15, 0, BitVec.ofNat 64 q⟩ := by
  rw [State.queueFault, if_neg (not_not.2 h), if_pos ho]

/-- R240, R68, R63: the seven operations on a queue. -/
theorem queueOps : Parts.QueueOps := by
  intro s q n b
  refine ⟨fun hf hp => ⟨fun a hr hroom hlen hring hstage => ⟨?_, ?_⟩, fun d w r hr hq hw => ⟨?_, ?_⟩,
    fun d w r hr hq hw => ⟨?_, ?_⟩, fun w r hr hq => ?_, fun d hr hq => ⟨?_, ?_, ?_⟩, fun hr hq => ?_⟩, fun hf hp d hr => ⟨?_, fun w r hq => ?_⟩,
    fun i g hi hg hr => ?_⟩
  · rw [exec_qpush_ready hr, State.queuePush_room hf hp _ hroom hlen hring hstage, State.conclude_ok]
  · rw [exec_qpushv_ready hr, State.queuePush_room hf hp _ hroom hlen hring hstage, State.conclude_ok]
  · rw [exec_qpop_ready hr, State.queuePop_data hf hp _ hq hw, State.conclude_ok]
  · rw [exec_qpopv_ready hr, State.queuePop_data hf hp _ hq hw, State.conclude_ok]
  · rw [exec_qpop_ready hr, State.queuePop_token hf hp _ hq hw, State.conclude_trap]
  · rw [exec_qpopv_ready hr, State.queuePop_token hf hp _ hq hw, State.conclude_trap]
  · rw [exec_qdrop_ready hr, State.onQueue_owned hp _ hf, State.queueDrop, hq, State.conclude_ok]
  · rw [exec_qpop_ready hr, State.queuePop_empty hf hp _ hq, State.conclude_wait, if_neg Bool.false_ne_true]
  · rw [exec_qpopv_ready hr, State.queuePop_empty hf hp _ hq, State.conclude_wait, if_neg Bool.false_ne_true]
  · rw [exec_qtag_ready hr, State.onQueue_owned hp _ hf, Bank.headTag, hq, State.conclude_ok]
  · rw [exec_qdrop_ready hr, State.onQueue_owned hp _ hf, State.queueDrop, hq, State.conclude_wait, if_neg Bool.false_ne_true]
  · rw [exec_qcount_ready hr, State.onQueue_owned hp _ hf, Bank.entries, Nat.mul_comm _ 32, State.conclude_ok]
  · rw [exec_qtag_ready hr, State.onQueue_owned hp _ hf, Bank.headTag, hq, State.conclude_ok]
  · obtain ⟨pops, body, hexec⟩ := exec_queue_ready hi hg hr
    refine ⟨fun hp => ?_, fun hp => ⟨fun hm => ?_, fun hm ho => ?_⟩⟩
    · rw [hexec, State.onQueue_changing _ hp, State.conclude_wait, if_neg Bool.false_ne_true]
    · rw [hexec, State.onQueue_fault hp _ (State.queueFault_mode hm), State.conclude_trap]
    · rw [hexec, State.onQueue_fault hp _ (State.queueFault_owner hm ho), State.conclude_trap]

end Sys2Proof.Machine

namespace Sys2Proof.Machine

/-! ## O16. Bank settings (R63, R241) -/

theorem exec_bset (n : BitVec 3) (a : BitVec 5) (s : State) : exec (.bset n a) s = execBset n a s := rfl
theorem exec_bspill (n : BitVec 3) (a b : BitVec 5) (s : State) : exec (.bspill n a b) s = execBspill n a b s := rfl
theorem exec_bget (d : BitVec 5) (n : BitVec 3) (s : State) : exec (.bget d n) s = execBget d n s := rfl

/-! ### The change that `bset` makes -/

theorem nodup_groupOf (n il : Nat) : (groupOf n il).Nodup :=
  List.nodup_range.map fun _ _ h => Nat.add_left_cancel h

/-- A bank that has accepted one change more. -/
def Bank.accept (b : Bank) (c : BankChange) : Bank := { b with pending := b.pending ++ [c] }

/-- The banks of a list, on the tile whose turn it is, with a change added to those they have accepted. -/
def State.acceptChange (s : State) (c : BankChange) (l : List Nat) : State :=
  l.foldl (fun u j => u.setBank u.cur.t j ((u.bank u.cur.t j).accept c)) s

namespace State
variable (s : State) (c : BankChange) (l : List Nat)

theorem acceptChange_tiles : ∃ x, s.acceptChange c l = { s with tiles := x } := by
  induction l generalizing s with
  | nil => exact ⟨s.tiles, rfl⟩
  | cons j l ih => exact (ih _).imp fun _ h => h

theorem acceptChange_cons (j : Nat) :
    s.acceptChange c (j :: l) = (s.setBank s.cur.t j ((s.bank s.cur.t j).accept c)).acceptChange c l := rfl

variable {l}

theorem bank_acceptChange_of_not_mem {m : Nat} (h : m ∉ l) : (s.acceptChange c l).bank s.cur.t m = s.bank s.cur.t m := by
  induction l generalizing s with
  | nil => rfl
  | cons j l ih =>
    rw [List.mem_cons, not_or] at h
    obtain ⟨hj, hl⟩ := h
    rw [acceptChange_cons]
    exact (ih _ hl).trans ((s.bank_setBank ..).trans (if_neg fun e => hj e.2))

theorem bank_acceptChange_of_mem (hl : l.Nodup) {m : Nat} (h : m ∈ l) :
    (s.acceptChange c l).bank s.cur.t m = (s.bank s.cur.t m).accept c := by
  induction l generalizing s with
  | nil => exact absurd h List.not_mem_nil
  | cons j l ih =>
    obtain ⟨hj, hnodup⟩ := List.nodup_cons.1 hl
    rw [acceptChange_cons]
    obtain rfl | hm := List.mem_cons.1 h
    · exact (bank_acceptChange_of_not_mem _ c hj).trans (s.bank_setBank_self ..)
    · have hne : m ≠ j := fun e => hj (e ▸ hm)
      exact (ih _ hnodup hm).trans (congrArg (Bank.accept · c) ((s.bank_setBank ..).trans (if_neg fun e => hne e.2)))

end State

/-! ### Popping one port -/

theorem popsOf_port {a : BitVec 5} (h : 27 ≤ a.toNat) : popsOf [rd a] = [a.toNat] := by
  simp [popsOf, portsOf, rd, h]

/-- The lane's FIFO loses its head; a credit that goes back to a neighbour does not change it. -/
theorem State.rx_popLane (s : State) (t b d : Nat) :
    ((s.popLane t b d).xbar (t * 4 + b)).rx.get [] d = ((s.xbar (t * 4 + b)).rx.get [] d).drop 1 := by
  unfold State.popLane
  dsimp only
  split
  · rw [State.xbar_setXbar_self, AMap.get_set_self]
  · rw [State.xbar_setXbar]
    split
    next h => rw [← h, State.xbar_setXbar_self, AMap.get_set_self]
    next => rw [State.xbar_setXbar_self, AMap.get_set_self]

theorem State.portIn_popPort (s : State) {p : Nat} : (s.popPort p).portIn p = (s.portIn p).drop 1 := by
  rw [State.portIn, State.portIn, State.popPort_cur, State.popPort]
  split
  · rw [State.xbar_setXbar_self, AMap.get_set_self]
  · exact s.rx_popLane ..

/-! ### `bset` -/

/-- The change that the operand of `bset` asks for. -/
def State.bsetChange (s : State) (x : W64) : BankChange :=
  ⟨if x.extractLsb' 0 2 = 0#2 then .scratch else if x.extractLsb' 0 2 = 1#2 then .cache else .fifo, (x.extractLsb' 2 2).toNat,
    x.getLsbD 4, s.cur.ctx⟩

theorem State.bsetChange_scratch (s : State) (x : W64) : (s.bsetChange x).mode = .scratch ↔ x.extractLsb' 0 2 = 0 := by
  dsimp only [State.bsetChange]
  split
  next h => exact iff_of_true rfl h
  next h => split <;> exact iff_of_false BankMode.noConfusion h

theorem State.bsetChange_cache (s : State) (x : W64) : (s.bsetChange x).mode = .cache ↔ x.extractLsb' 0 2 = 1 := by
  dsimp only [State.bsetChange]
  split
  next h => exact iff_of_false BankMode.noConfusion (by rw [h]; decide)
  next =>
    split
    next h => exact iff_of_true rfl h
    next h => exact iff_of_false BankMode.noConfusion h

/-- The state in which `bset` waits: the change accepted, the ports popped. -/
def State.bsetHeld (s : State) (n : Nat) (a : BitVec 5) (x : W64) : State :=
  let u := s.acceptChange (s.bsetChange x) (groupOf n (x.extractLsb' 2 2).toNat)
  ((u.setMe { u.me with wait := .bank n }).holds 4 (popsOf [rd a])).used

theorem exec_bset_ready {s : State} {n : BitVec 3} {a : BitVec 5} (hr : s.ready [rd a] [] = true)
    (hf : s.bsetFault n.toNat (s.src [rd a] 0) = none) : exec (.bset n a) s = .next (s.bsetHeld n.toNat a (s.src [rd a] 0)) := by
  rw [exec_bset, execBset, State.issueS_ready _ _ _ _ _ hr]
  dsimp only
  rw [hf]
  rfl

/-- A wait that no answer ends pops its ports as it begins (R79). -/
theorem State.holds_sure (s : State) (len : Nat) (pops : List Nat) (h : s.me.wait.sure = true) :
    s.holds len pops = (s.popPorts pops).setMe { s.me with heldLen := len, heldIns := [], mid := false } := by
  rw [State.holds, if_pos h]
  dsimp only
  rw [State.popPorts_me]

theorem State.bsetHeld_eq (s : State) (n : Nat) (a : BitVec 5) (x : W64) : s.bsetHeld n a x =
    ((((s.acceptChange (s.bsetChange x) (groupOf n (x.extractLsb' 2 2).toNat)).setMe { s.me with wait := .bank n }).popPorts
      (popsOf [rd a])).setMe { s.me with wait := .bank n, heldLen := 4, heldIns := [], mid := false }).used := by
  obtain ⟨y, hy⟩ := s.acceptChange_tiles (s.bsetChange x) (groupOf n (x.extractLsb' 2 2).toNat)
  rw [State.bsetHeld, State.holds_sure _ _ _ (by rw [State.me_setMe]; rfl), State.me_setMe, hy]
  rfl

section
variable (s : State) (n : Nat) (a : BitVec 5) (x : W64)

/-- Of the static network and of memory, `bset` changes what popping its source changes. -/
theorem State.bsetHeld_portIn (h : 27 ≤ a.toNat) : (s.bsetHeld n a x).portIn a.toNat = (s.portIn a.toNat).drop 1 := by
  obtain ⟨y, hy⟩ := s.acceptChange_tiles (s.bsetChange x) (groupOf n (x.extractLsb' 2 2).toNat)
  rw [State.bsetHeld_eq, hy, popsOf_port h]
  exact State.portIn_popPort _

theorem State.bsetHeld_mem : (s.bsetHeld n a x).mem = s.mem := by
  obtain ⟨y, hy⟩ := s.acceptChange_tiles (s.bsetChange x) (groupOf n (x.extractLsb' 2 2).toNat)
  rw [State.bsetHeld_eq, hy]
  exact State.popPorts_mem ..

theorem State.bsetHeld_me :
    (s.bsetHeld n a x).me = { s.me with wait := .bank n, heldLen := 4, heldIns := [], mid := false } := by
  rw [State.bsetHeld_eq]
  exact State.me_setMe ..

theorem State.bsetHeld_bank (t m : Nat) :
    (s.bsetHeld n a x).bank t m = (s.acceptChange (s.bsetChange x) (groupOf n (x.extractLsb' 2 2).toNat)).bank t m := by
  have htiles := ((s.acceptChange (s.bsetChange x) (groupOf n (x.extractLsb' 2 2).toNat)).setMe
    { s.me with wait := .bank n }).popPorts_around (popsOf [rd a]) |>.tiles
  rw [State.bsetHeld_eq]
  exact congrArg (fun y : AMap Tile => (y.get {} t).bank m) htiles

end

/-! ### `bspill` and `bget` -/

theorem exec_bspill_ready {s : State} {n : BitVec 3} {a b : BitVec 5} (hr : s.ready [rd a, rd b] [] = true)
    (hown : s.ownsBank (s.me.resid.getD 0) s.cur.t n.toNat = true) (hp : (s.bank s.cur.t n.toNat).pending = [])
    (hfifo : (s.bank s.cur.t n.toNat).mode = .fifo) (hempty : (s.bank s.cur.t n.toNat).entries = 0)
    (hglobal : winOf (s.src [rd a, rd b] 0) = some .global) (halign : (s.src [rd a, rd b] 0).toNat % 32 = 0)
    (hsize : (s.src [rd a, rd b] 1).toNat % 1056 = 0) :
    exec (.bspill n a b) s = .next ((s.setBank s.cur.t n.toNat { s.bank s.cur.t n.toNat with
      spillBase := s.src [rd a, rd b] 0, spillSize := (s.src [rd a, rd b] 1).toNat, ringHead := 0 }).finish 4 [rd a, rd b]) := by
  rw [exec_bspill, execBspill, State.issueS_ready _ _ _ _ _ hr]
  simp only [hown, hp, hfifo, hempty, hglobal, halign, hsize, ne_eq, not_true_eq_false, or_false, if_false, Bool.true_eq_false,
    State.conclude_ok]

/-- What `bget` shows of a bank, as a number (R241). -/
def Bank.shown (b : Bank) (owns : Bool) : Nat :=
  (match b.mode with | .scratch => 0 | .cache => 1 | .fifo => 2) + b.il * 4 + (if b.spillEn then 16 else 0) +
    (if b.spillFaulted then 32 else 0) + (if owns then 64 else 0) + (if b.owner.isSome then 128 else 0) +
    (if b.mode = .fifo then (b.queue.length + b.reserved) * 256 else 0)

theorem exec_bget_ready {s : State} {d : BitVec 5} {n : BitVec 3} (hr : s.ready [] [d] = true) :
    exec (.bget d n) s = .next ((s.put d (BitVec.ofNat 64 ((s.bank s.cur.t n.toNat).shown
      (s.ownsBank (s.me.resid.getD 0) s.cur.t n.toNat)))).finish 4 []) := by
  rw [exec_bget, execBget, State.issueS_ready _ _ _ _ _ hr]
  rfl

section
variable (b : Bank) (owns : Bool)

/-- The code of a bank's mode (R241). -/
def BankMode.code : BankMode → Nat
  | .scratch => 0
  | .cache => 1
  | .fifo => 2

/-- The words that a FIFO bank holds, none in another mode. -/
def Bank.shownWords : Nat := if b.mode = .fifo then b.queue.length + b.reserved else 0

/-- The fields of what `bget` shows, each at its place. -/
theorem Bank.shown_eq : b.shown owns = b.mode.code + 4 * b.il + 16 * b.spillEn.toNat + 32 * b.spillFaulted.toNat + 64 * owns.toNat +
    128 * b.owner.isSome.toNat + 256 * b.shownWords := by
  have hbit (c : Bool) (k : Nat) : (if c then k else 0) = k * c.toNat := by cases c <;> simp
  have hwords : (if b.mode = .fifo then (b.queue.length + b.reserved) * 256 else 0) = 256 * b.shownWords := by
    unfold Bank.shownWords
    split <;> omega
  have hmode : (match b.mode with | .scratch => 0 | .cache => 1 | .fifo => 2) = b.mode.code := by cases b.mode <;> rfl
  rw [Bank.shown, hwords, hmode, hbit, hbit, hbit, hbit, Nat.mul_comm b.il]

theorem BankMode.code_lt (m : BankMode) : m.code < 4 := by cases m <;> decide

variable (hil : b.il < 4) (hw : b.queue.length + b.reserved < 2 ^ 16)
include hw

theorem Bank.shownWords_lt : b.shownWords < 2 ^ 16 := by
  unfold Bank.shownWords
  split
  · exact hw
  · decide

include hil

/-- Each field stands alone at its place, as none reaches into the next. -/
theorem Bank.shown_fields : b.shown owns % 4 = b.mode.code ∧ b.shown owns / 4 % 4 = b.il ∧ b.shown owns / 16 % 2 = b.spillEn.toNat ∧
    b.shown owns / 32 % 2 = b.spillFaulted.toNat ∧ b.shown owns / 64 % 2 = owns.toNat ∧
    b.shown owns / 128 % 2 = b.owner.isSome.toNat ∧ b.shown owns / 256 % 65536 = b.shownWords ∧ b.shown owns < 2 ^ 64 := by
  have hmode := b.mode.code_lt
  have hwords := b.shownWords_lt hw
  have hen := b.spillEn.toNat_lt
  have hfaulted := b.spillFaulted.toNat_lt
  have howns := owns.toNat_lt
  have howner := b.owner.isSome.toNat_lt
  rw [b.shown_eq owns]
  omega

end

/-- One bit of a number in 64 bits, where it is known. -/
theorem getLsbD_ofNat64 {v i : Nat} {c : Bool} (hi : i < 64) (h : v / 2 ^ i % 2 = c.toNat) : (BitVec.ofNat 64 v).getLsbD i = c := by
  rw [BitVec.getLsbD_ofNat, decide_eq_true hi, Bool.true_and, Nat.testBit_eq_decide_div_mod_eq, h]
  cases c <;> rfl

/-- One field of a number in 64 bits, where it is known. -/
theorem extractLsb'_ofNat64 {v i n k : Nat} (hv : v < 2 ^ 64) (h : v / 2 ^ i % 2 ^ n = k) :
    (BitVec.ofNat 64 v).extractLsb' i n = BitVec.ofNat n k := by
  rw [BitVec.extractLsb', BitVec.toNat_ofNat, Nat.mod_eq_of_lt hv, Nat.shiftRight_eq_div_pow, ← h]
  exact BitVec.eq_of_toNat_eq (by simp)

/-- R241, R63, R79: `bset`, `bspill` and `bget`. -/
theorem bankSettings : Parts.BankSettings := by
  refine ⟨fun s n a hr hf => ?bset, fun s n a b hr hown hp hfifo hempty hglobal halign hsize =>
    exec_bspill_ready hr hown hp hfifo hempty hglobal halign hsize, fun s d n hr => ⟨_, exec_bget_ready hr, fun hil hw => ?bget⟩⟩
  case bset =>
    have hbank (m : Nat) := s.bsetHeld_bank n.toNat a (s.src [rd a] 0) s.cur.t m
    exact ⟨_, _, exec_bset_ready hr hf, s.bsetHeld_mem .., rfl, s.bsetHeld_me .., s.bsetHeld_portIn n.toNat a _, rfl, rfl, rfl,
      s.bsetChange_scratch _, s.bsetChange_cache _,
      fun m hm => (hbank m).trans (s.bank_acceptChange_of_mem _ (nodup_groupOf ..) hm),
      fun m hm => (hbank m).trans (s.bank_acceptChange_of_not_mem _ hm)⟩
  case bget =>
    obtain ⟨hmode, hinter, hen, hfaulted, howns, howner, hwords, hlt⟩ :=
      Bank.shown_fields _ (s.ownsBank (s.me.resid.getD 0) s.cur.t n.toNat) hil hw
    refine ⟨(extractLsb'_ofNat64 hlt (by simpa using hmode)).trans ?_, extractLsb'_ofNat64 hlt hinter, getLsbD_ofNat64 (by decide) hen,
      getLsbD_ofNat64 (by decide) hfaulted, getLsbD_ofNat64 (by decide) howner, getLsbD_ofNat64 (by decide) howns,
      (extractLsb'_ofNat64 hlt hwords).trans ?_⟩
    · cases (s.bank s.cur.t n.toNat).mode <;> rfl
    · exact apply_ite ..

/-- Settles O16: the operations on a queue and the settings of a bank. -/
theorem queuesAndBanks : Obligations.QueuesAndBanks := ⟨queueOps, bankSettings⟩

end Sys2Proof.Machine

namespace Sys2Proof.Machine

/-! ## Lane-wise vector instructions (13_vector_instructions.md R243 to R252) -/

/-! ### Lane widths, types and values (R112, R243) -/

/-- The lane widths are 8, 16, 32 and 64 bits. -/
theorem Ctx.laneW_cases (c : Ctx) : c.laneW = 8 ∨ c.laneW = 16 ∨ c.laneW = 32 ∨ c.laneW = 64 := by
  have hcode := (c.vcfg.extractLsb' 0 2).isLt
  unfold Ctx.laneW
  interval_cases (c.vcfg.extractLsb' 0 2).toNat <;> decide

theorem Ctx.eight_le_laneW (c : Ctx) : 8 ≤ c.laneW := by
  have := c.laneW_cases
  omega

theorem Ctx.laneW_le (c : Ctx) : c.laneW ≤ 64 := by
  have := c.laneW_cases
  omega

/-- A count of places modulo the lane width is one of the lane's bits alone. -/
theorem Ctx.laneW_dvd_two_pow (c : Ctx) : c.laneW ∣ 2 ^ c.laneW := by
  rcases c.laneW_cases with h | h | h | h <;> rw [h] <;> decide

/-- The integer types have every lane width (R112). -/
theorem typeFault_integer {t : BitVec 2} (ht : t.toNat < 2) (c : Ctx) : typeFault t c = false := by
  have hcode : t.toNat = 0 ∨ t.toNat = 1 := by omega
  rcases hcode with h | h <;> simp [typeFault, etyOf, h]

theorem laneVal_eq_val (t : BitVec 2) (w x : Nat) : laneVal (t == 0#2) w x = Claims.val t w x := by
  by_cases h : t = 0 <;> simp [laneVal, Claims.val, h]

theorem low_eq (x : Int) (n : Nat) : low x n = (x % 2 ^ n).toNat := by simp [low]

theorem natCast_low (x : Int) (n : Nat) : (low x n : Int) = x % 2 ^ n := by
  rw [low_eq, Int.toNat_of_nonneg (Int.emod_nonneg _ (by positivity))]

theorem low_lt (x : Int) (n : Nat) : low x n < 2 ^ n := by
  have h := Int.emod_lt_of_pos x (show (0 : Int) < 2 ^ n by positivity)
  rw [← natCast_low] at h
  exact_mod_cast h

/-- As a signed or an unsigned number, a lane has the same low bits. -/
theorem val_emod (t : BitVec 2) (w x : Nat) : Claims.val t w x % 2 ^ w = x % 2 ^ w := by
  unfold Claims.val sext
  split
  · dsimp only
    split <;> simp
  · rfl

theorem val_emod_width {w : Nat} (hw : w ∣ 2 ^ w) (t : BitVec 2) (x : Nat) : Claims.val t w x % w = (x % w : Nat) := by
  have hdvd : (w : Int) ∣ 2 ^ w := by exact_mod_cast hw
  rw [← Int.emod_emod_of_dvd _ hdvd, val_emod, Int.emod_emod_of_dvd _ hdvd, Int.natCast_mod]

/-! ### What a lane-wise instruction does -/

/-- The instruction completes with a function of each active lane, and gathers the flags of the active lanes (R245, R246). -/
def State.Completes (s : State) (i : Instr) (srcs : List Src) (d : BitVec 5) (k : BitVec 3) (g : Nat → FRes) : Prop :=
  ∃ v f, exec i s = .next (((s.putV d v).flags f).finish 4 srcs) ∧ Claims.lanes s d k (fun l => (g l).1) v ∧
    Claims.union s k (fun l => (g l).2) f

/-- The instruction completes with a function of each active lane, and sets no flag. -/
def State.Selects (s : State) (i : Instr) (srcs : List Src) (d : BitVec 5) (k : BitVec 3) (g : Nat → Nat) : Prop :=
  ∃ v, exec i s = .next (((s.putV d v).flags 0).finish 4 srcs) ∧ Claims.lanes s d k g v

theorem union_zero {s : State} {k : BitVec 3} {f : BitVec 6} (h : Claims.union s k (fun _ => 0) f) : f = 0 := by
  refine BitVec.eq_of_getLsbD_eq fun j _ => ?_
  simpa using h j

theorem lanes_congr {s : State} {d : BitVec 5} {k : BitVec 3} {f g : Nat → Nat} {v : W256} (hv : Claims.lanes s d k f v)
    (h : ∀ l, l < s.me.laneN → f l = g l) : Claims.lanes s d k g v := fun l hl => h l hl ▸ hv l hl

section
variable {s : State} {i : Instr} {srcs : List Src} {vec : Nat → Bool} {d : BitVec 5} {k : BitVec 3}

theorem State.Completes.selects {g : Nat → Nat} (h : s.Completes i srcs d k fun l => (g l, 0)) : s.Selects i srcs d k g := by
  obtain ⟨v, f, hexec, hlanes, hflags⟩ := h
  obtain rfl := union_zero hflags
  exact ⟨v, hexec, hlanes⟩

theorem State.Selects.congr {f g : Nat → Nat} (hs : s.Selects i srcs d k f) (h : ∀ l, l < s.me.laneN → f l = g l) :
    s.Selects i srcs d k g := by
  obtain ⟨v, hexec, hlanes⟩ := hs
  exact ⟨v, hexec, lanes_congr hlanes h⟩

theorem State.Selects.of_mod {g : Nat → Nat} (h : s.Selects i srcs d k fun l => g l % 2 ^ s.me.laneW) : s.Selects i srcs d k g := by
  obtain ⟨v, hexec, hlanes⟩ := h
  exact ⟨v, hexec, fun l hl => by rw [hlanes l hl, Nat.mod_mod]⟩

/-- A ready untyped form completes with the lanes it picks. -/
theorem State.exec_vpick {f : Nat → Nat → (Nat → W256) → Nat → Nat} {g : Nat → Nat}
    (hi : exec i s = .next (s.vpick srcs vec d k f)) (hr : s.ready srcs [d] = true)
    (hg : f s.me.laneW s.me.laneN (s.operand srcs vec) = g) : s.Selects i srcs d k g :=
  State.Completes.selects (s.exec_putLanes hi hr rfl (by rw [← hg]))

end

/-! ### Integer forms with their scalars and immediates (R248, R249) -/

/-- Two constructors, one of the vector form and one of the scalar and immediate forms, run one operation on integer lanes. -/
def RunsOp (i : BitVec 5 → BitVec 5 → BitVec 5 → BitVec 3 → BitVec 2 → Instr)
    (j : BitVec 5 → BitVec 5 → BitVec 5 → BitVec 1 → BitVec 3 → BitVec 2 → Instr) (f : IntOp) : Prop :=
  ∀ (s : State) (d a b : BitVec 5) (k : BitVec 3) (t : BitVec 2), exec (i d a b k t) s = .next (s.vint2 f d a b k t) ∧
    ∀ x, exec (j d a b x k t) s = .next (s.vint2s f d a b x k t)

/-- The immediate of R249 as the bits of a lane. -/
theorem second_immediate (s : State) (a b : BitVec 5) (t : BitVec 2) :
    Claims.second s a b 1#1 t = if t = 0#2 then low b.toInt s.me.laneW else b.toNat := by
  have hfit : b.toNat < 2 ^ s.me.laneW :=
    lt_of_lt_of_le b.isLt (Nat.pow_le_pow_right (by decide) (by have := s.me.eight_le_laneW; omega))
  simp [Claims.second, low_eq, Nat.mod_eq_of_lt hfit]

/-- The scalar of R249 as the bits of a lane. -/
theorem second_scalar (s : State) (a b : BitVec 5) (t : BitVec 2) :
    Claims.second s a b 0#1 t = lane (s.operand [rd a, rd b] (fun i => i == 0) 1) s.me.laneW 0 := by
  simp [Claims.second, lane]

section
variable {i : BitVec 5 → BitVec 5 → BitVec 5 → BitVec 3 → BitVec 2 → Instr}
  {j : BitVec 5 → BitVec 5 → BitVec 5 → BitVec 1 → BitVec 3 → BitVec 2 → Instr} {f : IntOp} (h : RunsOp i j f)
  {s : State} {t : BitVec 2} (ht : t.toNat < 2) {d a b : BitVec 5} (k : BitVec 3)

include h ht

theorem RunsOp.vectors (hr : s.ready [rd a, rd b] [d] = true) : s.Completes (i d a b k t) [rd a, rd b] d k fun l =>
    f s.me.laneW (t == 0#2) (Claims.vsrc s [a, b] 0 l) (Claims.vsrc s [a, b] 1 l) :=
  s.exec_putLanes (h s d a b k t).1 hr (typeFault_integer ht _) rfl

theorem RunsOp.seconds (x : BitVec 1) (hr : s.ready (Claims.secondSrcs a b x) [d] = true) :
    s.Completes (j d a b x k t) (Claims.secondSrcs a b x) d k fun l =>
      f s.me.laneW (t == 0#2) (Claims.firstLane s a b x l) (Claims.second s a b x t) := by
  have hi := (h s d a b k t).2 x
  unfold State.vint2s at hi
  split at hi
  case isTrue hx =>
    subst hx
    exact s.exec_putLanes hi hr (typeFault_integer ht _) (by rw [second_immediate]; rfl)
  case isFalse hx =>
    obtain rfl := (BitVec.eq_zero_or_eq_one x).resolve_right hx
    exact s.exec_putLanes hi hr (typeFault_integer ht _) (by rw [second_scalar]; rfl)

end

end Sys2Proof.Machine

namespace Sys2Proof.Machine

/-! ### Integer operations on one lane (R114, R248) -/

theorem wrapOp_eq (f : Int → Int → Int) (t : BitVec 2) (w x y : Nat) :
    wrapOp f w (t == 0#2) x y = ((f (Claims.val t w x) (Claims.val t w y) % 2 ^ w).toNat, 0) := by
  rw [wrapOp, laneVal_eq_val, laneVal_eq_val, low_eq]

section
variable (t : BitVec 2) (w x y : Nat)

theorem opVmulh_eq : opVmulh w (t == 0#2) x y = ((Claims.val t w x * Claims.val t w y / 2 ^ w % 2 ^ w).toNat, 0) := by
  rw [opVmulh, laneVal_eq_val, laneVal_eq_val, low_eq, Int.fdiv_eq_ediv_of_nonneg _ (by positivity), Nat.cast_pow]
  rfl

theorem opVavg_eq : opVavg w (t == 0#2) x y = (((Claims.val t w x + Claims.val t w y + 1) / 2 % 2 ^ w).toNat, 0) := by
  rw [opVavg, wrapOp_eq, Int.fdiv_eq_ediv_of_nonneg _ (by decide)]

theorem opVabsd_eq : opVabsd w (t == 0#2) x y = ((|Claims.val t w x - Claims.val t w y| % 2 ^ w).toNat, 0) := by
  rw [opVabsd, wrapOp_eq, Int.natCast_natAbs]

/-- R114: all ones for a zero divisor is −1 in the lane's bits. -/
theorem opVdiv_eq : opVdiv w (t == 0#2) x y =
    (((if Claims.val t w y = 0 then -1 else (Claims.val t w x).tdiv (Claims.val t w y)) % 2 ^ w).toNat, 0) := by
  rw [opVdiv, laneVal_eq_val, laneVal_eq_val, low_eq, divide]
  by_cases hy : Claims.val t w y = 0
  · by_cases ht : t = 0#2 <;> simp [hy, ht]
  · simp only [hy, if_false]

variable (hw : w ∣ 2 ^ w)
include hw

/-- A left shift by the low bits of its count depends on the lane's bits alone. -/
theorem opVshl_eq : opVshl w (t == 0#2) x y = ((Claims.val t w x * 2 ^ (Claims.val t w y % w).toNat % 2 ^ w).toNat, 0) := by
  rw [val_emod_width hw, Int.toNat_natCast, Int.mul_emod, val_emod, ← Int.mul_emod, opVshl, bitOp]
  norm_cast

theorem opVshr_eq : opVshr w (t == 0#2) x y = ((Claims.val t w x / 2 ^ (Claims.val t w y % w).toNat % 2 ^ w).toNat, 0) := by
  rw [val_emod_width hw, Int.toNat_natCast, opVshr, laneVal_eq_val, low_eq, Int.fdiv_eq_ediv_of_nonneg _ (by positivity), Nat.cast_pow]
  rfl

end

/-- R109: the range of an integer type as the bounds of its clamp. -/
theorem clamp_eq (t : BitVec 2) (w : Nat) (x : Int) :
    Claims.clamp t w x = max (intMin (t == 0#2) w) (min (intMax (t == 0#2) w) x) := by
  by_cases h : t = 0#2 <;> simp [Claims.clamp, intMin, intMax, h]

theorem intMin_le_intMax (sg : Bool) (n : Nat) : intMin sg n ≤ intMax sg n := by
  have hpos (m : Nat) : (0 : Int) < (2 ^ m : Nat) := by positivity
  have := hpos n
  have := hpos (n - 1)
  unfold intMin intMax
  split <;> omega

/-- R248: a saturating form clamps its exact result, and its flag says whether that changed it. -/
theorem satOp_eq (f : Int → Int → Int) (t : BitVec 2) (w x y : Nat) :
    satOp f w (t == 0#2) x y =
      let r := f (Claims.val t w x) (Claims.val t w y)
      ((Claims.clamp t w r % 2 ^ w).toNat, if Claims.clamp t w r = r then 0 else 16) := by
  simp only [satOp, laneVal_eq_val, clampTo_eq _ _ _ (intMin_le_intMax _ w), ← clamp_eq, low_eq]
  rfl

/-- Each form of R248 that wraps runs its exact result cut to the lane, with its scalars and immediates. -/
theorem runsOp_wrapping : ∀ p ∈ Claims.wrapping, ∃ f, RunsOp p.1 p.2.1 f ∧ ∀ (t : BitVec 2) (w x y : Nat), w ∣ 2 ^ w →
    f w (t == 0#2) x y = ((p.2.2 t w (Claims.val t w x) (Claims.val t w y) % 2 ^ w).toNat, 0) := by
  simp only [Claims.wrapping, List.forall_mem_cons]
  refine ⟨⟨opVadd, ?_, ?vadd⟩, ⟨opVsub, ?_, ?vsub⟩, ⟨opVmul, ?_, ?vmul⟩, ⟨opVmulh, ?_, ?vmulh⟩, ⟨opVmin, ?_, ?vmin⟩,
    ⟨opVmax, ?_, ?vmax⟩, ⟨opVavg, ?_, ?vavg⟩, ⟨opVabsd, ?_, ?vabsd⟩, ⟨opVshl, ?_, ?vshl⟩, ⟨opVshr, ?_, ?vshr⟩, ⟨opVdiv, ?_, ?vdiv⟩,
    ⟨opVrem, ?_, ?vrem⟩, List.forall_mem_nil _⟩
  case vadd | vsub | vmul | vmin | vmax | vrem => exact fun t w x y _ => wrapOp_eq _ t w x y
  case vmulh => exact fun t w x y _ => opVmulh_eq t w x y
  case vavg => exact fun t w x y _ => opVavg_eq t w x y
  case vabsd => exact fun t w x y _ => opVabsd_eq t w x y
  case vshl => exact opVshl_eq
  case vshr => exact opVshr_eq
  case vdiv => exact fun t w x y _ => opVdiv_eq t w x y
  all_goals exact fun _ _ _ _ _ _ => ⟨rfl, fun _ => rfl⟩

theorem runsOp_bitwise : ∀ p ∈ Claims.bitwise, RunsOp p.1 p.2.1 (bitOp p.2.2) := by
  simp only [Claims.bitwise, List.forall_mem_cons]
  refine ⟨?vand, ?vor, ?vxor, ?vandn, List.forall_mem_nil _⟩
  all_goals exact fun _ _ _ _ _ _ => ⟨rfl, fun _ => rfl⟩

theorem runsOp_clamping : ∀ p ∈ Claims.clamping, RunsOp p.1 p.2.1 (satOp p.2.2) := by
  simp only [Claims.clamping, List.forall_mem_cons]
  refine ⟨?vadds, ?vsubs, ?vmuls, List.forall_mem_nil _⟩
  all_goals exact fun _ _ _ _ _ _ => ⟨rfl, fun _ => rfl⟩

/-- R248, R249: the forms that wrap. -/
theorem vectorWrapping : Parts.VectorWrapping := by
  intro p hp s d a b k t ht
  obtain ⟨f, hruns, hf⟩ := runsOp_wrapping p hp
  have hlane (x y : Nat) := hf t s.me.laneW x y s.me.laneW_dvd_two_pow
  exact ⟨fun hr => State.Completes.selects (by simpa only [hlane] using hruns.vectors ht k hr),
    fun x hr => State.Completes.selects (by simpa only [hlane] using hruns.seconds ht k x hr)⟩

/-- R248, R249: the forms on bits. -/
theorem vectorBitwise : Parts.VectorBitwise := fun p hp _ _ _ _ k _ ht =>
  have hruns := runsOp_bitwise p hp
  ⟨fun hr => (hruns.vectors ht k hr).selects.of_mod, fun x hr => (hruns.seconds ht k x hr).selects.of_mod⟩

/-- A ready one-operand form that wraps. -/
theorem State.exec_vint1 {s : State} {i : Instr} {d a : BitVec 5} {k : BitVec 3} {t : BitVec 2} (f : Int → Int)
    (hi : exec i s = .next (s.vint1 (wrapOp fun x _ => f x) d a k t)) (hr : s.ready [rd a] [d] = true) (ht : t.toNat < 2) :
    s.Selects i [rd a] d k fun l => (f (Claims.val t s.me.laneW (Claims.vsrc s [a] 0 l)) % 2 ^ s.me.laneW).toNat := by
  have h : s.Completes i [rd a] d k fun l => wrapOp (fun x _ => f x) s.me.laneW (t == 0#2) (Claims.vsrc s [a] 0 l) 0 :=
    s.exec_putLanes hi hr (typeFault_integer ht _) rfl
  simp only [wrapOp_eq] at h
  exact h.selects

/-- R248, R249: the forms that saturate; a change of sign and a magnitude wrap. -/
theorem vectorSaturating : Parts.VectorSaturating := by
  refine ⟨fun p hp s d a b k t ht => ⟨fun hr => ?vectors, fun x hr => ?seconds⟩, fun s d a k t ht hr => ⟨?vneg, ?vabs⟩⟩
  case vectors => simpa only [satOp_eq, State.Completes] using (runsOp_clamping p hp).vectors ht k hr
  case seconds => simpa only [satOp_eq, State.Completes] using (runsOp_clamping p hp).seconds ht k x hr
  case vneg => exact State.exec_vint1 (fun x => -x) rfl hr ht
  case vabs =>
    simp only [← Int.natCast_natAbs]
    exact State.exec_vint1 (fun x => x.natAbs) rfl hr ht

/-- Settles O17: each family of forms runs one operation on integer lanes. -/
theorem vectorIntegers : Obligations.VectorIntegers := ⟨vectorWrapping, vectorBitwise, vectorSaturating⟩

/-- Settles O18: each float form of R250 and R251 is a lane-wise instruction over its lane operation. -/
theorem vectorFloat : Obligations.VectorFloat := by
  intro s d a b c k t _ hwidth
  refine ⟨?two, ?one, fun sub hr => ?multiplyAdd⟩
  case two =>
    simp only [Claims.floats2, List.forall_mem_cons]
    refine ⟨?vfadd, ?vfsub, ?vfmul, ?vfdiv, ?vfmin, ?vfmax, ?vfsgnj, List.forall_mem_nil _⟩
    all_goals exact fun hr => s.exec_putLanes rfl hr hwidth rfl
  case one =>
    simp only [Claims.floats1, List.forall_mem_cons]
    refine ⟨?vfsqrt, ?vfrcp, ?vfrsqrt, ?vfexp2, ?vflog2, ?vfabs, ?vfneg, List.forall_mem_nil _⟩
    all_goals exact fun hr => s.exec_putLanes rfl hr hwidth rfl
  case multiplyAdd => cases sub <;> exact s.exec_putLanes rfl hr hwidth rfl

end Sys2Proof.Machine

namespace Sys2Proof.Machine

/-! ### Sums over lanes -/

theorem foldl_add_eq_add_sum (f : Nat → Int) (l : List Nat) (a : Int) : l.foldl (fun acc i => acc + f i) a = a + (l.map f).sum := by
  induction l generalizing a with
  | nil => simp
  | cons i l ih => rw [List.foldl_cons, ih, List.map_cons, List.sum_cons, add_assoc]

/-- A sum that leaves out some lanes. -/
theorem foldl_add_if (p : Nat → Bool) (f : Nat → Int) (l : List Nat) (a : Int) :
    l.foldl (fun acc i => if p i then acc + f i else acc) a = a + ((l.filter p).map f).sum := by
  rw [← List.foldl_filter, foldl_add_eq_add_sum]

/-! ### Multiply-accumulate (R252) -/

/-- The eight words of a dot product: the products of the active source lanes added to the accumulator's words (R252). -/
def State.dotted (s : State) (k : BitVec 3) (t : BitVec 2) (x : Nat → W256) : W256 :=
  let w := s.me.laneW
  let g := 32 / w
  vecOf 32 8 fun j => low (Claims.val t 32 (lane (x 2) 32 j) +
    (((List.range g).filter fun i => (s.me.k k.toNat).getLsbD (g * j + i)).map fun i =>
      Claims.val t w (lane (x 0) w (g * j + i)) * Claims.val t w (lane (x 1) w (g * j + i))).sum) 32

theorem exec_vdot_ready {s : State} {d a b c : BitVec 5} (k : BitVec 3) {t : BitVec 2} (ht : t.toNat < 2)
    (hr : s.ready [rd a, rd b, rd c] [d] = true) (hw : s.me.laneW < 32) : exec (.vdot d a b c k t) s =
      .next ((s.putV d (s.dotted k t (s.operand [rd a, rd b, rd c] fun _ => true))).finish 4 [rd a, rd b, rd c]) := by
  have hwidth : (typeFault t s.me || s.me.laneW == 32) = false := by simp [typeFault_integer ht, hw.ne]
  have hexec : exec (.vdot d a b c k t) s = execVdot d a b c k t s := rfl
  rw [hexec, execVdot, s.issue_ready _ _ _ _ _ _ hr hwidth]
  simp only [laneVal_eq_val, foldl_add_if]
  rfl

/-- Settles O20: `vmac` is lane-wise, and each word of `vdot` is its sum. -/
theorem vectorAccumulate : Obligations.VectorAccumulate := by
  refine fun s d a b c k t ht hr => ⟨?vmac, fun hw => ⟨_, exec_vdot_ready k ht hr hw, fun j hj => ?vdot⟩⟩
  case vmac =>
    have h : s.Completes (.vmac d a b c k t) [rd a, rd b, rd c] d k fun l =>
        let v (i : Nat) := laneVal (t == 0#2) s.me.laneW (Claims.vsrc s [a, b, c] i l)
        (low (v 2 + v 0 * v 1) s.me.laneW, 0) := s.exec_putLanes rfl hr (typeFault_integer ht _) rfl
    simp only [laneVal_eq_val, low_eq] at h
    exact h.selects
  case vdot =>
    rw [State.dotted, lane_vecOf _ (by decide) hj, Nat.mod_eq_of_lt (low_lt _ 32), natCast_low]
    rfl

/-! ## Lane selection (R254, R257, R258) -/

/-- The active lanes below lane `l` of a vector are those among the first `l`. -/
theorem State.lanesOn_below (s : State) (k : BitVec 3) {l : Nat} (hl : l < s.me.laneN) :
    (s.lanesOn k).filter (· < l) = (List.range l).filter fun j => (s.me.k k.toNat).getLsbD j := by
  have hbelow : (List.range s.me.laneN).filter (fun j => decide (j < l)) = List.range l := by
    obtain ⟨m, hm⟩ := Nat.exists_eq_add_of_le hl.le
    rw [hm, List.range_add, List.filter_append, List.filter_eq_self.2 (by simp), List.filter_eq_nil_iff.2 (by simp), List.append_nil]
  rw [State.lanesOn, List.filter_comm, hbelow]

/-- A vector given lane by lane that is written whole. -/
theorem whole_vecOf (s : State) (f : Nat → Nat) : Claims.whole s f (vecOf s.me.laneW s.me.laneN f) :=
  fun _ hl => lane_vecOf f s.me.laneW_mul_laneN.le hl

/-- The low bits of a scalar source as a lane. -/
theorem lane_scalar (s : State) (a : BitVec 5) :
    lane (s.operand [rd a] (fun _ => false) 0) s.me.laneW 0 = (s.src [rd a] 0).toNat % 2 ^ s.me.laneW := by
  have hdvd : 2 ^ s.me.laneW ∣ 2 ^ 64 := Nat.pow_dvd_pow 2 s.me.laneW_le
  rw [lane, State.src, BitVec.toNat_setWidth, Nat.mod_mod_of_dvd _ hdvd, Nat.mul_zero, Nat.pow_zero, Nat.div_one]

section
variable {s : State} {d a : BitVec 5}

/-- R258: `vins` writes one lane and keeps the others. -/
theorem exec_vins_ready (x : BitVec 5) (hr : s.ready [rd a] [d] = true) : exec (.vins d a x) s =
    .next ((s.putV d (vecOf s.me.laneW s.me.laneN fun l => if l = x.toNat % s.me.laneN
      then lane (s.operand [rd a] (fun _ => false) 0) s.me.laneW 0 else lane (s.me.v d.toNat) s.me.laneW l)).finish 4 [rd a]) :=
  congrArg _ (s.issue_ready _ _ _ _ _ _ hr rfl)

/-- R258: `vext` gives the value of one lane. -/
theorem exec_vext_ready (x : BitVec 5) {t : BitVec 2} (hr : s.ready [rd a] [d] = true) (ht : typeFault t s.me = false) :
    exec (.vext d a x t) s = .next ((s.put d (BitVec.ofInt 64
      (laneVal (t == 0#2) s.me.laneW (Claims.vsrc s [a] 0 (x.toNat % s.me.laneN))))).finish 4 [rd a]) :=
  congrArg _ (s.issue_ready _ _ _ _ _ _ hr ht)

/-- R257: `vcomp` packs the active lanes and counts them. -/
theorem exec_vcomp_ready {b : BitVec 5} (k : BitVec 3) (hr : s.ready [rd a] [d, b] = true) : exec (.vcomp d a b k) s =
    .next (((s.putV d (vecOf s.me.laneW s.me.laneN fun l => (Claims.active s a k).getD l 0)).put b
      (BitVec.ofNat 64 (Claims.active s a k).length)).finish 4 [rd a]) :=
  congrArg _ (s.issue_ready _ _ _ _ _ _ hr rfl)

end

/-- Each selection of vectors completes with the lanes it names; `vexp` counts the active lanes below. -/
theorem selections_complete (s : State) (d a b : BitVec 5) (k : BitVec 3) : ∀ p ∈ Claims.selections d a b k s,
    s.ready (p.2.1.map rd) [d] = true → s.Selects p.1 (p.2.1.map rd) d k fun l => p.2.2 l l := by
  simp only [Claims.selections, List.forall_mem_cons]
  refine ⟨?vperm, ?vzipl, ?vziph, ?vunzpe, ?vunzpo, ?vslupIm, ?vsldnIm, ?vmov, fun hr => ?vexp, List.forall_mem_nil _⟩
  case vexp =>
    have h : s.Selects (.vexp d a k) [rd a] d k fun l => Claims.vsrc s [a] 0 ((s.lanesOn k).filter (· < l)).length :=
      State.Completes.selects (s.exec_putLanes rfl hr rfl rfl)
    exact h.congr fun l hl => by rw [s.lanesOn_below k hl]
  all_goals exact fun hr => State.exec_vpick rfl hr rfl

/-- R254, R257, R258: the forms that select lanes. -/
theorem vectorSelection : Parts.VectorSelection := by
  refine fun s d a b k => ⟨selections_complete s d a b k, fun hr => ⟨?vslup, ?vsldn⟩, fun hr => ⟨?vsplat, fun _ => ?vins, fun t ht => ?vext⟩,
    fun i hr => ?vsplati, fun hr => ⟨_, exec_vcomp_ready k hr, whole_vecOf s _⟩⟩
  case vslup | vsldn =>
    have hcount : (s.src [rd a, rd b] 1).toNat = (s.operand [rd a, rd b] (fun i => i == 0) 1).toNat % 2 ^ 64 :=
      BitVec.toNat_setWidth ..
    rw [hcount]
    exact State.exec_vpick rfl hr rfl
  case vsplat =>
    have h : s.Selects (.vsplat d a k) [rd a] d k fun _ => lane (s.operand [rd a] (fun _ => false) 0) s.me.laneW 0 :=
      State.exec_vpick rfl hr rfl
    simp only [lane_scalar] at h
    exact h.of_mod
  case vins =>
    refine ⟨_, exec_vins_ready b hr, fun l hl => ?_⟩
    rw [lane_scalar, whole_vecOf s _ l hl]
    dsimp only
    split
    · exact Nat.mod_mod ..
    · rfl
  case vext => rw [exec_vext_ready b hr ht, laneVal_eq_val]
  case vsplati =>
    simp only [← low_eq]
    exact State.exec_vpick rfl hr rfl

/-! ## Reductions (R255) -/

/-- A ready reduction puts its result over the active lanes into lane 0, with its flags. -/
theorem State.exec_vreduce {s : State} {i : Instr} {f : Nat → BitVec 2 → List Nat → FRes} {d a : BitVec 5} {k : BitVec 3} {t : BitVec 2}
    {v : Nat} {fl : BitVec 6} (hi : exec i s = .next (s.vreduce f d a k t)) (hr : s.ready [rd a] [d] = true)
    (ht : typeFault t s.me = false) (hf : f s.me.laneW t (Claims.active s a k) = (v, fl)) :
    exec i s = .next (((s.putV d (BitVec.ofNat 256 v)).flags fl).finish 4 [rd a]) := by
  have hbody : s.reduced (s.operand [rd a] (fun _ => true) 0) k = Claims.active s a k := rfl
  rw [hi, State.vreduce, s.issue_ready _ _ _ _ _ _ hr ht, hbody, hf, State.conclude_ok]

theorem ofNat_low (x : Int) (n : Nat) : BitVec.ofNat 256 (low x n) = BitVec.ofInt 256 (x % 2 ^ n) := by
  rw [← natCast_low, BitVec.ofInt_natCast]

theorem laneSum_eq (w : Nat) (t : BitVec 2) (xs : List Nat) : laneSum w t xs = (xs.map (Claims.val t w)).sum := by
  simp only [laneSum, laneVal_eq_val, foldl_add_eq_sum]

section
variable (w : Nat) {t : BitVec 2} (ht : t.toNat < 2) (xs : List Nat)
include ht

/-- The smallest of some integer lanes, from the largest value of the type. -/
theorem extreme_min : extreme false w t xs =
    (low ((xs.map (Claims.val t w)).foldl min (if t = 0 then 2 ^ (w - 1) - 1 else 2 ^ w - 1)) w, 0) := by
  have hstart : intMax (t == 0#2) w = if t = 0#2 then 2 ^ (w - 1) - 1 else 2 ^ w - 1 := by simp [intMax]
  simp [extreme, ht, List.foldl_map, laneVal_eq_val, hstart]

/-- The largest of some integer lanes, from the smallest value of the type. -/
theorem extreme_max : extreme true w t xs =
    (low ((xs.map (Claims.val t w)).foldl max (if t = 0 then -2 ^ (w - 1) else 0)) w, 0) := by
  have hstart : intMin (t == 0#2) w = if t = 0#2 then -2 ^ (w - 1) else 0 := by simp [intMin]
  simp [extreme, ht, List.foldl_map, laneVal_eq_val, hstart]

end

theorem extreme_float (isMax : Bool) (w : Nat) {t : BitVec 2} (ht : 2 ≤ t.toNat) (xs : List Nat) :
    extreme isMax w t xs = Claims.extremum (fmtOf t w) isMax xs := by
  rw [extreme, if_neg (by omega)]
  cases xs <;> rfl

/-- R255: the reductions, by what each gives for the active lanes. -/
theorem vectorReductions : Parts.VectorReductions := by
  refine fun s d a k t hr => ⟨fun ht => ?integer, fun ht hwidth => ⟨?vrfsum, ?vrminFloat, ?vrmaxFloat⟩⟩
  case integer =>
    have hwidth := typeFault_integer ht s.me
    simp only [← ofNat_low, ← laneSum_eq, BitVec.ofInt_natCast]
    refine ⟨?vrsum, ?vrsumw, ?vrand, ?vror, ?vrxor, ?vrmin, ?vrmax⟩
    case vrmin => exact State.exec_vreduce rfl hr hwidth (extreme_min _ ht _)
    case vrmax => exact State.exec_vreduce rfl hr hwidth (extreme_max _ ht _)
    all_goals exact State.exec_vreduce rfl hr hwidth rfl
  case vrfsum => exact State.exec_vreduce rfl hr hwidth rfl
  case vrminFloat | vrmaxFloat => exact State.exec_vreduce rfl hr hwidth (extreme_float _ _ ht _)

/-- Settles O21: the selections by the lanes they pick, the reductions by their results over the active lanes. -/
theorem vectorLanes : Obligations.VectorLanes := ⟨vectorSelection, vectorReductions⟩

/-! ## Masks and compares (R244, R256, R259) -/

/-- R256, R258: each form runs its body over its scalar operands. -/
theorem masksAndConfig : Parts.MasksAndConfig := by
  refine ⟨?masks, fun s d a hr => ?knot, fun s d a hr => ?kset, fun s d a hr => ⟨?kget, ?kcnt⟩, fun s z w hr => ?vcfg,
    fun c n v => ⟨rfl, fun hn => ?written⟩⟩
  case masks =>
    simp only [Claims.masks, List.forall_mem_cons]
    refine ⟨?kand, ?kor, ?kxor, ?kandn, List.forall_mem_nil _⟩
    all_goals exact fun s d a b hr => congrArg _ (s.issueS_ready _ _ _ _ hr)
  case vcfg =>
    have hexec : exec (.vcfg z w) s = execVcfg z w s := rfl
    rw [hexec, execVcfg, s.issueS_ready _ _ _ _ hr]
    split
    case isTrue hw => exact congrArg Host.Outcome.next (if_pos hw).symm
    case isFalse hw => exact congrArg Host.Outcome.next (if_neg hw).symm
  case written => rw [Ctx.k_setK, if_pos ⟨rfl, hn⟩]
  all_goals exact congrArg _ (s.issueS_ready _ _ _ _ hr)

section
variable (s : State) (d k : BitVec 3) (m : BitVec 2) (g : Nat → Bool)

/-- The bit of a lane after a compare (R259): combined with the old bit where the lane is active, else kept or cleared. -/
def State.comparedBit (l : Nat) : Bool :=
  if (s.me.k k.toNat).getLsbD l then
    (if m.toNat = 0 then g l else if m.toNat = 1 then (s.me.k d.toNat).getLsbD l && g l else (s.me.k d.toNat).getLsbD l || g l)
  else !s.me.zm && (s.me.k d.toNat).getLsbD l

/-- The mask that a compare writes. -/
def State.compared : BitVec 32 := BitVec.ofNat 32 (packBits (s.comparedBit d k m g) s.me.laneN)

theorem State.compared_getLsbD (hn : s.me.laneN ≤ 32) (l : Nat) :
    (s.compared d k m g).getLsbD l = (decide (l < s.me.laneN) && s.comparedBit d k m g l) := by
  have hlt : l < s.me.laneN → l < 32 := fun h => h.trans_le hn
  rw [State.compared, BitVec.getLsbD_ofNat, testBit_packBits]
  by_cases h : l < s.me.laneN <;> simp [h, hlt]

end

theorem exec_vcmp_ready {s : State} {a b : BitVec 5} (d c : BitVec 3) (m : BitVec 2) (k : BitVec 3) {t : BitVec 2}
    (hr : s.ready [rd a, rd b] [] = true) (ht : typeFault t s.me = false) :
    let g (l : Nat) := compareLanes c s.me.laneW t (Claims.vsrc s [a, b] 0 l) (Claims.vsrc s [a, b] 1 l)
    exec (.vcmp d a b c m k t) s = .next (((s.setMe (s.me.setK d.toNat (s.compared d k m fun l => (g l).1))).flags
      (laneFlags (s.me.k k.toNat) (fun l => (g l).2) s.me.laneN)).finish 4 [rd a, rd b]) :=
  congrArg _ (s.issue_ready _ _ _ _ _ _ hr ht)

/-- R259: for an integer type the comparison is of the lanes' values. -/
theorem compareLanes_integer {c : BitVec 3} (hc : c.toNat < 6) (w : Nat) {t : BitVec 2} (ht : t.toNat < 2) (x y : Nat) :
    (compareLanes c w t x y).2 = 0 ∧ ((compareLanes c w t x y).1 = true ↔
      match c.toNat with
      | 0 => Claims.val t w x = Claims.val t w y
      | 1 => Claims.val t w x ≠ Claims.val t w y
      | 2 => Claims.val t w x < Claims.val t w y
      | 3 => Claims.val t w x ≤ Claims.val t w y
      | 4 => Claims.val t w y < Claims.val t w x
      | _ => Claims.val t w y ≤ Claims.val t w x) := by
  simp only [compareLanes, if_pos ht, laneVal_eq_val, true_and]
  interval_cases c.toNat <;> exact decide_eq_true_iff

/-- R259: `vcmp`. -/
theorem vectorCompare : Parts.VectorCompare := by
  refine fun s d a b c m k t hr ht _ _ hn => ⟨⟨_, _, exec_vcmp_ready d c m k hr ht, s.union_laneFlags k _, fun l hl => ?_, fun l hl => ?_⟩,
    fun ht hc l => compareLanes_integer hc _ ht _ _⟩
  · rw [s.compared_getLsbD _ _ _ _ hn, decide_eq_false (Nat.not_lt.2 hl), Bool.false_and]
  · have hcode (j : BitVec 2) : m.toNat = j.toNat ↔ m = j := BitVec.toNat_inj
    rw [s.compared_getLsbD _ _ _ _ hn, decide_eq_true hl, Bool.true_and, State.comparedBit]
    simp only [show m.toNat = 0 ↔ m = 0 from hcode 0, show m.toNat = 1 ↔ m = 1 from hcode 1]

/-- Settles O22: the forms of masks and of VCFG, and `vcmp` bit by bit. -/
theorem vectorMasks : Obligations.VectorMasks := ⟨masksAndConfig, vectorCompare⟩

end Sys2Proof.Machine

namespace Sys2Proof.Machine

/-! ## O23, O24, O25. Faults, control registers, handlers and sleep -/

theorem exec_crd (d c : BitVec 5) (s : State) : exec (.crd d c) s = execCrd d c s := rfl
theorem exec_cwr (c a : BitVec 5) (s : State) : exec (.cwr c a) s = execCwr c a s := rfl
theorem exec_trap (n : BitVec 5) (s : State) : exec (.trap n) s = execTrap n s := rfl
theorem exec_brk (s : State) : exec .brk s = execBrk s := rfl
theorem exec_eret (s : State) : exec .eret s = execEret s := rfl
theorem exec_wfi (s : State) : exec .wfi s = execWfi s := rfl
theorem exec_wfiWake (s : State) : exec .wfiWake s = execWfiWake s := rfl
theorem exec_halt (s : State) : exec .halt s = execHalt s := rfl

theorem popsOf_nil : popsOf [] = [] := rfl

/-- An instruction without ports whose body says where the context goes on. -/
@[simp] theorem State.conclude_leave (s u : State) (len : Nat) (a : Bool) :
    s.conclude len (popsOf []) a (.leave u) = Claims.left u u.me := rfl

@[simp] theorem State.conclude_raise (s : State) (len : Nat) (a : Bool) (c : Trap) :
    s.conclude len (popsOf []) a (.raise c) = (s.deliver s.cur.ctx c (s.me.ip + BitVec.ofNat 16 len)).used := rfl

theorem Claims.left_setMe (s : State) (c d : Ctx) : Claims.left (s.setMe c) d = Claims.left s d := by
  simp only [Claims.left, State.setMe_setMe]

/-- The place of a context key is its tile, core and bank. -/
theorem placeOf_cur {c : Cur} (hq : c.q < 4) (hb : c.b < 4) :
    (placeOf c.ctx).t = c.t ∧ (placeOf c.ctx).q = c.q ∧ (placeOf c.ctx).b = c.b := by
  simp only [placeOf, Cur.ctx]
  omega

/-! ### Taking a fault (R294, R377) -/

/-- A context that a fault has stopped. -/
def Ctx.stop (c : Ctx) : Ctx := { c with run := .stopped, wait := .none }

/-- R377: without a handler, or within one, the context stops and reports. -/
theorem State.fault_stopped (s : State) (c : Trap) (h : s.me.handler = true ∨ s.me.trapvec = 0) :
    s.fault c = ((s.setMe s.me.stop).reportFault s.cur.ctx (if s.me.handler then 2 else 1)
      c.cause c.addr c.info).used := by
  have hcond : (s.me.handler || decide (s.me.trapvec = 0)) = true := by
    rcases h with h | h <;> simp [h]
  unfold State.fault State.deliver
  exact congrArg State.used (if_pos hcond)

theorem State.reportFault_ctxs (s : State) (k reason cause : Nat) (a i : W64) : (s.reportFault k reason cause a i).ctxs = s.ctxs := by
  unfold State.reportFault
  dsimp only
  split <;> rfl

theorem State.reportFault_ctx (s : State) (k reason cause : Nat) (a i : W64) (j : Nat) :
    (s.reportFault k reason cause a i).ctx j = s.ctx j := by
  simp only [State.ctx, State.reportFault_ctxs]

theorem State.reportFault_cur (s : State) (k reason cause : Nat) (a i : W64) : (s.reportFault k reason cause a i).cur = s.cur := by
  unfold State.reportFault
  dsimp only
  split <;> rfl

theorem State.reportFault_net (s : State) {k r : Nat} (reason cause : Nat) (a i : W64) (h : (s.ctx k).resid = some r) :
    ∃ f : Flight, (s.reportFault k reason cause a i).net = s.net ++ [f] ∧ f.at_ = (placeOf k).t ∧ f.p.h.kind = 12 ∧ f.p.h.node = 4097 ∧
      f.p.h.resid = r ∧
      f.p.pay = [eventWord 0x10 reason r (placeOf k).t (placeOf k).q (placeOf k).b cause ++ a ++ i ++ 0#64] := by
  simp only [State.reportFault, h, State.send_net]
  exact ⟨_, rfl, rfl, rfl, rfl, rfl, rfl⟩

theorem faultEntry : Parts.FaultEntry := by
  intro s c hq hb
  obtain ⟨ht, hq', hb'⟩ := placeOf_cur hq hb
  by_cases h : s.me.handler = true ∨ s.me.trapvec = 0
  · have hfault := s.fault_stopped c h
    refine ⟨?_, rfl, fun k hk => ?_, fun hh hv => absurd h (not_or.2 ⟨ne_true_of_eq_false hh, hv⟩), fun _ => ⟨?_, fun r hr => ?_⟩⟩
    · simp [hfault, State.reportFault_mem]
    · rw [hfault, State.ctx_used, State.reportFault_ctx, State.setMe, State.ctx_setCtx_ne _ _ _ _ hk]
    · rw [hfault, State.me_used, State.me, State.reportFault_cur, State.reportFault_ctx]
      exact s.me_setMe _
    · have hr' : ((s.setMe s.me.stop).ctx s.cur.ctx).resid = some r := by
        rw [State.setMe, State.ctx_setCtx_self]
        exact hr
      rw [hfault]
      rw [← ht, ← hq', ← hb']
      exact State.reportFault_net _ _ c.cause c.addr c.info hr'
  · obtain ⟨hh, hv⟩ := not_or.1 h
    have hfault := s.fault_handling c (Bool.eq_false_iff.2 hh) hv
    refine ⟨?_, rfl, fun k hk => ?_, fun _ _ => ⟨?_, ?_⟩, fun h' => absurd h' h⟩
    · simp [hfault]
    · rw [hfault, State.ctx_used, State.setMe, State.ctx_setCtx_ne _ _ _ _ hk]
    · rw [hfault, State.me_used, State.me_setMe]
    · simp [hfault]

theorem trapInstructions : Parts.TrapInstructions := fun s n hr hh hv => by
  have enters (c : Trap) : (s.deliver s.cur.ctx c (s.me.ip + 4)).used = (s.setMe (Claims.handling s.me c (s.me.ip + 4))).used :=
    congrArg State.used (s.deliver_handling s.cur.ctx c _ hh hv)
  rw [exec_trap, exec_brk, execTrap, execBrk, State.issueS_ready _ _ _ _ _ hr, State.issueS_ready _ _ _ _ _ hr]
  exact ⟨congrArg _ (enters _), congrArg _ (enters _)⟩

/-- Settles O23: the entry of a fault, and the instructions that trap. -/
theorem faultsAndTraps : Obligations.FaultsAndTraps := ⟨faultEntry, trapInstructions⟩

/-! ### Control registers (R292) -/

theorem exec_crd_ready {s : State} {d : BitVec 5} (c : BitVec 5) (hr : s.ready [] [d] = true) :
    exec (.crd d c) s = .next ((s.put d (s.control c.toNat)).finish 4 []) := by
  rw [exec_crd, execCrd, State.issueS_ready _ _ _ _ _ hr, State.conclude_ok]

theorem State.control_eq {s : State} {n : Nat} {v : W64} (h : (Claims.controls s)[n]? = some v) : s.control n = v := by
  obtain ⟨hn, rfl⟩ := List.getElem?_eq_some_iff.1 h
  have hn' : n < 18 := hn
  interval_cases n <;> rfl

theorem vcfgOk_eq (v : W64) : vcfgOk v = decide (v.toNat < 8 ∧ v.extractLsb' 0 2 ≠ 3) := by
  have h3 : (v.extractLsb' 0 2).toNat < 3 ↔ v.extractLsb' 0 2 ≠ 3 := by bv_omega
  rw [vcfgOk, ← Bool.decide_and, decide_eq_decide, h3]

theorem convOk_eq (v : W64) :
    convOk v = decide (v.toNat < 128 ∧ v.extractLsb' 4 2 ≠ 3 ∧ (v.extractLsb' 0 3).toNat < 5) := by
  have h3 : (v.extractLsb' 4 2).toNat < 3 ↔ v.extractLsb' 4 2 ≠ 3 := by bv_omega
  rw [convOk, ← Bool.decide_and, ← Bool.decide_and, decide_eq_decide, h3, and_assoc]

theorem extract_two_zero_iff (v : W64) : v.extractLsb' 0 2 = 0#2 ↔ v.toNat % 4 = 0 := by
  rw [← BitVec.toNat_inj]
  simp [BitVec.extractLsb'_toNat]

/-- R32: what a write to a writable control register leaves. -/
theorem Ctx.writeControl_eq (c : Ctx) {n : Nat} (v : W64) (limit : Nat) (hn : n ∈ [5, 6, 7, 8, 9, 10, 11, 12, 16, 17]) :
    c.writeControl n v limit = Claims.written c n v limit := by
  have hlow : (v.extractLsb' 0 2).toNat = v.toNat % 4 := by simp [BitVec.extractLsb'_toNat]
  simp only [List.mem_cons, List.not_mem_nil, or_false] at hn
  rcases hn with rfl | rfl | rfl | rfl | rfl | rfl | rfl | rfl | rfl | rfl <;>
    simp [Ctx.writeControl, Claims.written, vcfgOk_eq, convOk_eq, extract_two_zero_iff, hlow]

/-- Settles O24: the control registers that `crd` reads, and the writes of `cwr`. -/
theorem controlRegisters : Obligations.ControlRegisters := by
  refine ⟨fun s d c hr v hv => ?_, fun s c a hr hc => ?_⟩
  · rw [exec_crd_ready c hr, State.control_eq hv]
  · rw [exec_cwr, execCwr, State.issueS_ready _ _ _ _ _ hr, Ctx.writeControl_eq _ _ _ hc]
    cases Claims.written s.me c.toNat (s.src [rd a] 0) (s.prioLimit s.cur.ctx) <;> rfl

/-! ### Return from a handler, sleep and halt (R293, R295) -/

theorem returnFromHandler : Parts.ReturnFromHandler := by
  intro s hr
  rw [exec_eret, execEret, State.issueS_ready _ _ _ _ _ hr]
  refine ⟨fun hh ht => ?_, fun hh => ?_, fun hh ht => ?_⟩
  · simp [hh, ht, Claims.left_setMe]
  · simp [hh, State.illegal]
  · simp [hh, ht]

/-- A context that has no record waiting rests none. -/
theorem State.restRecords_nil {s : State} {k : Nat} (h : (s.ctx k).async = []) : s.restRecords k = s := by
  simp only [State.restRecords, h]

theorem sleepAndHalt : Parts.SleepAndHalt := by
  refine ⟨fun s hr => ?_, fun s hw hi ha => ?_, fun s hr ha => ?_⟩
  · rw [exec_wfi, execWfi, State.issueS_ready _ _ _ _ _ hr]
    refine ⟨fun h => ?_, fun h => ?_⟩
    · simp [h]
    · simp [h, State.holds_late, Wait.sure, popsOf_nil]
  · simp [exec_wfiWake, execWfiWake, hw, ha, State.wfiDone, hi]
  · have hrest : (s.setMe { s.me with run := .halted }).restRecords s.cur.ctx = s.setMe { s.me with run := .halted } :=
      State.restRecords_nil (by rw [State.setMe, State.ctx_setCtx_self]; exact ha)
    rw [exec_halt, execHalt, State.issueS_ready _ _ _ _ _ hr]
    simp [hrest, Claims.left_setMe]

/-- Settles O25: `eret`, `wfi` with its wake, and `halt`. -/
theorem returnSleepHalt : Obligations.ReturnSleepHalt := ⟨returnFromHandler, sleepAndHalt⟩

end Sys2Proof.Machine

namespace Sys2Proof.Machine

/-! ## O28, O29. Tasks, messages and the root -/

theorem exec_spawn (d a b : BitVec 5) (s : State) : exec (.spawn d a b) s = execSpawn d a b s := rfl
theorem exec_send (d a b : BitVec 5) (s : State) : exec (.send d a b) s = execSend d a b s := rfl
theorem exec_tdone (s : State) : exec .tdone s = execTdone s := rfl
theorem exec_potinit (s : State) : exec .potinit s = execPotinit s := rfl
theorem exec_wquiet (s : State) : exec .wquiet s = execWquiet s := rfl
theorem exec_commit (s : State) : exec .commit s = execCommit s := rfl
theorem exec_stake (d : BitVec 5) (s : State) : exec (.stake d) s = execStake d s := rfl

/-! ### Stakes (R42) -/

/-- The units that a context hands to a record or a message: half of its stake where its residency has a pot. -/
def State.childStake (s : State) (r : Residency) : W64 := if r.potValid then s.me.stake >>> 1 else 0

theorem State.childStake_off {s : State} {r : Residency} (h : r.potValid = false) : s.childStake r = 0 := by
  simp [State.childStake, h]

theorem State.childStake_half {s : State} {r : Residency} (h : r.potValid = true) :
    (s.childStake r).toNat = s.me.stake.toNat / 2 := by
  simp [State.childStake, h, Nat.shiftRight_eq_div_pow]

/-- R42: no unit is made or lost when a stake is split. -/
theorem State.childStake_add (s : State) (r : Residency) :
    (s.me.stake - s.childStake r).toNat + (s.childStake r).toNat = s.me.stake.toNat := by
  have hle : (s.childStake r).toNat ≤ s.me.stake.toNat := by
    cases h : r.potValid
    · simp [State.childStake_off h]
    · rw [State.childStake_half h]
      omega
  rw [BitVec.toNat_sub_of_le (BitVec.le_def.2 hle)]
  omega

/-- R42: with a stake of two units or more, or without a pot, nothing is borrowed. -/
theorem State.split_ok {s : State} {r : Residency} (hr : s.myRes = some r) (h : r.potValid = true → 1 < s.me.stake.toNat) :
    ∃ u, s.split = .ok u (s.childStake r) ∧ u.me = { s.me with stake := s.me.stake - s.childStake r } ∧
      u.net = s.net ∧ u.cur = s.cur ∧ u.mem = s.mem := by
  cases hv : r.potValid
  · exact ⟨s, by simp [State.split, hr, hv, State.childStake], by simp [State.childStake, hv], rfl, rfl, rfl⟩
  · refine ⟨_, ?_, State.me_setMe _ _, rfl, rfl, rfl⟩
    simp [State.split, hr, hv, Nat.not_le.2 (h hv), State.childStake]

/-! ### `spawn` (R288) -/

/-- R36, R288: the offset of a legal entry in its partition. -/
theorem Ctx.entry_offset {c : Ctx} {e : W64} (h : c.entryOk e = true) :
    BitVec.ofNat 64 (e.toNat - c.code.base) = e - BitVec.ofNat 64 c.code.base := by
  simp only [Ctx.entryOk, Bool.and_eq_true, decide_eq_true_eq] at h
  obtain ⟨⟨⟨hlt, -⟩, hbase⟩, -⟩ := h
  have hmod : c.code.base % 2 ^ 64 = c.code.base := Nat.mod_eq_of_lt (by omega)
  rw [← BitVec.toNat_inj, BitVec.toNat_sub_of_le (by rw [BitVec.le_def, BitVec.toNat_ofNat, hmod]; exact hbase), BitVec.toNat_ofNat,
    BitVec.toNat_ofNat, hmod, Nat.mod_eq_of_lt (by omega)]

theorem State.pushTask_setMe (s : State) (c : Ctx) (x : Task) :
    (s.setMe c).pushTask s.cur.ctx x = s.setMe { c with deque := c.deque ++ [x] } := by
  simp only [State.pushTask, State.setMe, State.ctx_setCtx_self, State.setCtx_setCtx]

theorem spawnRecord : Parts.SpawnRecord := by
  intro s r d a b hr hres e
  rw [exec_spawn, execSpawn, State.issueS_ready _ _ _ _ _ hr]
  refine ⟨fun (he : s.me.entryOk (s.src [rd a, rd b, rd d] 2) = true) hlen hstake =>
    ⟨s.childStake r, State.childStake_off, State.childStake_half, ?_, s.childStake_add r⟩,
    fun (he : s.me.entryOk (s.src [rd a, rd b, rd d] 2) = false) => ?_⟩
  · obtain ⟨u, hu, -⟩ := State.split_ok hres hstake
    simp only [he, Bool.true_eq_false, if_false, State.dequeRoom_of_lt s s.cur.ctx hlen, hu, Ctx.entry_offset he, State.conclude_ok,
      State.pushTask_setMe]
    rfl
  · simp only [he, if_true, State.conclude_trap]
    rfl

/-! ### `send` (R289) -/

theorem State.finish_net (s : State) (len : Nat) (srcs : List Src) : (s.finish len srcs).net = s.net := s.popPorts_net _

theorem sendMessage : Parts.SendMessage := by
  intro s r d a b hr hres w hdev
  have hdev' : ((s.src [rd a, rd b, rd d] 2).extractLsb' 32 8).toNat = 0xFF := congrArg BitVec.toNat hdev
  rw [exec_send, execSend, State.issueS_ready _ _ _ _ _ hr]
  simp only [hres, hdev', true_or, if_true]
  refine ⟨fun (ho : s.sendOk r (s.src [rd a, rd b, rd d] 2) = false) => ?_,
    fun (ho : s.sendOk r (s.src [rd a, rd b, rd d] 2) = true) hw => ?_,
    fun (ho : s.sendOk r (s.src [rd a, rd b, rd d] 2) = true) hw hstake => ?_⟩
  · simp only [ho, if_true, State.conclude_trap]
    rfl
  · simp only [ho, Bool.true_eq_false, if_false, State.afterRelease, hw, State.conclude_pause, State.me_setMe, State.setMe_setMe]
  · obtain ⟨u, hu, hme, hnet, hcur, hmem⟩ := State.split_ok hres hstake
    simp only [ho, Bool.true_eq_false, if_false, State.afterRelease, hw, if_true, hu, State.conclude_ok]
    refine ⟨_, _, s.childStake r, rfl, (State.finish_net ..).trans (congrArg (· ++ [_]) hnet), congrArg Cur.t hcur,
      State.childStake_half, State.childStake_off, (State.me_finish ..).trans ?_, rfl, rfl, rfl, rfl, rfl, rfl,
      (State.mem_finish ..).trans hmem⟩
    rw [State.send_me, hme]
    rfl

/-- Settles O28: `spawn` and `send`, with the units they hand on. -/
theorem spawnAndSend : Obligations.SpawnAndSend := ⟨spawnRecord, sendMessage⟩

/-! ### The end of a task (R290) -/

theorem taskDone : Parts.TaskDone := by
  intro s hr hpot ha
  rw [exec_tdone, execTdone, State.issueS_ready _ _ _ _ _ hr]
  simp only [hpot, Bool.false_eq_true, false_and, if_false]
  refine ⟨fun l x hd => ?_, fun hd hring => ?_⟩
  · have hnext : s.nextTask s.cur.ctx = .task (s.setMe { s.me with deque := l }) x := by
      have hd' : (s.ctx s.cur.ctx).deque = l ++ [x] := hd
      simp only [State.nextTask, hd', List.getLast?_concat, List.dropLast_concat]
      rfl
    have htake : s.takeNext s.cur.ctx = .ok (s.setMe (({ s.me with deque := l } : Ctx).startTask x)) := by
      simp only [State.takeNext, hnext, State.setMe, State.ctx_setCtx_self, State.setCtx_setCtx]
    simp only [htake, State.conclude_leave, State.me_setMe, Claims.left_setMe]
    rfl
  · have hnext : s.nextTask s.cur.ctx = .none := by
      have hd' : (s.ctx s.cur.ctx).deque = [] := hd
      have hring' : (s.ctx s.cur.ctx).ring.count = 0 := hring
      simp only [State.nextTask, hd', hring', List.getLast?_nil, if_true]
    have htake : s.takeNext s.cur.ctx = .ok (s.setMe { s.me with run := .idle, steal := .start }) := by
      simp only [State.takeNext, hnext]
      exact congrArg Taken.ok (State.restRecords_nil (by rw [State.ctx_setCtx_self]; exact ha))
    simp only [htake, State.conclude_leave, State.me_setMe, Claims.left_setMe]

/-! ### The root (R41, R45, R48) -/

/-- A residency's entry is the first of its number. -/
theorem State.findRes_of_myRes {s : State} {r : Residency} (h : s.myRes = some r) : s.findRes r.num = some r := by
  obtain ⟨n, -, hn⟩ := Option.bind_eq_some_iff.1 h
  rw [State.findRes_num hn]
  exact hn

theorem State.setRes_setRes (s : State) {x y : Residency} (h : x.num = y.num) : (s.setRes x).setRes y = s.setRes y := by
  simp only [State.setRes, List.map_map]
  congr 2
  refine List.map_congr_left fun z _ => ?_
  by_cases hz : z.num = y.num <;> simp [h, hz]

theorem State.addPot_cur (s : State) (r n : Nat) : (s.addPot r n).cur = s.cur := by
  unfold State.addPot
  split
  · rfl
  · dsimp only
    split <;> rfl

/-- A pot before the event of a `wquiet`: no event since has left it full. -/
def Residency.unfilled (r : Residency) : Residency := { r with full := none }

/-- The root asleep in `wquiet`. -/
def Ctx.quiet (c : Ctx) : Ctx := { c with stake := 0, wait := .wquiet, heldLen := 4, heldIns := [], mid := false }

/-- R45: the root's `wquiet` gives its units to the pot, now or behind the event of this cycle. -/
theorem exec_wquiet_root {s : State} {r : Residency} (hr : s.ready [] [] = true) (hres : s.myRes = some r) (hroot : s.isRoot = true)
    (hpot : r.potValid = true) :
    exec .wquiet s = .next ((((s.setRes r.unfilled).addPot r.num s.me.stake.toNat).setMe s.me.quiet).used) := by
  have hme : ((s.setRes r.unfilled).addPot r.num s.me.stake.toNat).me = s.me :=
    State.me_congr (State.addPot_ctxs ..) (State.addPot_cur ..)
  have hfilter : (some r).filter Residency.potValid = some r := if_pos hpot
  rw [exec_wquiet, execWquiet, State.issueS_ready _ _ _ _ _ hr]
  simp only [hres, hfilter, hroot, Bool.true_eq_false, if_false, State.conclude_hold]
  rw [State.holds_late _ _ _ (by rw [State.me_setMe]; rfl), State.me_setMe, State.setMe_setMe]
  change Host.Outcome.next ((((s.setRes r.unfilled).addPot r.num s.me.stake.toNat).setMe
    ((s.setRes r.unfilled).addPot r.num s.me.stake.toNat).me.quiet).used) = _
  rw [hme]

section
variable {s : State} {r : Residency} (hres : s.myRes = some r) (hpot : r.potValid = true) (n : Nat)
include hres hpot

theorem State.filter_unfilled : ((s.setRes r.unfilled).findRes r.num).filter Residency.potValid = some r.unfilled := by
  rw [State.findRes_setRes_self (State.findRes_of_myRes hres) r.unfilled rfl]
  exact if_pos hpot

/-- R43: the first event of a pot in a cycle. -/
theorem State.addPot_now (hnow : s.potNow r = true) :
    (s.setRes r.unfilled).addPot r.num n = s.setRes { r with
      pot := r.pot + n, potAt := some s.cycle, full := if r.pot + n = r.total then some s.cycle else none } := by
  have hnow' : (s.setRes r.unfilled).potNow r.unfilled = true := hnow
  simp only [State.addPot, State.filter_unfilled hres hpot, hnow', if_true, State.potReturn]
  exact State.setRes_setRes s rfl

/-- R43: a later one waits for its turn. -/
theorem State.addPot_later (hnow : s.potNow r = false) : ∃ y : Arrived,
    ((s.setRes r.unfilled).addPot r.num n).inbox = s.inbox ++ [y] ∧
      y.node = r.rootTile ∧ y.p.h.kind = 9 ∧ y.p.h.op = opReturn ∧ y.p.h.info = BitVec.ofNat 64 n := by
  have hnow' : (s.setRes r.unfilled).potNow r.unfilled = false := hnow
  simp only [State.addPot, State.filter_unfilled hres hpot, hnow', Bool.false_eq_true, if_false]
  exact ⟨_, rfl, rfl, rfl, rfl, rfl⟩

end

theorem rootInstructions : Parts.RootInstructions := by
  refine ⟨fun s r hr hres => ⟨fun hroot hpot => ?_, fun hroot => ⟨?_, ?_, ?_⟩, fun hroot hpot hnum => ⟨fun hnow => ?_, fun hnow => ?_⟩,
    fun hroot hst => ?_, fun hroot hst => ?_⟩, fun s d hr => ?_⟩
  · rw [exec_potinit, execPotinit, State.issueS_ready _ _ _ _ _ hr]
    simp only [hres, hroot, hpot, Bool.true_eq_false, Bool.false_eq_true, false_and, or_self, if_false, State.conclude_ok]
  · rw [exec_potinit, execPotinit, State.issueS_ready _ _ _ _ _ hr]
    simp [hres, hroot]
  · rw [exec_wquiet, execWquiet, State.issueS_ready _ _ _ _ _ hr]
    cases hp : r.potValid <;> simp [hres, hroot, hp, Option.filter]
  · rw [exec_commit, execCommit, State.issueS_ready _ _ _ _ _ hr]
    simp [hres, hroot]
  · rw [exec_wquiet_root hr hres hroot hpot, State.addPot_now hres hpot _ hnow, Ctx.quiet]
  · obtain ⟨y, hinbox, hnode, hkind, hop, hinfo⟩ := State.addPot_later hres hpot s.me.stake.toNat hnow
    exact ⟨_, y, exec_wquiet_root hr hres hroot hpot, by rw [State.me_used, State.me_setMe, Ctx.quiet], hinbox, hnode, hkind, hop,
      hinfo.trans (BitVec.ofNat_toNat ..)⟩
  · rw [exec_commit, execCommit, State.issueS_ready _ _ _ _ _ hr]
    simp [hres, hroot, hst]
  · rw [exec_commit, execCommit, State.issueS_ready _ _ _ _ _ hr]
    simp only [hres, hroot, hst, Bool.true_eq_false, if_false, State.conclude_hold]
    rw [State.holds_late _ _ _ (by rw [State.send_me, State.me_setMe]; rfl), State.send_me, State.me_setMe]
    exact ⟨_, _, rfl, rfl, rfl, rfl, rfl, rfl, State.me_setMe _ _⟩
  · rw [exec_stake, execStake, State.issueS_ready _ _ _ _ _ hr, State.conclude_ok]

/-- Settles O29: `tdone` and the instructions of the root. -/
theorem tasksAndRoot : Obligations.TasksAndRoot := ⟨taskDone, rootInstructions⟩

end Sys2Proof.Machine

namespace Sys2Proof.Machine

/-! ## O34. Token instructions and templates (R263 to R265, R154 to R158) -/

theorem exec_tkpeek (d a : BitVec 5) (s : State) : exec (.tkpeek d a) s = execTkpeek d a s := rfl
theorem exec_tkpeekQ (d : BitVec 5) (q : BitVec 3) (s : State) : exec (.tkpeekQ d q) s = execTkpeekQ d q s := rfl
theorem exec_tkpop (d a : BitVec 5) (s : State) : exec (.tkpop d a) s = execTkpop d a s := rfl
theorem exec_tkpopQ (d : BitVec 5) (q : BitVec 3) (s : State) : exec (.tkpopQ d q) s = execTkpopQ d q s := rfl
theorem exec_tkpopv (d a : BitVec 5) (s : State) : exec (.tkpopv d a) s = execTkpopv d a s := rfl
theorem exec_tkpopvQ (d : BitVec 5) (q : BitVec 3) (s : State) : exec (.tkpopvQ d q) s = execTkpopvQ d q s := rfl
theorem exec_tksend (d a : BitVec 5) (t : BitVec 4) (s : State) : exec (.tksend d a t) s = execTksend d a t s := rfl
theorem exec_tksendQ (q : BitVec 3) (a : BitVec 5) (t : BitVec 4) (s : State) : exec (.tksendQ q a t) s = execTksendQ q a t s := rfl
theorem exec_tksendv (d a : BitVec 5) (t : BitVec 4) (s : State) : exec (.tksendv d a t) s = execTksendv d a t s := rfl
theorem exec_tksendvQ (q : BitVec 3) (a : BitVec 5) (t : BitVec 4) (s : State) : exec (.tksendvQ q a t) s = execTksendvQ q a t s := rfl
theorem exec_btag (d a : BitVec 5) (c : BitVec 4) (s : State) : exec (.btag d a c) s = execBtag d a c s := rfl
theorem exec_btagQ (d : BitVec 5) (q : BitVec 3) (c : BitVec 4) (s : State) : exec (.btagQ d q c) s = execBtagQ d q c s := rfl
theorem exec_carm (a : BitVec 5) (n : BitVec 4) (s : State) : exec (.carm a n) s = execCarm a n s := rfl
theorem exec_cfire (n : BitVec 4) (s : State) : exec (.cfire n) s = execCfire n s := rfl
theorem exec_cdis (n : BitVec 4) (s : State) : exec (.cdis n) s = execCdis n s := rfl
theorem exec_cstat (a : BitVec 5) (n : BitVec 4) (s : State) : exec (.cstat a n) s = execCstat a n s := rfl

/-! ### Heads and their tags -/

/-- R263: the tag in the low half, the low word of the data in the high one. -/
theorem peekWord_eq (l : List NetWord) : peekWord l = Claims.peek l := by
  cases l with
  | nil => rfl
  | cons w l =>
    rw [← BitVec.toNat_inj]
    simp only [peekWord, Claims.peek, toNat_append_eq, BitVec.toNat_ofNat, BitVec.extractLsb'_toNat, Nat.shiftRight_zero]
    omega

/-- R265: the conditions on a head, but for "empty". -/
theorem tagCondition_eq {c : BitVec 4} (hc : c ≠ 15) (l : List NetWord) : tagCondition c l = Claims.tagHolds c.toNat l := by
  have h12 : c = 0xC#4 ↔ c.toNat = 12 := by bv_omega
  have h13 : c = 0xD#4 ↔ c.toNat = 13 := by bv_omega
  have h15 : c.toNat ≠ 15 := fun h => hc (BitVec.toNat_inj.1 h)
  cases l with
  | nil => exact beq_false_of_ne hc
  | cons w l =>
    have htag : (w.tag == c) = (w.tag.toNat == c.toNat) := by
      rw [Bool.eq_iff_iff, beq_iff_eq, beq_iff_eq, BitVec.toNat_inj]
    have hdata : (w.tag != 0#4) = (w.tag.toNat != 0) := by
      rw [Bool.eq_iff_iff, bne_iff_ne, bne_iff_ne, ne_eq, ne_eq, ← BitVec.toNat_inj, BitVec.toNat_ofNat]
    simp only [tagCondition, Claims.tagHolds, h12, h13, htag, hdata]
    by_cases hlt : c.toNat < 12
    · have : c.toNat ≠ 12 := by omega
      have : c.toNat ≠ 13 := by omega
      simp only [decide_eq_true hlt, if_pos hlt, beq_false_of_ne ‹c.toNat ≠ 12›, beq_false_of_ne ‹c.toNat ≠ 13›, Bool.true_and,
        Bool.false_and, Bool.or_false]
    · by_cases h : c.toNat = 12
      · simp [h]
      · by_cases h' : c.toNat = 13 <;> simp [h, h', hlt]

/-- R265: a `btag` at a head, as its statement has it. -/
def State.branchOn (s : State) (d : BitVec 5) (c : BitVec 4) (n : List Src) (l : List NetWord) (held : Bool) : State :=
  if (if c = 15 then held else !Claims.tagHolds c.toNat l) then s.finish 4 n else s.goTo s n (s.me.s d.toNat)

theorem State.conclude_tagBranch (s : State) (d : BitVec 5) (c : BitVec 4) (n : List Src) (l : List NetWord) (held : Bool) :
    s.conclude 4 (popsOf n) false (s.tagBranch d c l held) = s.branchOn d c n l held := by
  have hcond : (if c = 0xF#4 then !held else tagCondition c l) = !(if c = 15 then held else !Claims.tagHolds c.toNat l) := by
    by_cases hc : c = 15
    · exact (if_pos hc).trans (congrArg not (if_pos hc).symm)
    · refine (if_neg hc).trans ((tagCondition_eq hc l).trans ?_)
      exact (Bool.not_not _).symm.trans (congrArg not (if_neg hc).symm)
  rw [State.tagBranch, State.branchOn, hcond]
  cases (if c = 15 then held else !Claims.tagHolds c.toNat l)
  · exact State.conclude_transfer s n _ id
  · rfl

theorem State.portHeld_eq (s : State) (a : BitVec 5) : s.portHeld a.toNat =
    if a = 31 then s.atStart.contains (2 * (4 * s.cur.tb + s.cur.q)) else s.portIn a.toNat != [] := by
  have h31 : a.toNat = 31 ↔ a = 31 := BitVec.toNat_inj (y := 31#5)
  simp only [State.portHeld, h31]

/-! ### At a queue -/

section
variable {s : State} {q : BitVec 3} (hp : (s.bank s.cur.t q.toNat).pending = [])
  (hf : s.queueFault s.cur.t (s.me.resid.getD 0) q.toNat = none)
include hp hf

theorem State.queueTake_head {w : NetWord} {r : List NetWord} (f : State → NetWord → State)
    (hq : (s.bank s.cur.t q.toNat).queue = w :: r) :
    s.queueTake q f = .ok (f (s.setBank s.cur.t q.toNat { s.bank s.cur.t q.toNat with queue := r }) w) := by
  rw [State.queueTake, State.onQueue_owned hp _ hf]
  simp only [hq, hp, ne_eq, not_true_eq_false, if_false]

theorem State.queueSend_room (w : NetWord) (hroom : s.queueRoom q.toNat = true) :
    s.queueSend q w = .ok (s.setBank s.cur.t q.toNat ((s.bank s.cur.t q.toNat).push w)) := by
  rw [State.queueSend, State.onQueue_owned hp _ hf]
  exact if_pos hroom

end

theorem tokenOps : Parts.TokenOps := by
  intro s d a q t c b own branch
  refine ⟨fun hr => ?_, fun hr => ⟨?_, ?_, ?_, ?_⟩, fun hr ⟨hp, hf⟩ => ⟨?_, fun w r hq => ⟨?_, ?_⟩⟩, fun hr ⟨hp, hf⟩ hroom => ⟨?_, ?_⟩,
    fun hr => ?_, fun hr ⟨hp, hf⟩ hq => ?_⟩
  · rw [exec_tkpeek, execTkpeek, State.issueS_ready _ _ _ _ _ hr, State.conclude_ok, peekWord_eq]
  · rw [exec_tkpop, execTkpop, State.issueS_ready _ _ _ _ _ hr, State.conclude_ok]
  · rw [exec_tkpopv, execTkpopv, State.issue_ready _ _ _ _ _ _ _ hr rfl, State.conclude_ok]
  · rw [exec_tksend, execTksend, State.issueS_ready _ _ _ _ _ hr, State.conclude_ok]
  · rw [exec_tksendv, execTksendv, State.issue_ready _ _ _ _ _ _ _ hr rfl, State.conclude_ok]
  · rw [exec_tkpeekQ, execTkpeekQ, State.issueS_ready _ _ _ _ _ hr, State.onQueue_owned hp _ hf, State.conclude_ok, peekWord_eq]
  · rw [exec_tkpopQ, execTkpopQ, State.issueS_ready _ _ _ _ _ hr, State.queueTake_head hp hf _ hq, State.conclude_ok]
  · rw [exec_tkpopvQ, execTkpopvQ, State.issueS_ready _ _ _ _ _ hr, State.queueTake_head hp hf _ hq, State.conclude_ok]
  · rw [exec_tksendQ, execTksendQ, s.forQueue_ready _ _ _ _ _ _ hr, State.issueS_ready _ _ _ _ _ hr,
      State.queueSend_room hp hf _ hroom, State.conclude_ok]
  · rw [exec_tksendvQ, execTksendvQ, s.forQueue_ready _ _ _ _ _ _ hr, State.issue_ready _ _ _ _ _ _ _ hr rfl,
      State.queueSend_room hp hf _ hroom, State.conclude_ok]
  · rw [exec_btag, execBtag, State.issueS_ready _ _ _ _ _ hr, State.conclude_tagBranch, State.portHeld_eq]
    rfl
  · have hwait : ¬ ((s.bank s.cur.t q.toNat).queue = [] ∧ c ≠ 0xF#4) := fun ⟨h, hc⟩ => hq.elim (fun hq => hq h) hc
    rw [exec_btagQ, execBtagQ, State.issueS_ready _ _ _ _ _ hr, State.onQueue_owned hp _ hf, if_neg hwait, State.conclude_tagBranch]
    rfl

/-! ### Templates -/

theorem State.arming_idle {s : State} {n : Nat} (d : Desc) (hown : s.ownsTemplate n = true) (hactive : (s.tmpl n).active = none)
    (hfires : (s.tmpl n).fires = []) : s.arming n d = match s.checkDesc s.me s.cur.t (s.me.resid.getD 0) n d with
      | some c => .trap c
      | none => .ok (s.setTmpl n { s.tmpl n with arm := ⟨some d, s.cur.ctx, true, s.releaseSet s.cur.ctx 1⟩, cause := 0, dropped := 0 }) := by
  have hidle : ¬ (s.ownsTemplate n = false ∨ ((s.tile s.cur.t).template n).active.isSome = true ∨
      ((s.tile s.cur.t).template n).fires ≠ []) := by
    rintro (h | h | h)
    · exact Bool.false_ne_true (h.symm.trans hown)
    · exact Bool.false_ne_true ((congrArg Option.isSome hactive).symm.trans h)
    · exact h hfires
  exact if_neg hidle

theorem Template.status_fields (x : Template) : x.status.extractLsb' 0 32 = x.completed ∧ x.status.extractLsb' 32 16 = x.dropped ∧
    x.status.extractLsb' 48 8 = BitVec.ofNat 8 x.fires.length ∧ x.status.extractLsb' 56 8 = x.cause := by
  have hfires := Nat.mod_lt x.fires.length (show 0 < 2 ^ 8 by decide)
  have hcompleted := x.completed.isLt
  have hdropped := x.dropped.isLt
  have hcause := x.cause.isLt
  simp only [← BitVec.toNat_inj, Template.status, BitVec.extractLsb'_toNat, toNat_append_eq, Nat.shiftRight_eq_div_pow, BitVec.toNat_ofNat]
  omega

theorem copyInstructions : Parts.CopyInstructions := by
  intro s a n x e i
  have hx : (s.tile s.cur.t).template n.toNat = x := rfl
  have hdesc (h : x.arm.desc ≠ none) : x.arm.desc.isNone = false := Option.isNone_eq_false_iff.2 (Option.isSome_iff_ne_none.2 h)
  refine ⟨fun hown => ⟨fun hr => ?_, fun hr => ⟨?_, ?_⟩, fun hr => ?_⟩, fun hown => ⟨fun hr he => ?_, fun hr he hc ha hl hactive hfires => ?_,
    fun hr => ⟨fun hd => ⟨?_, ?_⟩, fun hd hlen => ?_, fun hd hlen => ?_, fun hd hactive => ?_, fun hd hactive => ?_⟩, fun hr => ?_⟩⟩
  · rw [exec_carm, execCarm, State.issueS_ready _ _ _ _ _ hr]
    simp only [hown, if_true, State.conclude_trap]
    rfl
  · rw [exec_cfire, execCfire, State.issueS_ready _ _ _ _ _ hr]
    simp only [hown, if_true, State.conclude_trap]
    rfl
  · rw [exec_cdis, execCdis, State.issueS_ready _ _ _ _ _ hr]
    simp only [hown, if_true, State.conclude_trap]
    rfl
  · rw [exec_cstat, execCstat, State.issueS_ready _ _ _ _ _ hr]
    simp only [hown, if_true, State.conclude_trap]
    rfl
  · rw [exec_carm, execCarm, State.issueS_ready _ _ _ _ _ hr]
    simp only [hown, Bool.true_eq_false, if_false]
    rw [if_pos he, State.conclude_trap]
  · have hload : exec (.carm a n) s = .next (s.conclude 8 (popsOf [rd a]) false (s.arming n.toNat (BitVec.ofNat 512 (Claims.bytes s e 64)))) := by
      rw [exec_carm, execCarm, State.issueS_ready _ _ _ _ _ hr]
      simp only [hown, Bool.true_eq_false, if_false]
      rw [State.load_passed hc ha, (State.localParts_of_local hl).readAll_eq (fun p hp => partsFrom_sector hp), s.partsValue_parts,
        if_neg (not_not.2 he)]
    rw [hload, State.arming_idle _ hown hactive hfires]
    refine ⟨fun c hc => ?_, fun hc => ?_⟩
    · rw [hc, State.conclude_trap]
    · rw [hc, State.conclude_ok]
  · rw [exec_cfire, execCfire, State.issueS_ready _ _ _ _ _ hr]
    simp only [hown, Bool.true_eq_false, if_false, hx, hd, Option.isNone_none, if_true, State.conclude_trap]
    rfl
  · rw [exec_cdis, execCdis, State.issueS_ready _ _ _ _ _ hr]
    simp only [hown, Bool.true_eq_false, if_false, hx, hd, Option.isNone_none, if_true, State.conclude_ok]
  · rw [exec_cfire, execCfire, State.issueS_ready _ _ _ _ _ hr]
    simp only [hown, Bool.true_eq_false, Bool.false_eq_true, if_false, hx, hdesc hd, if_neg (Nat.not_le.2 hlen), State.conclude_ok]
    rfl
  · rw [exec_cfire, execCfire, State.issueS_ready _ _ _ _ _ hr]
    simp only [hown, Bool.true_eq_false, Bool.false_eq_true, if_false, hx, hdesc hd, if_pos hlen, State.conclude_wait]
  · have hnone : x.active.isNone = true := Option.isNone_iff_eq_none.2 hactive
    rw [exec_cdis, execCdis, State.issueS_ready _ _ _ _ _ hr]
    simp only [hown, Bool.true_eq_false, Bool.false_eq_true, if_false, hx, hdesc hd, hnone, if_true, State.conclude_ok]
    rfl
  · have hsome : x.active.isNone = false := Option.isNone_eq_false_iff.2 (Option.isSome_iff_ne_none.2 hactive)
    rw [exec_cdis, execCdis, State.issueS_ready _ _ _ _ _ hr]
    simp only [hown, Bool.true_eq_false, Bool.false_eq_true, if_false, hx, hdesc hd, hsome, State.conclude_hold]
    rw [State.holds_sure _ _ _ (by rw [State.me_setMe]; rfl), State.me_setMe]
    exact congrArg (fun u : State => Host.Outcome.next u.used) (State.setMe_setMe ..)
  · rw [exec_cstat, execCstat, State.issueS_ready _ _ _ _ _ hr]
    simp only [hown, Bool.true_eq_false, if_false, State.conclude_ok]
    exact ⟨_, rfl, x.status_fields⟩

/-- Settles O34: token instructions at ports and queues, and the instructions of a template. -/
theorem tokensAndTemplates : Obligations.TokensAndTemplates := ⟨tokenOps, copyInstructions⟩

end Sys2Proof.Machine

namespace Sys2Proof.Machine

/-! ## O60. The machine right after reset -/

theorem Region.identity_rows {i : Nat} (h : i < 35) : Region.identity.rows[i]? = some (BitVec.twoPow 35 i) := by
  simp [Region.identity, h]

/-- Settles O60: the fields of the reset state. -/
theorem resetState : Obligations.ResetState := by
  refine ⟨rfl, fun _ => rfl, fun _ => ⟨rfl, rfl, rfl, rfl, rfl, rfl⟩, fun _ => ⟨rfl, rfl, rfl, fun _ => rfl⟩,
    ⟨rfl, _, rfl, rfl, rfl, rfl, fun i hi => Region.identity_rows hi, fun q hq => ?_⟩,
    rfl, rfl, rfl, rfl, rfl, fun _ => ⟨rfl, rfl⟩, rfl⟩
  rw [List.eq_of_mem_replicate (n := 7) hq]

/-! ## O53. Reset, loss of supply and fences -/

theorem exec_deviceReset (s : State) : exec .deviceReset s = execDeviceReset s := rfl
theorem exec_powerLoss (r : Option (BitVec 256)) (s : State) : exec (.powerLoss r) s = execPowerLoss r s := rfl
theorem exec_positionFence (o : BitVec 64) (s : State) : exec (.positionFence o) s = execPositionFence o s := rfl

/-! ### What the flash keeps -/

/-- The Almanac grows, the fuse counter does not fall, an image keeps its contents, and the log keeps what it still has room for. -/
structure Mgmt.Grows (m n : Mgmt) : Prop where
  alm : m.almA <+: n.almA
  fuse : m.fuse ≤ n.fuse
  image : ∀ st slot, (n.image st slot).sec = (m.image st slot).sec ∧ (n.image st slot).body = (m.image st slot).body ∧
    (n.image st slot).sig = (m.image st slot).sig
  logCount : m.logCount ≤ n.logCount
  log : ∀ i, i < m.logCount → n.logCount ≤ i + 65536 → n.log.get [] (i % 65536) = m.log.get [] (i % 65536)

theorem Mgmt.Grows.of_eq {m n : Mgmt} (halm : n.almA = m.almA) (hfuse : n.fuse = m.fuse) (hfw : n.fw = m.fw) (hlog : n.log = m.log)
    (hcount : n.logCount = m.logCount) : m.Grows n :=
  ⟨by rw [halm], hfuse.ge, fun _ _ => by simp [Mgmt.image, hfw], hcount.ge, fun _ _ _ => by rw [hlog]⟩

theorem Mgmt.Grows.trans {m n o : Mgmt} (a : m.Grows n) (b : n.Grows o) : m.Grows o where
  alm := a.alm.trans b.alm
  fuse := a.fuse.trans b.fuse
  image st slot := by
    obtain ⟨h1, h2, h3⟩ := a.image st slot
    obtain ⟨k1, k2, k3⟩ := b.image st slot
    exact ⟨k1.trans h1, k2.trans h2, k3.trans h3⟩
  logCount := a.logCount.trans b.logCount
  log i hi ho := (b.log i (hi.trans_le a.logCount) ho).trans (a.log i hi (b.logCount.trans ho))

/-- An entry of the log goes to the place of the oldest one. -/
theorem Mgmt.grows_log (m : Mgmt) (e : List W64) :
    m.Grows { m with log := m.log.set (m.logCount % 65536) e, logCount := m.logCount + 1 } where
  alm := List.prefix_rfl
  fuse := Nat.le_refl _
  image _ _ := ⟨rfl, rfl, rfl⟩
  logCount := Nat.le_succ _
  log i hi ho := AMap.get_set_ne _ _ _ _ _ (by change m.logCount + 1 ≤ i + 65536 at ho; omega)

theorem Mgmt.booted_grows (m : Mgmt) (stage slot : Nat) : m.Grows (m.booted stage slot) := by
  unfold Mgmt.booted
  dsimp only
  split
  · exact .of_eq rfl rfl rfl rfl rfl
  · refine ⟨List.prefix_rfl, Nat.le_max_left .., fun st sl => ?_, Nat.le_refl _, fun _ _ _ => rfl⟩
    simp only [Mgmt.image, AMap.get_set]
    split
    · rename_i h
      simp only [h, and_self]
    · simp only [and_self]

/-- The controller keeps books: nothing changes but its flash, the scheduler's buffer, channels and configuration. -/
structure State.Books (s u : State) : Prop where
  frame : u = { s with
    mgmt := u.mgmt, sched := { s.sched with buffer := u.sched.buffer }, channels := u.channels, conf := u.conf }
  grows : s.mgmt.Grows u.mgmt

theorem State.Books.refl (s : State) : s.Books s := ⟨rfl, .of_eq rfl rfl rfl rfl rfl⟩

theorem State.Books.trans {s u v : State} (a : s.Books u) (b : u.Books v) : s.Books v :=
  ⟨by
    have h := b.frame
    rw [a.frame] at h
    exact h, a.grows.trans b.grows⟩

theorem State.Books.foldl {α : Type} (f : State → α → State) (h : ∀ (s : State) a, s.Books (f s a)) (l : List α) (s : State) :
    s.Books (l.foldl f s) := by
  induction l generalizing s with
  | nil => exact .refl s
  | cons a l ih => exact (h s a).trans (ih _)

theorem State.post_books (s : State) (e : EventRec) : s.Books (s.post e) := by
  unfold State.post
  dsimp only
  split
  · exact ⟨rfl, s.mgmt.grows_log _⟩
  · exact ⟨rfl, .of_eq rfl rfl rfl rfl rfl⟩

theorem State.mgmtEvent_books (s : State) (kind b low : Nat) (d1 d2 : W64) : s.Books (s.mgmtEvent kind b low d1 d2) := s.post_books _

theorem State.almanacAppend_books (s : State) (kind cause : Nat) (obj : BitVec 48) : s.Books (s.almanacAppend kind cause obj) := by
  have record (r : W256) :
      s.Books { s with mgmt := { s.mgmt with almA := s.mgmt.almA ++ [r], almB := s.mgmt.almB ++ [r] } } :=
    ⟨rfl, List.prefix_append .., Nat.le_refl _, fun _ _ => ⟨rfl, rfl, rfl⟩, Nat.le_refl _, fun _ _ _ => rfl⟩
  unfold State.almanacAppend
  dsimp only
  split
  · exact .refl s
  · split
    · have known : s.Books { s with mgmt := { s.mgmt with extra := s.mgmt.extra ++ [objectKey kind obj] } } :=
        ⟨rfl, .of_eq rfl rfl rfl rfl rfl⟩
      exact known.trans (State.mgmtEvent_books ..)
    · split
      · exact (record _).trans (State.mgmtEvent_books ..)
      · exact record _

theorem State.setChannel_books (s : State) (n : Nat) (c : Channel) : s.Books (s.setChannel n c) :=
  ⟨rfl, .of_eq rfl rfl rfl rfl rfl⟩

theorem State.setConf_books (s : State) (c : Conf) : s.Books { s with conf := c } := ⟨rfl, .of_eq rfl rfl rfl rfl rfl⟩

theorem State.repairLane_books (s : State) (n lane cause : Nat) : s.Books (s.repairLane n lane cause) := by
  unfold State.repairLane
  dsimp only
  split
  · exact (((s.setChannel_books _ _).trans (State.almanacAppend_books ..)).trans (State.setConf_books ..)).trans (State.post_books ..)
  · exact s.setChannel_books ..

theorem State.appendDefect_books (s : State) (x : BitVec 64) : s.Books (s.appendDefect x) := by
  unfold State.appendDefect
  dsimp only
  split
  · split
    · exact .refl s
    · exact s.repairLane_books ..
  · exact s.almanacAppend_books ..

theorem State.appendDefects_books (s : State) (failing : List Nat) : s.Books (s.appendDefects failing) :=
  State.Books.foldl _ State.appendDefect_books _ s

theorem State.slotEvents_books (s : State) (stage : Nat) (l : List (Nat × Nat)) : s.Books (s.slotEvents stage l) :=
  State.Books.foldl _ (fun s _ => s.mgmtEvent_books ..) l s


/-- What a reset must find again in the flash. -/
def Mgmt.kept (m : Mgmt) : List W256 × List W256 × Nat := (m.almA, m.almB, m.fuse)

theorem State.post_kept (s : State) (e : EventRec) : (s.post e).mgmt.kept = s.mgmt.kept := by
  unfold State.post
  dsimp only
  split <;> rfl

theorem State.slotEvents_kept (s : State) (stage : Nat) (l : List (Nat × Nat)) : (s.slotEvents stage l).mgmt.kept = s.mgmt.kept :=
  foldl_keeps (fun u : State => u.mgmt.kept) _ (fun _ _ => State.post_kept ..) l s

/-! ### A boot -/

/-- A boot keeps books, and changes the free numbers, memory and how far the device has come. -/
structure State.Boots (s u : State) : Prop where
  frame : u = { s with
    mgmt := u.mgmt, sched := { s.sched with buffer := u.sched.buffer }, channels := u.channels, conf := u.conf,
    booted := u.booted, recovery := u.recovery, free := u.free, mem := u.mem }
  grows : s.mgmt.Grows u.mgmt
  recovers : s.recovery = false → s.booted = false → u.recovery = true → u.booted = false

theorem State.Books.boots {s u : State} (h : s.Books u) : s.Boots u :=
  ⟨by rw [h.frame], h.grows, by rw [h.frame]; exact fun _ hb _ => hb⟩

theorem State.Boots.trans {s u v : State} (a : s.Boots u) (b : u.Boots v) (hr : u.recovery = s.recovery) (hb : u.booted = s.booted) :
    s.Boots v :=
  ⟨by
    have h := b.frame
    rw [a.frame] at h
    exact h, a.grows.trans b.grows, fun h1 h2 => b.recovers (hr.trans h1) (hb.trans h2)⟩

theorem State.Boots.thenBooks {s u v : State} (a : s.Boots u) (b : u.Books v) : s.Boots v :=
  ⟨by rw [b.frame, a.frame], a.grows.trans b.grows, by rw [b.frame]; exact a.recovers⟩

theorem State.Books.thenBoots {s u v : State} (a : s.Books u) (b : u.Boots v) : s.Boots v :=
  a.boots.trans b (by rw [a.frame]) (by rw [a.frame])

theorem State.reportUnserviceable_boots (s : State) (hb : s.booted = false) : s.Boots s.reportUnserviceable :=
  ⟨rfl, s.mgmt.grows_log _, fun _ _ _ => hb⟩

theorem State.setChannels_books (s : State) (c : AMap Channel) : s.Books { s with channels := c } :=
  ⟨rfl, .of_eq rfl rfl rfl rfl rfl⟩

theorem State.asks_books (s : State) : s.Books { s with mgmt := { s.mgmt with asked37 := true } } :=
  ⟨rfl, .of_eq rfl rfl rfl rfl rfl⟩

theorem State.up_boots (s : State) (c : Conf) (m : Mgmt) (x : Memory) (h : s.mgmt.Grows m) (hr : s.recovery = false) :
    s.Boots { s with conf := c, booted := true, mgmt := m, mem := x } :=
  ⟨rfl, h, fun _ _ h => absurd (hr.symm.trans h) (by decide)⟩

theorem Mgmt.boots_grows (m : Mgmt) (a b : Nat) (l : AMap Nat) (x : AMap (BitVec 512)) :
    m.Grows { (m.booted 1 a).booted 2 b with active := l, meas := x } :=
  ((m.booted_grows 1 a).trans (Mgmt.booted_grows _ 2 b)).trans (.of_eq rfl rfl rfl rfl rfl)

theorem State.bootFrom_boots (s : State) (a b : Verified) (hr : s.recovery = false) (hb : s.booted = false) :
    s.Boots (s.bootFrom a b) := by
  unfold State.bootFrom
  dsimp only
  have defects (l : List Nat) : s.Books (({ s with channels := s.mgmt.laneSpares }).appendDefects l) :=
    (s.setChannels_books _).trans (State.appendDefects_books ..)
  replace defects := defects ((s.channels.filter fun e => e.2.failing).map Prod.fst)
  revert defects
  generalize ({ s with channels := s.mgmt.laneSpares }).appendDefects _ = u
  intro defects
  have hur : u.recovery = false := by rw [defects.frame]; exact hr
  have hub : u.booted = false := by rw [defects.frame]; exact hb
  split
  · exact defects.thenBoots (u.reportUnserviceable_boots hub)
  · have starts (c : Conf) (l : AMap Nat) (x : AMap (BitVec 512)) (mem : Memory) :=
      defects.thenBoots (u.up_boots c _ mem (u.mgmt.boots_grows (a.slot.getD 0) (b.slot.getD 0) l x) hur)
    have told (v : State) (h : s.Boots v) : s.Boots ((v.slotEvents 1 a.fails).slotEvents 2 b.fails) :=
      (h.thenBooks (State.slotEvents_books ..)).thenBooks (State.slotEvents_books ..)
    split
    · exact ((told _ (starts _ _ _ _)).thenBooks (State.asks_books _)).thenBooks (State.mgmtEvent_books ..)
    · exact told _ (starts _ _ _ _)

/-! ### The events -/

/-- The machine of a reset once its ROM has looked at the images: the registers are those of power-on. -/
def State.woken (s : State) : State :=
  let r := s.restarted
  let m := if (r.mgmt.verify 1).slot.isSome then r.mgmt.readAlmanac else r.mgmt
  { r with mgmt := { m with meas := m.measured r.verifyBoth.1 r.verifyBoth.2 } }

theorem State.verifyBoth_isNone (s : State) :
    (s.verifyBoth.1.slot.isNone ∨ s.verifyBoth.2.slot.isNone) ↔ (s.mgmt.verify 1).slot = none ∨ (s.mgmt.verify 2).slot = none := by
  unfold State.verifyBoth
  cases h : (s.mgmt.verify 1).slot <;> simp [h]

theorem execDeviceReset_eq (s : State) :
    execDeviceReset s = .next
      (if (s.restarted.mgmt.verify 1).slot = none ∨ (s.restarted.mgmt.verify 2).slot = none then
        (({ s.woken with recovery := true }).slotEvents 1 s.restarted.verifyBoth.1.fails).slotEvents 2 s.restarted.verifyBoth.2.fails
      else s.woken.bootFrom s.restarted.verifyBoth.1 s.restarted.verifyBoth.2) := by
  rw [← if_congr s.restarted.verifyBoth_isNone rfl rfl]
  rfl

theorem State.woken_mgmt (s : State) :
    s.woken.mgmt.fw = s.mgmt.fw ∧ s.woken.mgmt.fuse = s.mgmt.fuse ∧ s.woken.mgmt.log = s.mgmt.log ∧ s.woken.mgmt.logCount = s.mgmt.logCount := by
  unfold State.woken
  dsimp only
  split <;> exact ⟨rfl, rfl, rfl, rfl⟩

theorem State.woken_almA (s : State) (h : (s.restarted.mgmt.verify 1).slot ≠ none) : s.woken.mgmt.almA = s.mgmt.readAlmanac.almA := by
  have read : (s.restarted.mgmt.verify 1).slot.isSome := Option.isSome_iff_ne_none.mpr h
  simp only [State.woken, if_pos read]
  rfl

theorem State.woken_kept (s : State) (h : (s.restarted.mgmt.verify 1).slot = none) : s.woken.mgmt.kept = s.mgmt.kept := by
  have unread : ¬(s.restarted.mgmt.verify 1).slot.isSome := by simp [h]
  simp only [State.woken, if_neg unread]
  rfl

theorem State.woken_images (s : State) (m : Mgmt) (h : s.woken.mgmt.Grows m) (st slot : Nat) :
    (m.image st slot).sec = (s.mgmt.image st slot).sec ∧ (m.image st slot).body = (s.mgmt.image st slot).body ∧
      (m.image st slot).sig = (s.mgmt.image st slot).sig := by
  have same : s.woken.mgmt.image st slot = s.mgmt.image st slot := by rw [Mgmt.image, s.woken_mgmt.1]; rfl
  exact same ▸ h.image st slot

/-- What a reset leaves, whichever way the boot went, with what else is known of it. -/
theorem State.woken_boots {s t : State} (h : s.woken.Boots t) {P : Prop} (rest : P) :
    t.powered = true ∧ t.cycle = 0 ∧ t.agenda = [] ∧ t.inputs = s.inputs ∧
    t.ctxs = [] ∧ t.cores = [] ∧ t.tiles = [] ∧ t.xbars = [] ∧ t.nodes = [] ∧ t.ports = [] ∧ t.net = [] ∧ t.inbox = [] ∧
    t.tlbs = [] ∧ t.walks = [] ∧ t.sched.res = [] ∧ t.sched.loads = [] ∧ t.regions = State.reset.regions ∧ t.deviceError = false ∧
    P := by
  rw [h.frame]
  exact ⟨rfl, rfl, rfl, rfl, rfl, rfl, rfl, rfl, rfl, rfl, rfl, rfl, rfl, rfl, rfl, rfl, rfl, rfl, rest⟩

theorem State.woken_flash {s t : State} (h : s.woken.Boots t) :
    s.mgmt.fuse ≤ t.mgmt.fuse ∧ s.mgmt.logCount ≤ t.mgmt.logCount ∧
    ∀ i, i < s.mgmt.logCount → t.mgmt.logCount ≤ i + 65536 → t.mgmt.log.get [] (i % 65536) = s.mgmt.log.get [] (i % 65536) := by
  obtain ⟨-, hfuse, hlog, hcount⟩ := s.woken_mgmt
  obtain ⟨-, fuse, -, count, log⟩ := h.grows
  rw [hlog, hcount] at log
  exact ⟨hfuse ▸ fuse, hcount ▸ count, log⟩

theorem State.woken_almanac {s t : State} (h : s.woken.Boots t) (hv : (s.restarted.mgmt.verify 1).slot ≠ none) :
    s.mgmt.readAlmanac.almA <+: t.mgmt.almA := by
  rw [← s.woken_almA hv]
  exact h.grows.alm

theorem State.woken_same {s t : State} (hv : (s.restarted.mgmt.verify 1).slot = none) (h : t.mgmt.kept = s.woken.mgmt.kept) :
    t.mgmt.almA = s.mgmt.almA ∧ t.mgmt.almB = s.mgmt.almB := by
  rw [s.woken_kept hv] at h
  obtain ⟨ha, hb, -⟩ := (Prod.ext_iff.trans (and_congr_right fun _ => Prod.ext_iff)).mp h
  exact ⟨ha, hb⟩

theorem State.recovered_boots (s : State) (a b : List (Nat × Nat)) (hb : s.booted = false) :
    s.Boots ((({ s with recovery := true } : State).slotEvents 1 a).slotEvents 2 b) := by
  have recovers : s.Boots { s with recovery := true } := ⟨rfl, .of_eq rfl rfl rfl rfl rfl, fun _ _ _ => hb⟩
  exact (recovers.thenBooks (State.slotEvents_books ..)).thenBooks (State.slotEvents_books ..)

theorem State.recovered_end (s : State) (a b : List (Nat × Nat)) (hb : s.booted = false) :
    let t := (({ s with recovery := true } : State).slotEvents 1 a).slotEvents 2 b
    t.recovery = true ∧ t.booted = false ∧ t.mgmt.kept = s.mgmt.kept := by
  have told := State.Books.trans (State.slotEvents_books ({ s with recovery := true } : State) 1 a) (State.slotEvents_books _ 2 b)
  refine ⟨?_, ?_, (State.slotEvents_kept ..).trans (State.slotEvents_kept ..)⟩
  · rw [told.frame]
  · rw [told.frame]; exact hb

theorem newRecord_key (l : List W256) (hours kind cause : Nat) (obj : BitVec 48) (h : kind < 256) :
    objectKey (recKind (newRecord l hours kind cause obj)) (recObject (newRecord l hours kind cause obj)) = objectKey kind obj := by
  have hk : recKind (newRecord l hours kind cause obj) = kind := by
    simp only [recKind, newRecord]
    repeat rw [extract_append_high (by decide)]
    simp [Nat.mod_eq_of_lt h]
  have ho : recObject (newRecord l hours kind cause obj) = obj := by
    simp only [recObject, newRecord]
    repeat rw [extract_append_high (by decide)]
    exact BitVec.extractLsb'_append_eq_right
  rw [hk, ho]

theorem State.almanacAppend_retired (s : State) (kind cause : Nat) (obj : BitVec 48) (h : kind < 256) :
    objectKey kind obj ∈ (s.almanacAppend kind cause obj).mgmt.retired := by
  have told (u : State) (k b low : Nat) (d1 d2 : W64) : (u.mgmtEvent k b low d1 d2).mgmt.retired = u.mgmt.retired := by
    unfold State.mgmtEvent State.post
    dsimp only
    split <;> rfl
  unfold State.almanacAppend
  dsimp only
  split
  · next known => exact List.contains_iff_mem.mp known
  · split
    · rw [told]
      exact List.mem_append_right _ (List.mem_append_right _ (List.mem_singleton_self _))
    · have kept : objectKey kind obj ∈ Mgmt.retired { s.mgmt with
          almA := s.mgmt.almA ++ [newRecord s.mgmt.almA s.hoursNow kind cause obj]
          almB := s.mgmt.almB ++ [newRecord s.mgmt.almA s.hoursNow kind cause obj] } := by
        simp only [Mgmt.retired, List.map_append, List.map_cons, newRecord_key _ _ _ _ _ h, List.map_nil, List.mem_append,
          List.mem_singleton, true_or, or_true]
      split
      · rw [told]
        exact kept
      · exact kept

/-- The Almanac's pages are the controller's own. -/
theorem State.almanacAppend_frame (s : State) (kind cause : Nat) (obj : BitVec 48) :
    (s.almanacAppend kind cause obj).conf = s.conf ∧ (s.almanacAppend kind cause obj).ctxs = s.ctxs := by
  refine ⟨?_, by rw [(s.almanacAppend_books kind cause obj).frame]⟩
  have told (u : State) (k b low : Nat) (d1 d2 : W64) : (u.mgmtEvent k b low d1 d2).conf = u.conf := by
    unfold State.mgmtEvent State.post
    dsimp only
    split <;> rfl
  unfold State.almanacAppend
  dsimp only
  split
  · rfl
  · split
    · exact told ..
    · split
      · exact told ..
      · rfl

theorem State.tileAt_congr {s t : State} (h : t.conf = s.conf) (d p r : Nat) : t.tileAt d p r = s.tileAt d p r := by
  simp only [State.tileAt, h]

theorem objPosition_extract (o : BitVec 64) : objPosition (o.extractLsb' 0 48) =
    ((o.extractLsb' 46 2).toNat, (o.extractLsb' 41 5).toNat, (o.extractLsb' 36 5).toNat) := by
  simp [objPosition, extract_extract]

theorem execPositionFence_other (o : BitVec 64) (s : State) (h1 : o.extractLsb' 56 8 ≠ 1) (h2 : o.extractLsb' 56 8 ≠ 2) :
    execPositionFence o s = .next s := by
  have n1 : (o.extractLsb' 56 8).toNat ≠ 1 := fun h => h1 (BitVec.eq_of_toNat_eq h)
  have n2 : (o.extractLsb' 56 8).toNat ≠ 2 := fun h => h2 (BitVec.eq_of_toNat_eq h)
  simp only [execPositionFence, if_pos (And.intro n1 n2)]

/-- The positions that are fenced once the tile of a retired one has joined them. -/
def State.fence (s : State) (t : Option Nat) : State :=
  match t with
  | none => s
  | some t => { s with conf := { s.conf with fenced := if s.conf.fenced.contains t then s.conf.fenced else t :: s.conf.fenced } }

theorem State.fence_frame (s : State) (t : Option Nat) :
    (s.fence t).mem = s.mem ∧ (s.fence t).ctxs = s.ctxs ∧ (s.fence t).mgmt = s.mgmt := by
  cases t <;> exact ⟨rfl, rfl, rfl⟩

theorem State.mem_fence (s : State) (t : Option Nat) {u : Nat} (h : u ∈ s.conf.fenced ∨ t = some u) : u ∈ (s.fence t).conf.fenced := by
  cases t with
  | none => exact h.resolve_right nofun
  | some t =>
    unfold State.fence
    dsimp only
    split
    · next known =>
      rcases h with h | ⟨⟨⟩⟩
      · exact h
      · exact List.contains_iff_mem.mp known
    · rcases h with h | ⟨⟨⟩⟩
      · exact List.mem_cons_of_mem _ h
      · exact List.mem_cons_self

theorem execPositionFence_tile (o : BitVec 64) (s : State) (h : o.extractLsb' 56 8 = 1 ∨ o.extractLsb' 56 8 = 2) :
    execPositionFence o s = .next ((s.almanacAppend (o.extractLsb' 56 8).toNat (o.extractLsb' 48 8).toNat (o.extractLsb' 0 48)).fence
      (s.tileAt (o.extractLsb' 46 2).toNat (o.extractLsb' 41 5).toNat (o.extractLsb' 36 5).toNat)) := by
  have named : ¬((o.extractLsb' 56 8).toNat ≠ 1 ∧ (o.extractLsb' 56 8).toNat ≠ 2) := by
    rintro ⟨h1, h2⟩
    rcases h with h | h
    · exact h1 (congrArg BitVec.toNat h)
    · exact h2 (congrArg BitVec.toNat h)
  simp only [execPositionFence, if_neg named, objPosition_extract, State.tileAt_congr (State.almanacAppend_frame ..).1]
  rfl

theorem objectKey_toNat (k : BitVec 8) (o : BitVec 48) : objectKey k.toNat o = k ++ 0#8 ++ o := by
  simp [objectKey]

/-- Settles O53, by what a boot keeps of the flash (`State.Boots`) and by what the Almanac's next record names. -/
theorem powerAndReset : Obligations.PowerAndReset := by
  refine ⟨fun s => ⟨_, execDeviceReset_eq s, ?_⟩, fun s r => ⟨_, rfl, rfl, rfl, rfl, rfl, rfl, rfl, rfl, rfl⟩,
    fun s o => ⟨execPositionFence_other o s, fun h => ⟨_, execPositionFence_tile o s h, ?_⟩⟩⟩
  · split
    · next failed =>
      have boots := s.woken.recovered_boots s.restarted.verifyBoth.1.fails s.restarted.verifyBoth.2.fails rfl
      obtain ⟨hr, hb, hk⟩ := s.woken.recovered_end s.restarted.verifyBoth.1.fails s.restarted.verifyBoth.2.fails rfl
      obtain ⟨fuse, count, log⟩ := State.woken_flash boots
      exact State.woken_boots boots ⟨s.woken_images _ boots.grows, fuse, count, log, State.woken_almanac boots,
        fun h => State.woken_same h hk, fun _ => ⟨hr, hb, (congrArg (·.2.2) hk).trans s.woken_mgmt.2.1⟩, fun _ => hb⟩
    · next held =>
      have boots := s.woken.bootFrom_boots s.restarted.verifyBoth.1 s.restarted.verifyBoth.2 rfl rfl
      obtain ⟨fuse, count, log⟩ := State.woken_flash boots
      exact State.woken_boots boots ⟨s.woken_images _ boots.grows, fuse, count, log, State.woken_almanac boots,
        fun h => absurd (.inl h) held, fun h => absurd h held, boots.recovers rfl rfl⟩
  · obtain ⟨hmem, hctxs, hmgmt⟩ := State.fence_frame
      (s.almanacAppend (o.extractLsb' 56 8).toNat (o.extractLsb' 48 8).toNat (o.extractLsb' 0 48))
      (s.tileAt (o.extractLsb' 46 2).toNat (o.extractLsb' 41 5).toNat (o.extractLsb' 36 5).toNat)
    obtain ⟨hconf, hctx⟩ := s.almanacAppend_frame (o.extractLsb' 56 8).toNat (o.extractLsb' 48 8).toNat (o.extractLsb' 0 48)
    refine ⟨hmem.trans (State.almanacAppend_mem ..), hctxs.trans hctx, ?_, fun u hu => State.mem_fence _ _ (.inl (hconf ▸ hu)),
      fun u hu => State.mem_fence _ _ (.inr hu)⟩
    rw [hmgmt, ← objectKey_toNat]
    exact s.almanacAppend_retired _ _ _ (BitVec.isLt _)

end Sys2Proof.Machine

namespace Sys2Proof.Machine

/-! ## O32, O33. Streaming instructions -/

theorem exec_streamStep (s : State) : exec .streamStep s = execStreamStep s := rfl

/-! ### Start (R262, R267) -/

section
variable {s : State} {i : Instr} {ins outs : List (BitVec 4)} {lev len : Nat} {al : List (BitVec 5)} (x y z : BitVec 5)
  (hshape : shapeOf i = ⟨ins, outs, lev⟩) (hready : s.ready (Claims.portSrcs ins) (Claims.portOuts outs) = true)
  (hins : ∀ c ∈ ins, s.epFault c = none ∧ s.epWords c ≠ []) (houts : ∀ c ∈ outs, s.epFault c = none ∧ s.epRoom c = true)
include hshape hready hins houts

theorem State.issueStream_ready :
    s.issueStream len i x y z al =
      match al.find? fun r => (s.me.s r.toNat).toNat % 4 ≠ 0 with
      | some r => s.fault ⟨0x18, s.me.s r.toNat, 0⟩
      | none => ((s.setMe { s.me with
          stream := some { instr := i, len := len, x := s.me.s x.toNat, y := s.me.s y.toNat, z := s.me.s z.toNat }, mid := true }).used) := by
  have hok : s.shapeReady ⟨ins, outs, lev⟩ = true := by
    rw [State.shapeReady, Bool.and_eq_true, List.all_eq_true, List.all_eq_true]
    exact ⟨fun c hc => by simp [(hins c hc).2], fun c hc => by simp [(houts c hc).2]⟩
  have hfault : (ins ++ outs).findSome? s.epFault = none := by
    rw [List.findSome?_eq_none_iff]
    intro c hc
    exact (List.mem_append.mp hc).elim (fun h => (hins c h).1) (fun h => (houts c h).1)
  have hissue (body : (Nat → W64) → State → Res) := s.issueS_ready len _ _ body hready
  simp only [Claims.portSrcs, Claims.portOuts] at hissue
  simp only [State.issueStream, hshape, hok, Bool.true_eq_false, and_false, if_false, hissue, hfault]
  cases al.find? fun r => decide ((s.me.s r.toNat).toNat % 4 ≠ 0) with
  | some r => rfl
  | none => simp only [State.conclude_pause, State.me_setMe, State.setMe_setMe]

theorem State.issueStream_starts (h : ∀ r ∈ al, (s.me.s r.toNat).toNat % 4 = 0) :
    s.issueStream len i x y z al = ((s.setMe { s.me with
      stream := some { instr := i, len := len, x := s.me.s x.toNat, y := s.me.s y.toNat, z := s.me.s z.toNat }, mid := true }).used) := by
  have hnone : (al.find? fun r => decide ((s.me.s r.toNat).toNat % 4 ≠ 0)) = none := by
    simpa [List.find?_eq_none] using h
  rw [State.issueStream_ready x y z hshape hready hins houts, hnone]

theorem State.issueStream_misaligned {r : BitVec 5} {rs : List (BitVec 5)} (hal : al = r :: rs) (h : (s.me.s r.toNat).toNat % 4 ≠ 0) :
    s.issueStream len i x y z al = s.fault ⟨0x18, s.me.s r.toNat, 0⟩ := by
  have hsome : (al.find? fun r => decide ((s.me.s r.toNat).toNat % 4 ≠ 0)) = some r := by
    rw [hal, List.find?_cons_of_pos (by simpa using h)]
  rw [State.issueStream_ready x y z hshape hready hins houts, hsome]

end

/-- R262, R267: how each streaming instruction issues. -/
theorem exec_streams {a b d e : BitVec 4} {l : BitVec 3} {x y z : BitVec 5} {t p : BitVec 2} {f : BitVec 1}
    {i : Instr × Nat × List (BitVec 4) × List (BitVec 4) × List (BitVec 5)} (hi : i ∈ Claims.streams a b d e l x y z t p f) (s : State) :
    ∃ u v w : BitVec 5, exec i.1 s = .next (s.issueStream i.2.1 i.1 u v w i.2.2.2.2) ∧ shapeOf i.1 = ⟨i.2.2.1, i.2.2.2.1, l.toNat⟩ ∧
      (x ∈ i.2.2.2.2 → u = x ∧ w = z) ∧ (i.1 = .fscan l a d x y z → v = y) := by
  simp only [Claims.streams, List.mem_cons, List.not_mem_nil, or_false] at hi
  obtain rfl | rfl | rfl | rfl | rfl | rfl | rfl | rfl | rfl | rfl | rfl := hi
  case inr.inr.inr.inl => exact ⟨x, y, z, rfl, rfl, fun _ => ⟨rfl, rfl⟩, fun _ => rfl⟩
  case inr.inr.inr.inr.inr.inr.inr.inr.inl => exact ⟨x, 0, z, rfl, rfl, fun _ => ⟨rfl, rfl⟩, nofun⟩
  case inr.inr.inr.inr.inr.inr.inr.inr.inr.inr => exact ⟨x, 0, z, rfl, rfl, fun _ => ⟨rfl, rfl⟩, nofun⟩
  all_goals exact ⟨0, 0, 0, rfl, rfl, nofun, nofun⟩

theorem streamStart : Parts.StreamStart := by
  intro a b d e l x y z t p f i hi s hready hins houts
  obtain ⟨u, v, w, hexec, hshape, huw, hv⟩ := exec_streams hi s
  refine ⟨fun h => ⟨s.me.s u.toNat, s.me.s v.toNat, s.me.s w.toNat, ?_, fun hx => ?_, fun hi => by rw [hv hi]⟩, fun r rs hal h => ?_⟩
  · rw [hexec, State.issueStream_starts u v w hshape hready hins houts h]
  · obtain ⟨rfl, rfl⟩ := huw hx
    exact ⟨rfl, rfl⟩
  · rw [hexec, State.issueStream_misaligned u v w hshape hready hins houts hal h]

/-! ### Endpoints (R261) -/

/-- What a crossbar keeps when it is written is what every crossbar keeps. -/
theorem State.xbar_setXbar_congr {β : Type} (f : Xbar → β) {s : State} {j : Nat} {x : Xbar} (h : f x = f (s.xbar j)) (k : Nat) :
    f ((s.setXbar j x).xbar k) = f (s.xbar k) := by
  rw [State.xbar_setXbar]
  split
  · next hk => rw [hk, h]
  · rfl

/-- A word taken from a lane leaves what does not hold that lane's words. -/
theorem State.popLane_congr {β : Type} (f : Xbar → β) (s : State) (t b d k : Nat)
    (hrx : ∀ x l, f { x with rx := x.rx.set d l } = f x) (hback : ∀ x l, f { x with creditBack := l } = f x) :
    f ((s.popLane t b d).xbar k) = f (s.xbar k) := by
  unfold State.popLane
  dsimp only
  split
  · exact State.xbar_setXbar_congr f (hrx ..) k
  · exact (State.xbar_setXbar_congr f (hback ..) k).trans (State.xbar_setXbar_congr f (hrx ..) k)

theorem State.toCore_popLane (s : State) (t b d k : Nat) : ((s.popLane t b d).xbar k).toCore = (s.xbar k).toCore :=
  s.popLane_congr Xbar.toCore t b d k (fun _ _ => rfl) (fun _ _ => rfl)

theorem State.rx_popLane_ne (s : State) (t b k : Nat) {d d' : Nat} (h : d' ≠ d) :
    ((s.popLane t b d).xbar k).rx.get [] d' = (s.xbar k).rx.get [] d' :=
  s.popLane_congr (fun x => x.rx.get [] d') t b d k (fun _ _ => AMap.get_set_ne _ _ _ _ _ h) (fun _ _ => rfl)

theorem State.portIn_popPort_ne (s : State) {p q : Nat} (hp : 27 ≤ p) (hq : 27 ≤ q) (h : p ≠ q) : (s.popPort q).portIn p = s.portIn p := by
  rw [State.portIn, State.portIn, State.popPort_cur, State.popPort]
  by_cases hq31 : q = 31
  · subst hq31
    rw [if_pos rfl, if_neg h, if_neg h, State.xbar_setXbar]
    split
    · next hk => rw [hk]
    · rfl
  · rw [if_neg hq31]
    split
    · rw [State.toCore_popLane]
    · exact s.rx_popLane_ne _ _ _ (by omega)

theorem epPort_le {c : BitVec 4} {p : Nat} (h : epPort c = some p) : 27 ≤ p := by
  unfold epPort at h
  split at h
  · cases h; omega
  · cases h

theorem epPort_inj {a b : BitVec 4} {p : Nat} (ha : epPort a = some p) (hb : epPort b = some p) : a = b := by
  unfold epPort at ha hb
  split at ha
  · split at hb
    · cases ha
      injection hb with hb
      exact BitVec.eq_of_toNat_eq (by omega)
    · cases hb
  · cases ha

theorem State.epPop_port {c : BitVec 4} {p : Nat} (s : State) (h : epPort c = some p) : s.epPop c = s.popPort p := by
  rw [State.epPop, h]

theorem State.epPop_queue {c : BitVec 4} (s : State) (h : epPort c = none) : s.epPop c =
    s.setBank s.cur.t c.toNat { s.bank s.cur.t c.toNat with queue := (s.bank s.cur.t c.toNat).queue.drop 1 } := by
  rw [State.epPop, h]

theorem State.epWords_port {c : BitVec 4} {p : Nat} (s : State) (h : epPort c = some p) : s.epWords c = s.portIn p := by
  rw [State.epWords, h]

/-- The words of a queue that is a FIFO and is not changing. -/
def Bank.words (b : Bank) : List NetWord := if b.mode = .fifo ∧ b.pending = [] then b.queue else []

theorem State.epWords_queue {c : BitVec 4} (s : State) (h : epPort c = none) : s.epWords c = (s.bank s.cur.t c.toNat).words := by
  rw [State.epWords, h]
  rfl

theorem State.epWords_epPop_self (s : State) (c : BitVec 4) : (s.epPop c).epWords c = (s.epWords c).drop 1 := by
  cases h : epPort c with
  | some p => rw [s.epPop_port h, State.epWords_port _ h, State.epWords_port _ h, s.portIn_popPort]
  | none =>
    rw [s.epPop_queue h, State.epWords_queue _ h, State.epWords_queue _ h]
    change ((State.setBank ..).bank s.cur.t c.toNat).words = _
    rw [State.bank_setBank_self]
    unfold Bank.words
    split <;> rfl

theorem State.epWords_epPop_ne (s : State) {a c : BitVec 4} (h : a ≠ c) : (s.epPop c).epWords a = s.epWords a := by
  cases hc : epPort c with
  | some p =>
    rw [s.epPop_port hc]
    cases ha : epPort a with
    | some q =>
      rw [State.epWords_port _ ha, State.epWords_port _ ha]
      exact s.portIn_popPort_ne (epPort_le ha) (epPort_le hc) fun hqp => h (epPort_inj ha (hqp ▸ hc))
    | none =>
      rw [State.epWords_queue _ ha, State.epWords_queue _ ha, State.popPort_cur, State.popPort]
      split
      · rfl
      · obtain ⟨x, hx⟩ := s.popLane_xbars s.cur.t s.cur.b (p - 27)
        rw [hx]
        rfl
  | none =>
    rw [s.epPop_queue hc]
    cases ha : epPort a with
    | some q =>
      rw [State.epWords_port _ ha, State.epWords_port _ ha]
      rfl
    | none =>
      rw [State.epWords_queue _ ha, State.epWords_queue _ ha]
      change ((State.setBank ..).bank s.cur.t a.toNat).words = _
      rw [State.bank_setBank, if_neg fun hk => h (BitVec.eq_of_toNat_eq hk.2)]

/-! ### A step of a running instruction (R169, R171) -/

theorem State.head_epPop_ne (s : State) {a c : BitVec 4} {w : NetWord} (h : a ≠ c) (hw : Claims.headIs s a w) :
    Claims.headIs (s.epPop c) a w := by
  rw [Claims.headIs, s.epWords_epPop_ne h]
  exact hw

theorem StreamRun.consumed_plain {r : StreamRun} {l i : Nat} {w : NetWord} (h : levelOf w.tag = none) : r.consumed l i (some w) = r := by
  simp [StreamRun.consumed, h]

theorem StreamRun.consumed_below {r : StreamRun} {l i k : Nat} {w : NetWord} (h : levelOf w.tag = some k) (hk : k < l) :
    r.consumed l i (some w) = { r with top := max r.top k } := by
  simp [StreamRun.consumed, h, Nat.not_le.2 hk]

/-- Consuming a word changes nothing that an instruction ends with. -/
theorem StreamRun.consumed_ends (r : StreamRun) (l i : Nat) (w : Option NetWord) :
    (r.consumed l i w).flags = r.flags ∧ (r.consumed l i w).len = r.len := by
  unfold StreamRun.consumed
  split <;> exact ⟨rfl, rfl⟩

theorem State.popInputs_cons {s : State} {h : Shape} {r : StreamRun} {i : Nat} {is : List Nat} {c : BitVec 4} {w : NetWord}
    (hc : h.ins[i]? = some c) (hw : Claims.headIs s c w) :
    s.popInputs h r (i :: is) = (s.epPop c).popInputs h (r.consumed h.level i (some w)) is := by
  rw [State.popInputs, hc]
  dsimp only
  rw [hw]

/-- A popped input whose head is no stop leaves the run as it is. -/
theorem State.popInputs_plain {s : State} {h : Shape} {r : StreamRun} {i : Nat} {is : List Nat} {c : BitVec 4} {w : NetWord}
    (hc : h.ins[i]? = some c) (hw : Claims.headIs s c w) (htag : levelOf w.tag = none) :
    s.popInputs h r (i :: is) = (s.epPop c).popInputs h r is := by
  rw [State.popInputs_cons hc hw, StreamRun.consumed_plain htag]

theorem State.pushesOk_one {s : State} {h : Shape} {i : Nat} {w : NetWord} {c : BitVec 4} (hc : h.outs[i]? = some c) :
    s.pushesOk h [(i, w)] = s.epRoom c := by
  simp [State.pushesOk, hc]

section
variable {s : State} {r : StreamRun} {i : Instr} (hruns : Claims.runs s i r)
include hruns

theorem execStreamStep_waits (hstep : s.streamStep r = .wait) : exec .streamStep s = .next s := by
  obtain ⟨hr, -, hd⟩ := hruns
  simp only [exec_streamStep, execStreamStep, hr, hd, Bool.false_eq_true, if_false, hstep]

/-- A step that moves words where its outputs have room. -/
theorem execStreamStep_act {pops : List Nat} {push : List (Nat × NetWord)} {r' r'' : StreamRun} {pops' : List (BitVec 4)}
    {push' : List (BitVec 4 × NetWord)} (hstep : s.streamStep r = .act pops push r' false)
    (hroom : s.pushesOk (shapeOf i) push = true) (hpops : s.popInputs (shapeOf i) r' pops = (pops'.foldl State.epPop s, r''))
    (hpush : ∀ u : State, u.pushes (shapeOf i) push = push'.foldl (fun u x => u.epPush x.1 x.2) u) :
    exec .streamStep s = .next (Claims.goesOn s pops' push' r'') := by
  obtain ⟨hr, rfl, hd⟩ := hruns
  simp only [exec_streamStep, execStreamStep, hr, hd, Bool.false_eq_true, if_false, hstep, State.streamAct, hroom, if_true, hpops, hpush]
  rfl

/-- A step that moves words and completes its instruction. -/
theorem execStreamStep_ends {pops : List Nat} {push : List (Nat × NetWord)} {r'' : StreamRun} {pops' : List (BitVec 4)}
    {push' : List (BitVec 4 × NetWord)} (hstep : s.streamStep r = .act pops push r true)
    (hroom : s.pushesOk (shapeOf i) push = true) (hpops : s.popInputs (shapeOf i) r pops = (pops'.foldl State.epPop s, r''))
    (hends : r''.flags = r.flags ∧ r''.len = r.len)
    (hpush : ∀ u : State, u.pushes (shapeOf i) push = push'.foldl (fun u x => u.epPush x.1 x.2) u) :
    exec .streamStep s = .next (
      let m := (Claims.moved s pops' push').flags r.flags
      (m.setMe { m.me.retire r.len with stream := none }).used) := by
  obtain ⟨hr, rfl, hd⟩ := hruns
  simp only [exec_streamStep, execStreamStep, hr, hd, Bool.false_eq_true, if_false, hstep, State.streamAct, hroom, if_true, hpops, hpush,
    State.finishStream, hends, show r.flags ||| 0 = r.flags from BitVec.or_zero, Option.map_some, Option.getD_some]
  rfl

/-- A step whose words find no room waits. -/
theorem execStreamStep_full {pops : List Nat} {push : List (Nat × NetWord)} {r' : StreamRun} {fin : Bool}
    (hstep : s.streamStep r = .act pops push r' fin) (hroom : s.pushesOk (shapeOf i) push = false) : exec .streamStep s = .next s := by
  obtain ⟨hr, rfl, hd⟩ := hruns
  simp only [exec_streamStep, execStreamStep, hr, hd, Bool.false_eq_true, if_false, hstep, State.streamAct, hroom]
  rfl

theorem execStreamStep_err {cause detail : Nat} (hstep : s.streamStep r = .err cause detail)
    (hroom : s.pushesOk (shapeOf i) (pushAll (shapeOf i) (stopWord 0)) = true)
    {outs : List (BitVec 4)} (houts : ∀ (u : State) w, u.pushes (shapeOf i) (pushAll (shapeOf i) w) =
      (outs.map fun c => (c, w)).foldl (fun u x => u.epPush x.1 x.2) u) :
    exec .streamStep s = .next (Claims.raises s r outs cause detail) := by
  obtain ⟨hr, rfl, hd⟩ := hruns
  simp only [exec_streamStep, execStreamStep, hr, hd, Bool.false_eq_true, if_false, hstep, hroom, if_true, State.startDrain,
    State.popInputs, houts]
  rfl

/-- An ERR at an input goes to every output. -/
theorem execStreamStep_forward {j : Nat} {w : NetWord} {c : BitVec 4} (hstep : s.streamStep r = .forward j w)
    (hroom : s.pushesOk (shapeOf i) (pushAll (shapeOf i) (stopWord 0)) = true) (hc : (shapeOf i).ins[j]? = some c)
    (hw : Claims.headIs s c w) (htag : levelOf w.tag = none) {outs : List (BitVec 4)}
    (houts : ∀ u : State, u.pushes (shapeOf i) (pushAll (shapeOf i) w) = (outs.map fun c => (c, w)).foldl (fun u x => u.epPush x.1 x.2) u) :
    exec .streamStep s = .next (Claims.goesOn s [c] (outs.map fun c => (c, w)) { r with drain := true }) := by
  obtain ⟨hr, rfl, hd⟩ := hruns
  have hpop : s.popInputs (shapeOf r.instr) r [j] = (s.epPop c, r) := State.popInputs_plain hc hw htag
  simp only [exec_streamStep, execStreamStep, hr, hd, Bool.false_eq_true, if_false, hstep, hroom, if_true, State.startDrain, hpop, houts]
  rfl

theorem execStreamStep_forwardFull {j : Nat} {w : NetWord} (hstep : s.streamStep r = .forward j w)
    (hroom : s.pushesOk (shapeOf i) (pushAll (shapeOf i) (stopWord 0)) = false) : exec .streamStep s = .next s := by
  obtain ⟨hr, rfl, hd⟩ := hruns
  simp only [exec_streamStep, execStreamStep, hr, hd, Bool.false_eq_true, if_false, hstep, hroom]

theorem execStreamStep_errFull {cause detail : Nat} (hstep : s.streamStep r = .err cause detail)
    (hroom : s.pushesOk (shapeOf i) (pushAll (shapeOf i) (stopWord 0)) = false) : exec .streamStep s = .next s := by
  obtain ⟨hr, rfl, hd⟩ := hruns
  simp only [exec_streamStep, execStreamStep, hr, hd, Bool.false_eq_true, if_false, hstep, hroom]

end

/-! ### What the inputs of an instruction give its step -/

theorem withHead_data {hd : List (Option NetWord)} {r : StreamRun} {i : Nat} {k : Head → StepRes} {w : W256}
    (h : hd.getD i none = some ⟨w, 0⟩) : withHead hd r i k = k (.data w) := by
  rw [withHead, h]
  rfl

theorem levelOf_stop {k : Nat} (h : k < 5) : levelOf (BitVec.ofNat 4 (k + 1)) = some k := by
  interval_cases k <;> rfl

theorem withHead_stop {hd : List (Option NetWord)} {r : StreamRun} {i k : Nat} {f : Head → StepRes} {w : W256} (hk : k < 5)
    (h : hd.getD i none = some ⟨w, BitVec.ofNat 4 (k + 1)⟩) : withHead hd r i f = f (.stop k) := by
  rw [withHead, h]
  interval_cases k <;> rfl

section
variable {s : State} {r : StreamRun} {a b d e : BitVec 4} {l : BitVec 3}

theorem State.streamStep_steer (h : r.instr = .steer d a b e l) :
    s.streamStep r = stepSteer [(s.epWords a).head?, (s.epWords b).head?] r l.toNat := by
  simp [State.streamStep, streamStepOf, State.streamHeads, h, shapeOf]

theorem State.streamStep_merge (h : r.instr = .merge d a b e l) :
    s.streamStep r = stepMerge [(s.epWords a).head?, (s.epWords b).head?, (s.epWords e).head?] r l.toNat := by
  simp [State.streamStep, streamStepOf, State.streamHeads, h, shapeOf]

theorem State.streamStep_tee (h : r.instr = .tee d a e l) : s.streamStep r = stepTee [(s.epWords a).head?] r l.toNat := by
  simp [State.streamStep, streamStepOf, State.streamHeads, h, shapeOf]

end

/-! ### `steer`, `merge` and `tee` (R173 to R175) -/

section
variable {s : State} {r : StreamRun} {a b d e : BitVec 4} {l : BitVec 3} {u v : W256}

theorem steer_moves (hruns : Claims.runs s (.steer d a b e l) r) (hab : a ≠ b) (ha : Claims.headIs s a ⟨u, 0⟩)
    (hb : Claims.headIs s b ⟨v, 0⟩) (hroom : s.epRoom (if v.getLsbD 0 then e else d) = true) :
    exec .streamStep s = .next (Claims.goesOn s [a, b] [(if v.getLsbD 0 then e else d, ⟨u, 0⟩)] r) := by
  have hstep : s.streamStep r = .act [0, 1] [(if v.getLsbD 0 then 1 else 0, ⟨u, 0⟩)] r false := by
    rw [State.streamStep_steer hruns.2.1, ha, hb]
    rfl
  refine execStreamStep_act hruns hstep ?_ ?_ fun w => ?_
  · rw [State.pushesOk_one (c := if v.getLsbD 0 then e else d) (by cases v.getLsbD 0 <;> rfl)]
    exact hroom
  · rw [State.popInputs_plain (c := a) rfl ha rfl, State.popInputs_plain (c := b) rfl (s.head_epPop_ne hab.symm hb) rfl]
    rfl
  · cases v.getLsbD 0 <;> rfl

theorem merge_moves (hruns : Claims.runs s (.merge d a b e l) r) (hab : a ≠ if v.getLsbD 0 then e else b)
    (ha : Claims.headIs s a ⟨v, 0⟩) (hb : Claims.headIs s (if v.getLsbD 0 then e else b) ⟨u, 0⟩) (hroom : s.epRoom d = true) :
    exec .streamStep s = .next (Claims.goesOn s [a, if v.getLsbD 0 then e else b] [(d, ⟨u, 0⟩)] r) := by
  have harm : (shapeOf (.merge d a b e l)).ins[if v.getLsbD 0 then 2 else 1]? = some (if v.getLsbD 0 then e else b) := by
    cases v.getLsbD 0 <;> rfl
  have hhead : [(s.epWords a).head?, (s.epWords b).head?, (s.epWords e).head?].getD (if v.getLsbD 0 then 2 else 1) none = some ⟨u, 0⟩ := by
    revert hb
    cases v.getLsbD 0 <;> exact id
  have hstep : s.streamStep r = .act [0, if v.getLsbD 0 then 2 else 1] [(0, ⟨u, 0⟩)] r false := by
    rw [State.streamStep_merge hruns.2.1]
    rw [ha] at hhead ⊢
    exact withHead_data (k := fun h => match h with
      | .data w => .act [0, if v.getLsbD 0 then 2 else 1] [(0, ⟨w, 0⟩)] r false
      | .stop _ => .err 0x26 (headTag (.data v) + 16 * headTag h)) hhead
  refine execStreamStep_act hruns hstep ?_ ?_ fun w => rfl
  · rw [State.pushesOk_one (c := d) rfl]
    exact hroom
  · rw [State.popInputs_plain (c := a) rfl ha rfl, State.popInputs_plain harm (s.head_epPop_ne hab.symm hb) rfl]
    rfl

theorem State.pushesOk_two (w w' : NetWord) (a d e : BitVec 4) (l : BitVec 3) :
    s.pushesOk (shapeOf (.tee d a e l)) [(0, w), (1, w')] = (s.epRoom d && s.epRoom e) := by
  simp [State.pushesOk, shapeOf]

theorem stepTee_err {w : NetWord} {n : Nat} (h : w.tag = 0xA) : stepTee [some w] r n = .forward 0 w := if_pos h

theorem stepTee_copies {w : NetWord} {n : Nat} (h : w.tag ≠ 0xA) (htag : w.tag.toNat < 7 ∨ w.tag = 0xA ∨ w.tag = 0xB) :
    ∃ fin, stepTee [some w] r n = .act [0] [(0, w), (1, w)] r fin := by
  by_cases hplain : w.tag = 0 ∨ w.tag = 0xB
  · exact ⟨false, (if_neg h).trans (if_pos hplain)⟩
  · have hne : w.tag.toNat ≠ 0 := fun h0 => hplain (.inl (BitVec.eq_of_toNat_eq h0))
    have hlow : w.tag.toNat < 7 := htag.resolve_right fun h' => h'.elim h (fun hb => hplain (.inr hb))
    obtain ⟨k, hk⟩ : ∃ k, levelOf w.tag = some k := by
      unfold levelOf
      split
      · exact ⟨_, rfl⟩
      · rw [if_pos (BitVec.eq_of_toNat_eq (show w.tag.toNat = 6 by omega))]
        exact ⟨_, rfl⟩
    exact ⟨decide (n ≤ k), (if_neg h).trans ((if_neg hplain).trans (by rw [hk]))⟩

section
variable (hruns : Claims.runs s (.tee d a e l) r) {w : NetWord} (hw : Claims.headIs s a w)
include hruns hw

theorem tee_step : s.streamStep r = stepTee [some w] r l.toNat := by rw [State.streamStep_tee hruns.2.1, hw]

theorem tee_full (hfull : s.epRoom d = false ∨ s.epRoom e = false) (htag : w.tag.toNat < 7 ∨ w.tag = 0xA ∨ w.tag = 0xB) :
    exec .streamStep s = .next s := by
  have hroom (x y : NetWord) : s.pushesOk (shapeOf (.tee d a e l)) [(0, x), (1, y)] = false := by
    rw [State.pushesOk_two, Bool.and_eq_false_iff]
    exact hfull
  have hstep := tee_step hruns hw
  by_cases herr : w.tag = 0xA
  · rw [stepTee_err herr] at hstep
    exact execStreamStep_forwardFull hruns hstep (hroom _ _)
  · obtain ⟨fin, hcopy⟩ := stepTee_copies (r := r) (n := l.toNat) herr htag
    exact execStreamStep_full hruns (hstep.trans hcopy) (hroom _ _)

section
variable (hd : s.epRoom d = true) (he : s.epRoom e = true)
include hd he

theorem tee_copies (hstep : s.streamStep r = .act [0] [(0, w), (1, w)] r false) (htag : levelOf w.tag = none) :
    exec .streamStep s = .next (Claims.goesOn s [a] [(d, w), (e, w)] r) := by
  refine execStreamStep_act hruns hstep ?_ ?_ fun _ => rfl
  · rw [State.pushesOk_two, hd, he]
    rfl
  · rw [State.popInputs_plain (c := a) rfl hw htag]
    rfl

theorem tee_ends (hstep : s.streamStep r = .act [0] [(0, w), (1, w)] r true) :
    exec .streamStep s = .next (
      let m := (Claims.moved s [a] [(d, w), (e, w)]).flags r.flags
      (m.setMe { m.me.retire r.len with stream := none }).used) := by
  refine execStreamStep_ends hruns hstep ?_ ?_ (r.consumed_ends l.toNat 0 (some w)) fun _ => rfl
  · rw [State.pushesOk_two, hd, he]
    rfl
  · rw [State.popInputs_cons (c := a) rfl hw]
    rfl

theorem tee_forwards (htag : w.tag = 0xA) :
    exec .streamStep s = .next (Claims.goesOn s [a] [(d, w), (e, w)] { r with drain := true }) := by
  refine execStreamStep_forward hruns ((tee_step hruns hw).trans (stepTee_err htag)) ?_ (c := a) rfl hw (by rw [htag]; rfl)
    (outs := [d, e]) fun _ => rfl
  change s.pushesOk (shapeOf (.tee d a e l)) [(0, stopWord 0), (1, stopWord 0)] = true
  rw [State.pushesOk_two, hd, he]
  rfl

end
end
end

theorem stepTee_end {r : StreamRun} {w : NetWord} {n k : Nat} (h : levelOf w.tag = some k) (hk : n ≤ k) :
    stepTee [some w] r n = .act [0] [(0, w), (1, w)] r true := by
  have herr : w.tag ≠ 0xA := fun h' => by rw [h'] at h; cases h
  have hplain : ¬(w.tag = 0 ∨ w.tag = 0xB) := by rintro (h' | h') <;> (rw [h'] at h; cases h)
  refine (if_neg herr).trans ((if_neg hplain).trans ?_)
  rw [h]
  exact congrArg (StepRes.act [0] [(0, w), (1, w)] r) (decide_eq_true hk)

theorem steeringSteps : Parts.SteeringSteps := by
  intro s r a b d e l u v
  refine ⟨fun hruns hab ha hb => steer_moves hruns hab ha hb, fun hruns hai ha hi hroom => merge_moves hruns hai ha hi hroom,
    fun hruns hd he => ⟨fun ha => ?_, fun ha => ?_, fun k w hk hlk hw ha => ?_, fun ha => tee_forwards hruns ha hd he rfl⟩,
    fun hruns hfull w htag ha => tee_full hruns ha hfull htag⟩
  · exact tee_copies hruns ha hd he (tee_step hruns ha) rfl
  · exact tee_copies hruns ha hd he (tee_step hruns ha) rfl
  · have hlevel : levelOf w.tag = some k := by
      obtain rfl | ⟨rfl, rfl⟩ := hw
      · exact levelOf_stop hk
      · rfl
    exact tee_ends hruns ha hd he ((tee_step hruns ha).trans (stepTee_end hlevel hlk))

/-- Settles O32: a ready start issues at once, and a step goes by the heads it finds. -/
theorem steering : Obligations.Steering := ⟨streamStart, steeringSteps⟩

end Sys2Proof.Machine

namespace Sys2Proof.Machine

/-! ## O33. Joins and fibre instructions -/

/-! ### Two inputs and an output (R271 to R273) -/

section
variable {s : State} {r : StreamRun} {a b d : BitVec 4} {l : BitVec 3}

theorem State.streamStep_fisect (h : r.instr = .fisect l a b d) :
    s.streamStep r = stepIsect false [(s.epWords a).head?, (s.epWords b).head?] r l.toNat := by
  simp [State.streamStep, streamStepOf, State.streamHeads, h, shapeOf]

theorem State.streamStep_funion (h : r.instr = .funion l a b d) :
    s.streamStep r = stepIsect true [(s.epWords a).head?, (s.epWords b).head?] r l.toNat := by
  simp [State.streamStep, streamStepOf, State.streamHeads, h, shapeOf]

theorem State.streamStep_frep (h : r.instr = .frep l a b d) :
    ∃ dl, s.streamStep r = stepRep dl [(s.epWords a).head?, (s.epWords b).head?, (s.epWords b)[1]?] r l.toNat :=
  ⟨_, by simp [State.streamStep, streamStepOf, State.streamHeads, h, shapeOf]; rfl⟩

theorem State.streamStep_fzip {t p : BitVec 2} (h : r.instr = .fzip l a b d t p) :
    s.streamStep r = stepZip p t [(s.epWords a).head?, (s.epWords b).head?] r l.toNat := by
  simp [State.streamStep, streamStepOf, State.streamHeads, h, shapeOf]

theorem State.streamStep_fscan {x y z : BitVec 5} (h : r.instr = .fscan l a d x y z) :
    s.streamStep r = stepScan [(s.epWords a).head?] r l.toNat := by
  simp [State.streamStep, streamStepOf, State.streamHeads, h, shapeOf]

theorem State.streamStep_fload {f : BitVec 1} {x z : BitVec 5} (h : r.instr = .fload l a d f x z) :
    s.streamStep r = stepAccess true f [(s.epWords a).head?] r l.toNat := by
  simp [State.streamStep, streamStepOf, State.streamHeads, h, shapeOf]

theorem State.streamStep_fwrite {f : BitVec 1} {x z : BitVec 5} (h : r.instr = .fwrite l a d f x z) :
    s.streamStep r = stepAccess false f [(s.epWords a).head?] r l.toNat := by
  simp [State.streamStep, streamStepOf, State.streamHeads, h, shapeOf]

theorem State.streamStep_fred {t p : BitVec 2} (h : r.instr = .fred l a d t p) :
    s.streamStep r = stepRed p t [(s.epWords a).head?] r l.toNat := by
  simp [State.streamStep, streamStepOf, State.streamHeads, h, shapeOf]

end

/-- An instruction of one output `d`. -/
def OneOut (i : Instr) (d : BitVec 4) : Prop := (shapeOf i).outs = [d]

section
variable {s : State} {r r' : StreamRun} {i : Instr} {a b d : BitVec 4} {w w' : NetWord}
  (hruns : Claims.runs s i r) (hout : OneOut i d)
include hout

theorem OneOut.pushesOk (n : NetWord) : s.pushesOk (shapeOf i) [(0, n)] = s.epRoom d :=
  State.pushesOk_one (by rw [hout]; rfl)

theorem OneOut.pushes (n : NetWord) (u : State) : u.pushes (shapeOf i) [(0, n)] = u.epPush d n := by
  simp [State.pushes, show (shapeOf i).outs = [d] from hout]

theorem OneOut.pushAll (n : NetWord) : pushAll (shapeOf i) n = [(0, n)] := by
  simp [Machine.pushAll, show (shapeOf i).outs = [d] from hout]

include hruns

/-- A reason for an ERR goes to the one output. -/
theorem OneOut.raises {cause detail : Nat} (hstep : s.streamStep r = .err cause detail) (hroom : s.epRoom d = true) :
    exec .streamStep s = .next (Claims.raises s r [d] cause detail) := by
  refine execStreamStep_err hruns hstep ?_ fun u n => ?_
  · rw [OneOut.pushAll hout, OneOut.pushesOk hout, hroom]
  · rw [OneOut.pushAll hout, OneOut.pushes hout]
    rfl

theorem OneOut.errFull {cause detail : Nat} (hstep : s.streamStep r = .err cause detail) (hroom : s.epRoom d = false) :
    exec .streamStep s = .next s :=
  execStreamStep_errFull hruns hstep (by rw [OneOut.pushAll hout, OneOut.pushesOk hout, hroom])

theorem OneOut.gives {pops : List Nat} {pops' : List (BitVec 4)} {r'' : StreamRun} (hstep : s.streamStep r = .act pops [(0, w)] r' false)
    (hroom : s.epRoom d = true) (hpops : s.popInputs (shapeOf i) r' pops = (pops'.foldl State.epPop s, r'')) :
    exec .streamStep s = .next (Claims.goesOn s pops' [(d, w)] r'') :=
  execStreamStep_act hruns hstep ((OneOut.pushesOk hout w).trans hroom) hpops (OneOut.pushes hout w)

end

theorem execStreamStep_takes {s : State} {r r' r'' : StreamRun} {i : Instr} {pops : List Nat} {pops' : List (BitVec 4)}
    (hruns : Claims.runs s i r) (hstep : s.streamStep r = .act pops [] r' false)
    (hpops : s.popInputs (shapeOf i) r' pops = (pops'.foldl State.epPop s, r'')) :
    exec .streamStep s = .next (Claims.goesOn s pops' [] r'') :=
  execStreamStep_act hruns hstep rfl hpops fun _ => rfl

/-- The first inputs of an instruction. -/
theorem State.popInputs_first {s : State} {i : Instr} {r : StreamRun} {c : BitVec 4} {w : W256} {t : BitVec 4}
    (hc : (shapeOf i).ins[0]? = some c) (hw : Claims.headIs s c ⟨w, t⟩) (ht : levelOf t = none) :
    s.popInputs (shapeOf i) r [0] = ([c].foldl State.epPop s, r) := by
  rw [State.popInputs_plain hc hw ht]
  rfl

/-! ### Joins (R271 to R273) -/

theorem descends_of_above {p : Option Nat} {c : Nat} (h : Claims.above p c) : descends p c = false := by
  cases p with
  | none => rfl
  | some q => exact decide_eq_false (Nat.not_le.2 (h q rfl))

theorem stepIsect_data (un : Bool) (r : StreamRun) (n : Nat) (u v : W256) :
    stepIsect un [some ⟨u, 0⟩, some ⟨v, 0⟩] r n =
      if crd u = crd v then
        if descends r.prevA (crd u) ∨ descends r.prevB (crd v) then .err 0x22 (crd u)
        else .act [0, 1] [(0, element (crd u) (ref0 u) (ref0 v) (val u))] { r with prevA := some (crd u), prevB := some (crd v) } false
      else if crd u < crd v then
        if descends r.prevA (crd u) then .err 0x22 (crd u)
        else .act [0] (if un then [(0, element (crd u) (ref0 u) 0xFFFFFFFF (val u))] else []) { r with prevA := some (crd u) } false
      else
        if descends r.prevB (crd v) then .err 0x22 (crd v)
        else .act [1] (if un then [(0, element (crd v) 0xFFFFFFFF (ref0 v) (val v))] else []) { r with prevB := some (crd v) } false := rfl

section
variable {s : State} {r r' : StreamRun} {i : Instr} {a b d : BitVec 4} {l : BitVec 3} {u v : W256}

theorem State.popInputs_both (hi : (shapeOf i).ins = [a, b]) (hab : a ≠ b) (ha : Claims.headIs s a ⟨u, 0⟩) (hb : Claims.headIs s b ⟨v, 0⟩) :
    s.popInputs (shapeOf i) r [0, 1] = ([a, b].foldl State.epPop s, r) := by
  rw [State.popInputs_plain (c := a) (by rw [hi]; rfl) ha rfl,
    State.popInputs_plain (c := b) (by rw [hi]; rfl) (s.head_epPop_ne hab.symm hb) rfl]
  rfl

theorem State.popInputs_second (hi : (shapeOf i).ins = [a, b]) (hb : Claims.headIs s b ⟨v, 0⟩) :
    s.popInputs (shapeOf i) r [1] = ([b].foldl State.epPop s, r) := by
  rw [State.popInputs_plain (c := b) (by rw [hi]; rfl) hb rfl]
  rfl

/-- R271: a join of one coordinate. -/
theorem join_pairs {un : Bool} (hruns : Claims.runs s i r) (hi : shapeOf i = ⟨[a, b], [d], l.toNat⟩)
    (hstep : s.streamStep r = stepIsect un [some ⟨u, 0⟩, some ⟨v, 0⟩] r l.toNat) (hab : a ≠ b) (ha : Claims.headIs s a ⟨u, 0⟩)
    (hb : Claims.headIs s b ⟨v, 0⟩) (hroom : s.epRoom d = true) (heq : crd u = crd v) (hA : Claims.above r.prevA (crd u))
    (hB : Claims.above r.prevB (crd v)) :
    exec .streamStep s = .next (Claims.goesOn s [a, b] [(d, element (crd u) (ref0 u) (ref0 v) (val u))]
      { r with prevA := some (crd u), prevB := some (crd v) }) := by
  rw [stepIsect_data, if_pos heq, if_neg (by rw [descends_of_above hA, descends_of_above hB]; decide)] at hstep
  exact OneOut.gives hruns (by rw [OneOut, hi]) hstep hroom (State.popInputs_both (by rw [hi]) hab ha hb)

section
variable (ha : Claims.headIs s a ⟨u, 0⟩) (hb : Claims.headIs s b ⟨v, 0⟩)
include ha hb

theorem fisect_step (hruns : Claims.runs s (.fisect l a b d) r) :
    s.streamStep r = stepIsect false [some ⟨u, 0⟩, some ⟨v, 0⟩] r l.toNat := by
  rw [State.streamStep_fisect hruns.2.1, ha, hb]

theorem funion_step (hruns : Claims.runs s (.funion l a b d) r) :
    s.streamStep r = stepIsect true [some ⟨u, 0⟩, some ⟨v, 0⟩] r l.toNat := by
  rw [State.streamStep_funion hruns.2.1, ha, hb]

theorem frep_step (hruns : Claims.runs s (.frep l a b d) r) :
    s.streamStep r = .act [0] [(0, element (crd u) (ref0 u) (ref0 v) (val v))] { r with isOpen := true } false := by
  obtain ⟨dl, hstep⟩ := State.streamStep_frep (s := s) hruns.2.1
  rw [hstep, ha, hb]
  rfl

theorem fzip_step {t p : BitVec 2} (hruns : Claims.runs s (.fzip l a b d t p) r) :
    s.streamStep r = .act [0, 1] [(0, element (crd u) (ref0 u) (ref0 v) (zipValue p t (val u) (val v)).1)]
      { r with flags := r.flags ||| (zipValue p t (val u) (val v)).2 } false := by
  rw [State.streamStep_fzip hruns.2.1, ha, hb]
  rfl

end
end

/-- A value of an element counts by its low 32 bits. -/
theorem element_mod (c r0 r1 v : Nat) : element c r0 r1 (v % 2 ^ 32) = element c r0 r1 v := by
  simp only [element, Nat.mod_mod]

/-- R273: what `fzip` makes of two values, before it is cut to 32 bits. -/
def zipped (p t : BitVec 2) (a b : Nat) : FRes :=
  if p = 0#2 then (a, 0) else if p = 1#2 then (b, 0)
  else if t = 2#2 then (if p = 2#2 then fAdd fmtF32 (fmtF32.read a) (fmtF32.read b) else fMul fmtF32 (fmtF32.read a) (fmtF32.read b))
  else (if p = 2#2 then a + b else a * b, 0)

theorem zipValue_zipped (p t : BitVec 2) (a b : Nat) :
    (zipValue p t a b).2 = (zipped p t a b).2 ∧ ∀ c r0 r1, element c r0 r1 (zipValue p t a b).1 = element c r0 r1 (zipped p t a b).1 := by
  unfold zipValue zipped
  by_cases h0 : p = 0#2
  · simp only [if_pos h0, implies_true, and_self]
  · by_cases h1 : p = 1#2
    · simp only [if_neg h0, if_pos h1, implies_true, and_self]
    · by_cases ht : t = 2#2
      · simp only [if_neg h0, if_neg h1, if_pos ht, implies_true, and_self]
      · simp only [if_neg h0, if_neg h1, if_neg ht, true_and]
        intro c r0 r1
        split <;> exact element_mod ..

/-! ### `frep` at a stop (R272) -/

theorem stepRep_stop (dl : Nat) {r : StreamRun} {n k : Nat} {u v : W256} {w : Option NetWord} (hk : 0 < k) (hk4 : k < 4) (hp : r.phase = 0) :
    stepRep dl [some ⟨u, BitVec.ofNat 4 (k + 1)⟩, some ⟨v, 0⟩, w] r n =
      match w with
      | none => .wait
      | some w =>
        if w.tag = 0#4 then .err 0x20 (k + 16 * dl)
        else match levelOf w.tag with
          | some j =>
            if Head.stop j = .stop (k - 1) then
              .act [1, 1, 0] [(0, stopWord k)] { r with phase := 0, isOpen := false } (decide (n ≤ k))
            else if Head.stop j = .stop 0 ∧ k < 4 then .err 0x27 1
            else .err 0x20 (k + 16 * j)
          | none => .act [1] [] { r with phase := 1 } false := by
  interval_cases k <;> (simp only [stepRep, withHead]; simp [hp, headLevel, levelOf] <;> rfl)

section
variable {s : State} {r : StreamRun} {a b d : BitVec 4} {l : BitVec 3} {u v : W256} {k : Nat}
  (hruns : Claims.runs s (.frep l a b d) r) (hk : 0 < k) (hk4 : k < 4) (hp : r.phase = 0)
  (ha : Claims.headIs s a ⟨u, BitVec.ofNat 4 (k + 1)⟩) (hb : Claims.headIs s b ⟨v, 0⟩)
include hruns hk hk4 hp ha hb

theorem frep_waits (hlen : (s.epWords b).length = 1) : exec .streamStep s = .next s := by
  obtain ⟨dl, hstep⟩ := State.streamStep_frep (s := s) hruns.2.1
  have hnext : (s.epWords b)[1]? = none := List.getElem?_eq_none hlen.le
  rw [ha, hb, hnext, stepRep_stop dl hk hk4 hp] at hstep
  exact execStreamStep_waits hruns hstep

theorem frep_closes (hab : a ≠ b) (hl : k < l.toNat) (hroom : s.epRoom d = true)
    (hnext : (s.epWords b)[1]? = some ⟨u, BitVec.ofNat 4 k⟩) :
    exec .streamStep s = .next (Claims.goesOn s [b, b, a] [(d, ⟨0, BitVec.ofNat 4 (k + 1)⟩)]
      { r with isOpen := false, top := max (max r.top (k - 1)) k }) := by
  obtain ⟨dl, hstep⟩ := State.streamStep_frep (s := s) hruns.2.1
  obtain ⟨j, rfl⟩ := Nat.exists_eq_add_one.mpr hk
  have hlevel : levelOf (BitVec.ofNat 4 (j + 1)) = some j := levelOf_stop (by omega)
  have htag : BitVec.ofNat 4 (j + 1) ≠ 0#4 := fun h => by rw [h] at hlevel; cases hlevel
  rw [ha, hb, hnext, stepRep_stop dl hk hk4 hp] at hstep
  simp only [htag, if_false, hlevel, Nat.add_sub_cancel, if_true, decide_eq_false (Nat.not_le.2 hl)] at hstep
  have hsecond : Claims.headIs (s.epPop b) b ⟨u, BitVec.ofNat 4 (j + 1)⟩ := by
    rw [Claims.headIs, s.epWords_epPop_self, List.head?_drop]
    exact hnext
  have hfirst := State.head_epPop_ne _ hab (s.head_epPop_ne hab ha)
  refine OneOut.gives hruns (d := d) rfl hstep hroom ?_
  rw [State.popInputs_plain (c := b) rfl hb rfl, State.popInputs_cons (c := b) rfl hsecond, State.popInputs_cons (c := a) rfl hfirst,
    show (shapeOf (.frep l a b d)).level = l.toNat from rfl, StreamRun.consumed_below (levelOf_stop (by omega)) hl,
    StreamRun.consumed_below hlevel (show j < l.toNat by omega)]
  simp [State.popInputs, ← hp]

end

theorem joinSteps : Parts.JoinSteps := by
  intro s r a b d l t p u v hab
  refine ⟨fun ha hb hroom => ⟨?_, ?_, ?_, ?_, ?_, ?_, ?_, ?_⟩, fun k hk hk4 hl hruns hp hroom ha hb =>
    ⟨frep_waits hruns hk hk4 hp ha hb, frep_closes hruns hk hk4 hp ha hb hab hl hroom⟩, ?_⟩
  · rintro (hruns | hruns) heq hA hB
    · exact join_pairs hruns rfl (fisect_step ha hb hruns) hab ha hb hroom heq hA hB
    · exact join_pairs hruns rfl (funion_step ha hb hruns) hab ha hb hroom heq hA hB
  · intro hruns hlt hA
    have hstep := fisect_step ha hb hruns
    rw [stepIsect_data, if_neg hlt.ne, if_pos hlt, if_neg (ne_true_of_eq_false (descends_of_above hA))] at hstep
    exact execStreamStep_takes hruns hstep (State.popInputs_first rfl ha rfl)
  · intro hruns hlt hB
    have hstep := fisect_step ha hb hruns
    rw [stepIsect_data, if_neg hlt.ne', if_neg hlt.asymm, if_neg (ne_true_of_eq_false (descends_of_above hB))] at hstep
    exact execStreamStep_takes hruns hstep (State.popInputs_second rfl hb)
  · intro hruns hlt hA
    have hstep := funion_step ha hb hruns
    rw [stepIsect_data, if_neg hlt.ne, if_pos hlt, if_neg (ne_true_of_eq_false (descends_of_above hA))] at hstep
    exact OneOut.gives hruns (d := d) rfl hstep hroom (State.popInputs_first rfl ha rfl)
  · intro hruns hlt hB
    have hstep := funion_step ha hb hruns
    rw [stepIsect_data, if_neg hlt.ne', if_neg hlt.asymm, if_neg (ne_true_of_eq_false (descends_of_above hB))] at hstep
    exact OneOut.gives hruns (d := d) rfl hstep hroom (State.popInputs_second rfl hb)
  · rintro hruns hle ⟨c, hc, hdesc⟩
    have hdescends : descends r.prevA (crd u) = true := by rw [hc]; exact decide_eq_true hdesc
    refine OneOut.raises hruns (d := d) rfl ?_ hroom
    rw [fisect_step ha hb hruns, stepIsect_data]
    obtain heq | hlt := hle.eq_or_lt
    · rw [if_pos heq, if_pos (.inl hdescends)]
    · rw [if_neg hlt.ne, if_pos hlt, if_pos hdescends]
  · intro hruns
    exact OneOut.gives hruns (d := d) rfl (frep_step ha hb hruns) hroom (State.popInputs_first rfl ha rfl)
  · intro hruns
    obtain ⟨hflags, helement⟩ := zipValue_zipped p t (val u) (val v)
    have hstep := fzip_step ha hb hruns
    rw [hflags, helement] at hstep
    exact OneOut.gives hruns (d := d) rfl hstep hroom (State.popInputs_both rfl hab ha hb)
  · intro hruns j k hj hk hjk ha hb
    have hstep : s.streamStep r = .err 0x20 (j + 16 * k) := by
      rw [State.streamStep_fisect hruns.2.1, ha, hb, stepIsect, withHead_stop (i := 0) hj rfl, withHead_stop (i := 1) hk rfl]
      exact if_neg hjk
    split
    · next hroom => exact OneOut.raises hruns (d := d) rfl hstep hroom
    · next hroom => exact OneOut.errFull hruns (d := d) rfl hstep (Bool.not_eq_true _ ▸ hroom)

end Sys2Proof.Machine

namespace Sys2Proof.Machine

/-! ### A read that a step makes (R169) -/

theorem State.epPop_frame (s : State) (e : BitVec 4) : (s.epPop e).ctxs = s.ctxs ∧ (s.epPop e).cur = s.cur := by
  cases he : epPort e with
  | none => rw [s.epPop_queue he]; exact ⟨rfl, rfl⟩
  | some p => rw [s.epPop_port he]; exact ⟨s.popPort_ctxs p, s.popPort_cur p⟩

theorem State.epPush_frame (s : State) (e : BitVec 4) (w : NetWord) : (s.epPush e w).ctxs = s.ctxs ∧ (s.epPush e w).cur = s.cur := by
  unfold State.epPush
  split
  · next p _ =>
    obtain ⟨x, hx⟩ := s.pushPort_xbars p w
    rw [hx]
    exact ⟨rfl, rfl⟩
  · exact ⟨rfl, rfl⟩

/-- Moving words changes no context. -/
theorem State.moved_frame (s : State) (pops : List (BitVec 4)) (push : List (BitVec 4 × NetWord)) :
    (Claims.moved s pops push).ctxs = s.ctxs ∧ (Claims.moved s pops push).cur = s.cur := by
  have hpops : (pops.foldl State.epPop s).ctxs = s.ctxs ∧ (pops.foldl State.epPop s).cur = s.cur := by
    induction pops generalizing s with
    | nil => exact ⟨rfl, rfl⟩
    | cons c pops ih => exact ⟨(ih _).1.trans (s.epPop_frame c).1, (ih _).2.trans (s.epPop_frame c).2⟩
  have hpush (u : State) : (push.foldl (fun u x => u.epPush x.1 x.2) u).ctxs = u.ctxs ∧
      (push.foldl (fun u x => u.epPush x.1 x.2) u).cur = u.cur := by
    induction push generalizing u with
    | nil => exact ⟨rfl, rfl⟩
    | cons x push ih => exact ⟨(ih _).1.trans (u.epPush_frame ..).1, (ih _).2.trans (u.epPush_frame ..).2⟩
  exact ⟨(hpush _).1.trans hpops.1, (hpush _).2.trans hpops.2⟩

/-- The state with other contexts. -/
def State.withCtxs (s : State) (l : AMap Ctx) : State := { s with ctxs := l }

/-- Contexts that stand where the state's own stand: the same residencies, folded alike. -/
def State.Alike (s : State) (l : AMap Ctx) : Prop := ∀ k, (l.get {} k).resid = (s.ctx k).resid ∧ (l.get {} k).fold = (s.ctx k).fold

section
variable {s : State} {l : AMap Ctx} (h : s.Alike l)
include h

theorem State.Alike.bankResid (t b : Nat) : (s.withCtxs l).bankResid t b = s.bankResid t b := (h _).1

theorem State.Alike.neighbour (t b d : Nat) : (s.withCtxs l).neighbour t b d = s.neighbour t b d := by
  have hfold (k : Nat) : ((s.withCtxs l).ctx k).fold = (s.ctx k).fold := (h k).2
  simp only [State.neighbour, hfold, h.bankResid]
  rfl

theorem State.Alike.popLane (t b d : Nat) : (s.withCtxs l).popLane t b d = (s.popLane t b d).withCtxs l := by
  have hn (x : Xbar) : ((s.withCtxs l).setXbar (t * 4 + b) x).neighbour t b d = (s.setXbar (t * 4 + b) x).neighbour t b d :=
    State.Alike.neighbour (s := s.setXbar (t * 4 + b) x) h t b d
  unfold State.popLane
  dsimp only
  rw [hn, show (s.withCtxs l).xbar = s.xbar from rfl]
  rcases State.neighbour _ t b d with _ | ⟨u, b', k⟩ <;> rfl

theorem State.Alike.pushLane (t b d : Nat) (w : NetWord) : (s.withCtxs l).pushLane t b d w = (s.pushLane t b d w).withCtxs l := by
  have hb (x : Xbar) : ((s.withCtxs l).setXbar (t * 4 + b) x).bankResid t b = (s.setXbar (t * 4 + b) x).bankResid t b :=
    State.Alike.bankResid (s := s.setXbar (t * 4 + b) x) h t b
  unfold State.pushLane
  rw [h.neighbour]
  rcases s.neighbour t b d with _ | ⟨u, b', k⟩
  · rfl
  · dsimp only
    rw [hb]
    rfl

theorem State.Alike.epPop (e : BitVec 4) : (s.withCtxs l).epPop e = (s.epPop e).withCtxs l := by
  cases he : epPort e with
  | none => rw [State.epPop_queue _ he, State.epPop_queue _ he]; rfl
  | some p =>
    rw [State.epPop_port _ he, State.epPop_port _ he, State.popPort, State.popPort]
    split
    · rfl
    · exact h.popLane ..

theorem State.Alike.epPush (e : BitVec 4) (w : NetWord) : (s.withCtxs l).epPush e w = (s.epPush e w).withCtxs l := by
  unfold State.epPush
  split
  · unfold State.pushPort State.pushPortOf
    dsimp only
    split
    · rfl
    · exact h.pushLane ..
  · rfl

theorem State.Alike.congr {u : State} (hctxs : u.ctxs = s.ctxs) : u.Alike l := by
  simpa only [State.Alike, State.ctx, hctxs] using h

theorem State.Alike.moved (pops : List (BitVec 4)) (push : List (BitVec 4 × NetWord)) :
    Claims.moved (s.withCtxs l) pops push = (Claims.moved s pops push).withCtxs l := by
  have hpops : pops.foldl State.epPop (s.withCtxs l) = (pops.foldl State.epPop s).withCtxs l := by
    induction pops generalizing s with
    | nil => rfl
    | cons c pops ih => exact (congrArg (pops.foldl State.epPop) (h.epPop c)).trans (ih (h.congr (s.epPop_frame c).1))
  have hpush {u : State} (hu : u.Alike l) : push.foldl (fun u x => u.epPush x.1 x.2) (u.withCtxs l) =
      (push.foldl (fun u x => u.epPush x.1 x.2) u).withCtxs l := by
    induction push generalizing u with
    | nil => rfl
    | cons x push ih => exact (congrArg (push.foldl fun u x => u.epPush x.1 x.2) (hu.epPush ..)).trans (ih (hu.congr (u.epPush_frame ..).1))
  rw [Claims.moved, hpops]
  exact hpush (h.congr (State.moved_frame s pops []).1)

end

theorem State.setStream_eq (s : State) (o : Option StreamRun) : s.setStream o = s.withCtxs (s.setStream o).ctxs := rfl

theorem State.me_setStream (s : State) (o : Option StreamRun) : (s.setStream o).me = { s.me with stream := o } := s.me_setMe _

theorem State.setStream_setStream (s : State) (o p : Option StreamRun) : (s.setStream o).setStream p = s.setStream p := by
  rw [State.setStream, State.me_setStream]
  exact s.setMe_setMe ..

theorem State.setStream_alike (s : State) (o : Option StreamRun) : s.Alike (s.setStream o).ctxs := by
  intro k
  change ((s.setMe _).ctx k).resid = _ ∧ ((s.setMe _).ctx k).fold = _
  rw [State.ctx_setMe]
  split
  · next hk => rw [hk]; exact ⟨rfl, rfl⟩
  · exact ⟨rfl, rfl⟩

/-- What moves the words does not see which stream runs. -/
theorem State.moved_setStream (s : State) (o p : Option StreamRun) (pops : List (BitVec 4)) (push : List (BitVec 4 × NetWord)) :
    (Claims.moved (s.setStream o) pops push).setStream p = (Claims.moved s pops push).setStream p := by
  have hmoved : Claims.moved (s.setStream o) pops push = (Claims.moved s pops push).setStream o := by
    rw [s.setStream_eq, (s.setStream_alike o).moved]
    obtain ⟨hctxs, hcur⟩ := s.moved_frame pops push
    simp only [State.setStream, State.setMe, State.setCtx, State.me_congr hctxs hcur, hctxs, hcur, State.withCtxs]
  rw [hmoved, State.setStream_setStream]

section
variable (s : State) (o : Option StreamRun)

theorem State.ownsBank_setStream (r t n : Nat) : (s.setStream o).ownsBank r t n = s.ownsBank r t n := by
  have hres (b : Nat) : (s.setStream o).bankResid t b = s.bankResid t b := (s.setStream_alike o).bankResid t b
  simp only [State.ownsBank, hres]
  rfl

theorem State.findHome_setStream (a : W64) (wr : Bool) : (s.setStream o).findHome a wr = s.findHome a wr := by
  simp only [State.findHome, State.me_setStream, State.cacheChanging, s.ownsBank_setStream]
  rfl

theorem State.changing_setStream (a : W64) (n : Nat) : (s.setStream o).changing a n = s.changing a n := by
  simp only [State.changing, State.me_setStream]
  rfl

theorem State.checkAccess_setStream (a : W64) (n al : Nat) :
    (s.setStream o).checkAccess (s.setStream o).me (s.setStream o).cur.t a n al = s.checkAccess s.me s.cur.t a n al := by
  simp only [State.checkAccess, State.checkBanks, s.ownsBank_setStream, State.me_setStream]
  rfl

theorem State.findHomes_setStream (chk : Part → Option Trap) (wr : Bool) (ps : List Part) :
    (s.setStream o).findHomes chk wr ps = s.findHomes chk wr ps := by
  induction ps with
  | nil => rfl
  | cons p ps ih => simp only [State.findHomes, s.changing_setStream, s.findHome_setStream, ih]

theorem State.local_setStream (chk : Part → Option Trap) (wr : Bool) (ps : List Part) :
    Claims.local_ (s.setStream o) chk wr ps = Claims.local_ s chk wr ps := by
  simp only [Claims.local_, s.findHomes_setStream, State.me_setStream]
  rfl

theorem State.bytes_setStream (a : W64) (n : Nat) : Claims.bytes (s.setStream o) a n = Claims.bytes s a n := by
  induction n with
  | zero => rfl
  | succ n ih =>
    have hkey (b : W64) : Claims.byteKey (s.setStream o) b = Claims.byteKey s b := by
      simp only [Claims.byteKey, State.me_setStream]
      rfl
    rw [Claims.bytes, Claims.bytes, ih, hkey]
    rfl

end

/-- A read of a step from SRAM has its word at once. -/
theorem State.streamLoad {s : State} {e : W64} (h : Claims.readsAt s e) (o : Option StreamRun) (fin : Fin) (done : State → Nat → Res) :
    (s.setStream o).load e 4 1 fin done = done (s.setStream o) (Claims.bytes s e 4) := by
  obtain ⟨hc, ha, hl⟩ := h
  have hparts := State.localParts_of_local ((s.local_setStream o _ _ _).trans hl)
  rw [State.load_passed ((s.changing_setStream o e 4).trans hc) ((s.checkAccess_setStream o e 4 1).trans ha),
    hparts.readAll_eq (fun p hp => partsFrom_sector hp), State.partsValue_parts, s.bytes_setStream]

/-- The run once its read is answered. -/
def StreamRun.answered (r : StreamRun) (v : Nat) : StreamRun := { r with mem := some (some v) }

theorem State.streamRead_setStream (s : State) (r : StreamRun) (v : Nat) :
    (s.setStream (some r)).streamRead v = (s.setStream (some (r.answered v))).streamOn := by
  have h : ((s.setStream (some r)).setStream (some (r.answered v))) = s.setStream (some (r.answered v)) := s.setStream_setStream _ _
  have hr : (s.setStream (some r)).me.stream = some r := by rw [State.me_setStream]
  rw [← h, State.streamRead, hr]
  rfl

section
variable {s : State} {r : StreamRun} {i : Instr}

/-- A step that reads goes on with what it read. -/
theorem execStreamStep_read {e : W64} {r' : StreamRun} (hruns : Claims.runs s i r) (hstep : s.streamStep r = .read e r')
    (hroom : s.pushesOk (shapeOf i) (pushAll (shapeOf i) (stopWord 0)) = true) (hreads : Claims.readsAt s e) :
    exec .streamStep s = .next ((s.setStream (some (r'.answered (Claims.bytes s e 4)))).streamOn).used := by
  obtain ⟨hr, rfl, hd⟩ := hruns
  simp only [exec_streamStep, execStreamStep, hr, hd, Bool.false_eq_true, if_false, hstep, hroom, if_true, State.streamLoad hreads,
    State.streamAccess, State.streamRead_setStream, id]

theorem execStreamStep_readFull {e : W64} {r' : StreamRun} (hruns : Claims.runs s i r) (hstep : s.streamStep r = .read e r')
    (hroom : s.pushesOk (shapeOf i) (pushAll (shapeOf i) (stopWord 0)) = false) : exec .streamStep s = .next s := by
  obtain ⟨hr, rfl, hd⟩ := hruns
  simp only [exec_streamStep, execStreamStep, hr, hd, Bool.false_eq_true, if_false, hstep, hroom]

end

section
variable {s : State} {r : StreamRun} (hd : r.drain = false)
include hd

theorem State.streamOn_eq : (s.setStream (some r)).streamOn =
    match s.streamStep r with
    | .act pops push r' fin => ((s.setStream (some r)).streamAct (shapeOf r.instr) pops push r' fin).getD (s.setStream (some r))
    | _ => s.setStream (some r) := by
  simp only [State.streamOn, State.me_setStream, hd, Bool.false_eq_true, if_false]
  rfl

/-- What is read is kept for the next step where no words move. -/
theorem State.streamOn_keeps (h : ∀ pops push r' fin, s.streamStep r = .act pops push r' fin → False) :
    (s.setStream (some r)).streamOn.used = Claims.goesOn s [] [] r := by
  rw [State.streamOn_eq hd]
  split
  · next hstep => exact (h _ _ _ _ hstep).elim
  · rfl

/-- What is read moves words at once. -/
theorem State.streamOn_moves {pops : List Nat} {push : List (Nat × NetWord)} {r' r'' : StreamRun} {pops' : List (BitVec 4)}
    {push' : List (BitVec 4 × NetWord)} (hstep : s.streamStep r = .act pops push r' false)
    (hroom : s.pushesOk (shapeOf r.instr) push = true)
    (hpops : (s.setStream (some r)).popInputs (shapeOf r.instr) r' pops = (pops'.foldl State.epPop (s.setStream (some r)), r''))
    (hpush : ∀ u : State, u.pushes (shapeOf r.instr) push = push'.foldl (fun u x => u.epPush x.1 x.2) u) :
    (s.setStream (some r)).streamOn.used = Claims.goesOn s pops' push' r'' := by
  rw [State.streamOn_eq hd, hstep]
  dsimp only
  rw [State.streamAct, if_pos (show (s.setStream (some r)).pushesOk (shapeOf r.instr) push = true from hroom), hpops]
  dsimp only
  rw [hpush]
  exact congrArg State.used (s.moved_setStream _ _ pops' push')

end

/-! ### `fscan` (R270) -/

theorem stepScan_data (r : StreamRun) (n : Nat) (u : W256) :
    stepScan [some ⟨u, 0⟩] r n =
      let addr (b : W64) (i : Nat) : W64 := b + BitVec.ofNat 64 (4 * i)
      if r.phase = 0 then
        (if r.z.toNat ≤ ref0 u then .err 0x23 (ref0 u) else .read (addr r.x (ref0 u)) { r with phase := 1 })
      else if r.phase = 4 then .act [] [(0, stopWord 0)] { r with phase := 0 } false
      else
        match r.mem with
        | some none => .err 0x25 ((addr (if r.phase = 3 then r.y else r.x)
            (if r.phase = 1 then ref0 u else if r.phase = 2 then ref0 u + 1 else r.lo)).toNat % 2 ^ 32)
        | none =>
          if r.phase = 3 then
            (if r.lo < r.hi then .read (addr r.y r.lo) r else .act [0] [] { r with phase := 4 } false)
          else .read (addr r.x (if r.phase = 1 then ref0 u else ref0 u + 1)) r
        | some (some v) =>
          if r.phase = 1 then .read (addr r.x (ref0 u + 1)) { r with lo := v, phase := 2, mem := none }
          else if r.phase = 2 then
            (if v < r.lo then .err 0x28 (ref0 u) else .act [] [] { r with hi := v, phase := 3, mem := none } false)
          else .act [] [(0, element v r.lo (ref0 u) (val u))] { r with lo := r.lo + 1, mem := none } false := rfl

section
variable {r : StreamRun} {n : Nat} {u : W256}

theorem stepScan_past (hp : r.phase = 0) (hz : r.z.toNat ≤ ref0 u) : stepScan [some ⟨u, 0⟩] r n = .err 0x23 (ref0 u) := by
  rw [stepScan_data, hp]
  exact if_pos hz

theorem stepScan_start (hp : r.phase = 0) (hz : ref0 u < r.z.toNat) :
    stepScan [some ⟨u, 0⟩] r n = .read (r.x + BitVec.ofNat 64 (4 * ref0 u)) { r with phase := 1 } := by
  rw [stepScan_data, hp]
  exact if_neg (Nat.not_le.2 hz)

theorem stepScan_segment {v : Nat} (hp : r.phase = 1) (hm : r.mem = some (some v)) :
    stepScan [some ⟨u, 0⟩] r n = .read (r.x + BitVec.ofNat 64 (4 * (ref0 u + 1))) { r with lo := v, phase := 2, mem := none } := by
  rw [stepScan_data, hp, hm]
  rfl

theorem stepScan_rises {v : Nat} (hp : r.phase = 2) (hm : r.mem = some (some v)) (h : r.lo ≤ v) :
    stepScan [some ⟨u, 0⟩] r n = .act [] [] { r with hi := v, phase := 3, mem := none } false := by
  rw [stepScan_data, hp, hm]
  exact if_neg (Nat.not_lt.2 h)

theorem stepScan_falls {v : Nat} (hp : r.phase = 2) (hm : r.mem = some (some v)) (h : v < r.lo) :
    stepScan [some ⟨u, 0⟩] r n = .err 0x28 (ref0 u) := by
  rw [stepScan_data, hp, hm]
  exact if_pos h

theorem stepScan_child (hp : r.phase = 3) (hm : r.mem = none) (h : r.lo < r.hi) :
    stepScan [some ⟨u, 0⟩] r n = .read (r.y + BitVec.ofNat 64 (4 * r.lo)) r := by
  rw [stepScan_data, hp, hm]
  exact if_pos h

theorem stepScan_gives {v : Nat} (hp : r.phase = 3) (hm : r.mem = some (some v)) :
    stepScan [some ⟨u, 0⟩] r n = .act [] [(0, element v r.lo (ref0 u) (val u))] { r with lo := r.lo + 1, mem := none } false := by
  rw [stepScan_data, hp, hm]
  rfl

theorem stepScan_done (hp : r.phase = 3) (hm : r.mem = none) (h : r.hi ≤ r.lo) :
    stepScan [some ⟨u, 0⟩] r n = .act [0] [] { r with phase := 4 } false := by
  rw [stepScan_data, hp, hm]
  exact if_neg (Nat.not_lt.2 h)

theorem stepScan_closes (hp : r.phase = 4) : stepScan [some ⟨u, 0⟩] r n = .act [] [(0, stopWord 0)] { r with phase := 0 } false := by
  rw [stepScan_data, hp]
  rfl

end

section
variable {s : State} {r : StreamRun} {a d : BitVec 4} {l : BitVec 3} {x y z : BitVec 5} {u : W256}
  (hruns : Claims.runs s (.fscan l a d x y z) r) (ha : Claims.headIs s a ⟨u, 0⟩)

theorem fscan_out : OneOut (.fscan l a d x y z) d := rfl

include ha

theorem fscan_step {r : StreamRun} (hr : r.instr = .fscan l a d x y z) : s.streamStep r = stepScan [some ⟨u, 0⟩] r l.toNat := by
  rw [State.streamStep_fscan hr, ha]

/-- A word that is read and moves nothing is kept. -/
theorem fscan_keeps {r : StreamRun} (hr : r.instr = .fscan l a d x y z) (hd : r.drain = false)
    (h : ∀ pops push r' fin, stepScan [some ⟨u, 0⟩] r l.toNat = .act pops push r' fin → False) :
    (s.setStream (some r)).streamOn.used = Claims.goesOn s [] [] r :=
  State.streamOn_keeps hd fun pops push r' fin hact => h pops push r' fin ((fscan_step ha hr).symm.trans hact)

theorem fscan_bounds {r r' : StreamRun} (hr : r.instr = .fscan l a d x y z) (hd : r.drain = false)
    (h : stepScan [some ⟨u, 0⟩] r l.toNat = .act [] [] r' false) : (s.setStream (some r)).streamOn.used = Claims.goesOn s [] [] r' :=
  State.streamOn_moves (pops' := []) (push' := []) hd ((fscan_step ha hr).trans h) rfl rfl fun _ => rfl

theorem fscan_gives {r r' : StreamRun} {w : NetWord} (hr : r.instr = .fscan l a d x y z) (hd : r.drain = false)
    (h : stepScan [some ⟨u, 0⟩] r l.toNat = .act [] [(0, w)] r' false) (hroom : s.epRoom d = true) :
    (s.setStream (some r)).streamOn.used = Claims.goesOn s [] [(d, w)] r' := by
  have hout : OneOut r.instr d := by rw [hr]; rfl
  exact State.streamOn_moves (pops' := []) (push' := [(d, w)]) hd ((fscan_step ha hr).trans h) ((OneOut.pushesOk hout _).trans hroom)
    rfl (OneOut.pushes hout _)

include hruns

theorem fscan_full (hp : r.phase = 0) (hroom : s.epRoom d = false) : exec .streamStep s = .next s := by
  obtain hz | hz := Nat.lt_or_ge (ref0 u) r.z.toNat
  · exact execStreamStep_readFull hruns ((fscan_step ha hruns.2.1).trans (stepScan_start hp hz)) ((fscan_out.pushesOk _).trans hroom)
  · exact OneOut.errFull hruns fscan_out ((fscan_step ha hruns.2.1).trans (stepScan_past hp hz)) hroom

variable (hroom : s.epRoom d = true)
include hroom

/-- A read of `fscan`, and the step that its word allows at once. -/
theorem fscan_read {e : W64} {r' : StreamRun} (hstep : stepScan [some ⟨u, 0⟩] r l.toNat = .read e r') (hreads : Claims.readsAt s e) :
    exec .streamStep s = .next ((s.setStream (some (r'.answered (Claims.bytes s e 4)))).streamOn).used :=
  execStreamStep_read hruns ((fscan_step ha hruns.2.1).trans hstep) ((fscan_out.pushesOk _).trans hroom) hreads

theorem fscan_starts {e : W64} (he : e = r.x + BitVec.ofNat 64 (4 * ref0 u)) (hp : r.phase = 0) (hz : ref0 u < r.z.toNat)
    (hreads : Claims.readsAt s e) :
    exec .streamStep s = .next (Claims.goesOn s [] [] { r with phase := 1, mem := some (some (Claims.bytes s e 4)) }) := by
  subst he
  refine (fscan_read hruns ha hroom (stepScan_start hp hz) hreads).trans (congrArg _ (fscan_keeps ha hruns.2.1 hruns.2.2 ?_))
  intro pops push r' fin h
  cases h.symm.trans (stepScan_segment rfl rfl)

theorem fscan_segment {e : W64} (he : e = r.x + BitVec.ofNat 64 (4 * (ref0 u + 1))) {v : Nat} (hp : r.phase = 1)
    (hm : r.mem = some (some v)) (hreads : Claims.readsAt s e) :
    exec .streamStep s = .next (Claims.goesOn s [] []
      (if v ≤ Claims.bytes s e 4 then { r with lo := v, hi := Claims.bytes s e 4, phase := 3, mem := none }
      else { r with lo := v, phase := 2, mem := some (some (Claims.bytes s e 4)) })) := by
  subst he
  rw [fscan_read hruns ha hroom (stepScan_segment hp hm) hreads]
  split
  · next hle => exact congrArg _ (fscan_bounds ha hruns.2.1 hruns.2.2 (stepScan_rises rfl rfl hle))
  · next hgt =>
    refine congrArg _ (fscan_keeps ha hruns.2.1 hruns.2.2 fun pops push r' fin h => ?_)
    cases h.symm.trans (stepScan_falls rfl rfl (Nat.not_le.1 hgt))

theorem fscan_child {e : W64} (he : e = r.y + BitVec.ofNat 64 (4 * r.lo)) (hp : r.phase = 3) (hm : r.mem = none) (h : r.lo < r.hi)
    (hreads : Claims.readsAt s e) :
    exec .streamStep s = .next (Claims.goesOn s [] [(d, element (Claims.bytes s e 4) r.lo (ref0 u) (val u))]
      { r with lo := r.lo + 1, mem := none }) := by
  subst he
  rw [fscan_read hruns ha hroom (stepScan_child hp hm h) hreads]
  exact congrArg _ (fscan_gives ha hruns.2.1 hruns.2.2 (stepScan_gives hp rfl) hroom)

end

end Sys2Proof.Machine

namespace Sys2Proof.Machine

/-! ### `fload` and `fwrite` (R274) -/

/-- The index that an access selects. -/
def picked (f : BitVec 1) (u : W256) : Nat := if f = 1#1 then ref1 u else ref0 u

section
variable {r : StreamRun} {n : Nat} {u : W256} {isLoad : Bool} {f : BitVec 1}

theorem stepAccess_past (hz : r.z.toNat ≤ picked f u) : stepAccess isLoad f [some ⟨u, 0⟩] r n = .err 0x23 (picked f u) :=
  if_pos hz

theorem stepAccess_data (hz : picked f u < r.z.toNat) :
    stepAccess isLoad f [some ⟨u, 0⟩] r n =
      match r.mem.filter fun _ => !isLoad || r.lo == picked f u with
      | some none => .err 0x25 ((r.x + BitVec.ofNat 64 (4 * picked f u)).toNat % 2 ^ 32)
      | some (some v) => .act [0] [(0, element (crd u) (ref0 u) (ref1 u) v)] { r with mem := none } false
      | none => if isLoad then .read (r.x + BitVec.ofNat 64 (4 * picked f u)) { r with lo := picked f u, mem := none }
        else .write (r.x + BitVec.ofNat 64 (4 * picked f u)) (val u) r :=
  if_neg (Nat.not_le.2 hz)

theorem stepAccess_loads (hz : picked f u < r.z.toNat) (hm : r.mem = none ∨ r.lo ≠ picked f u) :
    stepAccess true f [some ⟨u, 0⟩] r n = .read (r.x + BitVec.ofNat 64 (4 * picked f u)) { r with lo := picked f u, mem := none } := by
  have hnone : (r.mem.filter fun _ => !true || r.lo == picked f u) = none := by
    obtain hm | hm := hm
    · rw [hm]; rfl
    · cases r.mem <;> simp [hm]
  rw [stepAccess_data hz, hnone]
  rfl

theorem stepAccess_gives {v : Nat} (hz : picked f u < r.z.toNat) (hlo : r.lo = picked f u) (hm : r.mem = some (some v)) :
    stepAccess true f [some ⟨u, 0⟩] r n = .act [0] [(0, element (crd u) (ref0 u) (ref1 u) v)] { r with mem := none } false := by
  have hsome : (r.mem.filter fun _ => !true || r.lo == picked f u) = some (some v) := by simp [hm, hlo]
  rw [stepAccess_data hz, hsome]

theorem stepAccess_writes (hz : picked f u < r.z.toNat) (hm : r.mem = none) :
    stepAccess false f [some ⟨u, 0⟩] r n = .write (r.x + BitVec.ofNat 64 (4 * picked f u)) (val u) r := by
  rw [stepAccess_data hz, hm]
  rfl

end

section
variable {s : State} {r : StreamRun} {a d : BitVec 4} {l : BitVec 3} {x z : BitVec 5} {u : W256} {f : BitVec 1}

theorem fload_out : OneOut (.fload l a d f x z) d := rfl

section
variable (hruns : Claims.runs s (.fload l a d f x z) r) (ha : Claims.headIs s a ⟨u, 0⟩)
include ha

theorem fload_step {r : StreamRun} (hr : r.instr = .fload l a d f x z) : s.streamStep r = stepAccess true f [some ⟨u, 0⟩] r l.toNat := by
  rw [State.streamStep_fload hr, ha]

theorem fload_answered {r r' : StreamRun} {w : NetWord} (hr : r.instr = .fload l a d f x z) (hd : r.drain = false)
    (h : stepAccess true f [some ⟨u, 0⟩] r l.toNat = .act [0] [(0, w)] r' false) (hroom : s.epRoom d = true) :
    (s.setStream (some r)).streamOn.used = Claims.goesOn s [a] [(d, w)] r' := by
  have hout : OneOut r.instr d := by rw [hr]; rfl
  have hfirst : (shapeOf r.instr).ins[0]? = some a := by rw [hr]; rfl
  exact State.streamOn_moves (pops' := [a]) (push' := [(d, w)]) hd ((fload_step ha hr).trans h) ((OneOut.pushesOk hout _).trans hroom)
    (State.popInputs_first (s := s.setStream (some r)) (w := u) (t := 0) hfirst ha rfl) (OneOut.pushes hout _)

include hruns

theorem fload_past (hz : r.z.toNat ≤ picked f u) (hroom : s.epRoom d = true) :
    exec .streamStep s = .next (Claims.raises s r [d] 0x23 (picked f u)) :=
  OneOut.raises hruns fload_out ((fload_step ha hruns.2.1).trans (stepAccess_past hz)) hroom

theorem fload_full (hroom : s.epRoom d = false) : exec .streamStep s = .next s := by
  have hstep := fload_step ha hruns.2.1
  obtain hz | hz := Nat.lt_or_ge (picked f u) r.z.toNat
  · rw [stepAccess_data hz] at hstep
    split at hstep
    · exact OneOut.errFull hruns fload_out hstep hroom
    · exact execStreamStep_full hruns hstep ((fload_out.pushesOk _).trans hroom)
    · exact execStreamStep_readFull hruns hstep ((fload_out.pushesOk _).trans hroom)
  · exact OneOut.errFull hruns fload_out (hstep.trans (stepAccess_past hz)) hroom

variable (hroom : s.epRoom d = true) (hz : picked f u < r.z.toNat)
include hroom hz

theorem fload_reads {e : W64} (he : e = r.x + BitVec.ofNat 64 (4 * picked f u)) (hm : r.mem = none ∨ r.lo ≠ picked f u)
    (hreads : Claims.readsAt s e) :
    exec .streamStep s = .next (Claims.goesOn s [a] [(d, element (crd u) (ref0 u) (ref1 u) (Claims.bytes s e 4))]
      { r with lo := picked f u, mem := none }) := by
  subst he
  have hread := (fload_step ha hruns.2.1).trans (stepAccess_loads hz hm)
  rw [execStreamStep_read hruns hread ((fload_out.pushesOk _).trans hroom) hreads]
  exact congrArg _ (fload_answered ha hruns.2.1 hruns.2.2 (stepAccess_gives hz rfl rfl) hroom)

theorem fload_gives {v : Nat} (hlo : r.lo = picked f u) (hm : r.mem = some (some v)) :
    exec .streamStep s = .next (Claims.goesOn s [a] [(d, element (crd u) (ref0 u) (ref1 u) v)] { r with mem := none }) :=
  OneOut.gives hruns fload_out ((fload_step ha hruns.2.1).trans (stepAccess_gives hz hlo hm)) hroom (State.popInputs_first rfl ha rfl)

end

theorem fwrite_stores (hruns : Claims.runs s (.fwrite l a d f x z) r) (ha : Claims.headIs s a ⟨u, 0⟩) (hmem : s.memOk = true)
    (hz : picked f u < r.z.toNat) (hm : r.mem = none) {e : W64} (he : e = r.x + BitVec.ofNat 64 (4 * picked f u))
    (hc : s.changing e 4 = false) (hcheck : s.checkAccess s.me s.cur.t e 4 1 = none)
    (hlocal : Claims.local_ s (fun _ => none) true (parts e 4) = true) :
    ∃ m : State, exec .streamStep s = .next
        (Claims.goesOn ({ s with mem := m.mem, badSectors := m.badSectors, badWords := m.badWords } : State) [a] [] r) ∧
      Claims.stored s m e 4 (val u) := by
  have hstep := (State.streamStep_fwrite hruns.2.1).trans ((congrArg (fun h => stepAccess false f [h] r l.toNat) ha).trans (stepAccess_writes hz hm))
  rw [← he] at hstep
  have hparts := State.localParts_of_local hlocal
  have hwrote := State.wrote_partsFrom hparts.priv (val u) hmem (off := 0) (n := 4) (fuel := 4 / 32 + 2) (a := e) (by omega) (by omega)
    fun p hp => (hparts.parts p hp).sram
  refine ⟨s.writeParts (val u) ((parts e 4).map s.sramHome), ?_, State.stored_of_wrote hwrote⟩
  have hpop (m : Memory) (b c : List Nat) : ({ s with mem := m, badSectors := b, badWords := c } : State).popInputs
      (shapeOf (.fwrite l a d f x z)) r [0] = (({ s with mem := m, badSectors := b, badWords := c } : State).epPop a, r) :=
    State.popInputs_first (s := { s with mem := m, badSectors := b, badWords := c }) (w := u) (t := 0) rfl ha rfl
  have hwritten : s.Written _ := s.writeParts_written s (val u) (parts e 4)
  obtain ⟨hr, hi, hd⟩ := hruns
  simp only [exec_streamStep, execStreamStep, hr, hd, Bool.false_eq_true, if_false, hstep, State.store_passed hc hcheck, hparts.writeAll_eq,
    State.streamAccess]
  rw [hwritten, hi, hpop]
  rfl

end

/-! ### `fred` (R275) -/

/-- The largest and the smallest of the integers of a fibre. -/
theorem foldl_lowest (isMax : Bool) (t : BitVec 2) (xs : List Nat) :
    low (xs.foldl (fun acc x => if isMax then max acc (if t == 0#2 then sext x 32 else (x : Int))
        else min acc (if t == 0#2 then sext x 32 else (x : Int))) (if isMax then intMin (t == 0#2) 32 else intMax (t == 0#2) 32)) 32 =
      if isMax then ((((xs.map (Claims.val t 32)).foldl max (if t = 0#2 then -2 ^ 31 else 0)) : Int) % 2 ^ 32).toNat
      else ((((xs.map (Claims.val t 32)).foldl min (if t = 0#2 then 2 ^ 31 - 1 else 2 ^ 32 - 1)) : Int) % 2 ^ 32).toNat := by
  have hval (x : Nat) : (if t == 0#2 then sext x 32 else (x : Int)) = Claims.val t 32 x := by
    by_cases ht : t = 0#2 <;> simp [Claims.val, ht]
  simp only [hval]
  rw [List.foldl_map, List.foldl_map]
  cases isMax <;> by_cases ht : t = 0#2 <;> simp [ht, low, intMin, intMax]

theorem reduceValue_eq (p t : BitVec 2) (xs : List Nat) : reduceValue p t xs = Claims.reduced p t xs := by
  have hsum : xs.foldl (fun a b => a + b) 0 = xs.sum := List.sum_eq_foldl.symm
  obtain rfl | rfl | rfl | rfl : p = 0#2 ∨ p = 1#2 ∨ p = 2#2 ∨ p = 3#2 := by revert p; decide
  · exact (congrArg (fun n => if t = 2#2 then fSum fmtF32 (xs.map fmtF32.read) else (n % 2 ^ 32, 0)) hsum :)
  · by_cases ht : t = 2#2
    · subst ht
      cases xs <;> rfl
    · have hints := foldl_lowest true t xs
      change (if t = 2#2 then _ else _) = if t = 2#2 then _ else _
      rw [if_neg ht, if_neg ht]
      exact congrArg (fun n => ((n, 0) : FRes)) hints
  · by_cases ht : t = 2#2
    · subst ht
      cases xs <;> rfl
    · have hints := foldl_lowest false t xs
      change (if t = 2#2 then _ else _) = if t = 2#2 then _ else _
      rw [if_neg ht, if_neg ht]
      exact congrArg (fun n => ((n, 0) : FRes)) hints
  · rfl

section
variable {r : StreamRun} {n k : Nat} {u : W256} {p t : BitVec 2}

theorem stepRed_stop (hk : k < 5) :
    stepRed p t [some ⟨u, BitVec.ofNat 4 (k + 1)⟩] r n =
      if r.phase = 0 ∧ (k < 4 ∨ r.isOpen) then
        if k = 0 then .act [0] [(0, element r.vals.length 0 0 (reduceValue p t r.vals).1)]
          { r with isOpen := false, vals := [], flags := r.flags ||| (reduceValue p t r.vals).2 } (decide (n = 0))
        else .act [] [(0, element r.vals.length 0 0 (reduceValue p t r.vals).1)]
          { r with phase := 1, isOpen := false, vals := [], flags := r.flags ||| (reduceValue p t r.vals).2 } false
      else .act [0] (if k = 0 then [] else [(0, stopWord (if k = 4 then 4 else k - 1))]) { r with phase := 0 } (decide (n ≤ k)) :=
  withHead_stop hk rfl

theorem stopWord_below (hk : k ≠ 0) : stopWord (if k = 4 then 4 else k - 1) = ⟨0, if k = 4 then 5 else BitVec.ofNat 4 k⟩ := by
  split
  · rfl
  · rw [stopWord, Nat.sub_add_cancel (Nat.pos_of_ne_zero hk)]

end

section
variable {s : State} {r : StreamRun} {a d : BitVec 4} {l : BitVec 3} {t p : BitVec 2} {u : W256} {k : Nat}
  (hruns : Claims.runs s (.fred l a d t p) r)

theorem fred_out : OneOut (.fred l a d t p) d := rfl

include hruns

theorem fred_collects (ha : Claims.headIs s a ⟨u, 0⟩) :
    exec .streamStep s = .next (Claims.goesOn s [a] [] { r with isOpen := true, vals := r.vals ++ [val u] }) := by
  have hstep : s.streamStep r = .act [0] [] { r with isOpen := true, vals := r.vals ++ [val u] } false := by
    rw [State.streamStep_fred hruns.2.1, ha]
    rfl
  exact execStreamStep_takes hruns hstep (State.popInputs_first rfl ha rfl)

variable (ha : Claims.headIs s a ⟨u, BitVec.ofNat 4 (k + 1)⟩)
include ha

theorem fred_step : s.streamStep r = stepRed p t [some ⟨u, BitVec.ofNat 4 (k + 1)⟩] r l.toNat := by
  rw [State.streamStep_fred hruns.2.1, ha]

omit hruns in
/-- A stop below the instruction's level is noted. -/
theorem fred_popInputs (hk : k < 5) (hl : k < l.toNat) (r : StreamRun) :
    s.popInputs (shapeOf (.fred l a d t p)) r [0] = (s.epPop a, { r with top := max r.top k }) := by
  rw [State.popInputs_cons (c := a) rfl ha, show (shapeOf (.fred l a d t p)).level = l.toNat from rfl,
    StreamRun.consumed_below (levelOf_stop hk) hl]
  rfl

variable (hk : k < 5) (hroom : s.epRoom d = true)
include hk hroom

theorem fred_closes (hp : r.phase = 0) (hk0 : k = 0) (hl : k < l.toNat) :
    exec .streamStep s = .next (Claims.goesOn s [a] [(d, element r.vals.length 0 0 (Claims.reduced p t r.vals).1)]
      { r with isOpen := false, vals := [], flags := r.flags ||| (Claims.reduced p t r.vals).2 }) := by
  subst hk0
  have hstep := fred_step hruns ha
  rw [stepRed_stop hk, if_pos ⟨hp, .inl (by decide)⟩, if_pos rfl, decide_eq_false (by omega), reduceValue_eq] at hstep
  refine OneOut.gives hruns fred_out hstep hroom ((fred_popInputs ha hk hl _).trans ?_)
  simp only [Nat.max_zero]
  rfl

theorem fred_emits (hp : r.phase = 0) (hk0 : 0 < k) (hopen : k < 4 ∨ r.isOpen = true) :
    exec .streamStep s = .next (Claims.goesOn s [] [(d, element r.vals.length 0 0 (Claims.reduced p t r.vals).1)]
      { r with phase := 1, isOpen := false, vals := [], flags := r.flags ||| (Claims.reduced p t r.vals).2 }) := by
  have hstep := fred_step hruns ha
  rw [stepRed_stop hk, if_pos ⟨hp, hopen⟩, if_neg hk0.ne', reduceValue_eq] at hstep
  exact OneOut.gives hruns fred_out hstep hroom rfl

theorem fred_lowers (hp : r.phase = 1) (hl : k < l.toNat) :
    exec .streamStep s = .next (Claims.goesOn s [a] (if k = 0 then [] else [(d, ⟨0, if k = 4 then 5 else BitVec.ofNat 4 k⟩)])
      { r with phase := 0, top := max r.top k }) := by
  have hstep := fred_step hruns ha
  rw [stepRed_stop hk, if_neg (by simp [hp]), decide_eq_false (Nat.not_le.2 hl)] at hstep
  by_cases hk0 : k = 0
  · rw [if_pos hk0] at hstep ⊢
    exact execStreamStep_takes hruns hstep (fred_popInputs ha hk hl _)
  · rw [if_neg hk0, stopWord_below hk0] at hstep
    rw [if_neg hk0]
    exact OneOut.gives hruns fred_out hstep hroom (fred_popInputs ha hk hl _)

end

theorem fibreSteps : Parts.FibreSteps := by
  intro s r a d l x y z f t p u
  refine ⟨fun ha => ⟨fun hruns => ⟨fun hp hz hroom => ?_, fun hp hroom => fscan_full hruns ha hp hroom,
    fun hp hz hroom hreads => fscan_starts hruns ha hroom rfl hp hz hreads,
    fun v hp hm hroom hreads => fscan_segment hruns ha hroom rfl hp hm hreads, fun v hp hm hlo => ?_,
    fun hp hm hlo hroom hreads => fscan_child hruns ha hroom rfl hp hm hlo hreads, fun v hp hm hroom => ?_, fun hp hm hlo => ?_,
    fun hp hroom => ?_⟩, ⟨fun hruns => ⟨fload_past hruns ha, fload_full hruns ha,
    fun hz hm hroom hreads => fload_reads hruns ha hroom hz rfl hm hreads, fun v hz hlo hm hroom => fload_gives hruns ha hroom hz hlo hm⟩,
    fun hruns hmem hz hm hc hcheck hlocal => fwrite_stores hruns ha hmem hz hm rfl hc hcheck hlocal⟩,
    fun hruns => fred_collects hruns ha⟩, fun k hk ha hruns => ⟨fun hp hk0 hl hroom => fred_closes hruns ha hk hroom hp hk0 hl,
    fun hp hk0 hopen hroom => fred_emits hruns ha hk hroom hp hk0 hopen, fun hp hl hroom => fred_lowers hruns ha hk hroom hp hl⟩⟩
  · exact OneOut.raises hruns fscan_out ((fscan_step ha hruns.2.1).trans (stepScan_past hp hz)) hroom
  · exact execStreamStep_takes hruns ((fscan_step ha hruns.2.1).trans (stepScan_rises hp hm hlo)) rfl
  · exact OneOut.gives hruns fscan_out ((fscan_step ha hruns.2.1).trans (stepScan_gives hp hm)) hroom rfl
  · exact execStreamStep_takes hruns ((fscan_step ha hruns.2.1).trans (stepScan_done hp hm hlo)) (State.popInputs_first rfl ha rfl)
  · exact OneOut.gives hruns fscan_out ((fscan_step ha hruns.2.1).trans (stepScan_closes hp)) hroom rfl

/-- Settles O33: a join goes by its two heads; a fibre instruction goes by its head, its phase and the word it has read. -/
theorem joinsAndFibres : Obligations.JoinsAndFibres := ⟨joinSteps, fibreSteps⟩

end Sys2Proof.Machine

namespace Sys2Proof.Machine

/-! ## O41. Switches -/

theorem exec_snext (s : State) : exec .snext s = execSnext s := rfl
theorem exec_sjump (s : State) : exec .sjump s = execSjump s := rfl
theorem exec_sloop (s : State) : exec .sloop s = execSloop s := rfl
theorem exec_sdbr (s : State) : exec .sdbr s = execSdbr s := rfl
theorem exec_sbtag (s : State) : exec .sbtag s = execSbtag s := rfl
theorem exec_swait (s : State) : exec .swait s = execSwait s := rfl
theorem exec_shalt (s : State) : exec .shalt s = execShalt s := rfl
theorem exec_sflip (s : State) : exec .sflip s = execSflip s := rfl

/-! ### The turn's place stands while words move -/

theorem State.tileEvent_cur (s : State) (t : Nat) (d0 d1 d2 : W64) (r : Option Nat) : (s.tileEvent t d0 d1 d2 r).cur = s.cur := by
  unfold State.tileEvent
  dsimp only
  split
  · split <;> rfl
  · rfl

theorem State.countStray_cur (s : State) (t b : Nat) (tag : BitVec 4) : (s.countStray t b tag).cur = s.cur := State.tileEvent_cur ..

theorem State.mDone_cur (s : State) (t : Nat) (q : MReq) (e : Option MErr) : (s.mDone t q e).cur = s.cur := by
  unfold State.mDone State.mDeliver State.engineArrive
  (repeat' split) <;> rfl

theorem State.mTaken_cur (s : State) (t b : Nat) : (s.mTaken t b).cur = s.cur := by
  unfold State.mTaken
  dsimp only
  split
  · rfl
  · split
    · rfl
    · exact State.mDone_cur ..

theorem State.pTaken_cur (s : State) (t b : Nat) : (s.pTaken t b).cur = s.cur := by
  unfold State.pTaken
  split <;> rfl

theorem State.mTake_cur (s : State) (t b : Nat) (w : NetWord) : (s.mTake t b w).cur = s.cur := by
  unfold State.mTake
  dsimp only
  split
  · rfl
  · split
    · rfl
    · split
      · rfl
      · split
        · exact State.tileEvent_cur ..
        · rfl

theorem State.pTake_cur (s : State) (t b : Nat) (w : NetWord) : (s.pTake t b w).cur = s.cur := by
  unfold State.pTake
  split
  · split
    · exact State.countStray_cur ..
    · rfl
  · split <;> rfl

theorem State.pushLane_cur (s : State) (t b d : Nat) (w : NetWord) : (s.pushLane t b d w).cur = s.cur := by
  obtain ⟨x, hx⟩ := s.pushLane_xbars t b d w
  rw [hx]

theorem State.swPop_cur (s : State) (c : Nat) : (s.swPop c).cur = s.cur := by
  unfold State.swPop
  (repeat' split)
  · rfl
  · exact State.popLane_cur ..
  · rfl
  · exact State.mTaken_cur ..
  · exact State.pTaken_cur ..
  · rfl

theorem State.swPush_cur (s : State) (d : Nat) (w : NetWord) : (s.swPush d w).cur = s.cur := by
  unfold State.swPush
  dsimp only
  (repeat' split)
  · exact State.pushLane_cur ..
  · rfl
  · exact State.mTake_cur ..
  · exact State.pTake_cur ..
  · rfl
  · rfl

theorem State.swMove_cur (s : State) (drop also : Option Nat) : (s.swMove drop also).cur = s.cur :=
  (foldl_keeps State.cur _ (fun _ _ => State.swPush_cur ..) _ _).trans (foldl_keeps State.cur _ (fun _ _ => State.swPop_cur ..) _ _)

/-! ### Firing (R299, R300) -/

theorem tagCondition_cons (c : BitVec 4) (w : NetWord) : tagCondition c [w] = Claims.tagHolds c.toNat [w] := by
  by_cases hc : c = 15
  · subst hc
    rfl
  · exact tagCondition_eq hc _

/-- Does the tested source's head meet the condition, as the claim reads it? -/
theorem State.swTest_eq (s : State) : s.swTest =
    match s.swHead (s.word.extractLsb' 7 4).toNat with
    | none => false
    | some w => Claims.tagHolds (s.word.extractLsb' 3 4).toNat [w] := by
  unfold State.swTest State.swSource State.swCond
  cases s.swHead (s.word.extractLsb' 7 4).toNat with
  | none => rfl
  | some w => exact tagCondition_cons ..

theorem State.fire_ready {s : State} (h : s.swReady = true) (f : Xbar → Xbar) : s.fire true f = Claims.fired s f := by
  have hcur : (s.swMove none none).cur = s.cur := s.swMove_cur none none
  simp [State.fire, h, Claims.fired, hcur]

theorem State.fire_held {s : State} (h : s.swReady = true) (f : Xbar → Xbar) : s.fire false f = s := by
  simp [State.fire, h]

theorem State.swStall_of_unnamed {s : State} (hm : s.routeCode 8 = 0) (hp : s.routeCode 9 = 0) : s.swStall = s := by
  have hstand {d : Nat} (hd : s.routeCode d = 0) : (s.routes.find? fun r => r.1 == d) = none := by
    rw [List.find?_eq_none]
    rintro ⟨i, c⟩ hr
    obtain ⟨hr, hc⟩ := List.mem_filter.mp hr
    obtain ⟨j, -, hj⟩ := List.mem_map.mp hr
    cases hj
    rintro hid
    obtain rfl : i = d := by simpa using hid
    simp [hd] at hc
  simp [State.swStall, hstand hm, hstand hp]

theorem State.fire_unready {s : State} (h : s.swReady = false) (hm : s.routeCode 8 = 0) (hp : s.routeCode 9 = 0) (c : Bool)
    (f : Xbar → Xbar) : s.fire c f = s := by
  simp [State.fire, h, State.swStall_of_unnamed hm hp]

theorem execSwait_ready {s : State} (h : s.swReady = true) :
    execSwait s = .next (if s.swTest then Claims.fired s fun x => { x with pc := x.pc + 1 } else s) := by
  unfold execSwait
  cases s.swTest
  · rw [State.fire_held h]; rfl
  · rw [State.fire_ready h]; rfl

theorem execSbtag_ready {s : State} (h : s.swReady = true) (hw : (s.swHead s.swSource).isSome = true) :
    execSbtag s = .next (Claims.fired s fun x =>
      { x with pc := if s.swTest then x.pc + 2 + (s.word.extractLsb' 0 3).setWidth 9 else x.pc + 1 }) := by
  have hskip (p : BitVec 9) : p + 1 + s.swSkip = p + 2 + (s.word.extractLsb' 0 3).setWidth 9 := by
    unfold State.swSkip
    bv_omega
  simp only [execSbtag, hw, State.fire_ready h, hskip]

theorem execSloop_ready {s : State} (h : s.swReady = true) :
    execSloop s = .next (Claims.fired s fun x =>
      if s.word.getLsbD 10 then { x with lc1 := s.swCount, pc := x.pc + 1 } else { x with lc0 := s.swCount, pc := x.pc + 1 }) :=
  congrArg _ (State.fire_ready h _)

/-- A loop counter that is 2 or more is lowered, and the switch branches. -/
theorem execSdbr_ready {s : State} (h : s.swReady = true) :
    execSdbr s = .next (Claims.fired s fun x =>
      if s.word.getLsbD 10 then
        if 2 ≤ x.lc1.toNat then { x with lc1 := x.lc1 - 1, pc := s.swTarget } else { x with lc1 := 0, pc := x.pc + 1 }
      else if 2 ≤ x.lc0.toNat then { x with lc0 := x.lc0 - 1, pc := s.swTarget } else { x with lc0 := 0, pc := x.pc + 1 }) := by
  refine congrArg _ ((State.fire_ready h _).trans (congrArg (Claims.fired s) (funext fun x => ?_)))
  unfold State.swCounter
  cases s.word.getLsbD 10
  · by_cases hn : 2 ≤ x.lc0.toNat <;> simp [hn, show (1 < x.lc0.toNat) = (2 ≤ x.lc0.toNat) from rfl]
  · by_cases hn : 2 ≤ x.lc1.toNat <;> simp [hn, show (1 < x.lc1.toNat) = (2 ≤ x.lc1.toNat) from rfl]

/-- R301: a FLIP with the switch bit puts the READY shadow in the place of the program. -/
theorem execSflip_flips {s : State} (h : s.swReady = true) {w : NetWord} (hw : s.swHead s.swSource = some w) (htag : w.tag = 8)
    (hbit : w.data.getLsbD 0 = true) (hshadow : (s.xbar s.cur.tb).shadow = .ready) :
    execSflip s = .next ((s.swMove none (some s.swSource)).setXbar s.cur.tb ((s.swMove none (some s.swSource)).xbar s.cur.tb).flip) := by
  simp [execSflip, h, hw, htag, hbit, hshadow]

theorem execSflip_other {s : State} (h : s.swReady = true) {w : NetWord} (hw : s.swHead s.swSource = some w) (htag : w.tag ≠ 8) :
    execSflip s = .next s := by
  have hno : w.tag ≠ 8#4 ∨ (s.xbar s.cur.tb).shadow = .loading := .inl htag
  simp only [execSflip, h, Bool.true_eq_false, if_false, hw, if_pos hno]

theorem execSflip_unready {s : State} (h : s.swReady = false) (hm : s.routeCode 8 = 0) (hp : s.routeCode 9 = 0) :
    execSflip s = .next s := by
  simp only [execSflip, if_pos h, State.swStall_of_unnamed hm hp]

theorem switchInstructions : Parts.SwitchInstructions := by
  intro s src count target one holds
  have hholds : holds = s.swTest := s.swTest_eq.symm
  have hbit : one = s.word.getLsbD 10 := rfl
  clear_value holds one
  subst hholds hbit
  refine ⟨fun h => ⟨congrArg _ (State.fire_ready h _), congrArg _ (State.fire_ready h _), congrArg _ (State.fire_ready h _),
    fun hb => ?_, fun hb => ?_, fun hb => ?_, fun hb => ?_, execSbtag_ready h, execSwait_ready h, fun w hw htag hb hshadow =>
    ⟨_, execSflip_flips h hw htag hb hshadow, ?_⟩, fun w hw htag => execSflip_other h hw htag⟩, fun h hm hp => ?_⟩
  · rw [exec_sloop, execSloop_ready h, hb]
    rfl
  · rw [exec_sloop, execSloop_ready h, hb]
    rfl
  · rw [exec_sdbr, execSdbr_ready h, hb]
    rfl
  · rw [exec_sdbr, execSdbr_ready h, hb]
    rfl
  · rw [State.xbar_setXbar_self]
    exact ⟨rfl, rfl, rfl, rfl⟩
  · have hstall (c : Bool) (f : Xbar → Xbar) : (.next (s.fire c f) : Host.Outcome State Fault Refusal) = .next s := congrArg _ (State.fire_unready h hm hp c f)
    exact ⟨hstall .., hstall .., hstall .., hstall .., hstall .., hstall .., hstall .., execSflip_unready h hm hp⟩

/-! ### What moves (R74, R75) -/

/-- The words that move leave what the lanes' counts and words in flight do not show. -/
theorem State.pushLane_congr {β : Type} (f : Xbar → β) (s : State) (t b d k : Nat) (w : NetWord)
    (hcredits : ∀ x l, f { x with credits := l } = f x) (hflight : ∀ x l, f { x with flight := l } = f x) :
    f ((s.pushLane t b d w).xbar k) = f (s.xbar k) := by
  unfold State.pushLane
  split
  · rfl
  · exact (State.xbar_setXbar_congr f (hflight ..) k).trans (State.xbar_setXbar_congr f (hcredits ..) k)

/-- A source that is no engine is taken from a lane, a core or a hold register. -/
theorem State.swPop_congr {β : Type} (f : Xbar → β) (s : State) {c : Nat} (k : Nat) (h9 : c ≠ 9) (h10 : c ≠ 10)
    (hrx : ∀ x l, f { x with rx := l } = f x) (hback : ∀ x l, f { x with creditBack := l } = f x)
    (hcore : ∀ x l, 5 ≤ c → f { x with fromCore := x.fromCore.set (c - 5) l } = f x) :
    f ((s.swPop c).xbar k) = f (s.xbar k) := by
  unfold State.swPop
  split_ifs with h0 h4 h8
  · rfl
  · exact s.popLane_congr f _ _ _ _ (fun x _ => hrx x _) hback
  · exact State.xbar_setXbar_congr f (hcore _ _ (by omega)) k
  · rfl

theorem State.swPop_toCore (s : State) {c : Nat} (h9 : c ≠ 9) (h10 : c ≠ 10) (k : Nat) : ((s.swPop c).xbar k).toCore = (s.xbar k).toCore :=
  s.swPop_congr Xbar.toCore k h9 h10 (fun _ _ => rfl) (fun _ _ => rfl) fun _ _ _ => rfl

theorem State.swPop_registers (s : State) {c : Nat} (h9 : c ≠ 9) (h10 : c ≠ 10) (k : Nat) :
    (((s.swPop c).xbar k).h0, ((s.swPop c).xbar k).h1, ((s.swPop c).xbar k).pc) = ((s.xbar k).h0, (s.xbar k).h1, (s.xbar k).pc) :=
  s.swPop_congr (fun x => (x.h0, x.h1, x.pc)) k h9 h10 (fun _ _ => rfl) (fun _ _ => rfl) fun _ _ _ => rfl

/-- A core's FIFO gives up a word when its code is popped. -/
theorem State.swPop_fromCore (s : State) {c q : Nat} (h9 : c ≠ 9) (h10 : c ≠ 10) (hq : q < 4) :
    ((s.swPop c).xbar (s.swPop c).cur.tb).fromCore.get [] q =
      if c = 5 + q then ((s.xbar s.cur.tb).fromCore.get [] q).drop 1 else (s.xbar s.cur.tb).fromCore.get [] q := by
  rw [s.swPop_cur]
  split
  · next h =>
    subst h
    rw [State.swPop, if_neg (by omega), if_neg (by omega), if_pos (by omega), Nat.add_sub_cancel_left]
    dsimp only
    rw [State.xbar_setXbar_self, AMap.get_set_self]
  · next h =>
    exact s.swPop_congr (fun x => x.fromCore.get [] q) _ h9 h10 (fun _ _ => rfl) (fun _ _ => rfl)
      fun _ _ h5 => AMap.get_set_ne _ _ _ _ _ (by omega)

/-- What one element of a list changes is changed once. -/
theorem foldl_once {σ β : Type} (g : σ → Nat → σ) (f : σ → β) (upd : β → β) (n : Nat) {l : List Nat} (hl : l.Nodup)
    (h : ∀ s, ∀ i ∈ l, f (g s i) = if i = n then upd (f s) else f s) (s : σ) :
    f (l.foldl g s) = if n ∈ l then upd (f s) else f s := by
  induction l generalizing s with
  | nil => rfl
  | cons i l ih =>
    obtain ⟨hnot, hl⟩ := List.nodup_cons.1 hl
    rw [List.foldl_cons, ih hl (fun s j hj => h s j (List.mem_cons_of_mem i hj)), h s i List.mem_cons_self]
    by_cases hi : i = n
    · subst hi
      rw [if_neg hnot, if_pos rfl, if_pos List.mem_cons_self]
    · simp only [if_neg hi, List.mem_cons, show ¬n = i from fun h => hi h.symm, false_or]

theorem foldl_keeps_mem {σ β : Type} (g : σ → Nat → σ) (f : σ → β) {l : List Nat} (h : ∀ s, ∀ i ∈ l, f (g s i) = f s) (s : σ) :
    f (l.foldl g s) = f s := by
  induction l generalizing s with
  | nil => rfl
  | cons i l ih => exact (ih (fun s j hj => h s j (List.mem_cons_of_mem i hj)) _).trans (h s i List.mem_cons_self)

/-! ### Destinations -/

/-- Destination `i` takes its word, if one is for it. -/
def State.swGive (dest : Nat → Option NetWord) (s : State) (i : Nat) : State :=
  match dest i with
  | none => s
  | some w => s.swPush i w

/-- The word for a destination: the head of its source. -/
def State.swDest (s : State) (i : Nat) : Option NetWord := if s.routeCode i = 0 then none else s.swHead (s.routeCode i)

theorem State.moved_swGive (s u : State) (is : List Nat) :
    (((is.map fun i => (i, s.routeCode i)).filter fun r => r.2 ≠ 0).filterMap fun r =>
      if (none : Option Nat) = some r.2 then none else (s.swHead r.2).map fun w => (r.1, w)).foldl (fun u m => u.swPush m.1 m.2) u =
    is.foldl (State.swGive s.swDest) u := by
  induction is generalizing u with
  | nil => rfl
  | cons i is ih =>
    by_cases hi : s.routeCode i = 0
    · have hgive : State.swGive s.swDest u i = u := by simp [State.swGive, State.swDest, hi]
      rw [List.foldl_cons, hgive, ← ih u]
      simp [hi]
    · have hgive : State.swGive s.swDest u i = match s.swHead (s.routeCode i) with | none => u | some w => u.swPush i w := by
        simp only [State.swGive, State.swDest, if_neg hi]
      rw [List.foldl_cons, hgive, ← ih _]
      cases hw : s.swHead (s.routeCode i) <;> simp [hi, hw]

/-- The sources that give up a word. -/
def State.swSources (s : State) : List Nat := uniq (s.routes.map Prod.snd)

theorem State.swMove_eq (s : State) :
    s.swMove none none = (List.range 12).foldl (State.swGive s.swDest) (s.swSources.foldl State.swPop s) := by
  rw [← s.moved_swGive, State.swSources, ← List.append_nil (s.routes.map Prod.snd)]
  rfl

theorem mem_uniq {l : List Nat} {n : Nat} : n ∈ uniq l ↔ n ∈ l := by
  induction l with
  | nil => rfl
  | cons x l ih =>
    rw [uniq, List.mem_cons, List.mem_cons, List.mem_filter, ih]
    by_cases hn : n = x <;> simp [hn]

theorem nodup_uniq (l : List Nat) : (uniq l).Nodup := by
  induction l with
  | nil => exact List.nodup_nil
  | cons x l ih => exact List.nodup_cons.2 ⟨fun h => by simpa using (List.mem_filter.1 h).2, ih.filter _⟩

theorem State.mem_swSources {s : State} {c : Nat} : c ∈ s.swSources ↔ c ≠ 0 ∧ ∃ i < 12, s.routeCode i = c := by
  rw [State.swSources, mem_uniq, State.routes]
  simp only [List.mem_map, List.mem_filter, List.mem_range, Prod.exists]
  constructor
  · rintro ⟨i, _, ⟨⟨j, hj, hr⟩, hc⟩, rfl⟩
    cases hr
    exact ⟨by simpa using hc, _, hj, rfl⟩
  · rintro ⟨hc, i, hi, rfl⟩
    exact ⟨i, _, ⟨⟨i, hi, rfl⟩, by simpa using hc⟩, rfl⟩

theorem State.swGive_cur (dest : Nat → Option NetWord) (s : State) (i : Nat) : (s.swGive dest i).cur = s.cur := by
  unfold State.swGive
  split
  · rfl
  · exact State.swPush_cur ..

section
variable {dest : Nat → Option NetWord} (hm : dest 8 = none) (hp : dest 9 = none)
include hm hp

/-- A destination that is no engine is a lane, a core or a hold register. -/
theorem State.swGive_cases {β : Type} (f : Xbar → β) (s : State) (i : Nat)
    (hcredits : ∀ x l, f { x with credits := l } = f x) (hflight : ∀ x l, f { x with flight := l } = f x) :
    f ((s.swGive dest i).xbar (s.swGive dest i).cur.tb) =
      let x := s.xbar s.cur.tb
      match dest i with
      | none => f x
      | some w =>
        if i < 4 then f x
        else if i < 8 then f { x with toCore := x.toCore.set (i - 4) (x.toCore.get [] (i - 4) ++ [w]) }
        else if i = 10 then f { x with h0 := some w } else f { x with h1 := some w } := by
  rw [s.swGive_cur]
  unfold State.swGive
  dsimp only
  cases hd : dest i with
  | none => rfl
  | some w =>
    have h8 : i ≠ 8 := fun h => by rw [h, hm] at hd; cases hd
    have h9 : i ≠ 9 := fun h => by rw [h, hp] at hd; cases hd
    dsimp only
    unfold State.swPush
    dsimp only
    rw [if_neg h8, if_neg h9]
    split_ifs
    · exact State.pushLane_congr f s _ _ _ _ w hcredits hflight
    all_goals rw [State.xbar_setXbar_self]

theorem State.swGive_toCore (s : State) (i : Nat) {q : Nat} (hq : q < 4) :
    ((s.swGive dest i).xbar (s.swGive dest i).cur.tb).toCore.get [] q =
      if i = 4 + q then (s.xbar s.cur.tb).toCore.get [] q ++ (dest (4 + q)).toList else (s.xbar s.cur.tb).toCore.get [] q := by
  refine (State.swGive_cases hm hp (fun x => x.toCore.get [] q) s i (fun _ _ => rfl) fun _ _ => rfl).trans ?_
  dsimp only
  by_cases hi : i = 4 + q
  · subst hi
    rw [if_pos rfl]
    cases dest (4 + q) with
    | none => exact (List.append_nil _).symm
    | some w =>
      dsimp only
      rw [if_neg (by omega), if_pos (by omega), Nat.add_sub_cancel_left, AMap.get_set_self]
      rfl
  · rw [if_neg hi]
    cases dest i with
    | none => rfl
    | some w =>
      dsimp only
      split_ifs
      · rfl
      · exact AMap.get_set_ne _ _ _ _ _ (by omega)
      · rfl
      · rfl

theorem State.swGive_h0 (s : State) (i : Nat) :
    ((s.swGive dest i).xbar (s.swGive dest i).cur.tb).h0 =
      if i = 10 then (dest 10).or (s.xbar s.cur.tb).h0 else (s.xbar s.cur.tb).h0 := by
  refine (State.swGive_cases hm hp Xbar.h0 s i (fun _ _ => rfl) fun _ _ => rfl).trans ?_
  dsimp only
  by_cases hi : i = 10
  · subst hi
    cases dest 10 <;> rfl
  · rw [if_neg hi]
    cases dest i with
    | none => rfl
    | some w => simp only [if_neg hi, ite_self]

theorem State.swGive_h1 (s : State) {i : Nat} (hlt : i < 12) :
    ((s.swGive dest i).xbar (s.swGive dest i).cur.tb).h1 =
      if i = 11 then (dest 11).or (s.xbar s.cur.tb).h1 else (s.xbar s.cur.tb).h1 := by
  refine (State.swGive_cases hm hp Xbar.h1 s i (fun _ _ => rfl) fun _ _ => rfl).trans ?_
  dsimp only
  by_cases hi : i = 11
  · subst hi
    cases dest 11 <;> rfl
  · rw [if_neg hi]
    cases hd : dest i with
    | none => rfl
    | some w =>
      have h8 : i ≠ 8 := fun h => by rw [h, hm] at hd; cases hd
      have h9 : i ≠ 9 := fun h => by rw [h, hp] at hd; cases hd
      dsimp only
      split_ifs
      · rfl
      · rfl
      · rfl
      · omega

theorem State.swGive_kept (s : State) (i q : Nat) :
    (((s.swGive dest i).xbar (s.swGive dest i).cur.tb).fromCore.get [] q, ((s.swGive dest i).xbar (s.swGive dest i).cur.tb).pc) =
      ((s.xbar s.cur.tb).fromCore.get [] q, (s.xbar s.cur.tb).pc) := by
  refine (State.swGive_cases hm hp (fun x => (x.fromCore.get [] q, x.pc)) s i (fun _ _ => rfl) fun _ _ => rfl).trans ?_
  dsimp only
  cases dest i with
  | none => rfl
  | some w => simp only [ite_self]

end

/-- R299: in a switch instruction that is ready every named destination has a word to take. -/
theorem State.swDest_of_ready {s : State} (h : s.swReady = true) {i : Nat} (hi : i < 12) (hc : s.routeCode i ≠ 0) :
    s.swDest i = s.swHead (s.routeCode i) ∧ (s.swHead (s.routeCode i)).isSome := by
  refine ⟨if_neg hc, ?_⟩
  have hroute : (i, s.routeCode i) ∈ s.routes :=
    List.mem_filter.2 ⟨List.mem_map.2 ⟨i, List.mem_range.2 hi, rfl⟩, by simpa using hc⟩
  have hready := List.all_eq_true.1 h _ hroute
  dsimp only at hready
  cases hw : s.swHead (s.routeCode i) with
  | none => rw [hw] at hready; cases hready
  | some w => rfl

theorem State.swDest_register {s : State} (h : s.swReady = true) {i : Nat} (hi : i < 12) (old : Option NetWord) :
    (s.swDest i).or old = if s.routeCode i = 0 then old else s.swHead (s.routeCode i) := by
  split
  · next hc => rw [State.swDest, if_pos hc]; rfl
  · next hc =>
    obtain ⟨hd, hw⟩ := State.swDest_of_ready h hi hc
    obtain ⟨w, hw⟩ := Option.isSome_iff_exists.1 hw
    rw [hd, hw]
    rfl

theorem switchMoves : Parts.SwitchMoves := by
  intro s hready hm hp hengines x y
  have hdm : s.swDest 8 = none := if_pos hm
  have hdp : s.swDest 9 = none := if_pos hp
  have hsources : ∀ c ∈ s.swSources, c ≠ 9 ∧ c ≠ 10 := by
    intro c hc
    obtain ⟨-, i, hi, rfl⟩ := State.mem_swSources.1 hc
    exact hengines i hi
  have hcur : (s.swMove none none).cur = s.cur := s.swMove_cur none none
  have hy : y = (s.swMove none none).xbar (s.swMove none none).cur.tb := by rw [hcur]
  have hnodup : (List.range 12).Nodup := List.nodup_range
  have hpops {β : Type} (f : Xbar → β) (hf : ∀ (s : State) c k, c ≠ 9 → c ≠ 10 → f ((s.swPop c).xbar k) = f (s.xbar k)) :
      f ((s.swSources.foldl State.swPop s).xbar (s.swSources.foldl State.swPop s).cur.tb) = f x :=
    foldl_keeps_mem State.swPop (fun u => f (u.xbar u.cur.tb)) (fun u c hc => by
      rw [u.swPop_cur, hf u c _ (hsources c hc).1 (hsources c hc).2]) s
  rw [hy, s.swMove_eq]
  have hregisters := hpops (fun x => (x.h0, x.h1, x.pc)) fun u c k h9 h10 => u.swPop_registers h9 h10 k
  simp only [Prod.mk.injEq] at hregisters
  obtain ⟨hh0, hh1, hpc⟩ := hregisters
  refine ⟨fun q hq => ?_, fun q hq => ?_, ?_, ?_, ?_, ?_⟩
  · refine (foldl_once (State.swGive s.swDest) (fun u => (u.xbar u.cur.tb).toCore.get [] q) (· ++ (s.swDest (4 + q)).toList) (4 + q)
      hnodup (fun u i _ => u.swGive_toCore hdm hdp i hq) _).trans ?_
    rw [if_pos (List.mem_range.2 (by omega)), hpops (fun x => x.toCore.get [] q) fun u c k h9 h10 => by rw [u.swPop_toCore h9 h10],
      State.swDest]
    split <;> rfl
  · have hmem : 5 + q ∈ s.swSources ↔ ((List.range 12).any fun i => s.routeCode i == 5 + q) = true := by
      simp only [State.mem_swSources, List.any_eq_true, List.mem_range, beq_iff_eq]
      exact and_iff_right (by omega)
    have hkept := foldl_keeps_mem (State.swGive s.swDest) (fun u => ((u.xbar u.cur.tb).fromCore.get [] q, (u.xbar u.cur.tb).pc))
      (l := List.range 12) (fun u i _ => u.swGive_kept hdm hdp i q) (s.swSources.foldl State.swPop s)
    refine (congrArg Prod.fst hkept).trans ?_
    simp only [← hmem]
    exact foldl_once State.swPop (fun u => (u.xbar u.cur.tb).fromCore.get [] q) (List.drop 1) (5 + q) (nodup_uniq _)
      (fun u c hc => u.swPop_fromCore (hsources c hc).1 (hsources c hc).2 hq) s
  · refine (foldl_once (State.swGive s.swDest) (fun u => (u.xbar u.cur.tb).h0) (s.swDest 10).or 10 hnodup
      (fun u i _ => u.swGive_h0 hdm hdp i) _).trans ?_
    rw [if_pos (List.mem_range.2 (by omega)), hh0, State.swDest_register hready (by omega)]
  · refine (foldl_once (State.swGive s.swDest) (fun u => (u.xbar u.cur.tb).h1) (s.swDest 11).or 11 hnodup
      (fun u i hi => u.swGive_h1 hdm hdp (List.mem_range.1 hi)) _).trans ?_
    rw [if_pos (List.mem_range.2 (by omega)), hh1, State.swDest_register hready (by omega)]
  · have hkept := foldl_keeps_mem (State.swGive s.swDest) (fun u => ((u.xbar u.cur.tb).fromCore.get [] 0, (u.xbar u.cur.tb).pc))
      (l := List.range 12) (fun u i _ => u.swGive_kept hdm hdp i 0) (s.swSources.foldl State.swPop s)
    exact (congrArg Prod.snd hkept).trans hpc
  · rw [← s.swMove_eq]
    exact s.swMove_mem none none

/-- Settles O41: a ready switch instruction moves its words once, each to all its destinations, and then acts on its registers. -/
theorem switches : Obligations.Switches := ⟨switchInstructions, switchMoves⟩

end Sys2Proof.Machine

namespace Sys2Proof.Machine

/-! ## O43. A template whose whole descriptor is malformed -/

theorem exec_code (s : State) : exec .code s = execCode s := rfl

/-- A load of one tile whose frames have given template 0 a whole descriptor, of zeros: no count of it may be 0 (R155). -/
def zeroDescriptor : LoadJob :=
  { id := 0, resid := 1, shadow := false, cand := { lq := 0, dwords := [], age := 0, since := 0 }, image := 0, next := 4, total := 8,
    parts := [(0, 0), (0, 1), (0, 2)] }

/-- The residency that it loads. -/
def oneTile : Residency := { num := 1, cand := { lq := 0, dwords := [], age := 0, since := 0 }, x := 0, y := 0, w := 1, h := 1, fold := 1, banks := [0] }

/-- A CODE frame of no words for core 0 of that tile is latched. -/
def emptyCode : State := { State.reset with word := 2 ^ 240, sched := { res := [oneTile], loads := [zeroDescriptor] } }

theorem emptyCode_frameAt : Claims.frameAt emptyCode zeroDescriptor oneTile ⟨0, 0, 0, 0⟩ := by
  refine ⟨rfl, rfl, rfl, ?_, by decide, rfl, ?_, ?_⟩ <;> decide +kernel

theorem emptyCode_cores : emptyCode.frameCores = [0] := by decide +kernel

theorem emptyCode_words : Claims.fields emptyCode 199 3 = 0 ∧ Claims.fields emptyCode 202 14 = 0 ∧ Claims.fields emptyCode 0 192 = 0 ∧
    Claims.fields emptyCode 193 6 = 0 := by decide +kernel

/-- The load fails by the descriptor. -/
theorem emptyCode_fails : ∃ t, exec .code emptyCode = .next t ∧ t.sched.loads = [] := ⟨_, rfl, by decide +kernel⟩

/-- Refutes O43: of a CODE frame that passes its own checks it says that the load goes on, and no premise bars a template whose descriptor has
been read whole and fails check 0x0A, which every frame checks again. At `emptyCode` the load fails and is dropped. -/
theorem not_imageFrames : ¬ Obligations.ImageFrames := by
  rintro ⟨⟨-, -, writes⟩, -⟩
  obtain ⟨hn, hidx, hwords, hreloc⟩ := emptyCode_words
  obtain ⟨code, -⟩ := writes emptyCode zeroDescriptor oneTile _ emptyCode_frameAt
  obtain ⟨t, ht, hnext, -⟩ := code 0 emptyCode_cores rfl (by rw [hn]; decide) (by rw [hn, hwords]; decide) hreloc
    (by rw [hn, hidx]; exact Nat.zero_le _)
  obtain ⟨u, hu, hdropped⟩ := emptyCode_fails
  obtain rfl : t = u := Host.Outcome.next.inj (ht.symm.trans hu)
  cases hdropped.symm.trans hnext

end Sys2Proof.Machine

namespace Sys2Proof.Machine

/-! ## O46. A table of symbol errors that lists a sector twice -/

/-- Sector 0 is listed twice with one symbol in error: correcting it takes away the first of the two. -/
def listedTwice : State := { State.reset with symbolErrors := [(0, 1), (0, 1)] }

theorem listedTwice_present : listedTwice.conf.channels.contains (channelOf listedTwice.cur.n) = false := by decide +kernel

theorem listedTwice_soft : listedTwice.sectorSoft listedTwice.cur.n = true := by decide +kernel

/-- The scrubber's correction leaves a symbol in error. -/
theorem listedTwice_stays : ∃ t, exec .patrolScrub listedTwice = .next t ∧ t.sectorSoft listedTwice.cur.n = true :=
  ⟨_, rfl, by decide +kernel⟩

/-- Refutes O46: of the scrubber it says, over every state, that a soft sector is clean once it is corrected, and no premise bars a table
that lists a sector twice, of which a correction takes away the first entry alone. `listedTwice` is such a state; the model's own writes of
the table keep its keys apart. -/
theorem not_memoryCare : ¬ Obligations.MemoryCare := by
  rintro ⟨scrubs, -⟩
  obtain ⟨-, present⟩ := scrubs listedTwice
  obtain ⟨-, -, soft⟩ := present listedTwice_present
  obtain ⟨t, ht, -, hclean, -⟩ := soft listedTwice_soft
  obtain ⟨u, hu, hsoft⟩ := listedTwice_stays
  obtain rfl : t = u := Host.Outcome.next.inj (ht.symm.trans hu)
  exact Bool.false_ne_true (hclean.symm.trans hsoft)

end Sys2Proof.Machine

namespace Sys2Proof.Machine

/-! ## O50, O51. The mailbox -/

theorem exec_hostRegisterWrite (off : BitVec 21) (size : BitVec 4) (v : BitVec 64) (s : State) :
    exec (.hostRegisterWrite off size v) s = execHostRegisterWrite off size v s := rfl
theorem exec_tlbinv (s : State) : exec .tlbinv s = execTlbinv s := rfl
theorem exec_regload (s : State) : exec .regload s = execRegload s := rfl
theorem exec_spillresume (s : State) : exec .spillresume s = execSpillresume s := rfl

/-! ### The end of a command (R386) -/

/-- An answer of the mailbox: nothing changes but STATUS, the scheduler's buffer and the event log. -/
structure State.Answers (s u : State) : Prop where
  frame : u = { s with
    host := { s.host with status := u.host.status }
    sched := { s.sched with buffer := u.sched.buffer }
    mgmt := { s.mgmt with log := u.mgmt.log, logCount := u.mgmt.logCount } }

theorem State.post_answers (s : State) (e : EventRec) : s.Answers (s.post e) := by
  unfold State.post
  dsimp only
  split <;> exact ⟨rfl⟩

/-- A record enters the buffer, and the mailbox stands. -/
theorem State.post_host (s : State) (e : EventRec) : (s.post e).host = s.host := by
  unfold State.post
  dsimp only
  split <;> rfl

/-- STATUS after a command has ended with an error (R386). -/
def State.doneStatus (s : State) (err : Nat) : W64 := s.host.running.extractLsb' 0 32 ++ 0#16 ++ BitVec.ofNat 8 err ++ 2#8

def State.withDone (s : State) (err : Nat) : State := { s with host := { s.host with status := s.doneStatus err } }

/-- The event that a command has ended (R386). -/
def State.doneEvent (s : State) (err : Nat) : EventRec :=
  ⟨0, BitVec.ofNat 8 0x30 ++ BitVec.ofNat 8 0 ++ 0#16 ++ BitVec.ofNat 32 s.mailboxCode, s.doneStatus err, 0⟩

theorem State.mailboxDone_eq (s : State) (err : Nat) :
    s.mailboxDone err = if (s.eventQueue 0).irq then (s.withDone err).post (s.doneEvent err) else s.withDone err := rfl

theorem State.mailboxDone_answers (s : State) (err : Nat) : s.Answers (s.mailboxDone err) := by
  rw [State.mailboxDone_eq]
  split
  · exact ⟨((s.withDone err).post_answers _).frame⟩
  · exact ⟨rfl⟩

theorem State.mailboxDone_status (s : State) (err : Nat) : (s.mailboxDone err).host.status = s.doneStatus err := by
  rw [State.mailboxDone_eq]
  split
  · rw [State.post_host]
    rfl
  · rfl

section
variable (s : State) (err : Nat)

@[simp] theorem State.mailboxDone_ctxs : (s.mailboxDone err).ctxs = s.ctxs := by rw [(s.mailboxDone_answers err).frame]
@[simp] theorem State.mailboxDone_tlbs : (s.mailboxDone err).tlbs = s.tlbs := by rw [(s.mailboxDone_answers err).frame]
@[simp] theorem State.mailboxDone_regions : (s.mailboxDone err).regions = s.regions := by rw [(s.mailboxDone_answers err).frame]
@[simp] theorem State.mailboxDone_ports : (s.mailboxDone err).ports = s.ports := by rw [(s.mailboxDone_answers err).frame]
@[simp] theorem State.mailboxDone_channels : (s.mailboxDone err).channels = s.channels := by rw [(s.mailboxDone_answers err).frame]
@[simp] theorem State.mailboxDone_tiles : (s.mailboxDone err).tiles = s.tiles := by rw [(s.mailboxDone_answers err).frame]
@[simp] theorem State.mailboxDone_rspBuf : (s.mailboxDone err).host.rspBuf = s.host.rspBuf := by
  rw [(s.mailboxDone_answers err).frame]
@[simp] theorem State.mailboxDone_spills : (s.mailboxDone err).sched.spills = s.sched.spills := by
  rw [(s.mailboxDone_answers err).frame]
@[simp] theorem State.mailboxDone_res : (s.mailboxDone err).sched.res = s.sched.res := by rw [(s.mailboxDone_answers err).frame]
@[simp] theorem State.mailboxDone_cap : (s.mailboxDone err).mgmt.cap = s.mgmt.cap := by rw [(s.mailboxDone_answers err).frame]
@[simp] theorem State.mailboxDone_captures : (s.mailboxDone err).mgmt.captures = s.mgmt.captures := by
  rw [(s.mailboxDone_answers err).frame]
@[simp] theorem State.mailboxDone_replay : (s.mailboxDone err).mgmt.replay = s.mgmt.replay := by
  rw [(s.mailboxDone_answers err).frame]

end

/-- The low bits of the command's code in the event of its end. -/
theorem State.mailboxCode_word (s : State) (kind : BitVec 8) :
    (kind ++ BitVec.ofNat 8 0 ++ 0#16 ++ BitVec.ofNat 32 s.mailboxCode).extractLsb' 0 16 = s.host.running.extractLsb' 48 16 := by
  refine (extract_append_low (n := 32) (by decide)).trans ?_
  apply BitVec.eq_of_toNat_eq
  have := (s.host.running.extractLsb' 48 16).isLt
  simp only [State.mailboxCode, BitVec.extractLsb'_toNat, BitVec.toNat_ofNat] at *
  omega

/-- A command that ends as the one that runs, with the event queue as it was, is finished. -/
theorem finished_of_mailboxDone {s u : State} (err : Nat) (hr : u.host.running = s.host.running) (hq : u.sched.eq = s.sched.eq) :
    Claims.finished s (u.mailboxDone err) err := by
  have hst := u.mailboxDone_status err
  refine ⟨by rw [hst, State.doneStatus, hr], fun hirq => ?_⟩
  have hirq' : (u.eventQueue 0).irq = true := by rwa [State.eventQueue, hq]
  refine ⟨u.doneEvent err, ?_, rfl, ?_, ?_, hst.symm⟩
  · rw [State.mailboxDone_eq, if_pos hirq', State.post_sched]
    exact List.getLast?_concat ..
  · exact extract_append_high (n := 32) (by decide)
  · exact (u.mailboxCode_word _).trans (by rw [hr])

theorem finished_mailboxDone (s : State) (err : Nat) : Claims.finished s (s.mailboxDone err) err := finished_of_mailboxDone err rfl rfl

/-- A refusal names an error that is not zero. -/
theorem turnedAway_refuse (s : State) : Claims.turnedAway s s.refuse := by
  refine ⟨_, ?_, ?_, finished_of_mailboxDone _ rfl rfl⟩
  · split
    · decide
    · next h => exact Nat.pos_of_ne_zero fun h0 => h (BitVec.eq_of_toNat_eq h0)
  · split
    · decide
    · exact BitVec.isLt _

@[simp] theorem State.refuse_tlbs (s : State) : s.refuse.tlbs = s.tlbs := State.mailboxDone_tlbs ..
@[simp] theorem State.refuse_regions (s : State) : s.refuse.regions = s.regions := State.mailboxDone_regions ..
@[simp] theorem State.refuse_channels (s : State) : s.refuse.channels = s.channels := State.mailboxDone_channels ..
@[simp] theorem State.refuse_cap (s : State) : s.refuse.mgmt.cap = s.mgmt.cap := State.mailboxDone_cap ..
@[simp] theorem State.refuse_spills (s : State) : s.refuse.sched.spills = s.sched.spills := State.mailboxDone_spills ..

/-! ### The form of a command (R386) -/

theorem State.mailboxBusy_iff (s : State) : s.mailboxBusy = true ↔ s.host.status.extractLsb' 0 2 = 1 := beq_iff_eq

section
variable {s : State} {code len : Nat} {f : State → (Nat → W64) → State}

theorem State.command_idle (h : s.host.status.extractLsb' 0 2 ≠ 1 ∨ (s.host.running.extractLsb' 48 16).toNat ≠ code) :
    s.command code len f = s :=
  if_pos (h.imp (fun h => Bool.eq_false_iff.2 fun hb => h (s.mailboxBusy_iff.1 hb)) id)

theorem State.command_asked {n : Nat} (h : Claims.asked s code n) :
    s.command code len f = if n ≠ len then s.mailboxDone 0xFE else f s (Claims.arg s) := by
  obtain ⟨hbusy, hcode, hlen⟩ := h
  unfold State.command
  rw [if_neg (by rw [s.mailboxBusy_iff.2 hbusy]; simp [State.mailboxCode, hcode]), hlen]
  rfl

theorem State.command_taken (h : Claims.asked s code len) : s.command code len f = f s (Claims.arg s) :=
  (State.command_asked h).trans (if_neg fun h => h rfl)

end

/-- Each event of a command runs it under its code and length. -/
theorem exec_commands : ∀ p ∈ Claims.commands, mailboxCodes.contains p.2.1 = true ∧
    ∃ f, ∀ s, exec p.1 s = .next (s.command p.2.1 p.2.2 f) := by
  simp only [Claims.commands, List.forall_mem_cons]
  exact ⟨⟨rfl, _, fun _ => rfl⟩, ⟨rfl, _, fun _ => rfl⟩, ⟨rfl, _, fun _ => rfl⟩, ⟨rfl, _, fun _ => rfl⟩, ⟨rfl, _, fun _ => rfl⟩,
    ⟨rfl, _, fun _ => rfl⟩, ⟨rfl, _, fun _ => rfl⟩, ⟨rfl, _, fun _ => rfl⟩, ⟨rfl, _, fun _ => rfl⟩, ⟨rfl, _, fun _ => rfl⟩,
    ⟨rfl, _, fun _ => rfl⟩, by simp⟩

/-- A write of eight bytes to GO's register is GO. -/
theorem exec_go (v : BitVec 64) (s : State) : exec (.hostRegisterWrite 0x1FF008 8 v) s = .next s.go := rfl

theorem State.go_busy {s : State} (h : s.host.status.extractLsb' 0 2 = 1) : s.go = s := if_pos (s.mailboxBusy_iff.2 h)

theorem State.go_idle {s : State} {code : Nat} (h : s.host.status.extractLsb' 0 2 ≠ 1)
    (hc : (s.host.command.extractLsb' 48 16).toNat = code) (hm : mailboxCodes.contains code = true) (hr : s.recovery = false) :
    s.go = { s with host := { s.host with running := s.host.command, status := s.host.command.extractLsb' 0 32 ++ 1#32 } } := by
  unfold State.go
  rw [if_neg fun hb => h (s.mailboxBusy_iff.1 hb)]
  exact if_neg (by simp [State.mailboxCode, hc, hr]; simpa using hm)

theorem mailboxForm : Parts.MailboxForm := by
  intro p hp s
  obtain ⟨hmem, f, hf⟩ := exec_commands p hp
  refine ⟨fun v => ⟨fun h => ?_, fun h hc hr => ?_⟩, fun h => ?_, fun len ha hne => ⟨s.mailboxDone 0xFE, ?_, ?_, ?_, ?_⟩⟩
  · rw [exec_go, State.go_busy h]
  · rw [exec_go, State.go_idle h hc hmem hr]
  · rw [hf, State.command_idle h]
  · rw [hf, State.command_asked ha, if_pos hne]
  · exact State.mailboxDone_mem ..
  · exact State.mailboxDone_ctxs ..
  · exact finished_mailboxDone ..

/-! ### TLBINV (R359) -/

section
variable {s : State} (ha : Claims.asked s 1 1)
include ha

theorem exec_tlbinv_refused (hn : s.mgmt.shoot = none)
    (h : 3 < (Claims.arg s 0).toNat ∨ 2 ^ 16 ≤ (Claims.arg s 1).toNat ∨
      ((Claims.arg s 0).toNat ≤ 1 ∧ ((Claims.arg s 3).toNat = 0 ∨ 65536 < (Claims.arg s 3).toNat))) :
    exec .tlbinv s = .next s.refuse := by
  rw [exec_tlbinv, execTlbinv, State.command_taken ha]
  simp only [hn]
  rw [if_pos h]

theorem exec_tlbinv_shoots (hn : s.mgmt.shoot = none)
    (h : ¬ (3 < (Claims.arg s 0).toNat ∨ 2 ^ 16 ≤ (Claims.arg s 1).toNat ∨
      ((Claims.arg s 0).toNat ≤ 1 ∧ ((Claims.arg s 3).toNat = 0 ∨ 65536 < (Claims.arg s 3).toNat)))) :
    exec .tlbinv s = .next (s.shootDown (Claims.arg s 0).toNat (Claims.arg s 1).toNat ((Claims.arg s 2).toNat / 2 ^ 16 * 2 ^ 16)
      ((Claims.arg s 2).toNat / 2 ^ 16 * 2 ^ 16 + (Claims.arg s 3).toNat * 2 ^ 16)) := by
  rw [exec_tlbinv, execTlbinv, State.command_taken ha]
  simp only [hn]
  rw [if_neg h]

/-- The accesses under way that used a translation shot down. -/
def State.stillOut (s : State) (l : List (Nat × Nat)) : List (Nat × Nat) :=
  l.filter fun e => (s.tile e.1).txns.any fun y => y.tid == e.2

theorem exec_tlbinv_waiting {l : List (Nat × Nat)} (hn : s.mgmt.shoot = some l) :
    exec .tlbinv s = .next (if s.stillOut l = [] then ({ s with mgmt := { s.mgmt with shoot := none } }).mailboxDone 0
      else { s with mgmt := { s.mgmt with shoot := some (s.stillOut l) } }) := by
  rw [exec_tlbinv, execTlbinv, State.command_taken ha]
  simp only [hn]
  rfl

end

theorem State.stillOut_eq_nil_iff (s : State) (l : List (Nat × Nat)) :
    s.stillOut l = [] ↔ ∀ e ∈ l, ∀ y ∈ (s.tile e.1).txns, y.tid ≠ e.2 := by
  simp [State.stillOut, List.filter_eq_nil_iff]

theorem shotDown_eq_false_iff (scope : W64) (e : TlbEntry) (asid lo hi : Nat) :
    (!shotDown scope.toNat asid lo hi e.asid (e.vpn * 2 ^ e.size) ((e.vpn + 1) * 2 ^ e.size)) = true ↔
      ¬ (scope = 3 ∨ (e.asid = asid ∧ (scope = 2 ∨ (e.vpn * 2 ^ e.size < hi ∧ lo < (e.vpn + 1) * 2 ^ e.size)))) := by
  have hlit (n : Nat) (h : n < 2 ^ 64) : scope.toNat = n ↔ scope = BitVec.ofNat 64 n := by
    rw [← BitVec.toNat_inj, BitVec.toNat_ofNat, Nat.mod_eq_of_lt h]
  simp only [shotDown, Bool.not_eq_true', Bool.eq_false_iff, ne_eq, Bool.or_eq_true, Bool.and_eq_true, beq_iff_eq, decide_eq_true_eq,
    hlit 3 (by decide), hlit 2 (by decide)]
  rfl

theorem tlbinv_claim (s : State) (ha : Claims.asked s 1 1) :
    (∀ lo hi : Nat, s.mgmt.shoot = none → (Claims.arg s 0).toNat ≤ 3 → (Claims.arg s 1).toNat < 2 ^ 16 →
      lo = (Claims.arg s 2).toNat / 2 ^ 16 * 2 ^ 16 →
      hi = lo + (Claims.arg s 3).toNat * 2 ^ 16 →
      ((Claims.arg s 0).toNat ≤ 1 → 1 ≤ (Claims.arg s 3).toNat ∧ (Claims.arg s 3).toNat ≤ 65536) →
      ∃ t, exec .tlbinv s = .next t ∧ t.mem = s.mem ∧ t.host = s.host ∧ t.mgmt.shoot ≠ none ∧
        ∀ e, e ∈ t.tlbs ↔ e ∈ s.tlbs ∧ ¬ (Claims.arg s 0 = 3 ∨ (e.asid = (Claims.arg s 1).toNat ∧ (Claims.arg s 0 = 2 ∨
          (e.vpn * 2 ^ e.size < hi ∧ lo < (e.vpn + 1) * 2 ^ e.size))))) ∧
    (s.mgmt.shoot = none → (Claims.arg s 0).toNat ≤ 1 → (Claims.arg s 3 = 0 ∨ 65536 < (Claims.arg s 3).toNat) →
      ∃ t, exec .tlbinv s = .next t ∧ t.mem = s.mem ∧ t.tlbs = s.tlbs ∧ Claims.turnedAway s t) ∧
    (∀ l, s.mgmt.shoot = some l → (∀ e ∈ l, ∀ y ∈ (s.tile e.1).txns, y.tid ≠ e.2) →
      ∃ t, exec .tlbinv s = .next t ∧ t.mem = s.mem ∧ t.tlbs = s.tlbs ∧ Claims.finished s t 0) ∧
    (∀ l, s.mgmt.shoot = some l → (∃ e ∈ l, ∃ y ∈ (s.tile e.1).txns, y.tid = e.2) →
      ∃ t, exec .tlbinv s = .next t ∧ t.host = s.host ∧ t.tlbs = s.tlbs) := by
  refine ⟨fun lo hi hn h0 h1 hlo hhi hc => ?_, fun hn h0 h3 => ?_, fun l hl h => ?_, fun l hl ⟨e, he, y, hy, hye⟩ => ?_⟩
  · refine ⟨_, exec_tlbinv_shoots ha hn (by omega), rfl, rfl, Option.some_ne_none _, fun e => ?_⟩
    rw [← hlo, ← hhi]
    exact List.mem_filter.trans (and_congr_right fun _ => shotDown_eq_false_iff ..)
  · refine ⟨_, exec_tlbinv_refused ha hn (.inr (.inr ⟨h0, h3.imp (fun h => by rw [h]; rfl) id⟩)), ?_, ?_, turnedAway_refuse s⟩
    · exact State.refuse_mem s
    · exact State.refuse_tlbs s
  · refine ⟨_, (exec_tlbinv_waiting ha hl).trans (congrArg _ (if_pos ((s.stillOut_eq_nil_iff l).2 h))), ?_, ?_, finished_of_mailboxDone 0 rfl rfl⟩
    · exact State.mailboxDone_mem ..
    · exact State.mailboxDone_tlbs ..
  · have hne : s.stillOut l ≠ [] := fun h => (s.stillOut_eq_nil_iff l).1 h e he y hy hye
    exact ⟨_, (exec_tlbinv_waiting ha hl).trans (congrArg _ (if_neg hne)), rfl, rfl⟩

/-! ### REGLOAD (R362) -/

/-- The regions that a REGLOAD's payload names. -/
def State.askedRegions (s : State) : List Region := (List.range 8).map fun i => readRegion fun j => Claims.arg s (36 * i + j)

section
variable {s : State} (ha : Claims.asked s 2 72)
include ha

theorem exec_regload_refused (h : s.anyLive = true ∨ s.memOutstanding = true) : exec .regload s = .next s.refuse := by
  rw [exec_regload, execRegload, State.command_taken ha]
  dsimp only
  rw [if_pos h]

theorem exec_regload_checked (h : ¬ (s.anyLive = true ∨ s.memOutstanding = true)) :
    exec .regload s = .next (match (List.range 8).find? fun i => regionCheck (Claims.arg s) s.askedRegions i != 0 with
      | some i => ({ s with host := { s.host with rspBuf := [(0, BitVec.ofNat 64 i)] } }).mailboxDone
          (regionCheck (Claims.arg s) s.askedRegions i)
      | none => if s.portsDrained then ({ s with regions := s.askedRegions }).mailboxDone 0 else s) := by
  rw [exec_regload, execRegload, State.command_taken ha]
  dsimp only
  rw [if_neg h]
  rfl

end

theorem State.portsDrained_iff (s : State) : s.portsDrained = true ↔ ∀ x ∈ s.inbox, x.node < 2048 ∨ 2176 ≤ x.node := by
  simp only [State.portsDrained, Bool.not_eq_true', List.any_eq_false, Bool.and_eq_true, decide_eq_true_eq, not_and_or, Nat.not_le,
    Nat.not_lt]

/-- The first entry that fails its check. -/
theorem find_range_first {p : Nat → Bool} {n i : Nat} (hi : i < n) (hp : p i = true) (h : ∀ j, j < i → p j = false) :
    (List.range n).find? p = some i :=
  List.find?_range_eq_some.2 ⟨hp, List.mem_range.2 hi, fun j hj => by simp [h j hj]⟩

theorem regload_claim (s : State) (ha : Claims.asked s 2 72) :
    let entry (i : Nat) : Region := readRegion fun j => Claims.arg s (36 * i + j)
    let flaw (i : Nat) : Nat := regionCheck (Claims.arg s) ((List.range 8).map entry) i
    let hosts := s.inbox.any fun x => x.p.h.host
    (s.sched.res ≠ [] ∨ hosts = true → ∃ t, exec .regload s = .next t ∧ t.regions = s.regions ∧ t.mem = s.mem ∧ Claims.turnedAway s t) ∧
    (s.sched.res = [] → hosts = false → (∀ i, i < 8 → flaw i = 0) →
      ((∀ x ∈ s.inbox, x.node < 2048 ∨ 2176 ≤ x.node) →
        ∃ t, exec .regload s = .next t ∧ t.mem = s.mem ∧ t.regions = (List.range 8).map entry ∧ Claims.finished s t 0) ∧
      ((∃ x ∈ s.inbox, 2048 ≤ x.node ∧ x.node < 2176) → exec .regload s = .next s)) ∧
    (∀ i, s.sched.res = [] → hosts = false → i < 8 → flaw i ≠ 0 → (∀ j, j < i → flaw j = 0) →
      ∃ t, exec .regload s = .next t ∧ t.mem = s.mem ∧ t.regions = s.regions ∧ t.host.rspBuf.get 0 0 = BitVec.ofNat 64 i ∧
        Claims.finished s t (flaw i)) := by
  intro entry flaw hosts
  have hopen (hres : s.sched.res = []) (hh : hosts = false) : ¬ (s.anyLive = true ∨ s.memOutstanding = true) := by
    simp only [State.anyLive, hres]
    exact fun h => h.elim (by simp) fun h => absurd (hh.symm.trans h) (by decide)
  refine ⟨fun h => ?_, fun hres hh hfine => ?_, fun i hres hh hi hflaw hfirst => ?_⟩
  · refine ⟨_, exec_regload_refused ha (h.imp_left fun h => bne_iff_ne.2 h), ?_, ?_, turnedAway_refuse s⟩
    · exact State.refuse_regions s
    · exact State.refuse_mem s
  · have hnone : (List.range 8).find? (fun i => regionCheck (Claims.arg s) s.askedRegions i != 0) = none :=
      List.find?_eq_none.2 fun i hi => by
        rw [show regionCheck (Claims.arg s) s.askedRegions i = 0 from hfine i (List.mem_range.1 hi)]
        decide
    have hrun := exec_regload_checked ha (hopen hres hh)
    rw [hnone] at hrun
    refine ⟨fun h => ⟨_, hrun.trans (congrArg _ (if_pos (s.portsDrained_iff.2 h))), ?_, ?_, finished_of_mailboxDone 0 rfl rfl⟩,
      fun ⟨x, hx, hlo, hhi⟩ => hrun.trans ?_⟩
    · exact State.mailboxDone_mem ..
    · exact State.mailboxDone_regions ..
    · have hbusy : ¬ s.portsDrained = true := fun h => by
        have := s.portsDrained_iff.1 h x hx
        omega
      exact congrArg _ (if_neg hbusy)
  · have hsome : (List.range 8).find? (fun i => regionCheck (Claims.arg s) s.askedRegions i != 0) = some i :=
      find_range_first hi (bne_iff_ne.2 hflaw) fun j hj => by
        rw [show regionCheck (Claims.arg s) s.askedRegions j = 0 from hfirst j hj]
        rfl
    have hrun := exec_regload_checked ha (hopen hres hh)
    rw [hsome] at hrun
    refine ⟨_, hrun, ?_, ?_, ?_, finished_of_mailboxDone _ rfl rfl⟩
    · exact State.mailboxDone_mem ..
    · exact State.mailboxDone_regions ..
    · rw [State.mailboxDone_rspBuf]
      rfl

/-! ### SPILLRESUME (R378) -/

/-- The request that a SPILLRESUME names. -/
def State.askedSpill (s : State) : Option SpillReq :=
  s.sched.spills.find? fun x => x.resid == (Claims.arg s 0).toNat && x.tile == (Claims.arg s 1).toNat &&
    x.tag == some (Claims.arg s 2).toNat

/-- The place that the fault of a spill is reported for. -/
def SpillReq.faultWord (x : SpillReq) (r : Residency) : W64 :=
  let p : Cur := if x.party = 2 then {} else placeOf x.key
  eventWord 0x10 4 r.num x.tile p.q p.b 0

section
variable {s : State} (ha : Claims.asked s 3 1)
include ha

theorem exec_spillresume_found {x : SpillReq} {r : Residency} (hx : s.askedSpill = some x)
    (hr : s.findRes (Claims.arg s 0).toNat = some r) (hrun : r.running = true) :
    exec .spillresume s = .next (if Claims.arg s 3 = 0 then (s.resumeSpill x).mailboxDone 0
      else if Claims.arg s 3 = 1 then (s.decideFault r 4 (x.faultWord r) 0 0).mailboxDone 0 else s.refuse) := by
  rw [State.askedSpill] at hx
  have hf : (s.findRes (Claims.arg s 0).toNat).filter Residency.running = some r := by rw [hr, Option.filter_some, if_pos hrun]
  rw [exec_spillresume, execSpillresume, State.command_taken ha]
  simp only [hx, hf]
  rfl

theorem exec_spillresume_unknown (hx : s.askedSpill = none) : exec .spillresume s = .next s.refuse := by
  rw [State.askedSpill] at hx
  rw [exec_spillresume, execSpillresume, State.command_taken ha]
  simp only [hx]

end

/-- A spill's request is outstanding no more. -/
def State.dropSpill (s : State) (x : SpillReq) : State :=
  s.setSched { s.sched with spills := s.sched.spills.filter fun y => y != x }

/-- What a resumed spill leaves, besides the requests, contexts and tiles. -/
theorem State.resumeSpill_frame (s : State) (x : SpillReq) :
    (s.resumeSpill x).sched = { s.sched with spills := s.sched.spills.filter fun y => y != x } ∧ (s.resumeSpill x).host = s.host := by
  unfold State.resumeSpill
  dsimp only
  (repeat' split) <;> exact ⟨rfl, rfl⟩

theorem State.resumeSpill_ctx {s : State} {x : SpillReq} (hp : x.party = 1) (hw : (s.ctx x.key).wait = .spill) :
    ((s.resumeSpill x).ctx x.key).wait = .none := by
  have hrun : s.resumeSpill x = (s.dropSpill x).setCtx x.key { s.ctx x.key with wait := .none } := (if_pos hp).trans (if_pos hw)
  rw [hrun, State.ctx_setCtx_self]

theorem State.resumeSpill_bank {s : State} {x : SpillReq} (hp : x.party = 2) :
    ((s.resumeSpill x).bank x.tile x.queue).spillFaulted = false := by
  have hrun : s.resumeSpill x =
      (s.dropSpill x).setBank x.tile x.queue { s.bank x.tile x.queue with spillFaulted := false } :=
    (if_neg (by rw [hp]; decide)).trans (if_pos hp)
  rw [hrun, State.bank_setBank_self]

theorem State.mailboxDone_ctx (s : State) (err k : Nat) : (s.mailboxDone err).ctx k = s.ctx k := by
  rw [(s.mailboxDone_answers err).frame]
  rfl

theorem State.mailboxDone_bank (s : State) (err t n : Nat) : (s.mailboxDone err).bank t n = s.bank t n := by
  rw [(s.mailboxDone_answers err).frame]
  rfl

/-- A fault's decision leaves the mailbox and the event queues. -/
theorem State.decideFault_mailbox (s : State) (r : Residency) (reason : Nat) (d0 d1 d2 : W64) :
    (s.decideFault r reason d0 d1 d2).host = s.host ∧ (s.decideFault r reason d0 d1 d2).sched.eq = s.sched.eq := by
  rw [State.decideFault_eq]
  dsimp only
  split
  · exact ⟨rfl, rfl⟩
  · exact ⟨State.post_host .., by rw [State.post_sched]; rfl⟩

theorem decided_mailboxDone {s : State} {n : Nat} {st : ResState} {reason : Nat} (h : Claims.decided s n st reason) (err : Nat) :
    Claims.decided (s.mailboxDone err) n st reason := by
  obtain ⟨r, hr, hrest⟩ := h
  exact ⟨r, (State.findRes_congr (State.mailboxDone_res ..) n).trans hr, hrest⟩

theorem spillresume_claim (s : State) (x : SpillReq) (r : Residency) (ha : Claims.asked s 3 1) (hx : s.askedSpill = some x)
    (hr : s.findRes (Claims.arg s 0).toNat = some r) (hrun : r.running = true) :
    (Claims.arg s 3 = 0 → ∃ t, exec .spillresume s = .next t ∧ t.mem = s.mem ∧ x ∉ t.sched.spills ∧ Claims.finished s t 0 ∧
      (x.party = 1 → (s.ctx x.key).wait = .spill → (t.ctx x.key).wait = .none) ∧
      (x.party = 2 → (t.bank x.tile x.queue).spillFaulted = false)) ∧
    (Claims.arg s 3 = 1 → ∃ t, exec .spillresume s = .next t ∧ t.mem = s.mem ∧ Claims.decided t r.num .faulting 4 ∧
      Claims.finished s t 0) := by
  have hexec := exec_spillresume_found ha hx hr hrun
  refine ⟨fun h3 => ?_, fun h3 => ?_⟩
  · obtain ⟨hsched, hhost⟩ := s.resumeSpill_frame x
    refine ⟨_, hexec.trans (congrArg _ (if_pos h3)), ?_, ?_, finished_of_mailboxDone 0 (by rw [hhost]) (by rw [hsched]),
      fun hp hw => ?_, fun hp => ?_⟩
    · exact (State.mailboxDone_mem ..).trans (State.resumeSpill_mem ..)
    · rw [State.mailboxDone_spills, hsched]
      exact fun h => absurd (List.mem_filter.1 h).2 (by simp)
    · rw [State.mailboxDone_ctx, State.resumeSpill_ctx hp hw]
    · rw [State.mailboxDone_bank, State.resumeSpill_bank hp]
  · obtain ⟨hhost, heq⟩ := s.decideFault_mailbox r 4 (x.faultWord r) 0 0
    have h0 : ¬ Claims.arg s 3 = 0 := by rw [h3]; decide
    refine ⟨_, hexec.trans (congrArg _ ((if_neg h0).trans (if_pos h3))), ?_, ?_, finished_of_mailboxDone 0 (by rw [hhost]) heq⟩
    · exact (State.mailboxDone_mem ..).trans (State.decideFault_mem ..)
    · exact decided_mailboxDone (s.decideFault_decided r _ 4 _ 0 0 hr) 0

theorem mappingCommands : Parts.MappingCommands := by
  refine ⟨tlbinv_claim, regload_claim, spillresume_claim, fun s ha hx => ⟨_, exec_spillresume_unknown ha hx, ?_, ?_, turnedAway_refuse s⟩⟩
  · exact State.refuse_mem s
  · exact State.refuse_spills s

/-- Settles O50, from the form that all commands of the mailbox share and a rule for each branch of the three commands. -/
theorem mailboxMappings : Obligations.MailboxMappings := ⟨mailboxForm, mappingCommands⟩

end Sys2Proof.Machine

namespace Sys2Proof.Machine

/-! ### What an access by physical address leaves (R363, R365, R369) -/

/-- An access changes memory, its marks, its rows and channels, and what records of that leave: buffer and log. -/
structure State.Accessed (s u : State) : Prop where
  frame : u = { s with
    mem := u.mem, badSectors := u.badSectors, badWords := u.badWords, symbolErrors := u.symbolErrors, softPosted := u.softPosted
    ports := u.ports, openRows := u.openRows, rows := u.rows, rowBad := u.rowBad, channels := u.channels
    sched := { s.sched with buffer := u.sched.buffer }
    mgmt := { s.mgmt with log := u.mgmt.log, logCount := u.mgmt.logCount, captWrites := u.mgmt.captWrites } }

theorem State.Accessed.refl (s : State) : s.Accessed s := ⟨rfl⟩

theorem State.Accessed.trans {s u v : State} (a : s.Accessed u) (b : u.Accessed v) : s.Accessed v :=
  ⟨by
    have h := b.frame
    rw [a.frame] at h
    exact h⟩

theorem State.Accessed.ite {s u v : State} (q : Prop) [Decidable q] (a : s.Accessed u) (b : s.Accessed v) :
    s.Accessed (if q then u else v) := by
  split
  · exact a
  · exact b

theorem State.post_accessed (s : State) (e : EventRec) : s.Accessed (s.post e) := by
  unfold State.post
  dsimp only
  split <;> exact ⟨rfl⟩

theorem State.memEvent_accessed (s : State) (kind : Nat) (d1 : W64) (port : Nat) : s.Accessed (s.memEvent kind d1 port) :=
  s.post_accessed _

theorem State.closeRow_accessed (s : State) (bk : Nat) : s.Accessed (s.closeRow bk) := by
  unfold State.closeRow
  dsimp only
  split
  · exact .refl s
  · rename_i r _
    have hsu := State.Accessed.ite (s.rowBad.contains (bk * 2 ^ 15 + r) = true)
      (s.memEvent_accessed 0x22 (BitVec.ofNat 64 (s.openRows.get {} bk).pa) (bk / 128)) (.refl s)
    exact .ite _ (hsu.trans (.trans ⟨rfl⟩ (State.memEvent_accessed ..)))
      (.ite _ (hsu.trans (.trans ⟨rfl⟩ (State.memEvent_accessed ..))) (hsu.trans ⟨rfl⟩))

theorem State.openRow_accessed (s : State) (c pa : Nat) : s.Accessed (s.openRow c pa) := by
  unfold State.openRow
  have hsu := State.Accessed.ite ((s.openRows.get {} (bankOf c)).row.isSome ∧ (s.openRows.get {} (bankOf c)).row ≠ some (rowNumber c))
    (s.closeRow_accessed (bankOf c)) (.refl s)
  exact .ite _ hsu (hsu.trans ⟨rfl⟩)

theorem State.arrive_accessed (s : State) (pa : Nat) : s.Accessed (s.arrive pa).2 := by
  unfold State.arrive
  split
  · exact .refl s
  · split
    · exact s.memEvent_accessed ..
    · split
      · exact ⟨rfl⟩
      · dsimp only
        split
        · exact (s.openRow_accessed ..).trans ⟨rfl⟩
        · exact s.openRow_accessed ..

theorem State.correct_accessed (s : State) (c pa : Nat) : s.Accessed (s.correct c pa) := by
  unfold State.correct
  dsimp only
  split
  · split
    · split
      · exact ⟨rfl⟩
      · exact .trans ⟨rfl⟩ (State.memEvent_accessed ..)
    · exact .trans ⟨rfl⟩ (State.memEvent_accessed ..)
  · exact .refl s

theorem State.checkSector_accessed (s : State) (c pa : Nat) : s.Accessed (s.checkSector c pa).2 := by
  unfold State.checkSector
  split
  · exact s.memEvent_accessed ..
  · exact s.correct_accessed ..

theorem State.checkTouch_accessed (s : State) (c pa : Nat) (u : Touch) : s.Accessed (s.checkTouch c pa u) := by
  unfold State.checkTouch
  have h := s.checkSector_accessed c pa
  split
  · exact h
  · exact ⟨rfl⟩
  · split <;> rename_i e <;> rw [e] at h
    · exact h
    · exact h.trans ⟨rfl⟩

theorem State.visit_accessed (s : State) (pa : Nat) (u : Touch) : s.Accessed (s.visit pa u).2 := by
  unfold State.visit
  have h := s.arrive_accessed pa
  split <;> rename_i e <;> rw [e] at h
  · exact h
  · split
    · exact h
    · exact h.trans (State.checkTouch_accessed ..)

theorem State.physRead_accessed (s : State) (pa : Nat) : s.Accessed (s.physRead pa).2 := by
  unfold State.physRead
  have h := s.visit_accessed pa .read
  split <;> rename_i e <;> rw [e] at h <;> exact h

theorem State.readSectors_accessed (s : State) (got : AMap (Option W256)) (l : List Nat) : s.Accessed (s.readSectors got l).2.2 := by
  induction l generalizing s got with
  | nil => exact .refl s
  | cons pa l ih =>
    unfold State.readSectors
    split
    · exact ih ..
    · have h := s.physRead_accessed pa
      split <;> rename_i e <;> rw [e] at h
      · exact h
      · exact h.trans (ih ..)

theorem State.physWrite_accessed (s : State) (pa n v : Nat) : s.Accessed (s.physWrite pa n v).2 := by
  unfold State.physWrite
  dsimp only
  split
  · exact .refl s
  · have h := s.visit_accessed pa (touchOf (byteMask (pa % 32) n))
    split <;> rename_i e <;> rw [e] at h
    · exact h
    · split
      · exact h
      · exact h.trans ⟨rfl⟩

theorem State.flushCapture_accessed (s : State) (n : Nat) : s.Accessed (s.flushCapture n) := by
  induction n generalizing s with
  | zero => exact .refl s
  | succ n ih =>
    unfold State.flushCapture
    split
    · exact .refl s
    · rename_i pa len v r _
      have h := s.physWrite_accessed pa len v
      split <;> rename_i e <;> rw [e] at h
      · exact h
      · exact (h.trans ⟨rfl⟩).trans (ih _)

theorem State.captWrite_accessed (s : State) (l : List (Nat × Nat × Nat)) : s.Accessed (s.captWrite l) :=
  .trans ⟨rfl⟩ (State.flushCapture_accessed ..)

/-! ## O51. Commands that set and read -/

theorem exec_rowthresh (s : State) : exec .rowthresh s = execRowthresh s := rfl
theorem exec_eyecfg (s : State) : exec .eyecfg s = execEyecfg s := rfl
theorem exec_powercap (s : State) : exec .powercap s = execPowercap s := rfl
theorem exec_replaycfg (s : State) : exec .replaycfg s = execReplaycfg s := rfl
theorem exec_replayload (s : State) : exec .replayload s = execReplayload s := rfl
theorem exec_sensorread (s : State) : exec .sensorread s = execSensorread s := rfl
theorem exec_logread (s : State) : exec .logread s = execLogread s := rfl
theorem exec_almanacread (s : State) : exec .almanacread s = execAlmanacread s := rfl
theorem exec_sensorSample (vals : List (BitVec 32)) (s : State) : exec (.sensorSample vals) s = execSensorSample vals s := rfl

/-! ### ROWTHRESH (R369) -/

/-- A port's thresholds and radius. -/
def Port.withThresholds (y : Port) (a b r : Nat) : Port := { y with mgmt := a, mit := b, radius := r }

/-- Value `j` that the payload of a ROWTHRESH gives port `p`. -/
def State.rowArg (s : State) (p j : Nat) : Nat := (Claims.arg s (3 * p + j)).toNat

def State.rowFine (s : State) (p : Nat) : Prop :=
  2 ≤ s.rowArg p 0 ∧ s.rowArg p 0 < s.rowArg p 1 ∧ s.rowArg p 0 ≤ 4096 ∧ s.rowArg p 1 ≤ 8192 ∧
    (s.rowArg p 2 = 1 ∨ s.rowArg p 2 = 2)

def State.rowOk (s : State) (p : Nat) : Bool :=
  decide (2 ≤ s.rowArg p 0 ∧ s.rowArg p 0 < s.rowArg p 1 ∧ s.rowArg p 0 ≤ 4096 ∧ s.rowArg p 1 ≤ 8192) &&
    (s.rowArg p 2 == 1 || s.rowArg p 2 == 2)

theorem State.rowOk_iff (s : State) (p : Nat) : s.rowOk p = true ↔ s.rowFine p := by
  simp only [State.rowOk, State.rowFine, Bool.and_eq_true, Bool.or_eq_true, beq_iff_eq, decide_eq_true_eq, and_assoc]

/-- Port `p` gets what the payload in `d` gives it. -/
def State.setThresholds (d s : State) (p : Nat) : State :=
  s.setPort p ((s.port p).withThresholds (d.rowArg p 0) (d.rowArg p 1) (d.rowArg p 2))

theorem exec_rowthresh_eq {s : State} (ha : Claims.asked s 4 96) :
    exec .rowthresh s = .next (if (List.range 128).all s.rowOk = false then s.mailboxDone 1
      else ((List.range 128).foldl s.setThresholds s).mailboxDone 0) := by
  rw [exec_rowthresh, execRowthresh, State.command_taken ha]
  rfl

theorem State.setThresholds_port (d s : State) {p : Nat} (hp : p < 128) :
    ((List.range 128).foldl d.setThresholds s).port p =
      (s.port p).withThresholds (d.rowArg p 0) (d.rowArg p 1) (d.rowArg p 2) := by
  refine (foldl_once d.setThresholds (fun u => u.port p)
    (fun y => y.withThresholds (d.rowArg p 0) (d.rowArg p 1) (d.rowArg p 2)) p List.nodup_range (fun u i _ => ?_) s).trans
    (if_pos (List.mem_range.2 hp))
  by_cases h : i = p
  · subst h
    rw [if_pos rfl, State.setThresholds, State.port_setPort_self]
  · rw [if_neg h, State.setThresholds, State.port_setPort_ne _ _ _ _ (Ne.symm h)]

theorem State.mailboxDone_port (s : State) (err p : Nat) : (s.mailboxDone err).port p = s.port p := by
  rw [State.port, State.mailboxDone_ports]
  rfl

theorem rowthresh_claim (s : State) (ha : Claims.asked s 4 96) :
    ((∀ p, p < 128 → s.rowFine p) → ∃ t, exec .rowthresh s = .next t ∧ t.mem = s.mem ∧ Claims.finished s t 0 ∧
      ∀ p, p < 128 → t.port p = (s.port p).withThresholds (s.rowArg p 0) (s.rowArg p 1) (s.rowArg p 2)) ∧
    ((∃ p, p < 128 ∧ ¬ s.rowFine p) →
      ∃ t, exec .rowthresh s = .next t ∧ t.mem = s.mem ∧ t.ports = s.ports ∧ Claims.finished s t 1) := by
  refine ⟨fun h => ?_, fun ⟨p, hp, hbad⟩ => ?_⟩
  · have hall : ¬ (List.range 128).all s.rowOk = false := by
      rw [Bool.not_eq_false, List.all_eq_true]
      exact fun p hp => (s.rowOk_iff p).2 (h p (List.mem_range.1 hp))
    refine ⟨_, (exec_rowthresh_eq ha).trans (congrArg _ (if_neg hall)), ?_, finished_of_mailboxDone 0 ?_ ?_, fun p hp => ?_⟩
    · exact (State.mailboxDone_mem ..).trans (foldl_keeps State.mem _ (fun _ _ => State.setPort_mem ..) _ _)
    · exact foldl_keeps (fun u : State => u.host.running) s.setThresholds (fun _ _ => rfl) _ _
    · exact foldl_keeps (fun u : State => u.sched.eq) s.setThresholds (fun _ _ => rfl) _ _
    · rw [State.mailboxDone_port, s.setThresholds_port s hp]
  · have hall : (List.range 128).all s.rowOk = false :=
      List.all_eq_false.2 ⟨p, List.mem_range.2 hp, fun h => hbad ((s.rowOk_iff p).1 h)⟩
    refine ⟨_, (exec_rowthresh_eq ha).trans (congrArg _ (if_pos hall)), ?_, ?_, finished_mailboxDone s 1⟩
    · exact State.mailboxDone_mem ..
    · exact State.mailboxDone_ports ..

/-! ### EYECFG and POWERCAP (R365, R389) -/

/-- A channel's thresholds and care. -/
def Channel.withCare (c : Channel) (a b : Nat) (auto : Bool) : Channel := { c with thT := a, thV := b, auto := auto }

theorem exec_eyecfg_eq {s : State} (ha : Claims.asked s 5 1) :
    exec .eyecfg s = .next (if 512 ≤ (Claims.arg s 0).toNat ∨ 2 ^ 8 ≤ (Claims.arg s 1).toNat ∨ 2 ^ 8 ≤ (Claims.arg s 2).toNat ∨
        2 ≤ (Claims.arg s 3).toNat then s.refuse
      else (s.setChannel (Claims.arg s 0).toNat ((s.channel (Claims.arg s 0).toNat).withCare (Claims.arg s 1).toNat
        (Claims.arg s 2).toNat (decide (Claims.arg s 3 = 1)))).mailboxDone 0) := by
  rw [exec_eyecfg, execEyecfg, State.command_taken ha]
  rfl

theorem State.mailboxDone_channel (s : State) (err n : Nat) : (s.mailboxDone err).channel n = s.channel n := by
  rw [State.channel, State.mailboxDone_channels]
  rfl

theorem eyecfg_claim (s : State) (ha : Claims.asked s 5 1) :
    let n := (Claims.arg s 0).toNat
    (n < 512 → (Claims.arg s 1).toNat < 256 → (Claims.arg s 2).toNat < 256 → (Claims.arg s 3).toNat < 2 →
      ∃ t, exec .eyecfg s = .next t ∧ t.mem = s.mem ∧ Claims.finished s t 0 ∧ t.channel n =
        { s.channel n with thT := (Claims.arg s 1).toNat, thV := (Claims.arg s 2).toNat, auto := decide (Claims.arg s 3 = 1) }) ∧
    (512 ≤ n → ∃ t, exec .eyecfg s = .next t ∧ t.channels = s.channels ∧ Claims.turnedAway s t) := by
  refine ⟨fun h0 h1 h2 h3 => ?_, fun h => ?_⟩
  · refine ⟨_, (exec_eyecfg_eq ha).trans (congrArg _ (if_neg (by omega))), ?_, finished_of_mailboxDone 0 rfl rfl, ?_⟩
    · exact State.mailboxDone_mem ..
    · rw [State.mailboxDone_channel, State.channel_setChannel, if_pos rfl]
      rfl
  · exact ⟨_, (exec_eyecfg_eq ha).trans (congrArg _ (if_pos (.inl h))), State.refuse_channels s, turnedAway_refuse s⟩

theorem exec_powercap_eq {s : State} (ha : Claims.asked s 0x10 1) :
    exec .powercap s = .next (if (Claims.arg s 0).toNat < 400 ∨ 2400 < (Claims.arg s 0).toNat then s.refuse
      else ({ s with mgmt := { s.mgmt with cap := (Claims.arg s 0).toNat } }).mailboxDone 0) := by
  rw [exec_powercap, execPowercap, State.command_taken ha]

theorem powercap_claim (s : State) (ha : Claims.asked s 0x10 1) :
    let v := (Claims.arg s 0).toNat
    (400 ≤ v → v ≤ 2400 → ∃ t, exec .powercap s = .next t ∧ t.mgmt.cap = v ∧ t.mem = s.mem ∧ Claims.finished s t 0) ∧
    (v < 400 ∨ 2400 < v → ∃ t, exec .powercap s = .next t ∧ t.mgmt.cap = s.mgmt.cap ∧ t.mem = s.mem ∧ Claims.turnedAway s t) := by
  refine ⟨fun hlo hhi => ?_, fun h => ?_⟩
  · refine ⟨_, (exec_powercap_eq ha).trans (congrArg _ (if_neg (by omega))), ?_, ?_, finished_of_mailboxDone 0 rfl rfl⟩
    · exact State.mailboxDone_cap ..
    · exact State.mailboxDone_mem ..
  · exact ⟨_, (exec_powercap_eq ha).trans (congrArg _ (if_pos h)), State.refuse_cap s, State.refuse_mem s, turnedAway_refuse s⟩

/-! ### REPLAYCFG and REPLAYLOAD (R390, R391) -/

/-- The capture that a REPLAYCFG asks for. -/
def State.askedCapture (s : State) : Capture :=
  { lq := (Claims.arg s 0).toNat, addr := (Claims.arg s 1).toNat, size := (Claims.arg s 2).toNat }

/-- It takes the place of those of its queue and at its address. -/
def State.startCapture (s : State) (c : Capture) : State :=
  { s with mgmt := { s.mgmt with captures := (s.mgmt.captures.filter fun (x : Capture) => x.lq != c.lq && x.addr != c.addr) ++ [c] } }

theorem exec_replaycfg_eq {s : State} (ha : Claims.asked s 0x20 1) :
    exec .replaycfg s = .next (if 16 ≤ (Claims.arg s 0).toNat ∨ (Claims.arg s 1).toNat % 32 ≠ 0 ∨
        2 ^ 40 < (Claims.arg s 1).toNat + 32 * (Claims.arg s 2).toNat ∨ Claims.arg s 2 = 0 then s.refuse
      else ((s.startCapture s.askedCapture).captWrite [((Claims.arg s 1).toNat, 16, 0)]).mailboxDone 0) := by
  rw [exec_replaycfg, execReplaycfg, State.command_taken ha]
  rfl

theorem replaycfg_claim (s : State) (ha : Claims.asked s 0x20 1) (h0 : (Claims.arg s 0).toNat < 16)
    (h1 : (Claims.arg s 1).toNat % 32 = 0) (h2 : 0 < (Claims.arg s 2).toNat)
    (h3 : (Claims.arg s 1).toNat + 32 * (Claims.arg s 2).toNat ≤ 2 ^ 40) :
    ∃ t, exec .replaycfg s = .next t ∧ Claims.finished s t 0 ∧
      ({ lq := (Claims.arg s 0).toNat, addr := (Claims.arg s 1).toNat, size := (Claims.arg s 2).toNat, used := 0, full := false } : Capture) ∈
        t.mgmt.captures ∧
      ∀ x ∈ s.mgmt.captures, x.lq ≠ (Claims.arg s 0).toNat → x.addr ≠ (Claims.arg s 1).toNat → x ∈ t.mgmt.captures := by
  have hsize : Claims.arg s 2 ≠ 0 := fun h => by
    rw [h] at h2
    exact absurd h2 (by decide)
  have hok : ¬ (16 ≤ (Claims.arg s 0).toNat ∨ (Claims.arg s 1).toNat % 32 ≠ 0 ∨
      2 ^ 40 < (Claims.arg s 1).toNat + 32 * (Claims.arg s 2).toNat ∨ Claims.arg s 2 = 0) := by
    simp only [hsize, or_false]
    omega
  have hacc := (s.startCapture s.askedCapture).captWrite_accessed [((Claims.arg s 1).toNat, 16, 0)]
  have hcapt : ((s.startCapture s.askedCapture).captWrite [((Claims.arg s 1).toNat, 16, 0)]).mgmt.captures =
      (s.mgmt.captures.filter fun (x : Capture) => x.lq != (Claims.arg s 0).toNat && x.addr != (Claims.arg s 1).toNat) ++
        [s.askedCapture] := by
    rw [hacc.frame]
    rfl
  refine ⟨_, (exec_replaycfg_eq ha).trans (congrArg _ (if_neg hok)), finished_of_mailboxDone 0 ?_ ?_, ?_, fun x hx hq hadr => ?_⟩
  · rw [hacc.frame]
    rfl
  · rw [hacc.frame]
    rfl
  · rw [State.mailboxDone_captures, hcapt]
    exact List.mem_append_right _ (List.mem_singleton.2 rfl)
  · rw [State.mailboxDone_captures, hcapt]
    exact List.mem_append_left _ (List.mem_filter.2 ⟨hx, by simp [hq, hadr]⟩)

/-- The bindings of captures to host tags after a REPLAYLOAD. -/
def State.askedReplays (s : State) : List (Nat × Nat × Nat) :=
  ((Claims.arg s 0).toNat, (Claims.arg s 1).toNat, (Claims.arg s 2).toNat) ::
    s.mgmt.replay.filter fun e => e.1 != (Claims.arg s 0).toNat

theorem exec_replayload_eq {s : State} (ha : Claims.asked s 0x21 1) :
    exec .replayload s = .next (if 2 ^ 16 ≤ (Claims.arg s 0).toNat ∨ (Claims.arg s 1).toNat % 32 ≠ 0 ∨
        2 ^ 40 < (Claims.arg s 1).toNat + 32 * (Claims.arg s 2).toNat then s.refuse
      else ({ s with mgmt := { s.mgmt with replay := s.askedReplays } }).mailboxDone 0) := by
  rw [exec_replayload, execReplayload, State.command_taken ha]
  rfl

theorem replayload_claim (s : State) (ha : Claims.asked s 0x21 1) (h0 : (Claims.arg s 0).toNat < 2 ^ 16)
    (h1 : (Claims.arg s 1).toNat % 32 = 0) (h2 : (Claims.arg s 1).toNat + 32 * (Claims.arg s 2).toNat ≤ 2 ^ 40) :
    ∃ t, exec .replayload s = .next t ∧ t.mem = s.mem ∧ Claims.finished s t 0 ∧
      t.mgmt.replay.find? (fun e => e.1 == (Claims.arg s 0).toNat) =
        some ((Claims.arg s 0).toNat, (Claims.arg s 1).toNat, (Claims.arg s 2).toNat) := by
  refine ⟨_, (exec_replayload_eq ha).trans (congrArg _ (if_neg (by omega))), ?_, finished_of_mailboxDone 0 rfl rfl, ?_⟩
  · exact State.mailboxDone_mem ..
  · rw [State.mailboxDone_replay]
    exact List.find?_cons_of_pos (beq_self_eq_true _)

theorem settingCommands : Parts.SettingCommands :=
  ⟨rowthresh_claim, eyecfg_claim, powercap_claim, replaycfg_claim, replayload_claim⟩

/-! ### SENSORREAD, LOGREAD, ALMANACREAD (R387, R395) -/

/-- A response: its dwords in the buffer, and the command done. -/
theorem respond_claim {s : State} {i : Instr} {l : List W64} (h : exec i s = .next (s.respond l)) :
    ∃ t, exec i s = .next t ∧ t.mem = s.mem ∧ Claims.finished s t 0 ∧ t.host.rspBuf.map Prod.snd = l := by
  refine ⟨_, h, State.respond_mem s l, finished_of_mailboxDone 0 rfl rfl, ?_⟩
  rw [State.respond, State.mailboxDone_rspBuf]
  exact List.map_snd_zip (by rw [List.length_range])

theorem State.sensorWords_eq (s : State) (i : Nat) :
    s.sensorWords i =
      let x := s.mgmt.sensors.get {} i
      let first := Config.reading i 0
      [BitVec.ofNat 64 i, (if x.seen then x.now else first).setWidth 64, (if x.seen then x.lo else first).setWidth 64,
        (if x.seen then x.hi else first).setWidth 64] := by
  unfold State.sensorWords
  dsimp only
  cases (s.mgmt.sensors.get {} i).seen <;> rfl

theorem exec_sensorread_eq {s : State} (ha : Claims.asked s 0x11 0) :
    exec .sensorread s = .next (s.respond ((List.range sensorCount).flatMap s.sensorWords ++ (List.range 128).flatMap s.portWords ++
      (List.range 512).flatMap s.channelWords ++ s.softWordsFixed)) := by
  rw [exec_sensorread, execSensorread, State.command_taken ha]

theorem exec_logread_eq {s : State} (ha : Claims.asked s 0x12 1) :
    exec .logread s = .next (s.respond (s.logFrom (Claims.arg s 0).toNat)) := by
  rw [exec_logread, execLogread, State.command_taken ha]

theorem exec_almanacread_eq {s : State} (ha : Claims.asked s 0x30 1) :
    exec .almanacread s = .next (s.respond ((s.mgmt.almA.drop (Claims.arg s 0).toNat).flatMap recDwords)) := by
  rw [exec_almanacread, execAlmanacread, State.command_taken ha]

/-- While the log has not filled the response buffer, it is read from an index to its end. -/
theorem State.logFrom_small {s : State} {i : Nat} (h : s.mgmt.logCount ≤ 4096) (hi : i ≤ s.mgmt.logCount) :
    s.logFrom i = (List.range (s.mgmt.logCount - i)).flatMap fun j => s.mgmt.log.get [] (i + j) ++ [0, 0, 0, 0] := by
  unfold State.logFrom
  dsimp only
  rw [Nat.sub_eq_zero_of_le (by omega : s.mgmt.logCount ≤ 65536), Nat.max_zero, Nat.min_eq_right (by omega)]
  refine List.flatMap_congr fun j hj => ?_
  have := List.mem_range.1 hj
  rw [Nat.mod_eq_of_lt (by omega)]

/-! ### Samples (R387) -/

theorem Sensor.sample_fresh {x : Sensor} (v : BitVec 32) (h : x.seen = false) :
    x.sample v = { now := v, lo := v, hi := v, seen := true } := by simp [Sensor.sample, h]

theorem Sensor.sample_seen {x : Sensor} (v : BitVec 32) (h : x.seen = true) :
    (x.sample v).now = v ∧ (x.sample v).seen = true ∧ (x.sample v).lo.toNat = min x.lo.toNat v.toNat ∧
      (x.sample v).hi.toNat = max x.hi.toNat v.toNat := by
  simp only [Sensor.sample, h, if_true, BitVec.ult, decide_eq_true_eq, true_and]
  constructor <;> split <;> omega

/-- The samples of some sensors, each with its number. -/
def sampled (m : AMap Sensor) (l : List (Nat × BitVec 32)) : AMap Sensor :=
  l.foldl (fun (m : AMap Sensor) v => m.set v.1 ((m.get {} v.1).sample v.2)) m

theorem sampled_get_other (m : AMap Sensor) (l : List (Nat × BitVec 32)) (i : Nat) (h : ∀ v, (i, v) ∉ l) :
    (sampled m l).get {} i = m.get {} i := by
  induction l generalizing m with
  | nil => rfl
  | cons e l ih =>
    have hi : i ≠ e.1 := fun hi => h e.2 (hi ▸ List.mem_cons_self)
    exact (ih _ fun v hv => h v (List.mem_cons_of_mem _ hv)).trans (AMap.get_set_ne _ _ _ _ _ hi)

theorem sampled_get (m : AMap Sensor) {l : List (Nat × BitVec 32)} (hl : (l.map Prod.fst).Nodup) {i : Nat} {v : BitVec 32}
    (h : (i, v) ∈ l) : (sampled m l).get {} i = (m.get {} i).sample v := by
  induction l generalizing m with
  | nil => exact absurd h List.not_mem_nil
  | cons e l ih =>
    obtain ⟨hnot, hl⟩ := List.nodup_cons.1 hl
    rcases List.mem_cons.1 h with rfl | h
    · refine (sampled_get_other _ l i fun w hw => hnot (List.mem_map.2 ⟨_, hw, rfl⟩)).trans ?_
      exact AMap.get_set_self ..
    · have hi : i ≠ e.1 := fun hi => hnot (hi ▸ List.mem_map.2 ⟨_, h, rfl⟩)
      refine (ih _ hl h).trans ?_
      rw [AMap.get_set_ne _ _ _ _ _ hi]

/-- The values that a sample takes: those given, and what the other sensors read. -/
def State.sampleValues (s : State) (vals : List (BitVec 32)) : List (BitVec 32) := vals ++ s.readings.drop vals.length

theorem State.sampleValues_get {s : State} {vals : List (BitVec 32)} {i : Nat} {v : BitVec 32}
    (h : vals[i]? = some v ∨ (vals.length ≤ i ∧ i < sensorCount ∧ v = Config.reading i (s.cycle / cyclesPerMs))) :
    (s.sampleValues vals)[i]? = some v := by
  unfold State.sampleValues
  rcases h with h | ⟨hlen, hi, rfl⟩
  · rw [List.getElem?_append_left (List.getElem?_eq_some_iff.1 h).1, h]
  · rw [List.getElem?_append_right hlen, List.getElem?_drop, Nat.add_sub_cancel' hlen, State.readings, List.getElem?_map,
      List.getElem?_range hi]
    rfl

theorem exec_sensorSample_eq {s : State} (vals : List (BitVec 32)) (h : s.cycle % cyclesPerMs = 0) :
    exec (.sensorSample vals) s = .next { s with mgmt := { s.mgmt with
      sensors := sampled s.mgmt.sensors ((List.range (s.sampleValues vals).length).zip (s.sampleValues vals)) } } :=
  congrArg _ (if_neg (not_not.2 h))

theorem sensorSample_claim (s : State) (vals : List (BitVec 32)) (h : s.cycle % cyclesPerMs = 0) :
    ∃ t, exec (.sensorSample vals) s = .next t ∧ t.mem = s.mem ∧ t.sched = s.sched ∧
    ∀ i v, vals[i]? = some v ∨ (vals.length ≤ i ∧ i < sensorCount ∧ v = Config.reading i (s.cycle / cyclesPerMs)) →
      let x := s.mgmt.sensors.get {} i
      let y := t.mgmt.sensors.get {} i
      y.now = v ∧ y.seen = true ∧
        (x.seen = true → y.lo.toNat = min x.lo.toNat v.toNat ∧ y.hi.toNat = max x.hi.toNat v.toNat) ∧
        (x.seen = false → y.lo = v ∧ y.hi = v) := by
  refine ⟨_, exec_sensorSample_eq vals h, rfl, rfl, fun i v hv => ?_⟩
  have hget := State.sampleValues_get hv
  have hmem : (i, v) ∈ (List.range (s.sampleValues vals).length).zip (s.sampleValues vals) :=
    List.mem_iff_getElem?.2 ⟨i, List.getElem?_zip_eq_some.2 ⟨List.getElem?_range (List.getElem?_eq_some_iff.1 hget).1, hget⟩⟩
  have hkeys : (((List.range (s.sampleValues vals).length).zip (s.sampleValues vals)).map Prod.fst).Nodup := by
    rw [List.map_fst_zip (by rw [List.length_range])]
    exact List.nodup_range
  simp only [sampled_get s.mgmt.sensors hkeys hmem]
  cases hs : (s.mgmt.sensors.get {} i).seen
  · rw [Sensor.sample_fresh v hs]
    exact ⟨rfl, rfl, fun h => absurd h (by decide), fun _ => ⟨rfl, rfl⟩⟩
  · obtain ⟨hnow, hseen, hlo, hhi⟩ := Sensor.sample_seen v hs
    exact ⟨hnow, hseen, fun _ => ⟨hlo, hhi⟩, fun h => absurd h (by decide)⟩

theorem readCommands : Parts.ReadCommands := by
  refine ⟨fun s ha => ?_, fun s ha hcount h0 => ?_, fun s ha => respond_claim (exec_almanacread_eq ha),
    fun s vals h => congrArg _ (if_pos h), sensorSample_claim⟩
  · have h := respond_claim (exec_sensorread_eq ha)
    rw [funext s.sensorWords_eq] at h
    exact h
  · have h := respond_claim (exec_logread_eq ha)
    rwa [State.logFrom_small hcount h0] at h

/-- Settles O51, with a rule for each command's effect and one for what every response shows. -/
theorem mailboxSettings : Obligations.MailboxSettings := ⟨settingCommands, readCommands⟩

end Sys2Proof.Machine

namespace Sys2Proof.Machine

/-! ## O52. Throttling, firmware updates and attestation -/

/-! ### The throttle (R389) -/

/-- Levels of the throttle, and whether the device is in error with its tiles' supplies off. -/
def State.care (s : State) : Nat × AMap Nat × Bool × Bool := (s.mgmt.level, s.mgmt.dieLevel, s.deviceError, s.tilesOff)

theorem State.post_care (s : State) (e : EventRec) : (s.post e).care = s.care := by
  unfold State.post
  dsimp only
  split <;> rfl

theorem State.mgmtEvent_care (s : State) (kind b low : Nat) (d1 d2 : W64) : (s.mgmtEvent kind b low d1 d2).care = s.care := s.post_care _

theorem State.heatEvent_care (s : State) (kind d : Nat) (p : Option Nat) : (s.heatEvent kind d p).care = s.care := by
  cases p with
  | none => rfl
  | some i => exact s.mgmtEvent_care ..

theorem State.levelEvent_care (s : State) (old : Nat) (dies : List Nat) : (s.levelEvent old dies).care = s.care := by
  unfold State.levelEvent
  dsimp only
  split
  · rfl
  · split
    · exact State.mgmtEvent_care ..
    · split
      · rfl
      · exact State.mgmtEvent_care ..

theorem State.decideFault_care (s : State) (r : Residency) (reason : Nat) (d0 d1 d2 : W64) :
    (s.decideFault r reason d0 d1 d2).care = s.care := by
  rw [State.decideFault_eq]
  dsimp only
  split
  · rfl
  · exact State.post_care ..

theorem State.failDevice_care (s : State) : s.failDevice.care = (s.mgmt.level, s.mgmt.dieLevel, true, s.tilesOff) := by
  unfold State.failDevice
  dsimp only
  refine (foldl_keeps State.care _ (fun _ _ => State.decideFault_care ..) _ _).trans ?_
  split
  · rfl
  · exact State.post_care ..

/-- The dies with a point at or above a temperature. -/
def State.hotDies (s : State) (limit : Nat) : List Nat := (List.range 4).filter fun d => (s.hotPoint d limit).isSome

theorem State.mem_hotDies {s : State} {limit d : Nat} :
    d ∈ s.hotDies limit ↔ d < 4 ∧ ∃ i, i < 16 ∧ limit ≤ s.sensorNow (16 * d + i) := by
  simp only [State.hotDies, State.hotPoint, List.mem_filter, List.mem_range, List.find?_isSome, decide_eq_true_eq]

theorem State.hotDies_eq_nil {s : State} {limit : Nat} :
    s.hotDies limit = [] ↔ ∀ d i, d < 4 → i < 16 → s.sensorNow (16 * d + i) < limit := by
  rw [List.eq_nil_iff_forall_not_mem]
  simp only [State.mem_hotDies]
  exact ⟨fun h d i hd hi => Nat.not_le.1 fun hle => h d ⟨hd, i, hi, hle⟩, fun h d ⟨hd, i, hi, hle⟩ => Nat.not_lt.2 hle (h d i hd hi)⟩

/-- The levels that the loop sets. -/
def State.newLevel (s : State) : Nat := nextLevel s.mgmt.level (s.sensorNow powerSensor) s.mgmt.cap

def State.throttled (s : State) : State :=
  { s with mgmt := { s.mgmt with level := s.newLevel, dieLevel := (s.hotDies 1680).map fun d => (d, min s.newLevel 4) } }

/-- The levels are set, and told of. -/
def State.throttleTold (s : State) : State :=
  (s.hotDies 1680).foldl (fun u d => u.heatEvent 0x33 d (u.hotPoint d 1680))
    (s.throttled.levelEvent s.mgmt.level ((List.range 4).filter fun d => s.throttled.dieThrottle d != s.dieThrottle d))

/-- A die trips. -/
def State.tripTold (s : State) : State :=
  (s.hotDies 1920).foldl (fun u d => u.heatEvent 0x34 d (u.hotPoint d 1920)) s.throttleTold

def State.tripped (s : State) : State :=
  { { s.tripTold with unownedError := s.tripTold.unownedError || !s.tripTold.deviceError }.failDevice with tilesOff := true }

theorem exec_throttleUpdate (s : State) :
    exec .throttleUpdate s = .next (if s.hotDies 1920 = [] then s.throttleTold else s.tripped) := rfl

theorem State.throttleTold_care (s : State) : s.throttleTold.care = s.throttled.care :=
  (foldl_keeps State.care _ (fun _ _ => State.heatEvent_care ..) _ _).trans (State.levelEvent_care ..)

theorem State.tripTold_care (s : State) : s.tripTold.care = s.throttled.care :=
  (foldl_keeps State.care _ (fun _ _ => State.heatEvent_care ..) _ _).trans s.throttleTold_care

theorem State.throttleTold_mem (s : State) : s.throttleTold.mem = s.mem :=
  (foldl_keeps State.mem _ (fun _ _ => State.heatEvent_mem ..) _ _).trans (State.levelEvent_mem ..)

theorem State.tripped_mem (s : State) : s.tripped.mem = s.mem :=
  (State.failDevice_mem _).trans ((foldl_keeps State.mem _ (fun _ _ => State.heatEvent_mem ..) _ _).trans s.throttleTold_mem)

theorem State.tripped_care (s : State) : s.tripped.care = (s.newLevel, s.throttled.mgmt.dieLevel, true, true) := by
  have h := State.failDevice_care { s.tripTold with unownedError := s.tripTold.unownedError || !s.tripTold.deviceError }
  have ht := s.tripTold_care
  simp only [State.care, Prod.mk.injEq] at h ht ⊢
  exact ⟨h.1.trans ht.1, h.2.1.trans ht.2.1, h.2.2.1, rfl⟩

/-- What a die's own level is set to. -/
theorem get_map_const (l : List Nat) (v def_ d : Nat) : AMap.get (l.map fun e => (e, v)) def_ d = if d ∈ l then v else def_ := by
  induction l with
  | nil => rfl
  | cons e l ih =>
    by_cases h : e = d
    · subst h
      simp [AMap.get]
    · have hd : ¬ d = e := fun hd => h hd.symm
      simpa [AMap.get, h, hd] using ih

/-- The levels in force after an update. -/
theorem dieThrottle_of_care {s t : State} (hl : t.mgmt.level = s.newLevel)
    (hd : t.mgmt.dieLevel = (s.hotDies 1680).map fun d => (d, min s.newLevel 4)) (d : Nat) :
    t.dieThrottle d = min s.newLevel (if d ∈ s.hotDies 1680 then min s.newLevel 4 else 16) := by
  rw [State.dieThrottle, hl, hd, get_map_const]

theorem State.newLevel_over {s : State} (h : s.mgmt.cap < s.sensorNow 80) : s.newLevel = max (s.mgmt.level - 1) 2 := if_pos h

theorem State.newLevel_under {s : State} (h : s.sensorNow 80 ≤ s.mgmt.cap) (h95 : s.sensorNow 80 * 100 < 95 * s.mgmt.cap) :
    s.newLevel = min (s.mgmt.level + 1) 16 := (if_neg (Nat.not_lt.2 h)).trans (if_pos h95)

theorem State.newLevel_same {s : State} (h : s.sensorNow 80 ≤ s.mgmt.cap) (h95 : 95 * s.mgmt.cap ≤ s.sensorNow 80 * 100) :
    s.newLevel = s.mgmt.level := (if_neg (Nat.not_lt.2 h)).trans (if_neg (Nat.not_lt.2 h95))

/-- A state with the levels that the loop sets, and the error and supplies that the temperatures ask for. -/
structure State.Throttles (s t : State) : Prop where
  mem : t.mem = s.mem
  level : t.mgmt.level = s.newLevel
  dies : t.mgmt.dieLevel = (s.hotDies 1680).map fun d => (d, min s.newLevel 4)
  trips : s.hotDies 1920 ≠ [] → t.deviceError = true ∧ t.tilesOff = true
  stays : s.hotDies 1920 = [] → t.deviceError = s.deviceError ∧ t.tilesOff = s.tilesOff

theorem exec_throttleUpdate_throttles (s : State) : ∃ t, exec .throttleUpdate s = .next t ∧ s.Throttles t := by
  by_cases h : s.hotDies 1920 = []
  · have hc := s.throttleTold_care
    simp only [State.care, Prod.mk.injEq] at hc
    obtain ⟨hlevel, hdies, herr, hoff⟩ := hc
    exact ⟨_, (exec_throttleUpdate s).trans (congrArg _ (if_pos h)), s.throttleTold_mem, hlevel, hdies, fun hne => absurd h hne, fun _ => ⟨herr, hoff⟩⟩
  · have hc := s.tripped_care
    simp only [State.care, Prod.mk.injEq] at hc
    obtain ⟨hlevel, hdies, herr, hoff⟩ := hc
    exact ⟨_, (exec_throttleUpdate s).trans (congrArg _ (if_neg h)), s.tripped_mem, hlevel, hdies, fun _ => ⟨herr, hoff⟩, fun hnil => absurd hnil h⟩

theorem throttle : Parts.Throttle := by
  intro s
  obtain ⟨t, hexec, ht⟩ := exec_throttleUpdate_throttles s
  have hdie := dieThrottle_of_care ht.level ht.dies
  refine ⟨t, hexec, ht.mem, fun h => ht.level.trans (State.newLevel_over h), fun h h95 => ht.level.trans (State.newLevel_under h h95),
    fun h h95 => ht.level.trans (State.newLevel_same h h95), fun d i hd hi hot => ?_, fun d hd cool => ?_, fun ⟨d, i, hd, hi, hot⟩ => ?_,
    fun cool => ht.stays (State.hotDies_eq_nil.2 cool)⟩
  · rw [hdie, if_pos (State.mem_hotDies.2 ⟨hd, i, hi, hot⟩)]
    omega
  · have hnot : d ∉ s.hotDies 1680 := fun h => by
      obtain ⟨-, i, hi, hot⟩ := State.mem_hotDies.1 h
      exact Nat.not_le.2 (cool i hi) hot
    rw [hdie, if_neg hnot, ht.level]
  · exact ht.trips fun h => Nat.not_lt.2 hot (State.hotDies_eq_nil.1 h d i hd hi)

/-! ### Firmware updates (R384) -/

/-- The image that an update brings. -/
def newImage (sec : BitVec 64) (body : List (BitVec 8)) (sig : BitVec 64) : Firmware := { sec := sec.toNat, body := body, sig := sig }

/-- An image goes into the inactive slot of a component, and is the next one where it passes its checks. -/
def State.updated (s : State) (st : Nat) (f : Firmware) : State :=
  { s with mgmt := { s.mgmt with
    fw := s.mgmt.fw.set (fwKey st (1 - s.mgmt.active.get 0 st)) f
    next := s.mgmt.next.set st (if f.check s.mgmt.fuse = 0 then 1 - s.mgmt.active.get 0 st else s.mgmt.active.get 0 st) } }

theorem exec_firmwareUpdate (comp : BitVec 2) (sec : BitVec 64) (body : List (BitVec 8)) (sig : BitVec 64) (s : State) :
    exec (.firmwareUpdate comp sec body sig) s = .next (if (comp.toNat ≠ 1 ∧ comp.toNat ≠ 2) ∨ sec.toNat < s.mgmt.fuse ∨
      slotBytes comp.toNat < 8 + body.length then s else s.updated comp.toNat (newImage sec body sig)) := rfl

theorem firmwareUpdates : Parts.FirmwareUpdates := by
  intro s comp sec body sig
  have hexec := exec_firmwareUpdate comp sec body sig s
  refine ⟨fun h => hexec.trans (congrArg _ (if_pos ?_)),
    fun hcomp hsec hlen => ⟨_, hexec.trans (congrArg _ (if_neg ?_)), AMap.get_set_self .., rfl, rfl, rfl, rfl, rfl⟩⟩
  · rcases h with rfl | rfl | h
    · exact .inl (by decide)
    · exact .inl (by decide)
    · exact .inr (.inl h)
  · rcases hcomp with rfl | rfl <;> simp [slotBytes] at hlen ⊢ <;> omega

/-! ### Attestation (R385) -/

/-- An exchange joins the transcript and changes nothing else. -/
theorem exchanged_spdm (s : State) (req reply : List W64) : Claims.exchanged s (s.spdm req reply) req reply :=
  ⟨rfl, rfl, rfl, rfl, rfl, rfl, rfl⟩

section
variable {s : State} (hn : s.negotiated = true)
include hn

theorem exec_getDigests_agreed : exec .getDigests s =
    .next (s.spdm [0x81] ([0x01, 1] ++ wideDwords (Config.sha3 (certBytes 0 Config.certificateLength)))) :=
  congrArg (fun l => Host.Outcome.next (s.spdm [0x81] l)) (if_pos hn)

theorem exec_getCertificate_agreed (off len : BitVec 16) : exec (.getCertificate 0 off len) s =
    .next (s.spdm [0x82, 0, off.setWidth 64, len.setWidth 64]
      ([0x02, 0] ++ (certBytes off.toNat len.toNat).map (BitVec.setWidth 64))) :=
  congrArg (fun l => Host.Outcome.next (s.spdm [0x82, 0, off.setWidth 64, len.setWidth 64] l)) (if_pos (And.intro hn rfl))

theorem exec_challenge_agreed (nonce : BitVec 256) : exec (.challenge 0 nonce) s =
    .next (s.spdm ([0x83, 0] ++ wideDwords nonce) (s.signed ([0x83, 0] ++ wideDwords nonce)
      ([0x03, 0] ++ wideDwords (Config.sha3 (certBytes 0 Config.certificateLength))))) :=
  congrArg (fun l => Host.Outcome.next (s.spdm ([0x83, 0] ++ wideDwords nonce) l)) (if_pos (And.intro hn rfl))

theorem exec_getMeasurements_agreed {op : BitVec 8} (nonce : BitVec 256) (hop : op.toNat ≤ 6) : exec (.getMeasurements op nonce) s =
    .next (s.spdm ([0xE0, op.setWidth 64] ++ wideDwords nonce) (s.signed ([0xE0, op.setWidth 64] ++ wideDwords nonce)
      ([0x60, 6] ++ s.measBlocks op.toNat))) :=
  congrArg (fun l => Host.Outcome.next (s.spdm ([0xE0, op.setWidth 64] ++ wideDwords nonce) l)) (if_pos (And.intro hn (.inr (.inr hop))))

end

/-- An operation from 1 to 6 names one block, its number first. -/
theorem State.measBlocks_one (s : State) {op : BitVec 8} (h1 : 1 ≤ op.toNat) (h6 : op.toNat ≤ 6) :
    s.measBlocks op.toNat = op.setWidth 64 :: wideDwords (s.mgmt.meas.get 0 op.toNat) := by
  have hop : op.setWidth 64 = BitVec.ofNat 64 op.toNat := (BitVec.ofNat_toNat ..).symm
  rw [hop]
  generalize op.toNat = n at h1 h6
  have hsel : (List.range 6).filter (fun i => decide (n = 0xFF ∨ n = i + 1)) = [n - 1] := by
    interval_cases n <;> rfl
  rw [State.measBlocks, hsel, List.flatMap_singleton, Nat.sub_add_cancel h1]

theorem exec_negotiateAlgorithms_agreed {s : State} {a : BitVec 32} (hv : s.mgmt.spdmVersion = true) (ha : a &&& 3 = 3) :
    exec (.negotiateAlgorithms a) s =
      .next (({ s with mgmt := { s.mgmt with spdmAlgs := 3 } }).spdm [0xE3, a.setWidth 64] [0x63, 3]) :=
  congrArg _ (if_pos ⟨hv, ha⟩)

theorem exec_negotiateAlgorithms_refused {s : State} {a : BitVec 32} (h : ¬ (s.mgmt.spdmVersion = true ∧ a &&& 3 = 3)) :
    exec (.negotiateAlgorithms a) s = .next (s.spdm [0xE3, a.setWidth 64] [0x7F]) :=
  congrArg _ (if_neg h)

/-- An offer of Falcon-1024 and SHA3-512. -/
theorem offer_iff (a : BitVec 32) : a &&& 3 = 3 ↔ a.getLsbD 0 = true ∧ a.getLsbD 1 = true := by
  rw [← BitVec.toNat_inj, BitVec.toNat_and, show (3 : BitVec 32).toNat = 2 ^ 2 - 1 from rfl, Nat.and_two_pow_sub_one_eq_mod]
  simp only [BitVec.getLsbD, Nat.testBit_eq_decide_div_mod_eq, decide_eq_true_eq]
  omega

theorem negotiations (s : State) (a : BitVec 32) :
    (s.mgmt.spdmVersion = true → a.getLsbD 0 = true → a.getLsbD 1 = true → ∃ t, exec (.negotiateAlgorithms a) s = .next t ∧
      Claims.exchanged s t [0xE3, a.setWidth 64] [0x63, 3] ∧ t.negotiated = true) ∧
    (s.mgmt.spdmVersion = false ∨ a.getLsbD 0 = false ∨ a.getLsbD 1 = false → ∃ t, exec (.negotiateAlgorithms a) s = .next t ∧
      Claims.exchanged s t [0xE3, a.setWidth 64] [0x7F] ∧ t.negotiated = s.negotiated) := by
  refine ⟨fun hv h0 h1 => ⟨_, exec_negotiateAlgorithms_agreed hv ((offer_iff a).2 ⟨h0, h1⟩), ⟨rfl, rfl, rfl, rfl, rfl, rfl, rfl⟩, ?_⟩,
    fun h => ⟨_, exec_negotiateAlgorithms_refused ?_, exchanged_spdm .., rfl⟩⟩
  · exact (Bool.and_eq_true ..).mpr ⟨hv, rfl⟩
  · rw [offer_iff]
    exact fun ⟨hv, h0, h1⟩ => by simp only [hv, h0, h1, Bool.true_eq_false, or_self] at h

theorem attestation_refused {s : State} (hn : s.negotiated = false) (slot op : BitVec 8) (off len : BitVec 16) (nonce : BitVec 256) :
    (∃ t, exec .getDigests s = .next t ∧ t.mgmt.spdmReply = [0x7F] ∧ t.mem = s.mem) ∧
      (∃ t, exec (.getCertificate slot off len) s = .next t ∧ t.mgmt.spdmReply = [0x7F] ∧ t.mem = s.mem) ∧
      (∃ t, exec (.challenge slot nonce) s = .next t ∧ t.mgmt.spdmReply = [0x7F] ∧ t.mem = s.mem) ∧
      (∃ t, exec (.getMeasurements op nonce) s = .next t ∧ t.mgmt.spdmReply = [0x7F] ∧ t.mem = s.mem) := by
  have hne : ¬ s.negotiated = true := by rw [hn]; decide
  exact ⟨⟨_, rfl, if_neg hne, rfl⟩, ⟨_, rfl, if_neg fun h => hne h.1, rfl⟩, ⟨_, rfl, if_neg fun h => hne h.1, rfl⟩,
    ⟨_, rfl, if_neg fun h => hne h.1, rfl⟩⟩

theorem certBytes_length (off len : Nat) : (certBytes off len).length ≤ len := by
  rw [certBytes, List.length_map, List.length_range]
  exact Nat.min_le_left ..

theorem certBytes_get {off len i : Nat} (h : i < (certBytes off len).length) : (certBytes off len)[i]? = some (Config.certificate (off + i)) := by
  rw [certBytes, List.length_map, List.length_range] at h
  rw [certBytes, List.getElem?_map, List.getElem?_range h]
  rfl

/-- The dwords of a nonce. -/
theorem wideDwords_nonce (nonce : BitVec 256) :
    wideDwords nonce = [nonce.extractLsb' 0 64, nonce.extractLsb' 64 64, nonce.extractLsb' 128 64, nonce.extractLsb' 192 64] := rfl

theorem attestation_agreed {s : State} (hn : s.negotiated = true) (off len : BitVec 16) (op : BitVec 8) (nonce : BitVec 256) :
    (∃ (t : State) (l : List W64), exec .getDigests s = .next t ∧ Claims.exchanged s t [0x81] ([0x01, 1] ++ l) ∧ l.length = 8) ∧
      (∃ (t : State) (l : List W64), exec (.getCertificate 0 off len) s = .next t ∧
        Claims.exchanged s t [0x82, 0, off.setWidth 64, len.setWidth 64] ([0x02, 0] ++ l) ∧ l.length ≤ len.toNat ∧
        ∀ i, i < l.length → l[i]? = some ((Config.certificate (off.toNat + i)).setWidth 64)) ∧
      (∃ (t : State) (req l : List W64), exec (.challenge 0 nonce) s = .next t ∧
        Claims.exchanged s t req (l ++ [Claims.signature (s.mgmt.spdmTranscript ++ req ++ l)]) ∧ l.head? = some 0x03 ∧
        req = [0x83, 0, nonce.extractLsb' 0 64, nonce.extractLsb' 64 64, nonce.extractLsb' 128 64, nonce.extractLsb' 192 64]) ∧
      (1 ≤ op.toNat → op.toNat ≤ 6 → ∃ (t : State) (req l : List W64), exec (.getMeasurements op nonce) s = .next t ∧
        Claims.exchanged s t req (([0x60, 6, op.setWidth 64] ++ l) ++
          [Claims.signature (s.mgmt.spdmTranscript ++ req ++ ([0x60, 6, op.setWidth 64] ++ l))]) ∧
        l = (List.range 8).map fun i => (s.mgmt.meas.get 0 op.toNat).extractLsb' (64 * i) 64) := by
  refine ⟨⟨_, _, exec_getDigests_agreed hn, exchanged_spdm .., rfl⟩, ⟨_, _, exec_getCertificate_agreed hn off len, exchanged_spdm .., ?_, ?_⟩,
    ⟨_, _, _, exec_challenge_agreed hn nonce, exchanged_spdm .., rfl, rfl⟩, fun h1 h6 => ⟨_, _, _, exec_getMeasurements_agreed hn nonce h6, by
      rw [s.measBlocks_one h1 h6]
      exact exchanged_spdm .., rfl⟩⟩
  · rw [List.length_map]
    exact certBytes_length ..
  · intro i hi
    rw [List.length_map] at hi
    rw [List.getElem?_map, certBytes_get hi]
    rfl

theorem attestation : Parts.Attestation := fun s =>
  ⟨⟨_, rfl, rfl, rfl, rfl, rfl, rfl, rfl⟩, ⟨_, rfl, exchanged_spdm ..⟩, negotiations s, attestation_refused, attestation_agreed⟩

/-- Settles O52, by the levels that a throttle update leaves, and by one exchange's rule for attestation. -/
theorem management : Obligations.Management := ⟨throttle, firmwareUpdates, attestation⟩

end Sys2Proof.Machine

namespace Sys2Proof.Machine

/-! ## O48. Placement, pre-emption, loads and stops -/

theorem exec_candidateOverdue (s : State) : exec .candidateOverdue s = .next (s.markOverdue s.cur.n) := rfl
theorem exec_preemptDiscard (s : State) : exec .preemptDiscard s = execPreemptDiscard s := rfl
theorem exec_launch (s : State) : exec .launch s = execLaunch s := rfl
theorem exec_shadowLoad (s : State) : exec .shadowLoad s = execShadowLoad s := rfl
theorem exec_stop (s : State) : exec .stop s = execStop s := rfl

theorem State.bufferFull_of_le {s : State} (h : 64 ≤ s.sched.buffer.length) : s.bufferFull = true := decide_eq_true h
theorem State.bufferFull_of_lt {s : State} (h : s.sched.buffer.length < 64) : s.bufferFull = false := decide_eq_false (Nat.not_le.2 h)

/-! ### What a look at the queues leaves (R345) -/

/-- What a look at the queues leaves: the cycle, the record picked, residencies and the last placement. -/
def State.standing (s : State) : Nat × Option (Cand × Nat × Nat × List Nat) × List Residency × Option Nat :=
  (s.cycle, s.sched.picked, s.sched.res, s.sched.lastPlace)

theorem State.Accessed.standing {s u : State} (h : s.Accessed u) : u.standing = s.standing := by
  rw [h.frame]
  rfl

theorem State.accessed_of_readSectors {s u : State} {got g : AMap (Option W256)} {l : List Nat} {b : Bool}
    (h : s.readSectors got l = (b, g, u)) : s.Accessed u := by
  have := s.readSectors_accessed got l
  rwa [h] at this

theorem State.readRecord_accessed (s : State) (c : Cand) (at_ : Option Nat) (got : AMap (Option W256)) :
    s.Accessed (s.readRecord c at_ got).2.2 := by
  unfold State.readRecord
  split
  · next e1 => exact State.accessed_of_readSectors e1
  · next e1 =>
    have h1 := State.accessed_of_readSectors e1
    dsimp only
    split
    · next e2 => exact h1.trans (State.accessed_of_readSectors e2)
    · next e2 =>
      have h2 := h1.trans (State.accessed_of_readSectors e2)
      split
      · next e3 => exact h2.trans (State.accessed_of_readSectors e3)
      · next e3 => exact h2.trans (State.accessed_of_readSectors e3)

theorem State.readCandidate_standing (s : State) (q : Nat) : (s.readCandidate q).standing = s.standing := by
  unfold State.readCandidate
  dsimp only
  split
  · rfl
  · rename_i c at_ _
    split
    · rfl
    · have h := s.readRecord_accessed c at_ (if (s.launchQueue q).gotAge = c.age then (s.launchQueue q).got else [])
      split <;> rename_i e <;> rw [e] at h <;> exact h.standing

theorem State.completion_standing (s : State) (c : Cand) (status detail num : Nat) (d1 d2 : W64) :
    (s.completion c status detail num d1 d2).standing = s.standing := (s.post_accessed _).standing

theorem State.reject_standing (s : State) : s.reject.standing = s.standing := by
  refine foldl_keeps State.standing _ (fun u q => ?_) _ _
  split
  · rfl
  · split
    · rfl
    · exact State.completion_standing ..

theorem State.look_standing (s : State) : s.look.standing = s.standing :=
  (foldl_keeps State.standing State.markOverdue (fun _ _ => rfl) _ _).trans
    ((State.reject_standing _).trans (foldl_keeps State.standing State.readCandidate State.readCandidate_standing _ _))

/-! ### Placement (R345, R26) -/

/-- Less than 16 cycles have passed since the last placement. -/
def State.early (s : State) : Bool :=
  match s.sched.lastPlace with
  | none => false
  | some k => decide (s.cycle < k + 16)

theorem State.early_iff (s : State) : s.early = true ↔ ∃ k, s.sched.lastPlace = some k ∧ s.cycle < k + 16 := by
  unfold State.early
  cases s.sched.lastPlace <;> simp

/-- The first candidate that can be placed, and where. -/
def State.choice (s : State) : Option (Cand × Nat × List Nat) :=
  s.considered.findSome? fun c => if s.verdict c = 0 then (s.takes c).map fun p => (c, p) else none

/-- A candidate is picked. -/
def State.pickAt (s : State) (c : Cand) (o : Nat) (banks : List Nat) : State :=
  (s.takeCand c).setSched { (s.takeCand c).sched with picked := some (c, colOf o, rowOf o, banks), lastPlace := some s.cycle }

theorem State.pickAt_mem (s : State) (c : Cand) (o : Nat) (banks : List Nat) : (s.pickAt c o banks).mem = s.mem := rfl

def State.pick (s : State) : State :=
  if s.early || s.bufferFull then s
  else
    match s.choice with
    | none => s
    | some (c, o, banks) => s.pickAt c o banks

theorem exec_schedulerPlacement (s : State) : exec .schedulerPlacement s =
    .next (if s.booted = false ∨ s.bufferFull = true ∨ s.sched.picked.isSome then s else s.look.pick) := rfl

theorem State.pick_early {s : State} (h : s.early = true) : s.pick = s := if_pos (by rw [h]; rfl)

theorem State.pick_full {s : State} (h : s.bufferFull = true) : s.pick = s := if_pos (by rw [h, Bool.or_true])

theorem State.pick_none {s : State} (h : s.choice = none) : s.pick = s := by
  unfold State.pick
  rw [h, ite_self]

theorem State.pick_some {s : State} {c : Cand} {o : Nat} {l : List Nat} (he : s.early = false) (hf : s.bufferFull = false)
    (h : s.choice = some (c, o, l)) : s.pick = s.pickAt c o l := by
  unfold State.pick
  rw [if_neg (by rw [he, hf]; decide), h]

theorem State.choice_none {s : State} (h : ∀ c ∈ s.considered, s.verdict c = 0 → s.takes c = none) : s.choice = none := by
  refine List.findSome?_eq_none_iff.2 fun c hc => ?_
  split
  · next hv => rw [h c hc hv]; rfl
  · rfl

theorem placement_claim (s : State) (hb : s.booted = true) (hp : s.sched.picked = none) :
    (64 ≤ s.sched.buffer.length → exec .schedulerPlacement s = .next s) ∧
    (s.sched.buffer.length < 64 →
      (∀ k, s.sched.lastPlace = some k → s.cycle < k + 16 → ∃ t, exec .schedulerPlacement s = .next t ∧ t.mem = s.mem ∧
        t.sched.picked = none ∧ t.sched.res = s.sched.res ∧ t.sched.lastPlace = s.sched.lastPlace) ∧
      (64 ≤ s.look.sched.buffer.length → ∃ t, exec .schedulerPlacement s = .next t ∧ t.mem = s.mem ∧ t.sched.picked = none ∧
        t.sched.res = s.sched.res) ∧
      ((∀ k, s.sched.lastPlace = some k → k + 16 ≤ s.cycle) → s.look.sched.buffer.length < 64 →
        (∀ c o l, s.look.choice = some (c, o, l) →
          ∃ t, exec .schedulerPlacement s = .next t ∧ t.mem = s.mem ∧ t.sched.picked = some (c, colOf o, rowOf o, l) ∧
            t.sched.lastPlace = some s.cycle) ∧
        ((∀ c ∈ s.look.considered, s.look.verdict c = 0 → s.look.takes c = none) → ∃ t, exec .schedulerPlacement s = .next t ∧
          t.mem = s.mem ∧ t.sched.picked = none ∧ t.sched.res = s.sched.res))) := by
  have hl := s.look_standing
  simp only [State.standing, Prod.mk.injEq] at hl
  obtain ⟨hcycle, hpicked, hres, hlast⟩ := hl
  have hexec (hlen : s.sched.buffer.length < 64) : exec .schedulerPlacement s = .next s.look.pick :=
    (exec_schedulerPlacement s).trans (congrArg _ (if_neg (by rw [hb, hp, State.bufferFull_of_lt hlen]; simp)))
  refine ⟨fun h => congrArg _ (if_pos (.inr (.inl (State.bufferFull_of_le h)))), fun hlen => ⟨fun k hk hlt => ?_, fun hfull => ?_,
    fun hlate hroom => ⟨fun c o l hc => ?_, fun hno => ?_⟩⟩⟩
  · have he : s.look.early = true := s.look.early_iff.2 ⟨k, hlast.trans hk, hcycle ▸ hlt⟩
    exact ⟨_, (hexec hlen).trans (congrArg _ (State.pick_early he)), s.look_mem, hpicked.trans hp, hres, hlast⟩
  · exact ⟨_, (hexec hlen).trans (congrArg _ (State.pick_full (State.bufferFull_of_le hfull))), s.look_mem, hpicked.trans hp, hres⟩
  · have he : s.look.early = false := Bool.eq_false_iff.2 fun he => by
      obtain ⟨k, hk, hlt⟩ := s.look.early_iff.1 he
      exact Nat.not_le.2 (hcycle ▸ hlt) (hlate k (hlast ▸ hk))
    exact ⟨s.look.pickAt c o l, by rw [hexec hlen, State.pick_some he (State.bufferFull_of_lt hroom) hc],
      (s.look.pickAt_mem c o l).trans s.look_mem, rfl, congrArg some hcycle⟩
  · exact ⟨_, (hexec hlen).trans (congrArg _ (State.pick_none (State.choice_none hno))), s.look_mem, hpicked.trans hp, hres⟩

/-! ### Overdue candidates and pre-emption (R345, R346) -/

/-- A queue's candidate has waited STARVE times 1,024 cycles. -/
def State.waitedLong (s : State) (q : Nat) (c : Cand) : Prop :=
  (s.launchQueue q).starve ≠ 0 ∧ c.since + (s.launchQueue q).starve * 1024 ≤ s.cycle

theorem State.isOverdue_iff {s : State} {q : Nat} {c : Cand} (hc : s.candidate q = some c) :
    s.isOverdue q = true ↔ s.waitedLong q c := by
  simp only [State.isOverdue, State.waitedLong, hc, Option.any_some, Bool.and_eq_true, decide_eq_true_eq]

/-- What keeps a queue's candidate from having a residency discarded. -/
def State.noPreempt (s : State) (c : Cand) : Prop :=
  s.isOverdue s.cur.n = false ∨ (s.launchQueue s.cur.n).preempt = false ∨ c.kind ≠ 0 ∨ s.verdict c ≠ 0 ∨
    ((s.launchQueue s.cur.n).lastPreempt ≠ 0 ∧ s.cycle < (s.launchQueue s.cur.n).lastPreempt + 4096) ∨ (s.fit c).isSome = true

section
variable {s : State} {c : Cand} (hc : s.candidate s.cur.n = some c)
include hc

theorem exec_preemptDiscard_stands (h : s.noPreempt c) : exec .preemptDiscard s = .next s := by
  rw [exec_preemptDiscard, execPreemptDiscard]
  dsimp only
  rw [hc]
  exact congrArg _ (if_pos h)

theorem exec_preemptDiscard_discards {r : Residency} (h : ¬ s.noPreempt c) (hy : s.youngest (s.candPrio c) = some r) :
    exec .preemptDiscard s =
      .next ((s.setLaunchQueue s.cur.n { s.launchQueue s.cur.n with lastPreempt := s.cycle }).decideDiscard r 1) := by
  rw [exec_preemptDiscard, execPreemptDiscard]
  dsimp only
  rw [hc]
  refine congrArg _ ((if_neg h).trans ?_)
  rw [hy]

end

theorem overdue_claim (s : State) (c : Cand) (hc : s.candidate s.cur.n = some c) :
    let x := s.launchQueue s.cur.n
    let late := x.starve ≠ 0 ∧ c.since + x.starve * 1024 ≤ s.cycle
    exec .candidateOverdue s = .next (s.setLaunchQueue s.cur.n { x with overdue := decide late }) ∧
    (¬ late → exec .preemptDiscard s = .next s) ∧
    (x.lastPreempt ≠ 0 → s.cycle < x.lastPreempt + 4096 → exec .preemptDiscard s = .next s) ∧
    (∀ r, late → x.preempt = true → c.kind = 0 → s.verdict c = 0 → (x.lastPreempt = 0 ∨ x.lastPreempt + 4096 ≤ s.cycle) →
      s.fit c = none → s.youngest (s.candPrio c) = some r → s.findRes r.num = some r →
      ∃ t, exec .preemptDiscard s = .next t ∧ t.mem = s.mem ∧ Claims.decided t r.num .discarding 1) := by
  intro x late
  have hlate : s.isOverdue s.cur.n = decide late := by
    rw [Bool.eq_iff_iff, decide_eq_true_eq, State.isOverdue_iff hc]
    exact Iff.rfl
  refine ⟨?_, fun h => ?_, fun h0 hlt => ?_, fun r hl hpre hk hv hwait hfit hy hr => ?_⟩
  · rw [exec_candidateOverdue, State.markOverdue, hlate]
  · exact exec_preemptDiscard_stands hc (.inl (hlate.trans (decide_eq_false h)))
  · exact exec_preemptDiscard_stands hc (.inr (.inr (.inr (.inr (.inl ⟨h0, hlt⟩)))))
  · have hgo : ¬ s.noPreempt c := by
      rintro (h | h | h | h | ⟨h0, h⟩ | h)
      · exact absurd ((hlate.trans (decide_eq_true hl)).symm.trans h) (by decide)
      · exact absurd (hpre.symm.trans h) (by decide)
      · exact h hk
      · exact h hv
      · exact hwait.elim h0 fun hle => Nat.not_lt.2 hle h
      · rw [hfit] at h
        exact absurd h (by decide)
    refine ⟨_, exec_preemptDiscard_discards hc hgo hy, rfl, ?_⟩
    exact State.decideDiscard_decided _ r r.num 1 hr

/-! ### A launch (R26, R345) -/

/-- A fresh number is none of those in use. -/
theorem freshNumber_not_mem (used : List Nat) (k : Nat) : freshNumber used k ∉ used := freshTag_not_mem used k

/-- The number that a launch gets. -/
def State.launchNumber (s : State) (c : Cand) : Nat :=
  freshNumber (0 :: c.last :: s.sched.res.map Residency.num) (Config.residencyNumber s.free).toNat

theorem State.launchNumber_fresh (s : State) (c : Cand) :
    s.launchNumber c ≠ 0 ∧ s.launchNumber c ≠ c.last ∧ ∀ z ∈ s.sched.res, z.num ≠ s.launchNumber c := by
  have h := freshNumber_not_mem (0 :: c.last :: s.sched.res.map Residency.num) (Config.residencyNumber s.free).toNat
  simp only [List.mem_cons, List.mem_map, not_or, not_exists, not_and] at h
  exact ⟨h.1, h.2.1, h.2.2⟩

/-- The residency that a launch makes. -/
def State.launched (s : State) (c : Cand) (x y : Nat) (banks : List Nat) (run : Option (Bool × List (Nat × W256))) : Residency :=
  { c.at_ (s.launchNumber c) x y banks with
    prio := s.candPrio c, binds := c.claims.map fun e => (e.1, e.2.1)
    capture := (s.mgmt.captures.find? fun k => k.lq == c.lq && !k.full).map Capture.addr, replay := run.map Prod.snd }

/-- Its load. -/
def State.launchLoad (s : State) (c : Cand) : LoadJob :=
  { id := s.sched.jobCount, resid := s.launchNumber c, shadow := false, cand := c, image := (c.d 1).toNat }

theorem State.openLanes_sched (s : State) (r : Residency) : (s.openLanes r).sched = s.sched := by
  refine foldl_keeps State.sched _ (fun _ _ => ?_) ..
  rfl

theorem State.bind_sched (s : State) (l : List (Nat × Nat × Nat)) : (s.bind l).sched = s.sched := by
  refine foldl_keeps State.sched _ (fun _ _ => ?_) ..
  rfl

/-- A launch, before its run begins. -/
theorem State.place_begins (s : State) (c : Cand) (x y : Nat) (banks : List Nat) (run : Option (Bool × List (Nat × W256))) :
    ∃ u : State, s.place c x y banks run = u.beginRun (s.launchNumber c) (run.any Prod.fst) ∧
      u.sched.res = s.sched.res ++ [s.launched c x y banks run] ∧ u.sched.loads = s.sched.loads ++ [s.launchLoad c] ∧
      u.sched.picked = s.sched.picked := by
  unfold State.place
  dsimp only
  have hplaced (u : State) (tiles : List Nat) (ctx : Nat → Nat → Nat → Nat) (new : Nat → Ctx) :
      (tiles.foldl (fun s t => (List.range (s.coresOn t)).foldl (fun s q =>
        (List.range banks.length).foldl (fun s k => s.setCtx (ctx t q k) (new k)) s) s) u).sched = u.sched :=
    foldl_keeps State.sched _ (fun _ _ => foldl_keeps State.sched _ (fun _ _ =>
      foldl_keeps State.sched _ (fun _ _ => State.setCtx_sched ..) _ _) _ _) _ _
  refine ⟨_, rfl, ?_, ?_, ?_⟩ <;>
    simp only [State.newLoad, State.setSched, State.bind_sched, State.openLanes_sched] <;> rw [hplaced] <;> rfl

/-! ### The run of a launch (R390, R391) -/

theorem State.capture_sched (s : State) (r : Nat) (e : Capt) :
    (s.capture r e).sched = { s.sched with buffer := (s.capture r e).sched.buffer } := by
  unfold State.capture
  split
  · rfl
  · split
    · rfl
    · split
      · rw [State.post_sched, (State.captWrite_accessed ..).frame]
        rfl
      · dsimp only
        rw [(State.captWrite_accessed ..).frame]
        rfl

/-- The entry of the one residency of a number that stands last. -/
theorem State.setRes_last {s : State} {l : List Residency} {r x : Residency} (hs : s.sched.res = l ++ [r]) (hx : x.num = r.num)
    (hl : ∀ z ∈ l, z.num ≠ r.num) : (s.setRes x).sched.res = l ++ [x] := by
  have hfix : l.map (fun y => if y.num == r.num then x else y) = l := by
    refine (List.map_congr_left fun z hz => ?_).trans (List.map_id l)
    rw [if_neg (by simpa using hl z hz)]
    rfl
  simp only [State.setRes, hs, List.map_append, hfix, List.map_cons, List.map_nil, hx, beq_self_eq_true, if_true]

theorem State.findRes_last {s : State} {l : List Residency} {r : Residency} (hs : s.sched.res = l ++ [r])
    (hl : ∀ z ∈ l, z.num ≠ r.num) : s.findRes r.num = some r := by
  have hnone : l.find? (fun x => x.num == r.num) = none := List.find?_eq_none.2 fun z hz => by simpa using hl z hz
  rw [State.findRes, hs, List.find?_append, hnone, Option.none_or]
  exact List.find?_cons_of_pos (beq_self_eq_true _)

theorem State.decideFault_res (s : State) (r : Residency) (reason : Nat) (d0 d1 d2 : W64) :
    (s.decideFault r reason d0 d1 d2).sched.res = (s.setRes (r.faulted reason d0 d1 d2 s.bufferFull)).sched.res := by
  rw [State.decideFault_eq]
  dsimp only
  split
  · rfl
  · rw [State.post_sched]
    rfl

/-- The place of its first entry in a capture is noted. -/
def Residency.capturedAt (r : Residency) (k : Nat) : Residency := { r with captAt := k }

theorem State.beginRun_goes {s : State} {n : Nat} {r : Residency} (h : s.findRes n = some r) :
    ∃ k e, s.beginRun n false = (s.capture n e).setRes (r.capturedAt k) :=
  ⟨_, _, by
    unfold State.beginRun
    rw [h]
    rfl⟩

theorem State.beginRun_cut {s : State} {n : Nat} {r : Residency} (h : s.findRes n = some r) :
    ∃ k e p d, s.beginRun n true = (((s.capture n e).setRes (r.capturedAt k)).post p).decideFault (r.capturedAt k) 8 d 0 0 :=
  ⟨_, _, _, _, by
    unfold State.beginRun
    rw [h]
    rfl⟩

section
variable {s : State} {l : List Residency} {r : Residency} (hs : s.sched.res = l ++ [r]) (hl : ∀ z ∈ l, z.num ≠ r.num)
include hs hl

theorem State.beginRun_goes_sched :
    ∃ k, (s.beginRun r.num false).sched.res = l ++ [r.capturedAt k] ∧ (s.beginRun r.num false).sched.loads = s.sched.loads ∧
      (s.beginRun r.num false).sched.picked = s.sched.picked := by
  obtain ⟨k, e, h⟩ := State.beginRun_goes (State.findRes_last hs hl)
  have hc := s.capture_sched r.num e
  rw [h]
  refine ⟨k, State.setRes_last (r := r) (by rw [hc, hs]) rfl hl, ?_, ?_⟩
  · exact (congrArg Sched.loads hc :)
  · exact (congrArg Sched.picked hc :)

theorem State.beginRun_cut_res :
    ∃ k d f, (s.beginRun r.num true).sched.res = l ++ [(r.capturedAt k).faulted 8 d 0 0 f] := by
  obtain ⟨k, e, p, d, h⟩ := State.beginRun_cut (State.findRes_last hs hl)
  have hset : ((s.capture r.num e).setRes (r.capturedAt k)).sched.res = l ++ [r.capturedAt k] :=
    State.setRes_last (r := r) (by rw [s.capture_sched, hs]) rfl hl
  rw [h]
  exact ⟨k, d, _, (State.decideFault_res ..).trans (State.setRes_last (r := r.capturedAt k) (by rw [State.post_sched, hset]) rfl hl)⟩

end

/-! ### Taking the record that is picked (R345, R347) -/

theorem State.readRun_standing (s : State) (c : Cand) : (s.readRun c).2.standing = s.standing := by
  unfold State.readRun
  split
  · rfl
  · rename_i a n _
    dsimp only
    split
    · rfl
    · have h1 := s.readSectors_accessed s.sched.got [a]
      split <;> rename_i e1 <;> rw [e1] at h1
      · exact h1.standing
      · rename_i got u
        have h2 := u.readSectors_accessed got (captSectors a n (sectorOf got a))
        split <;> rename_i e2 <;> rw [e2] at h2
        · exact (h1.trans h2).standing
        · exact (h1.trans h2).standing

theorem State.readRun_none {s : State} {c : Cand} (h : (c.d 0).getLsbD 27 = false) : s.readRun c = (some none, s) := by
  have hno : (s.mgmt.replay.find? fun e => e.1 == c.tag).filter (fun _ => (c.d 0).getLsbD 27) = none := by
    rw [h, Option.filter_eq_none_iff]
    exact fun _ _ => by decide
  unfold State.readRun
  rw [hno]

section
variable {s : State} {c : Cand} {x y : Nat} {l : List Nat} (hp : s.sched.picked = some (c, x, y, l))
include hp

theorem exec_launch_full (hf : 64 ≤ s.sched.buffer.length) : exec .launch s = .next s := by
  rw [exec_launch, execLaunch, hp]
  exact congrArg _ (if_pos (.inr (State.bufferFull_of_le hf)))

theorem exec_launch_reads (hk : c.kind = 0) (hf : s.sched.buffer.length < 64) :
    exec .launch s = .next (match s.readRun c with
      | (none, s) => s
      | (some run, s) => s.unpick.place c x y l run) := by
  rw [exec_launch, execLaunch, hp]
  exact congrArg _ (if_neg (by rw [hk, State.bufferFull_of_lt hf]; simp))

theorem exec_shadowLoad_found (hk : c.kind = 1) {r : Residency} (hr : (s.findRes c.target).filter Residency.running = some r) :
    exec .shadowLoad s = .next (s.unpick.newLoad r.num true c) := by
  rw [exec_shadowLoad, execShadowLoad, hp]
  dsimp only
  rw [if_neg (not_not.2 hk), hr]

theorem exec_shadowLoad_missing (hk : c.kind = 1) (hr : (s.findRes c.target).filter Residency.running = none) :
    exec .shadowLoad s = .next (s.unpick.completion c 9 0 0 0 0) := by
  rw [exec_shadowLoad, execShadowLoad, hp]
  dsimp only
  rw [if_neg (not_not.2 hk), hr]

theorem exec_stop_found (hk : c.kind = 2) {r : Residency} (hr : (s.findRes c.target).filter Residency.running = some r) :
    exec .stop s = .next ((if r.state = .committed then s.unpick.decideFault r 6 (r.eventHead 0x10 6 0) 0 0
      else s.unpick.decideDiscard r 3).completion c 0 0 0 0 0) := by
  rw [exec_stop, execStop, hp]
  dsimp only
  rw [if_neg (not_not.2 hk), hr]

theorem exec_stop_missing (hk : c.kind = 2) (hr : (s.findRes c.target).filter Residency.running = none) :
    exec .stop s = .next (s.unpick.completion c 9 0 0 0 0) := by
  rw [exec_stop, execStop, hp]
  dsimp only
  rw [if_neg (not_not.2 hk), hr]

theorem launch_replays (hk : c.kind = 0) (hf : s.sched.buffer.length < 64) :
    (∀ u, s.readRun c = (none, u) → exec .launch s = .next u ∧ u.sched.picked = s.sched.picked ∧ u.mem = s.mem) ∧
      ∀ cut run u, s.readRun c = (some (some (cut, run)), u) → ∃ (t : State) (r : Residency), exec .launch s = .next t ∧
        t.sched.res = s.sched.res ++ [r] ∧ r.replay = some run ∧ r.cand = c ∧ (cut = false → r.state = .loading) ∧
        (cut = true → r.state = .faulting ∧ r.reason = 8) := by
  have hexec := exec_launch_reads hp hk hf
  have hstand := s.readRun_standing c
  have hmem := s.readRun_mem c
  refine ⟨fun u hu => ?_, fun cut run u hu => ?_⟩
  · rw [hu] at hexec hstand hmem
    exact ⟨hexec, congrArg (·.2.1) hstand, hmem⟩
  · rw [hu] at hexec hstand
    have hres : u.unpick.sched.res = s.sched.res := congrArg (·.2.2.1) hstand
    obtain ⟨v, hv, hvres, -, -⟩ := u.unpick.place_begins c x y l (some (cut, run))
    obtain ⟨-, -, hfresh⟩ := u.unpick.launchNumber_fresh c
    rw [hres] at hvres hfresh
    dsimp only at hexec
    rw [hv] at hexec
    cases cut with
    | false =>
      obtain ⟨k, hgo, -, -⟩ := State.beginRun_goes_sched hvres hfresh
      exact ⟨_, _, hexec, hgo, rfl, rfl, fun _ => rfl, fun h => absurd h (by decide)⟩
    | true =>
      obtain ⟨k, d, f, hcut⟩ := State.beginRun_cut_res hvres hfresh
      exact ⟨_, _, hexec, hcut, rfl, rfl, fun h => absurd h (by decide), fun _ => ⟨rfl, rfl⟩⟩

theorem launch_loads (hk : c.kind = 0) (hf : s.sched.buffer.length < 64) (hno : (c.d 0).getLsbD 27 = false) :
    ∃ (t : State) (r : Residency) (j : LoadJob), exec .launch s = .next t ∧ t.sched.picked = none ∧ r.replay = none ∧
      t.sched.res = s.sched.res ++ [r] ∧ t.sched.loads = s.sched.loads ++ [j] ∧ r.num ≠ 0 ∧ r.num ≠ c.last ∧
      (∀ z ∈ s.sched.res, z.num ≠ r.num) ∧ r.cand = c ∧ r.x = x ∧ r.y = y ∧ r.banks = l ∧ r.state = .loading ∧
      j.resid = r.num ∧ j.shadow = false ∧ j.image = (c.d 1).toNat ∧ j.next = 0 := by
  have hexec := exec_launch_reads hp hk hf
  rw [State.readRun_none hno] at hexec
  obtain ⟨v, hv, hvres, hvloads, hvpicked⟩ := s.unpick.place_begins c x y l none
  obtain ⟨h0, hlast, hfresh⟩ := s.unpick.launchNumber_fresh c
  dsimp only at hexec
  rw [hv] at hexec
  obtain ⟨k, hres, hloads, hpicked⟩ := State.beginRun_goes_sched hvres hfresh
  exact ⟨_, _, _, hexec, hpicked.trans hvpicked, rfl, hres, hloads.trans hvloads, h0, hlast, hfresh, rfl, rfl, rfl, rfl, rfl, rfl, rfl,
    rfl, rfl⟩

theorem shadowLoad_claim (hk : c.kind = 1) (r : Residency) (hr : s.findRes c.target = some r) (hrun : r.running = true) :
    ∃ (t : State) (j : LoadJob), exec .shadowLoad s = .next t ∧
      t.mem = s.mem ∧ t.sched.picked = none ∧ t.sched.loads = s.sched.loads ++ [j] ∧ j.resid = r.num ∧ j.shadow = true ∧ j.cand = c := by
  have hf : (s.findRes c.target).filter Residency.running = some r := by rw [hr, Option.filter_some, if_pos hrun]
  exact ⟨_, _, exec_shadowLoad_found hp hk hf, rfl, rfl, rfl, rfl, rfl, rfl⟩

theorem stop_claim (hk : c.kind = 2) (r : Residency) (hr : s.findRes c.target = some r) :
    (r.state = .uncommitted → ∃ t, exec .stop s = .next t ∧ t.mem = s.mem ∧ Claims.decided t r.num .discarding 3) ∧
      (r.state = .committed → ∃ t, exec .stop s = .next t ∧ t.mem = s.mem ∧ Claims.decided t r.num .faulting 6) := by
  have hf (hrun : r.running = true) : (s.findRes c.target).filter Residency.running = some r := by
    rw [hr, Option.filter_some, if_pos hrun]
  have told {u : State} {st : ResState} {n : Nat} (h : Claims.decided u r.num st n) :
      Claims.decided (u.completion c 0 0 0 0 0) r.num st n := by
    obtain ⟨z, hz, hrest⟩ := h
    exact ⟨z, (State.completion_findRes ..).trans hz, hrest⟩
  refine ⟨fun hst => ?_, fun hst => ?_⟩
  · have hrun : r.running = true := by rw [Residency.running, hst]; rfl
    refine ⟨_, (exec_stop_found hp hk (hf hrun)).trans (by rw [if_neg (by rw [hst]; decide)]), ?_, told ?_⟩
    · exact State.completion_mem ..
    · exact s.unpick.decideDiscard_decided r _ 3 hr
  · have hrun : r.running = true := by rw [Residency.running, hst]; rfl
    refine ⟨_, (exec_stop_found hp hk (hf hrun)).trans (by rw [if_pos hst]), ?_, told ?_⟩
    · exact (State.completion_mem ..).trans (State.decideFault_mem ..)
    · exact s.unpick.decideFault_decided r _ 6 _ 0 0 hr

/-- R349: a record of a residency that does not run completes with status 0x09. -/
theorem missing_claim (hr : (s.findRes c.target).filter Residency.running = none) :
    ∃ t, (if c.kind = 1 then exec .shadowLoad s = .next t else c.kind = 2 → exec .stop s = .next t) ∧
      ((c.kind = 1 ∨ c.kind = 2) → ∃ e, t.sched.buffer = s.sched.buffer ++ [e] ∧ e.d0.extractLsb' 48 8 = 9) := by
  refine ⟨s.unpick.completion c 9 0 0 0 0, ?_, fun _ =>
    ⟨completionEvent c 9 0 0 0 0, State.completion_buffer c 9 0 0 0 0 s.unpick, completionEvent_status c 9 0 0 0 0⟩⟩
  split
  · next hk => exact exec_shadowLoad_missing hp hk hr
  · exact fun hk => exec_stop_missing hp hk hr

end

/-- Settles O48, with what a look at the queues leaves, and what a launch's steps leave of the scheduler. -/
theorem scheduling : Obligations.Scheduling :=
  ⟨placement_claim, overdue_claim, fun _ _ _ _ _ hp => ⟨fun _ => exec_launch_full hp, fun hk hf _ => launch_replays hp hk hf, launch_loads hp,
    shadowLoad_claim hp, stop_claim hp, fun _ => missing_claim hp⟩⟩

end Sys2Proof.Machine
